-- ==== Sys2Proof/Word.lean ====
section
/-! DEFINITION. Words, drops, digests and sparse tables: the plain types every other file uses. -/

namespace Sys2Proof

/-- One byte. -/
abbrev Byte := BitVec 8

/-- A run of bytes, lowest address first. -/
abbrev Bytes := List Byte

/-- The 64-byte unit of an on-chip channel (R49): byte `i` in bits `[8i+7:8i]`. -/
abbrev Drop := BitVec 512

/-- A 128-bit command word of an engine (R105, R113, R175). -/
abbrev CmdWord := BitVec 128

/-- An SM3 digest in SM3 byte order: digest byte `i` in bits `[8i+7:8i]` (R77). -/
abbrev Digest := BitVec 256

/-- A device address of R35. -/
abbrev DevAddr := BitVec 48

/-- A sparse table: keys strictly rising, no entry equal to the table's default. -/
abbrev Tbl (α : Type) := List (Nat × α)

/-- What host memory reads as during one command: listed bytes; every other byte reads 0.
Host memory is outside the device (R335), so its contents come with the command that reads it. -/
abbrev HostView := List (Nat × Byte)

end Sys2Proof
end

