-- ==== Sys2Proof/Syntax.lean ====
section
/-! DEFINITION. The commands the block takes: one constructor of `Instr` per row of spec/opcode_table.json, and the types of their operands. -/

namespace Sys2Proof

/-- A unit that counts strokes (R41, R183): scribe, engine tile, die mover. -/
inductive UnitRef where
  | scribe (core : BitVec 6)
  | tile (core : BitVec 6) (tile : BitVec 5)
  | mover (m : BitVec 3)
deriving DecidableEq, Repr

/-- The arm record of R264. -/
structure ArmRecord where
  job : BitVec 64
  firstStep : BitVec 64
  stopStep : BitVec 64
  epoch : BitVec 32
  periodNs : BitVec 32
  devices : BitVec 32
  mode : BitVec 8
deriving DecidableEq, Repr

/-- Body of OPEN_PLOT (R347). -/
structure OpenPlotBody where
  plot : BitVec 16
  flags : BitVec 16
  devices : BitVec 32
  position : BitVec 32
  dryMs : BitVec 32
  topo : BitVec 64
  topoLen : BitVec 32
  waitMs : BitVec 16
  servingIf : BitVec 16
  servCfg : BitVec 64
  topoDigest : Digest
deriving DecidableEq, Repr

/-- Body of ADMIT (R349). -/
structure AdmitBody where
  rid : BitVec 64
  seed : BitVec 128
  epoch : BitVec 32
  adapter : BitVec 32
  tenant : BitVec 16
  flags : BitVec 16
  prompt : BitVec 32
  maxTokens : BitVec 32
  stopToken : BitVec 32
  promptAddr : BitVec 64
  deadlineS : BitVec 64
  deadlineNs : BitVec 32
  sealLen : BitVec 32
  sealAddr : BitVec 64
deriving DecidableEq, Repr

/-- Body of LOAD_MANIFEST (R353). -/
structure ManifestBody where
  epoch : BitVec 32
  adapter : BitVec 32
  host : BitVec 64
  length : BitVec 32
  timeoutS : BitVec 32
  retain : BitVec 64
  retainLen : BitVec 64
  digest : Digest
deriving DecidableEq, Repr

/-- A mailbox command with its fields (R347, R349, R350, R353). `badCode` and `badField` are entries
whose CODE is not in R7, or whose unlisted bytes are not 0. -/
inductive MboxCmd where
  | openPlot (b : OpenPlotBody)
  | closePlot (flags : BitVec 8)
  | scrub
  | loadSheet (host : BitVec 64) (length : BitVec 32) (digest : Digest)
  | flipSheet
  | arm (digest : Digest) (rec : ArmRecord)
  | commit (sec : BitVec 64) (ns : BitVec 32)
  | admitReq (b : AdmitBody)
  | cancel (slot : BitVec 16) (rid : BitVec 64)
  | pause (slot : BitVec 16) (rid : BitVec 64)
  | resume (slot : BitVec 16) (rid : BitVec 64)
  | setDeadline (slot : BitVec 16) (rid : BitVec 64) (sec : BitVec 64) (ns : BitVec 32)
  | checkpoint (step : BitVec 64) (kind : BitVec 8) (addr len : BitVec 64)
  | restore (kind : BitVec 8) (addr len : BitVec 64) (digest : Digest)
  | timeSet (sec : BitVec 64) (ns : BitVec 32) (frac : BitVec 16)
  | timeAdjust (valid : BitVec 8) (incr offset : BitVec 64) (boundNs : BitVec 32) (servo : BitVec 8)
  | query (what : BitVec 16) (index : BitVec 64) (count : BitVec 32) (dest : BitVec 64) (len : BitVec 32)
  | blotterDrain (classes : BitVec 8) (dest : BitVec 64) (len : BitVec 32)
  | fencePort (port sub : BitVec 8)
  | unfencePort (port sub : BitVec 8)
  | loadManifest (b : ManifestBody)
  | loadBlock (epoch block : BitVec 32) (host : BitVec 64) (length : BitVec 32)
  | activateEpoch (epoch : BitVec 32) (mode : BitVec 8)
  | updateBegin (target : BitVec 8) (version length blocks : BitVec 32) (digest : Digest)
  | updateBlock (index : BitVec 32) (host : BitVec 64) (length : BitVec 32) (digest : Digest)
  | updateActivate (target : BitVec 8)
  | updateConfirm
  | attestQuote (nonce : Digest) (dest : BitVec 64) (len : BitVec 32)
  | debugGrant (host : BitVec 64) (length : BitVec 32)
  | badCode (code : BitVec 8)
  | badField (code : BitVec 8)
deriving DecidableEq, Repr

/-- One entry of the micro-batch lane table (R194). -/
structure LaneEntry where
  rid : BitVec 64
  seed : BitVec 128
  tokenIndex : BitVec 32
  input : BitVec 32
  inputOffset : BitVec 32
  stopToken : BitVec 32
  slot : BitVec 16
  tenant : BitVec 16
  adapter : BitVec 32
deriving DecidableEq, Repr

/-- A descriptor record (R193): header fields, 64 lane words, and the lane-table entries passed with it (R195).
Words and entries beyond the lists are IDLE and zero. -/
structure Descriptor where
  epoch : BitVec 32
  marker : Bool
  group : BitVec 8
  headStep : BitVec 64
  words : List (BitVec 64)
  lanes : List (Nat × LaneEntry)
deriving DecidableEq, Repr

/-- One note of R235. -/
structure NoteEntry where
  tag : BitVec 16
  emitted : BitVec 32
  sa : BitVec 64
  sb : BitVec 64
deriving DecidableEq, Repr

/-- The pass report of R235: notes by slot, and whether a step of the pass skipped, saturated or dropped a choice. -/
structure PassReport where
  notes : List (Nat × NoteEntry)
  skipped : Bool
  saturated : Bool
  dropped : Bool
deriving DecidableEq, Repr

/-- What a COMMIT grain of a serving plot brings along (R195, R235): no rule places it among the grain's bytes (log 20). -/
structure ServingCargo where
  record : Option Descriptor
  report : Option PassReport
deriving DecidableEq, Repr

/-- A grain on the wire (R297, R298): 8-byte header, 256-byte payload, CRC; a COMMIT grain's serving records beside it. -/
structure Grain where
  header : BitVec 64
  payload : BitVec 2048
  crc : BitVec 32
  cargo : Option ServingCargo := none
deriving DecidableEq, Repr

/-- A span frame as received (R295, R296); `fcsOk` is the verdict of the Ethernet frame check sequence,
`srcMac` the frame's source address. -/
structure SpanFrame where
  fcsOk : Bool
  srcMac : BitVec 48
  version : BitVec 8
  flags : BitVec 8
  grains : BitVec 8
  sub : BitVec 8
  ack : BitVec 32
  freed : BitVec 64
  body : List Grain
  /-- Destination MAC, VLAN of the 802.1Q tag if there is one, EtherType (R295). -/
  destMac : BitVec 48 := 0
  vlan : Option (BitVec 12) := none
  etherType : BitVec 16 := 0x88B5
deriving DecidableEq, Repr

/-- The payload of a HANDSHAKE grain (R290), with the source MAC address of its frame. -/
structure HandshakeMsg where
  deviceId : BitVec 64
  port : BitVec 8
  sub : BitVec 8
  mode : BitVec 8
  width : BitVec 8
  replayLevel : BitVec 8
  flags : BitVec 8
  plot : BitVec 16
  rxExpect : BitVec 32
  pool : BitVec 32
  res : BitVec 64
  txStart : BitVec 32
  mac : BitVec 48
deriving DecidableEq, Repr

/-- The header of a launch message (R263) less its TYPE. -/
structure LaunchHdr where
  tree : BitVec 8
  hops : BitVec 8
  origin : BitVec 32
  job : BitVec 64
  step : BitVec 64
deriving DecidableEq, Repr

/-- The fields of a launch message after its header, by TYPE (R263). -/
inductive LaunchBody where
  | census (tag : BitVec 64) (armed refused reasons firstRefused maxBound : BitVec 32)
  | digest (d : Digest)
  | commit (tag : BitVec 64) (sec : BitVec 64) (ns : BitVec 32)
  | endN (count : BitVec 32) (status : BitVec 8)
  | hold (port sub : BitVec 8) (dryMs : BitVec 32)
  | holdEnd (port sub : BitVec 8) (dryMs : BitVec 32) (outcome : BitVec 8)
  | staged (epoch adapter : BitVec 32)
deriving DecidableEq, Repr

/-- A launch message (R263). -/
structure LaunchMsg where
  hdr : LaunchHdr
  body : LaunchBody
deriving DecidableEq, Repr

/-- Common fields of a received PTP message (R256; IEEE 1588). -/
structure PtpHdr where
  domain : BitVec 8
  seq : BitVec 16
  sourceClock : BitVec 64
  sourcePort : BitVec 16
  correction : BitVec 64
  twoStep : Bool
  /-- Transport it came over (0 Ethernet, 1 UDP/IPv4, 2 UDP/IPv6) and the VLAN of its 802.1Q tag (R256). -/
  transport : BitVec 2 := 0
  vlan : Option (BitVec 12) := none
deriving DecidableEq, Repr

/-- A PTP time: seconds and nanoseconds. -/
structure PtpTime where
  sec : BitVec 48
  ns : BitVec 32
deriving DecidableEq, Repr

/-- The fields of an Announce message used for selection (R256). -/
structure PtpAnnounceBody where
  priority1 : BitVec 8
  quality : BitVec 32
  priority2 : BitVec 8
  gm : BitVec 64
  stepsRemoved : BitVec 16
  flags : BitVec 16
deriving DecidableEq, Repr

/-- What one DIMM slot answers at boot (R321-R324, R328): absent, or its data and what training gave. -/
structure DimmView where
  present : Bool
  shorted : Bool
  supported : Bool
  sizeGib : BitVec 9
  serial : BitVec 32
  maker : BitVec 16
  /-- Bit 0, 1, 2: training passes at 8,800, 8,000, 7,200 MT/s. -/
  trains : BitVec 3
deriving DecidableEq, Repr

/-- What one stack answers at boot (R318, R328). -/
structure StackView where
  high16 : Bool
  density32 : Bool
  trained : Bool
  badChannel : BitVec 6
  repairLeft : BitVec 8
deriving DecidableEq, Repr

/-- A unit that self-test finds failing (R366): KIND and the three UNIT words. -/
structure FailingUnit where
  kind : BitVec 8
  u0 : BitVec 32
  u1 : BitVec 32
  u2 : BitVec 32
deriving DecidableEq, Repr

/-- What the boot sequence meets outside the MP (R359, R369): the read modes that the flash's SFDP table declares (bit m: mode m of R359;
none where there is no table), the references, the host link's lanes, the memories, self-test, regulators and the boot time. -/
structure BootView where
  sfdpModes : Option (BitVec 4)
  refA : Bool
  refB : Bool
  hostLanes : BitVec 4
  stackTbl : List StackView
  dimms : List DimmView
  failing : List FailingUnit
  avsOk : Bool
  bootMs : BitVec 16
deriving DecidableEq, Repr

/-- Outcome of a patrol read (R330, R331). -/
inductive ReadOutcome where
  | clean
  | corrected
  | uncorrectable
deriving DecidableEq, Repr

/-- The commands of the block: one constructor per row of spec/opcode_table.json. -/
inductive Instr where
  -- matrix engine (R105): ruled core, tile in core, fields
  | matrixWait (c : BitVec 6) (j : BitVec 5) (n : BitVec 16)
  | mldw (c : BitVec 6) (j : BitVec 5) (bank : BitVec 1) (fmtW : BitVec 4) (src : BitVec 17)
  | manc (c : BitVec 6) (j : BitVec 5) (row0 : BitVec 6) (nr : BitVec 7) (fmtA fmtW : BitVec 4) (q : BitVec 8)
      (asrc wsrc : BitVec 17)
  | macc (c : BitVec 6) (j : BitVec 5) (row0 : BitVec 6) (nr : BitVec 7) (fmtA : BitVec 4) (bank : BitVec 1)
      (asrc : BitVec 17) (next : BitVec 1) (nfmt : BitVec 4) (nsrc : BitVec 17)
  | mwout (c : BitVec 6) (j : BitVec 5) (row0 : BitVec 6) (nr : BitVec 7) (fmtO : BitVec 4) (cols : BitVec 2)
      (aen : BitVec 1) (dst adst : BitVec 17)
  | mwexp (c : BitVec 6) (j : BitVec 5) (row0 : BitVec 6) (nr : BitVec 7) (dst : BitVec 17)
  | mwadd (c : BitVec 6) (j : BitVec 5) (row0 : BitVec 6) (nr : BitVec 7) (src : BitVec 17)
  -- vector engine (R113)
  | vectorWait (c : BitVec 6) (j : BitVec 5) (n : BitVec 16)
  | vop (c : BitVec 6) (j : BitVec 5) (op : BitVec 6) (ty : BitVec 2) (vd va vb vc : BitVec 6) (km : BitVec 3)
  | vfn (c : BitVec 6) (j : BitVec 5) (fn : BitVec 3) (ti tt : BitVec 2) (vd va : BitVec 6) (km : BitVec 3)
  | vcmp (c : BitVec 6) (j : BitVec 5) (cmp : BitVec 3) (ty : BitVec 2) (kd : BitVec 3) (va vb : BitVec 6) (km : BitVec 3)
  | vsel (c : BitVec 6) (j : BitVec 5) (vd va vb : BitVec 6) (ks : BitVec 3)
  | vkop (c : BitVec 6) (j : BitVec 5) (kop : BitVec 2) (kd ka kb : BitVec 3)
  | vimm (c : BitVec 6) (j : BitVec 5) (vd : BitVec 6) (imm : BitVec 32) (km : BitVec 3)
  | viota (c : BitVec 6) (j : BitVec 5) (vd : BitVec 6) (base : BitVec 32)
  | vcvt (c : BitVec 6) (j : BitVec 5) (ti tt : BitVec 3) (vd va : BitVec 6) (km : BitVec 3)
  | vld (c : BitVec 6) (j : BitVec 5) (vd : BitVec 6) (ty : BitVec 2) (src : BitVec 17)
  | vst (c : BitVec 6) (j : BitVec 5) (va : BitVec 6) (ty : BitVec 2) (dst : BitVec 17) (km : BitVec 3)
  | vldx (c : BitVec 6) (j : BitVec 5) (vd vx : BitVec 6) (base : BitVec 17) (limit : BitVec 16)
  | vstx (c : BitVec 6) (j : BitVec 5) (va vx : BitVec 6) (base : BitVec 17) (limit : BitVec 16)
  | vldq (c : BitVec 6) (j : BitVec 5) (vd : BitVec 6) (nr : BitVec 5) (kc : BitVec 1) (fmt : BitVec 4) (src : BitVec 17)
  | vqnt (c : BitVec 6) (j : BitVec 5) (va : BitVec 6) (nr : BitVec 5) (kc : BitVec 1) (fmtO : BitVec 4) (row0 vx : BitVec 6)
      (dst : BitVec 17)
  | vlda (c : BitVec 6) (j : BitVec 5) (vd : BitVec 6) (src : BitVec 17)
  | vsta (c : BitVec 6) (j : BitVec 5) (va : BitVec 6) (dst : BitVec 17)
  | vwanc (c : BitVec 6) (j : BitVec 5) (row : BitVec 3) (mode bc : BitVec 1) (vx vy : BitVec 6)
  | vrsum (c : BitVec 6) (j : BitVec 5) (row : BitVec 3) (dir : BitVec 1) (ty : BitVec 2) (va : BitVec 6) (km : BitVec 3)
  | vrdot (c : BitVec 6) (j : BitVec 5) (row : BitVec 3) (dir : BitVec 1) (ty : BitVec 2) (va vb : BitVec 6) (km : BitVec 3)
  | vwout (c : BitVec 6) (j : BitVec 5) (vd : BitVec 6) (row : BitVec 3) (ty : BitVec 2) (km : BitVec 3)
  | vwexp (c : BitVec 6) (j : BitVec 5) (row : BitVec 3) (dst : BitVec 17)
  | vwadd (c : BitVec 6) (j : BitVec 5) (row : BitVec 3) (src : BitVec 17)
  | vanch (c : BitVec 6) (j : BitVec 5) (vd va : BitVec 6) (ty : BitVec 2) (hm mg : BitVec 1) (km : BitVec 3)
  | vrmax (c : BitVec 6) (j : BitVec 5) (vd va : BitVec 6) (ty : BitVec 2) (km : BitVec 3)
  | vtopk (c : BitVec 6) (j : BitVec 5) (lv li va vi : BitVec 6) (k : BitVec 9) (init : BitVec 1) (km : BitVec 3)
  | vsamp (c : BitVec 6) (j : BitVec 5) (vd lv li vp : BitVec 6) (k : BitVec 9)
  | vrng (c : BitVec 6) (j : BitVec 5) (vd vt vq vs : BitVec 6) (stream : BitVec 16) (wd : BitVec 1)
  | vdisp (c : BitVec 6) (j : BitVec 5) (vs vf ve vcap : BitVec 6) (nc : BitVec 4) (nt : BitVec 9) (cont : BitVec 1)
  -- transfer engine (R175) and die mover (R183)
  | transferWait (c : BitVec 6) (j : BitVec 5) (n : BitVec 16)
  | xmov (c : BitVec 6) (j : BitVec 5) (set : BitVec 3) (flip : BitVec 1) (rows : BitVec 16) (drops : BitVec 20)
      (soff doff : BitVec 32) (done : BitVec 1) (cport : BitVec 4)
  | xreg (c : BitVec 6) (j : BitVec 5) (reg : BitVec 8) (value : BitVec 64)
  | xflip (c : BitVec 6) (j : BitVec 5) (mask : BitVec 8)
  | moverRead (m : BitVec 3)
  | moverWrite (m : BitVec 3)
  -- scribe (R143)
  | scribeWait (c : BitVec 6) (n : BitVec 16)
  | alu (c : BitVec 6) (op : BitVec 4) (gd : BitVec 5) (sa sb : BitVec 7)
  | alui (c : BitVec 6) (op : BitVec 4) (gd : BitVec 5) (sa : BitVec 7) (imm : BitVec 32)
  | movi (c : BitVec 6) (gd : BitVec 5) (imm : BitVec 48)
  | ld (c : BitVec 6) (gd : BitVec 5) (sa : BitVec 7) (off : BitVec 20) (w : BitVec 3)
  | st (c : BitVec 6) (ss sa : BitVec 7) (off : BitVec 20) (w : BitVec 3)
  | ldc (c : BitVec 6) (gd : BitVec 5) (idx : BitVec 16)
  | jmp (c : BitVec 6) (target : BitVec 24)
  | br (c : BitVec 6) (cond : BitVec 3) (sa sb : BitVec 7) (target : BitVec 24)
  | lset (c : BitVec 6) (lk : BitVec 3) (sa : BitVec 7) (imm : BitVec 32)
  | lend (c : BitVec 6) (lk : BitVec 3) (target : BitVec 24)
  | endOp (c : BitVec 6)
  | push (c : BitVec 6) (j : BitVec 5) (tpl : BitVec 14) (sa sb sc : BitVec 7)
  | pushr (c : BitVec 6) (j ga : BitVec 5)
  | xwr (c : BitVec 6) (x : BitVec 2) (reg : BitVec 8) (sa : BitVec 7)
  | csend (c : BitVec 6) (port : BitVec 4) (ga : BitVec 5)
  | cwait (c : BitVec 6) (port : BitVec 4) (n : BitVec 16)
  | tread (c : BitVec 6) (od : BitVec 3) (what : BitVec 2)
  | note (c : BitVec 6) (dest : BitVec 1) (tag : BitVec 16) (sa sb : BitVec 7)
  | waitResume (u : UnitRef)
  -- the step (R65-R77, R159)
  | launchTick
  | localEnd
  | stepCommit
  | stepBoundary (host : HostView)
  | epochReloadDone
  | stepVoid (addr : DevAddr)
  | stepReexecute
  | memoryUncorrectable (addr : DevAddr) (requester : BitVec 8) (index : BitVec 32)
  | watchdogExpiry
  -- launch messages (R263-R274): sub-port they came by, header, fields
  | census (port : BitVec 6) (sub : BitVec 3) (h : LaunchHdr) (tag : BitVec 64)
      (armed refused reasons firstRefused maxBound : BitVec 32)
  | censusWaitExpiry (tree : BitVec 1)
  | digest (port : BitVec 6) (sub : BitVec 3) (h : LaunchHdr) (d : Digest)
  | commitMessage (port : BitVec 6) (sub : BitVec 3) (h : LaunchHdr) (tag sec : BitVec 64) (ns : BitVec 32)
  | endNotice (port : BitVec 6) (sub : BitVec 3) (h : LaunchHdr) (count : BitVec 32) (status : BitVec 8)
  | hold (port : BitVec 6) (sub : BitVec 3) (h : LaunchHdr) (hport hsub : BitVec 8) (dryMs : BitVec 32)
  | holdEnd (port : BitVec 6) (sub : BitVec 3) (h : LaunchHdr) (hport hsub : BitVec 8) (dryMs : BitVec 32) (outcome : BitVec 8)
  | holdLapse (origin : BitVec 32) (step : BitVec 64) (hport hsub : BitVec 8)
  | staged (port : BitVec 6) (sub : BitVec 3) (h : LaunchHdr) (epoch adapter : BitVec 32)
  | armExpiry
  -- timebase and PTP (R245-R260)
  | timeSetLoad
  | phaseStepApply
  | tbaseNowRead
  | refFail (ref : BitVec 1)
  | refPass (ref : BitVec 1)
  | holdoverBoundTick
  | regionStopEnd (region : BitVec 5) (ns : BitVec 32)
  | ppsInEdge
  | ppsStuck
  | ppsOutSecond
  | ppsOutFall
  | ptpSync (port : BitVec 6) (sub : BitVec 3) (h : PtpHdr) (origin : PtpTime)
  | ptpFollowUp (port : BitVec 6) (sub : BitVec 3) (h : PtpHdr) (origin : PtpTime)
  | ptpDelayReq (port : BitVec 6) (sub : BitVec 3) (h : PtpHdr)
  | ptpDelayResp (port : BitVec 6) (sub : BitVec 3) (h : PtpHdr) (receive : PtpTime) (reqClock : BitVec 64) (reqPort : BitVec 16)
  | ptpPdelayReq (port : BitVec 6) (sub : BitVec 3) (h : PtpHdr)
  | ptpPdelayResp (port : BitVec 6) (sub : BitVec 3) (h : PtpHdr) (receipt : PtpTime) (reqClock : BitVec 64) (reqPort : BitVec 16)
  | ptpPdelayRespFollowUp (port : BitVec 6) (sub : BitVec 3) (h : PtpHdr) (origin : PtpTime) (reqClock : BitVec 64)
      (reqPort : BitVec 16)
  | ptpAnnounce (port : BitVec 6) (sub : BitVec 3) (h : PtpHdr) (b : PtpAnnounceBody)
  | ptpUnsupported (port : BitVec 6) (sub : BitVec 3)
  | ptpSyncTimer (port : BitVec 6) (sub : BitVec 3)
  | ptpDelayReqTimer (port : BitVec 6) (sub : BitVec 3)
  | ptpAnnounceTimer (port : BitVec 6) (sub : BitVec 3)
  -- pace controller (R279-R282)
  | paceFreeUpdate
  | avsReadback (answers : BitVec 4) (powerW : BitVec 16) (tjC : BitVec 8)
  -- span ports (R283-R316)
  | trainingComplete (port : BitVec 6) (sub : BitVec 3) (ok reversed : Bool) (termFault inverted : BitVec 8)
  | penHolderWaitExpiry (port : BitVec 6) (sub : BitVec 3)
  | handshake (port : BitVec 6) (sub : BitVec 3) (m : HandshakeMsg)
  | handshakeTimer (port : BitVec 6) (sub : BitVec 3)
  | laneFault (port : BitVec 6) (sub : BitVec 3) (lanes : BitVec 8)
  | narrowReq (port : BitVec 6) (sub : BitVec 3) (lanes : BitVec 8)
  | narrow (port : BitVec 6) (sub : BitVec 3) (lanes width : BitVec 8) (opNum : BitVec 32)
  | narrowDone (port : BitVec 6) (sub : BitVec 3) (opNum rxExpect : BitVec 32)
  | linkRetrain (port : BitVec 6) (sub : BitVec 3)
  | widenReq (port : BitVec 6) (sub : BitVec 3) (lanes : BitVec 8)
  | linkOpRepeatTimer (port : BitVec 6) (sub : BitVec 3)
  | realignDone (port : BitVec 6) (sub : BitVec 3) (ok : Bool)
  | retrain (port : BitVec 6) (sub : BitVec 3)
  | widen (port : BitVec 6) (sub : BitVec 3)
  | spanFrame (port : BitVec 6) (sub : BitVec 3) (f : SpanFrame)
  | data (port : BitVec 6) (sub : BitVec 3) (chan : BitVec 12) (drops : List Drop)
  | commitGrain (port : BitVec 6) (sub : BitVec 3) (chan : BitVec 12) (step count : BitVec 64) (rec : Option Descriptor)
      (report : Option PassReport)
  | void (port : BitVec 6) (sub : BitVec 3) (chan : BitVec 12) (step : BitVec 64) (attempt : BitVec 8)
  | credit (port : BitVec 6) (sub : BitVec 3) (entries : List (BitVec 32))
  | launch (port : BitVec 6) (sub : BitVec 3) (payload : BitVec 2048)
  | telemetry (port : BitVec 6) (sub : BitVec 3) (payload : BitVec 2048)
  | bulkStart (port : BitVec 6) (sub : BitVec 3) (epoch block length : BitVec 32)
  | bulkData (port : BitVec 6) (sub : BitVec 3) (payload : BitVec 2048)
  | bulkAck (port : BitVec 6) (sub : BitVec 3) (epoch block : BitVec 32)
  | bulkNack (port : BitVec 6) (sub : BitVec 3) (epoch block position : BitVec 32)
  | frameSend (port : BitVec 6) (sub : BitVec 3)
  | ackTimer (port : BitVec 6) (sub : BitVec 3)
  | replayTimer (port : BitVec 6) (sub : BitVec 3)
  | replayCaughtUp (port : BitVec 6) (sub : BitVec 3)
  | flushTimer (port : BitVec 6) (sub : BitVec 3) (chan : BitVec 12)
  | keepaliveTimer (port : BitVec 6) (sub : BitVec 3)
  | keepaliveExpiry (port : BitVec 6) (sub : BitVec 3)
  | linkDown (port : BitVec 6) (sub : BitVec 3)
  | linkUp (port : BitVec 6) (sub : BitVec 3)
  | dryTimeExpiry (port : BitVec 6) (sub : BitVec 3)
  | fencePort (ring : BitVec 4) (port sub : BitVec 8)
  | unfencePort (ring : BitVec 4) (port sub : BitVec 8)
  -- memories (R317-R333)
  | stackStepDown (stack : BitVec 3) (tempC : BitVec 8)
  | stackStepUp (stack : BitVec 3) (tempC : BitVec 8)
  | ddrThermal (m : BitVec 3)
  | ddrRetrain (m : BitVec 3) (ok : Bool)
  | patrolRead (addr : DevAddr) (outcome : ReadOutcome)
  | rateReq (m : BitVec 3) (rate : BitVec 2)
  -- host link and mailboxes (R334-R346)
  | hostLinkDown
  | hostLinkUp (width : BitVec 4)
  | linkTimeout (ring : BitVec 4) (seq : BitVec 32)
  | hostWritePacket (addr : DevAddr) (data : Bytes)
  | hostAccess (write : Bool) (addr : DevAddr) (data : Bytes) (uncorrectable : Bool)
  | doorbell (ring : BitVec 4) (tail : BitVec 32) (host : HostView)
  | ringWaitResume (ring : BitVec 4) (host : HostView)
  | irqClear (mask : BitVec 32)
  | openPlot (ring : BitVec 4) (b : OpenPlotBody) (host : HostView)
  | closePlot (ring : BitVec 4) (flags : BitVec 8)
  | scrub (ring : BitVec 4)
  | scrubComplete (ms : BitVec 32) (badChannel : Option (BitVec 3))
  | loadSheet (ring : BitVec 4) (host : BitVec 64) (length : BitVec 32) (digest : Digest)
  | loadSheetComplete (host : HostView)
  | flipSheet (ring : BitVec 4)
  | arm (ring : BitVec 4) (digest : Digest) (rec : ArmRecord)
  | commit (ring : BitVec 4) (sec : BitVec 64) (ns : BitVec 32)
  | admitReq (ring : BitVec 4) (b : AdmitBody)
  | cancel (ring : BitVec 4) (slot : BitVec 16) (rid : BitVec 64)
  | pause (ring : BitVec 4) (slot : BitVec 16) (rid : BitVec 64)
  | resume (ring : BitVec 4) (slot : BitVec 16) (rid : BitVec 64)
  | setDeadline (ring : BitVec 4) (slot : BitVec 16) (rid sec : BitVec 64) (ns : BitVec 32)
  | evictTimer (slot : BitVec 13)
  | drainLimitExpiry
  | sealSigned (slot : BitVec 13)
  | checkpoint (ring : BitVec 4) (step : BitVec 64) (kind : BitVec 8) (addr len : BitVec 64)
  | checkpointWritten
  | restore (ring : BitVec 4) (kind : BitVec 8) (addr len : BitVec 64) (digest : Digest)
  | timeSet (ring : BitVec 4) (sec : BitVec 64) (ns : BitVec 32) (frac : BitVec 16)
  | timeAdjust (ring : BitVec 4) (valid : BitVec 8) (incr offset : BitVec 64) (boundNs : BitVec 32) (servo : BitVec 8)
  | query (ring : BitVec 4) (what : BitVec 16) (index : BitVec 64) (count : BitVec 32) (dest : BitVec 64) (len : BitVec 32)
  | blotterDrain (ring : BitVec 4) (classes : BitVec 8) (dest : BitVec 64) (len : BitVec 32)
  | loadManifest (ring : BitVec 4) (b : ManifestBody)
  | manifestTimeout (epoch adapter : BitVec 32)
  | loadBlock (ring : BitVec 4) (epoch block : BitVec 32) (host : BitVec 64) (length : BitVec 32)
  | activateEpoch (ring : BitVec 4) (epoch : BitVec 32) (mode : BitVec 8)
  | updateBegin (ring : BitVec 4) (target : BitVec 8) (version length blocks : BitVec 32) (digest : Digest)
  | updateBlock (ring : BitVec 4) (index : BitVec 32) (host : BitVec 64) (length : BitVec 32) (digest : Digest)
  | updateActivate (ring : BitVec 4) (target : BitVec 8)
  | updateConfirm (ring : BitVec 4)
  | firmwareReady (target : BitVec 2)
  | trialReadyTimeout (target : BitVec 2)
  | attestQuote (ring : BitVec 4) (nonce : Digest) (dest : BitVec 64) (len : BitVec 32)
  | debugGrant (ring : BitVec 4) (addr : BitVec 64) (length : BitVec 32) (host : HostView)
  | grantExpiry
  | saltWrite (tenant : BitVec 12) (salt : BitVec 256)
  -- bedrock mode (R372-R374)
  | bedrockBegin (item : BitVec 4)
  | bedrockChunk (item : BitVec 4)
  | bedrockEnd (item : BitVec 4)
  | bedrockRestart
  -- blotter, telemetry and management (R382-R400)
  | coalesceWindowClose (cls : BitVec 3) (cause : BitVec 8) (locator : BitVec 64)
  | alarmClear (mask : BitVec 8)
  | clearCounts
  | telemetryFlushTimer
  | setdasa (static dynamic : BitVec 7)
  | setEndpointId (eid : BitVec 8)
  | getEndpointId
  | getMctpVersionSupport (msgType : BitVec 8)
  | getMessageTypeSupport
  | getVendorDefinedMessageSupport (selector : BitVec 8)
  | mctpRead
  | mctpCounts (cls : BitVec 3)
  | mctpStatus
  -- debug port (R420-R431)
  | tapGrant (grant : Bytes)
  | xferRead (addr : DevAddr)
  | xferWrite (addr : DevAddr) (value : BitVec 64)
  | extest (pins : List Bool)
  | tapReset
  | debugHalt (reach : BitVec 2) (core : BitVec 6)
  | debugResume (reach : BitVec 2) (core : BitVec 6)
  | debugStep (core : BitVec 6) (tile : BitVec 5) (kind : BitVec 1)
  | haltDryExpiry
  | registerWrite (offset : BitVec 26) (value : BitVec 256)
  -- power and reset (R432-R448), self-test and controllers
  | powerUp
  | pwrgoodAssert
  | resetNRelease (v : BootView)
  | referenceWaitAlert
  | warmReset
  | pwrgoodFall
  | railFault (rail : BitVec 4)
  | thermalTrip (sensor : BitVec 8) (tempC : BitVec 8)
  | openPlotWaitExpiry
  | restoreComplete (host : HostView)
  | hostReadComplete (ring : BitVec 4) (seq : BitVec 32) (host : HostView)
  | controllerLost (target : BitVec 2) (die : BitVec 2)
  | selfTest (failing : List FailingUnit)
deriving DecidableEq, Repr

end Sys2Proof
end

