-- ==== Sys2Proof/Decode.lean ====
section
/-! DEFINITION. The words of the opcode table: no row of spec/opcode_table.json gives a command bits, so no word spells one. -/

namespace Sys2Proof

/-- The command that an `nbits`-bit word `w` spells by the table's bits: every row's `fields` is empty, so none (log 2). -/
def decodeTableWord (_nbits _w : Nat) : Option Instr := none

end Sys2Proof
end

