-- ==== Sys2Proof/Machine/Table.lean ====
section
/-! DEFINITION. Sparse tables in canonical form (keys strictly rising, no entry at the default) and runs of bytes over them. -/

namespace Sys2Proof.Machine

/-- The value at key `k`; `d` where the table lists none. -/
def tget {α : Type} (d : α) : Tbl α → Nat → α
  | [], _ => d
  | (k, v) :: t, i => if k = i then v else if i < k then d else tget d t i

/-- The table without an entry at `i`. -/
def tdel {α : Type} : Tbl α → Nat → Tbl α
  | [], _ => []
  | (k, v) :: t, i => if k = i then t else if i < k then (k, v) :: t else (k, v) :: tdel t i

/-- The table with `v` listed at `i`. -/
def tput {α : Type} : Tbl α → Nat → α → Tbl α
  | [], i, v => [(i, v)]
  | (k, w) :: t, i, v =>
    if k = i then (i, v) :: t else if i < k then (i, v) :: (k, w) :: t else (k, w) :: tput t i v

/-- The table that reads `v` at `i`: writing the default removes the entry. -/
def tset {α : Type} [DecidableEq α] (d : α) (t : Tbl α) (i : Nat) (v : α) : Tbl α :=
  if v = d then tdel t i else tput t i v

/-- The table with `f` applied to the value at `i`. -/
def tmod {α : Type} [DecidableEq α] (d : α) (t : Tbl α) (i : Nat) (f : α → α) : Tbl α :=
  tset d t i (f (tget d t i))

/-- Keys strictly rising from `lo` on. -/
def keysRise {α : Type} : Nat → Tbl α → Bool
  | _, [] => true
  | lo, (k, _) :: t => decide (lo ≤ k) && keysRise (k + 1) t

/-- The canonical form: keys strictly rising, no entry equal to the default. -/
def twf {α : Type} [DecidableEq α] (d : α) (t : Tbl α) : Bool :=
  keysRise 0 t && t.all fun e => decide (e.2 ≠ d)

/-- `n` bytes from address `a` on. -/
def readRun (d : Byte) (t : Tbl Byte) (a : Nat) : Nat → Bytes
  | 0 => []
  | n + 1 => tget d t a :: readRun d t (a + 1) n

/-- The table with bytes `bs` from address `a` on. -/
def writeRun (d : Byte) (t : Tbl Byte) (a : Nat) : Bytes → Tbl Byte
  | [] => t
  | b :: bs => writeRun d (tset d t a b) (a + 1) bs

/-- The table with every byte of `[a, a + n)` at the default. -/
def clearRun (t : Tbl Byte) (a n : Nat) : Tbl Byte :=
  t.filter fun e => decide (e.1 < a ∨ a + n ≤ e.1)

/-! ### Little-endian values (R3) -/

/-- The number a run of bytes spells, lowest byte first. -/
def leNat : Bytes → Nat
  | [] => 0
  | b :: bs => b.toNat + 256 * leNat bs

/-- `n` bytes of a number, lowest first. -/
def natLe : Nat → Nat → Bytes
  | 0, _ => []
  | n + 1, v => BitVec.ofNat 8 v :: natLe n (v / 256)

/-- The bytes of a word of `8 n` bits, lowest first. -/
def bytesOf (n : Nat) {w : Nat} (v : BitVec w) : Bytes := natLe n v.toNat

/-- The word of width `w` that bytes spell. -/
def wordOf (w : Nat) (bs : Bytes) : BitVec w := BitVec.ofNat w (leNat bs)

/-- `n` bytes from offset `o` of a run; bytes beyond its end read 0. -/
def slice (bs : Bytes) (o n : Nat) : Bytes :=
  let r := (bs.drop o).take n
  r ++ List.replicate (n - r.length) 0

/-- The little-endian field of `n` bytes at offset `o`. -/
def fieldAt (w : Nat) (bs : Bytes) (o n : Nat) : BitVec w := wordOf w (slice bs o n)

/-- Bits `[hi:lo]` of a number. -/
def bitsOf (v hi lo : Nat) : Nat := v / 2 ^ lo % 2 ^ (hi + 1 - lo)

/-- Drops of a run of bytes: 64 bytes each, the last filled with 0. -/
def dropsOf : Nat → Bytes → List Drop
  | 0, _ => []
  | n + 1, bs => fieldAt 512 bs 0 64 :: dropsOf n (bs.drop 64)

/-- The bytes of drops, in order. -/
def bytesOfDrops (ds : List Drop) : Bytes := ds.flatMap (bytesOf 64)

end Sys2Proof.Machine
end

