-- ==== Sys2Proof/Machine/Digest.lean ====
section
/-! DEFINITION. The two check functions the manual fixes bit by bit: CRC-32C (R298) and SM3 (R77, R205; GB/T 32905). -/

namespace Sys2Proof.Machine

/-! ### CRC-32C (R298) -/

/-- `n` reflected shifts of the register. -/
def crcShift : Nat → Nat → Nat
  | 0, c => c
  | n + 1, c => crcShift n (if c % 2 = 1 then (c / 2) ^^^ 0x82F63B78 else c / 2)

/-- The register after the bytes. -/
def crcRun : Nat → Bytes → Nat
  | c, [] => c
  | c, b :: bs => crcRun (crcShift 8 (c ^^^ b.toNat)) bs

/-- CRC-32C of R298. -/
def crc32c (bs : Bytes) : BitVec 32 := BitVec.ofNat 32 (crcRun 0xFFFFFFFF bs ^^^ 0xFFFFFFFF)

/-! ### SM3 -/

/-- Rotation of a 32-bit number to the left. -/
def rotl32 (x n : Nat) : Nat := let k := n % 32; (x * 2 ^ k + x / 2 ^ (32 - k)) % 2 ^ 32

/-- Sum modulo 2³². -/
def add32 (x y : Nat) : Nat := (x + y) % 2 ^ 32

/-- Complement of a 32-bit number. -/
def not32 (x : Nat) : Nat := 2 ^ 32 - 1 - x % 2 ^ 32

/-- P₀ of SM3. -/
def sm3P0 (x : Nat) : Nat := x ^^^ rotl32 x 9 ^^^ rotl32 x 17

/-- P₁ of SM3. -/
def sm3P1 (x : Nat) : Nat := x ^^^ rotl32 x 15 ^^^ rotl32 x 23

/-- The expanded words of a block, newest first: `n` more on top of `r`. -/
def sm3Expand : Nat → List Nat → List Nat
  | 0, r => r
  | n + 1, r =>
    let w := sm3P1 (r.getD 15 0 ^^^ r.getD 8 0 ^^^ rotl32 (r.getD 2 0) 15) ^^^ rotl32 (r.getD 12 0) 7 ^^^ r.getD 5 0
    sm3Expand n (w :: r)

/-- The eight words of the chaining value. -/
structure Sm3Reg where
  a : Nat
  b : Nat
  c : Nat
  d : Nat
  e : Nat
  f : Nat
  g : Nat
  h : Nat
deriving DecidableEq, Repr

/-- Round `j` with words W_j and W_{j+4}. -/
def sm3Round (j w w4 : Nat) (r : Sm3Reg) : Sm3Reg :=
  let t := if j < 16 then 0x79CC4519 else 0x7A879D8A
  let a12 := rotl32 r.a 12
  let ss1 := rotl32 (add32 (add32 a12 r.e) (rotl32 t j)) 7
  let ss2 := ss1 ^^^ a12
  let ff := if j < 16 then r.a ^^^ r.b ^^^ r.c else (r.a &&& r.b) ||| (r.a &&& r.c) ||| (r.b &&& r.c)
  let gg := if j < 16 then r.e ^^^ r.f ^^^ r.g else (r.e &&& r.f) ||| (not32 r.e &&& r.g)
  let tt1 := add32 (add32 (add32 ff r.d) ss2) (w ^^^ w4)
  let tt2 := add32 (add32 (add32 gg r.h) ss1) w
  { a := tt1, b := r.a, c := rotl32 r.b 9, d := r.c, e := sm3P0 tt2, f := r.e, g := rotl32 r.f 19, h := r.g }

/-- The rounds from `j` on over the words left. -/
def sm3Rounds : Nat → Nat → List Nat → Sm3Reg → Sm3Reg
  | 0, _, _, r => r
  | n + 1, j, ws, r => sm3Rounds n (j + 1) ws.tail (sm3Round j (ws.getD 0 0) (ws.getD 4 0) r)

/-- Big-endian words of a block. -/
def beWords : Nat → Bytes → List Nat
  | 0, _ => []
  | n + 1, bs =>
    ((bs.getD 0 0).toNat * 16777216 + (bs.getD 1 0).toNat * 65536 + (bs.getD 2 0).toNat * 256 + (bs.getD 3 0).toNat)
      :: beWords n (bs.drop 4)

/-- The compression function on one 64-byte block. -/
def sm3Block (v : Sm3Reg) (blk : Bytes) : Sm3Reg :=
  let ws := (sm3Expand 52 (beWords 16 blk).reverse).reverse
  let r := sm3Rounds 64 0 ws v
  { a := r.a ^^^ v.a, b := r.b ^^^ v.b, c := r.c ^^^ v.c, d := r.d ^^^ v.d,
    e := r.e ^^^ v.e, f := r.f ^^^ v.f, g := r.g ^^^ v.g, h := r.h ^^^ v.h }

/-- The compression over `n` blocks. -/
def sm3Blocks : Nat → Sm3Reg → Bytes → Sm3Reg
  | 0, v, _ => v
  | n + 1, v, bs => sm3Blocks n (sm3Block v (bs.take 64)) (bs.drop 64)

/-- The initial value. -/
def sm3Init : Sm3Reg :=
  { a := 0x7380166F, b := 0x4914B2B9, c := 0x172442D7, d := 0xDA8A0600,
    e := 0xA96F30BC, f := 0x163138AA, g := 0xE38DEE4D, h := 0xB0FB0E4E }

/-- `n` big-endian bytes of a number. -/
def natBe (n v : Nat) : Bytes := (natLe n v).reverse

/-- The padded message: a 1 bit, zeros, and the bit length in 64 bits. -/
def sm3Pad (bs : Bytes) : Bytes :=
  let n := bs.length
  bs ++ 0x80 :: List.replicate ((119 - n % 64) % 64) 0 ++ natBe 8 (8 * n)

/-- SM3 digest bytes in SM3 byte order. -/
def sm3Bytes (bs : Bytes) : Bytes :=
  let p := sm3Pad bs
  let r := sm3Blocks (p.length / 64) sm3Init p
  natBe 4 r.a ++ natBe 4 r.b ++ natBe 4 r.c ++ natBe 4 r.d ++ natBe 4 r.e ++ natBe 4 r.f ++ natBe 4 r.g ++ natBe 4 r.h

/-- SM3 as a word: digest byte `i` in bits `[8i+7:8i]` (R77). -/
def sm3 (bs : Bytes) : Digest := wordOf 256 (sm3Bytes bs)

end Sys2Proof.Machine
end

