-- ==== Sys2Proof/Config.lean ====
section
/-! DEFINITION. What the manual leaves open: constants with no body, so that nothing can be proved of their values. -/

namespace Sys2Proof.Config

/-- The `n`-th free value drawn by the device, read as an unsigned number (log 6). -/
opaque freeNat : Nat → Nat

/-- The `n`-th free value, as a word of `w` bits. -/
def freeBits (w n : Nat) : BitVec w := BitVec.ofNat w (freeNat n)

/-- The 256-bit secret K that the ROM reconstructs from a PUF response and the helper data, if it can (R363; log 8). -/
opaque rebuildSecret : BitVec 131072 → Bytes → Option Digest

/-- The SM2 public key of a private key, as the bytes whose SM3 digest R363 checks (log 8). -/
opaque publicKey : Digest → Bytes

/-- SM2 signature by a private key over a message (R234, R416; GB/T 32918.2, outside the manual; log 8). -/
opaque sm2Sign : Digest → Bytes → BitVec 512

/-- Bytes of the training values of one DDR channel (R368 gives their LENGTH field only; log 31). -/
opaque trainLength : BitVec 16

/-- SM2 verification: key bytes, message, signature (R234; log 8). -/
opaque sm2Verify : Bytes → Bytes → BitVec 512 → Bool

/-- The SM2 public key inside a DER certificate (R413, RFC 5280; log 8). -/
opaque certKey : Bytes → Bytes

/-- A DER certificate verifies under the root certificate given first (R414; log 8). -/
opaque certVerifies : Bytes → Bytes → Bool

/-- The digest of the vendor root that the ROM holds (R362, R364). -/
opaque romRootDigest : Digest

/-- ID.PART.STEPPING (R30: per stepping). -/
opaque stepping : BitVec 8

/-- The Ibsedin verifier passes the image (R56, R166 step 6; unpublished, log 9). -/
opaque verifierPasses : Bytes → Bool

/-- A core of the image whose KVC size is above 3 MiB fits its slot after translation (R166; unpublished, log 9). -/
opaque translationFits : Bytes → Nat → Bool

/-- First and last firmware interface version for which a native image was built (R168: its place in the image is unpublished; log 9). -/
opaque nativeBuilt : Bytes → Nat × Nat

/-- The image has a fold that the Ibsedin verifier has passed: a native image's own table with a record that matches, a KVC image's
by R161 and R162 (R21; log 9). -/
opaque foldPasses : Bytes → Bool

/-- The image of a sheet digest is a native one: asked of the sheets of other devices, whose digests alone come to the head (R229, R231,
R268; log 21). -/
opaque nativeImage : Digest → Bool

/-- The bytes of a sheet slot: digest of the sheet in it, then `2²² · core + offset` in the slot (R168: layout unpublished; log 11). -/
opaque slotByte : Digest → Nat → Byte

/-- TYPE code of a checkpoint section (R239 gives the field, not its values; log 12). -/
opaque ckptType : Nat → BitVec 16

/-- The number of a free choice of the MP servo: new increment offset in 2⁻³² ns (R250; log 13). -/
opaque servoIncr : Nat → Nat

/-- The role that best master selection gives a port: clock identity, parent data seen, port (R256, IEEE 1588; log 13). -/
opaque bmcaRole : BitVec 64 → Bytes → Nat → BitVec 2

/-- The UDP checksum of a PTP message over IPv4, by the device and the message: the addresses it covers are not given (R258; log 13). -/
opaque udpChecksum : BitVec 64 → Bytes → BitVec 16

/-- The two octets appended to a PTP message over IPv6, likewise (R258; log 13). -/
opaque udpOctets : BitVec 64 → Bytes → BitVec 16

/-- Bytes of an FP32 weight tile, which R85 and R105 do not give and a skipped load asks for (log 14). -/
opaque fp32TileBytes : Nat

/-- COUNT of a well after a sum that its 32 bits do not hold (R94; log 15). -/
opaque countOver : Nat → BitVec 32

/-- A vector lane of a register that one command names for both of its results, by the two results (R133, R138; log 16). -/
opaque bothResults : BitVec 32 → BitVec 32 → BitVec 32

/-- W of a well after a sum that its 160 bits do not hold (R94; log 15). -/
opaque wellOver : Int → BitVec 160

/-- Levels of a device's subtree below it in a launch tree, by topology digest and tree: the view does not give it (R262; log 29). -/
opaque treeHeight : Digest → Nat → Nat

/-- Bank of a memory in which a device address lies (R366 names rows by bank and row, no rule maps an address to them; log 24). -/
opaque addrBank : Nat → BitVec 32

/-- Row of its bank in which a device address lies (log 24). -/
opaque addrRow : Nat → BitVec 32

/-- Offset of a row's first address in its pseudo-channel or DDR channel (log 24). -/
opaque rowOffset : Nat → BitVec 38

/-- LOCATOR of a CONTROLLER_LOST entry: it names target and die, in bits that R384 does not place (log 33). -/
opaque controllerLocator : Nat → Nat → BitVec 64

end Sys2Proof.Config
end

