-- ==== Sys2Proof/Machine/State.lean ====
section
/-! DEFINITION. The state of the device as plain data, the reasons a step can stop, and the state after reset. -/

namespace Sys2Proof.Machine

/-! ### Units, wells, channels -/

/-- A well (R88, R89): 160-bit integer, ceiling exponent i16, FLAGS, COUNT. -/
structure Well where
  w : BitVec 160 := 0
  c : BitVec 16 := 0
  flags : BitVec 4 := 0
  count : BitVec 32 := 0
deriving DecidableEq, Repr

/-- What a stretched stroke waits for (R46, R50, R452). -/
inductive WaitOn where
  /-- A channel: no drop to take, or no space to give. -/
  | channel (ch : Nat)
  /-- A scribe's push into the full queue of a tile. -/
  | fullQueue (tile : Nat)
  /-- An engine whose queue is empty. -/
  | emptyQueue
  /-- The end of a timebase relock (R255). -/
  | relock
deriving DecidableEq, Repr

/-- A command or instruction that has begun and whose stroke is stretched (R41, R50): its word, the drops taken so far by
input port, how many drops of a transfer have moved, the drops still to give by output port, and whether its effect is done. -/
structure Blocked where
  word : CmdWord
  got : List (Nat × List Drop)
  moved : Nat
  out : List (Nat × Drop)
  effectDone : Bool
  /-- The five registers of the set that an XMOV latched at its issue stroke, and the skip cause found there (R177). -/
  latch : List (BitVec 64) := []
  cause : Option Nat := none
deriving DecidableEq, Repr

/-- What every unit has (R41, R46, R151, R424): stroke count, queue, indices, waiting and halting. -/
structure UnitSt where
  strokes : BitVec 64 := 0
  ended : Bool := false
  waiting : Option WaitOn := none
  halted : Bool := false
  /-- A halted unit told to step runs until its command retires (R425). -/
  oneMore : Bool := false
  /-- A halted unit told to step runs one stroke (R425). -/
  oneStroke : Bool := false
  /-- Set where a breakpoint has fired: the unit passes that point once it runs on (R427). -/
  passBp : Bool := false
  /-- Strokes of the command under way that have run to their end: a halt, a step or a wait has stopped it there (R424, R425). -/
  stepped : Nat := 0
  /-- Command queue, oldest first, at most 64 (R46). -/
  queue : List CmdWord := []
  /-- Entries the queue has received in the step (R151). -/
  entered : Nat := 0
  /-- Index of the next command to issue (R151); entry index of a die mover. -/
  issued : Nat := 0
  blocked : Option Blocked := none
deriving DecidableEq, Repr

/-- A write of a well not yet seen by every reader (R53): stroke, whether an anchor load wrote it, well index, value. -/
structure WellWrite where
  stroke : Nat
  anchor : Bool
  idx : Nat
  val : Well
deriving DecidableEq, Repr

/-- A slab write not yet visible to the unit's loads (R53, L = 4): stroke, address, bytes. -/
structure SlabWrite where
  stroke : Nat
  addr : Nat
  bytes : Bytes
deriving DecidableEq, Repr

/-- A weight bank (R102): tile bytes (default 0x00) and latched format. -/
structure Bank where
  bytes : Tbl Byte := []
  fmt : BitVec 4 := 0
deriving DecidableEq, Repr

/-- A matrix engine (R102). -/
structure MatrixSt where
  wells : Tbl Well := []
  wlog : List WellWrite := []
  bank0 : Bank := {}
  bank1 : Bank := {}
  slog : List SlabWrite := []
deriving DecidableEq, Repr

/-- A write of vector lanes (R53, R118): stroke, contract, register, and per vector lane from 0 the value written, if any. -/
structure LaneWrite where
  stroke : Nat
  lat : Nat
  reg : Nat
  lanes : List (Option (BitVec 32))
deriving DecidableEq, Repr

/-- A write of a mask register (R53, R118). -/
structure MaskWrite where
  stroke : Nat
  lat : Nat
  k : Nat
  bits : BitVec 256
deriving DecidableEq, Repr

/-- What reaches a vector well (R118): a VWANC clears it and sets its ceiling; a reduction or VWADD adds. -/
inductive VWellOp where
  | clear (c : BitVec 16) (flags : BitVec 4)
  | add (w : BitVec 160) (flags : BitVec 4) (count : BitVec 32)
deriving DecidableEq, Repr

/-- A vector well event at a stroke. -/
structure VWellWrite where
  stroke : Nat
  idx : Nat
  op : VWellOp
deriving DecidableEq, Repr

/-- A vector engine (R109): registers of 256 vector lanes, an unlisted one all zero; wells are keyed `256 * row + lane`. -/
structure VectorSt where
  regs : Tbl (List (BitVec 32)) := []
  rlog : List LaneWrite := []
  masks : Tbl (BitVec 256) := []
  mlog : List MaskWrite := []
  wells : Tbl Well := []
  wlog : List VWellWrite := []
  slog : List SlabWrite := []
deriving DecidableEq, Repr

/-- A transfer engine's register sets (R172, R173), keyed REG = 8k + r. -/
structure XferSt where
  shadow : Tbl (BitVec 64) := []
  live : Tbl (BitVec 64) := []
deriving DecidableEq, Repr

/-- A write of a 64-bit scribe register that is not yet visible (R147): stroke, contract, register, value. -/
structure RegWrite where
  stroke : Nat
  lat : Nat
  reg : Nat
  val : BitVec 64
deriving DecidableEq, Repr

/-- A scribe context (R140). -/
structure ScribeSt where
  g : Tbl (BitVec 64) := []
  glog : List RegWrite := []
  p : Tbl (BitVec 64) := []
  l : Tbl (BitVec 32) := []
  o : Tbl (BitVec 64) := []
  olog : List RegWrite := []
  pc : BitVec 24 := 0
deriving DecidableEq, Repr

/-! ### Sheets -/

/-- One core's part of a sheet (R164): raw instructions, templates (R149), constants, allocation entries (R58), patch entries
(R157), the 25 run lists of FOLD_MARKS (R162), and, where a native sheet's fold table gives them, host slot and tile of each of the 25
units, 24 standing for the scribe (R19). -/
structure CoreSheet where
  code : List (BitVec 64) := []
  templates : List (BitVec 256) := []
  consts : List (BitVec 64) := []
  alloc : List (BitVec 128) := []
  patch : List (BitVec 128) := []
  fold : List (List Nat) := []
  foldHost : List (Nat × Nat) := []
deriving DecidableEq, Repr

/-- A die-mover list (R183): raw range entries and command entries. -/
structure MoverList where
  ranges : List (BitVec 128) := []
  entries : List (BitVec 256) := []
deriving DecidableEq, Repr

/-- A port order list (R307): MODE, the inbound table, the rounds of each sub-port as raw data entries. -/
structure OrderList where
  mode : BitVec 8 := 0
  inbound : Tbl Byte := []
  rounds : List (List (List (BitVec 32))) := []
deriving DecidableEq, Repr

/-- A checked sheet: what a sheet slot holds (R78, R164). -/
structure Sheet where
  digest : Digest := 0
  level : BitVec 8 := 1
  isNative : Bool := false
  cores : Tbl CoreSheet := []
  channels : List (BitVec 128) := []
  movers : Tbl MoverList := []
  orders : Tbl OrderList := []
deriving DecidableEq, Repr

/-- A LOAD_SHEET in progress (R344, R81): ring, SEQ, fields. -/
structure SheetLoad where
  ring : Nat
  seq : BitVec 32
  host : BitVec 64
  length : BitVec 32
  digest : Digest
deriving DecidableEq, Repr

/-- The two sheet slots (R78-R81). -/
structure SheetSlots where
  live : Option Sheet := none
  shadow : Option Sheet := none
  liveSlot : BitVec 1 := 0
  shadowValid : Bool := false
  flipPending : Bool := false
  loading : Option SheetLoad := none
deriving DecidableEq, Repr

/-! ### The step -/

/-- A time value (R245, R248): seconds, and nanoseconds with 32 fraction bits. -/
structure TimeVal where
  sec : BitVec 48 := 0
  acc : BitVec 62 := 0
deriving DecidableEq, Repr

/-- A step record (R65). -/
structure StepRecord where
  step : BitVec 64
  status : BitVec 8
  attempts : BitVec 8
  mask : BitVec 16
  strokes : BitVec 64
  skips : BitVec 32
  flags : BitVec 32
  firstSkip : BitVec 64
  launchS : BitVec 64
  launchNs : BitVec 32
  wallNs : BitVec 32
  waiting : BitVec 32
  firstWait : BitVec 32
  sheetTag : BitVec 32
deriving DecidableEq, Repr

/-- The step that runs, or the last one that ended (R65-R76). -/
structure StepSt where
  running : Bool := false
  number : BitVec 64 := 0
  conds : BitVec 16 := 0
  /-- Conditions that stand whatever the final execution shows: PARITY_RETRIED once a void is repaired (R71). -/
  kept : BitVec 16 := 0
  attempts : BitVec 8 := 0
  skips : BitVec 32 := 0
  firstSkip : BitVec 64 := 0
  defective : Bool := false
  saturated : Bool := false
  origin : Bool := false
  upstreamVoid : Bool := false
  launchTime : TimeVal := {}
  localEnded : Bool := false
  strokes : BitVec 64 := 0
  /-- Voided, waiting to run again (R71). -/
  voided : Bool := false
  ownVoids : Nat := 0
  /-- A WEIGHT block is being reloaded for this address (R71 step 4). -/
  reload : Option Nat := none
  /-- Span channels (keyed `4096 * (8 port + sub) + channel`) that carried data in the step (R67). -/
  carried : List Nat := []
  /-- Span channels whose drops of this step the units have taken from (R73). -/
  consumed : List Nat := []
  upstreamLate : Bool := false
  dispatchDrops : Nat := 0
  dispatchUnit : Option Nat := none
  waiting : BitVec 32 := 0
  firstWait : BitVec 32 := 0
  /-- Inbound drops of the step by channel, held until it ends: the RETAIN copies (R68, R71; log 20). -/
  retained : Tbl (List Drop) := []
  /-- Notes for the seals of the step (R156, R235). -/
  notes : List NoteEntry := []
  /-- Drops for a later step that a RESTORE has brought back: port of the sub-port, span channel, step, drops (R241; log 12). -/
  restored : List (Nat × Nat × BitVec 64 × List Drop) := []
  /-- Steps known to have failed since the plot opened (R305; log 22). -/
  failed : List (BitVec 64) := []
  records : List StepRecord := []
  /-- Step seals, delivered with the step records (R236). -/
  seals : List Bytes := []
  /-- Number of the last ended step and whether any step launched since OPEN_PLOT (R265). -/
  lastEnded : BitVec 64 := 0
  launchedSinceOpen : Bool := false
  lastStatus : BitVec 8 := 0
  lastMask : BitVec 16 := 0
  lastAttempts : BitVec 8 := 0
  lastStrokes : BitVec 64 := 0
  lastSkips : BitVec 32 := 0
deriving DecidableEq, Repr

/-! ### Launch (R261-R278) -/

/-- LAUNCH.STATE. -/
inductive LaunchState where
  | idle | armed | committed | running | held
deriving DecidableEq, Repr

/-- A CENSUS message of a child: its position and fields (R263). -/
structure CensusMsg where
  origin : BitVec 32
  tag : BitVec 64
  armed : BitVec 32
  refused : BitVec 32
  reasons : BitVec 32
  firstRefused : BitVec 32
  maxBound : BitVec 32
deriving DecidableEq, Repr

/-- What one tree's census has gathered (R267). -/
structure CensusAcc where
  /-- Child sub-ports (8 port + sub) heard. -/
  heard : List Nat := []
  msgs : List CensusMsg := []
  sent : Bool := false
  /-- The device's own ARM of the round is in; TAG, JOB and FIRST_STEP of that ARM, else of the first child's census (R263, R267). -/
  own : Bool := false
  tag : BitVec 64 := 0
  job : BitVec 64 := 0
  first : BitVec 64 := 0
  armed : BitVec 32 := 0
  refused : BitVec 32 := 0
  reasons : BitVec 32 := 0
  firstRefused : BitVec 32 := 0xFFFFFFFF
  maxBound : BitVec 32 := 0
deriving DecidableEq, Repr

/-- A hold of the plot (R272): origin, step, PORT, SUB, DRY_MS. -/
structure HoldRec where
  origin : BitVec 32
  step : BitVec 64
  port : BitVec 8
  sub : BitVec 8
  dryMs : BitVec 32
deriving DecidableEq, Repr

/-- A lateness record (R278). -/
structure LateRec where
  step : BitVec 64
  slackNs : BitVec 32
  railMv : BitVec 16
  tjC : BitVec 8
  flags : BitVec 8
  powerW : BitVec 16
  readyNs : BitVec 32
deriving DecidableEq, Repr

/-- The launch logic (R261-R278). -/
structure LaunchSt where
  state : LaunchState := .idle
  /-- State to return to when an arm expires (R270). -/
  before : LaunchState := .idle
  paced : Bool := false
  root : Bool := false
  censusOk : Bool := false
  armRec : ArmRecord := { job := 0, firstStep := 0, stopStep := 0xFFFFFFFFFFFFFFFF, epoch := 0, periodNs := 0, devices := 0, mode := 0 }
  /-- The COMMIT of the armed launch has been accepted (R270). -/
  taken : Bool := false
  /-- The reasons with which the last ARM was refused, 0 if accepted (R266). -/
  refusedWith : BitVec 8 := 0
  /-- Ring and SEQ of the root's ARM until its censuses are in (R267). -/
  armWaiter : Option (Nat × BitVec 32) := none
  startS : BitVec 48 := 0
  startNs : BitVec 32 := 0
  shiftNs : BitVec 64 := 0
  /-- Number of the step that launches next, the time it became ready, and whether its boundary is done (R276). -/
  nextStep : BitVec 64 := 0
  ready : Option TimeVal := none
  /-- The head is ready but for room in the token ring or the seal hold (R351). -/
  short : Bool := false
  /-- Events 1 to 3 of the boundary before that step are done (R159). -/
  boundaryDone : Bool := false
  /-- The previous launch tick of this launch (R278). -/
  prevTick : Option Nat := none
  censusA : CensusAcc := {}
  censusB : CensusAcc := {}
  /-- DIGEST records kept by the root per position: step and digest (R268). -/
  digests : Tbl (BitVec 64 × Digest) := []
  /-- TAG of the last launch whose COMMIT went on in each tree (R269). -/
  forwardedA : Option (BitVec 64) := none
  forwardedB : Option (BitVec 64) := none
  /-- END notices held: first step, count, status (R271). -/
  ends : List (BitVec 64 × BitVec 32 × BitVec 8) := []
  holds : List HoldRec := []
  /-- The plot was in dry hold at some time since the last launch (R278). -/
  heldSince : Bool := false
  /-- Flooded messages already seen: ORIGIN, TYPE, STEP, and two words of identity (R271). -/
  seen : List (BitVec 32 × Nat × BitVec 64 × Nat × Nat) := []
  late : Tbl LateRec := []
  lateCount : BitVec 32 := 0
  ownLate : BitVec 32 := 0
  maxLate : BitVec 32 := 0
  /-- A reload delays the launch (R221). -/
  reloading : Bool := false
  shifted : Bool := false
deriving DecidableEq, Repr

/-! ### Timebase and PTP (R245-R260) -/

/-- The timebase. -/
structure TimeSt where
  now : TimeVal := {}
  latched : BitVec 46 := 0
  timeValid : Bool := false
  refAok : Bool := false
  refBok : Bool := false
  refSel : BitVec 1 := 0
  /-- Ticks until REVERT may take back a reference that passes again, A and B (R251: 10 ms). -/
  refWaitA : Nat := 0
  refWaitB : Nat := 0
  holdover : Bool := false
  relock : Bool := false
  /-- A read of NOW_S waits for the relock to end (R255). -/
  latchOwed : Bool := false
  /-- Milliseconds of holdover (R252). -/
  holdMs : BitVec 32 := 0
  ppsState : BitVec 2 := 0
  ppsTs : TimeVal := {}
  ppsAccepted : BitVec 32 := 0
  ppsRejected : BitVec 32 := 0
  /-- Last edge, rejected edges of the last second, good seconds in a row, and the second of the last accepted edge (R253). -/
  ppsLastEdge : Option TimeVal := none
  ppsRejTimes : List TimeVal := []
  ppsGood : Nat := 0
  ppsSecond : Option (BitVec 48) := none
  /-- When PPS_OUT rose last (R254). -/
  ppsOutAt : TimeVal := {}
  incr : BitVec 36 := 0x100000000
  offsetAmount : BitVec 47 := 0
  offsetPending : Bool := false
  setSec : BitVec 48 := 0
  setSub : BitVec 46 := 0
  setGo : Bool := false
  bound : BitVec 32 := 0xFFFFFFFF
  servo : BitVec 2 := 0
deriving DecidableEq, Repr

/-- A PTP port (R256-R258). -/
structure PtpSt where
  meanPs : BitVec 32 := 0
  rxEvent : BitVec 32 := 0
  discarded : BitVec 32 := 0
  syncSeq : BitVec 16 := 0
  delaySeq : BitVec 16 := 0
  announceSeq : BitVec 16 := 0
  /-- Sync awaiting its Follow_Up: sequence, and ingress time less the corrections so far, in 2⁻¹⁶ ns (R256). -/
  syncPending : Option (BitVec 16 × Int) := none
  /-- Ingress time less corrected origin time of the last Sync, in 2⁻¹⁶ ns. -/
  lastSync : Option Int := none
  /-- Our last delay request: sequence and egress time, in 2⁻¹⁶ ns. -/
  reqSent : Option (BitVec 16 × Int) := none
  /-- Peer answer awaiting its follow-up: sequence, and the round trip less what is known of the turnaround, in 2⁻¹⁶ ns. -/
  pdelayPending : Option (BitVec 16 × Int) := none
  announce : Option PtpAnnounceBody := none
deriving DecidableEq, Repr

/-- A PTP message that has left a port: kind (1 Sync, 2 Delay_Req, 3 Pdelay_Req, 4 Pdelay_Resp, 5 Announce, 6 Delay_Resp), port
number, sequence, time carried and correctionField, and the Announce data. -/
structure PtpOut where
  kind : Nat
  portNumber : Nat
  seq : BitVec 16
  sec : BitVec 48
  ns : BitVec 32
  correction : BitVec 64
  reqClock : BitVec 64
  reqPort : BitVec 16
  announce : Option PtpAnnounceBody
  traceable : Bool
  /-- The frame it left in (R256-R258): transport, destination, UDP port, 802.1Q tag, UDP/IPv4 checksum, octets appended over IPv6. -/
  transport : BitVec 2 := 0
  dest : BitVec 128 := 0
  udpPort : BitVec 16 := 0
  vlan : Option (BitVec 12) := none
  udpSum : Option (BitVec 16) := none
  octets : Option (BitVec 16) := none
deriving DecidableEq, Repr

/-! ### Pace controller (R279-R282) -/

/-- The pace controller. -/
structure PaceSt where
  railMv : BitVec 10 := 750
  powerLimited : Bool := false
  thermalLimited : Bool := false
  slow : Bool := false
  avsFault : Bool := false
  lateRun : BitVec 16 := 0
  powerW : BitVec 16 := 0
  tjC : BitVec 8 := 0
  /-- Highest reading since the last launch (R278). -/
  tjMax : BitVec 8 := 0
  /-- Time of the last change (R280). -/
  lastChange : Option TimeVal := none
  /-- Last AVSBus target of rails 0 to 3, in mV (R281); none before the first transaction (R441). -/
  avsOut : Option (List Nat) := none
deriving DecidableEq, Repr

/-! ### Spans (R283-R316) -/

/-- SUB.STATUS.STATE (R294). -/
inductive LinkState where
  | off | training | up | plot | miswired | holding | down | fenced
deriving DecidableEq, Repr

/-- A sub-port. Counters wrap. -/
structure SubSt where
  state : LinkState := .off
  /-- The PHY is up since the last training; training is under way (R286, R311). -/
  linkUp : Bool := false
  training : Bool := false
  /-- SPANn.CFG as it stood at the last training (R293). -/
  cfgIn : BitVec 64 := 0
  narrowing : Bool := false
  width : BitVec 4 := 0
  pen : Bool := false
  lanes : BitVec 8 := 0
  partnerId : BitVec 64 := 0
  partnerPort : BitVec 6 := 0
  partnerSub : BitVec 3 := 0
  partnerPlot : BitVec 16 := 0
  peerMac : BitVec 48 := 0
  txNext : BitVec 32 := 0
  txAcked : BitVec 32 := 0
  rxExpect : BitVec 32 := 0
  crcDrops : BitVec 32 := 0
  replays : BitVec 32 := 0
  retrains : BitVec 16 := 0
  narrowings : BitVec 16 := 0
  blots : BitVec 16 := 0
  miswires : BitVec 16 := 0
  plotReject : BitVec 32 := 0
  otherReject : BitVec 32 := 0
  /-- Lanes usable after training, this end's bad lanes, and the partner's mask (R288). -/
  goodLanes : BitVec 8 := 0
  badLanes : BitVec 8 := 0
  partnerBad : BitVec 8 := 0
  opNum : BitVec 32 := 0
  /-- Link operation repeated until answered: 0 none, 1 NARROW_REQ, 2 NARROW (R288). -/
  linkOp : BitVec 8 := 0
  realigned : Bool := false
  /-- The partner's NARROW_DONE has come (R288). -/
  partnerDone : Bool := false
  /-- Handshake: roles known, needed SEQ_RESET, announced TX_START, partner heard, own seen acknowledged (R290). -/
  rolesKnown : Bool := false
  needReset : Bool := true
  txStart : BitVec 32 := 0
  partnerReset : Bool := false
  partnerTxStart : BitVec 32 := 0
  heard : Bool := false
  acked : Bool := false
  shaking : Bool := false
  partnerRx : BitVec 32 := 0
  /-- Sent, unacknowledged grains with their sequence numbers, oldest first (R301). -/
  replay : List (BitVec 32 × Grain) := []
  replaying : Bool := false
  /-- Grains of the replay buffer already resent in the replay under way. -/
  replayPos : Nat := 0
  /-- Unsent grains by class (R309). -/
  q0 : List Grain := []
  /-- Class 1, by span channel: partial grains that are due, what a step's end flushed, COMMIT and VOID grains. -/
  q1 : List (Nat × Grain) := []
  q2 : List Grain := []
  q3 : List Grain := []
  /-- Pending LINK frame grains. -/
  qLink : List Grain := []
  /-- The control slot has sent its LINK frame and still owes its class-0 frame (R309). -/
  linkSent : Bool := false
  /-- Position in the rotation (R309). -/
  slot : Nat := 0
  /-- Pool credit of the partner (R303): share, reserves, outstanding and last FREED per class. -/
  pool : Nat := 0
  res : List Nat := [0, 0, 0, 0]
  out : List Nat := [0, 0, 0, 0]
  last : List Nat := [0, 0, 0, 0]
  /-- Our FREED counters per class (R296). -/
  freed : List Nat := [0, 0, 0, 0]
  /-- Channel credits as sender, by span channel (R304). -/
  credits : Tbl Int := []
  /-- Grains granted and drops that left, as receiver, by span channel (R304). -/
  granted : Tbl Nat := []
  drained : Tbl Nat := []
  /-- The grains whose drops are in an inbound channel, oldest first: drops left, unused drops, and whether they hold a credit (R304). -/
  fifo : Tbl (List (Nat × Nat × Bool)) := []
  /-- Drops of a later step waiting in the pool, one entry per grain: span channel, receiver step, drops (R305). -/
  waitPool : List (Nat × BitVec 64 × List Drop) := []
  /-- COMMIT grains received: span channel, sender step (R305). -/
  commits : List (Nat × BitVec 64) := []
  /-- Drops sent in the running step, by span channel (R297). -/
  sent : Tbl Nat := []
  /-- An acknowledgement is owed (R301). -/
  ackOwed : Bool := false
  blotted : Bool := false
  holding : Bool := false
  holdStart : TimeVal := {}
  fenced : Bool := false
  /-- Last frame put on the wire. -/
  lastTx : Option SpanFrame := none
deriving DecidableEq, Repr

/-- A span port's status (R293); its configuration is in the register table. -/
structure PortSt where
  dryMs : BitVec 32 := 50
  termFault : BitVec 8 := 0
  inverted : BitVec 8 := 0
  reversed : Bool := false
  /-- GROUP of ID.PORT_MAP (R26, R29). -/
  group : BitVec 6 := 0
deriving DecidableEq, Repr

/-! ### Memories (R317-R333) -/

/-- A stack. Rows are named by `2⁶⁴ · unit + 2³² · bank + row` (log 24). -/
structure StackSt where
  high16 : Bool := false
  density32 : Bool := false
  rateMbps : BitVec 14 := 10000
  steppedDown : Bool := false
  /-- A region stop of the stack is under way (R255). -/
  stopping : Bool := false
  tempC : BitVec 8 := 0
  repairLeft : BitVec 8 := 0
  /-- Lane repairs of the grade map that boot has applied (R328, R365). -/
  laneRepairs : List (BitVec 16) := []
  pendingRows : List Nat := []
  /-- Corrected reads by row in the patrol period that began at `patrolAt` (R331). -/
  rowCounts : List (Nat × Nat) := []
  patrolAt : BitVec 48 := 0
  corrected : BitVec 32 := 0
  uncorrectable : BitVec 32 := 0
  lastAddr : BitVec 48 := 0
  lastUe : Bool := false
deriving DecidableEq, Repr

/-- A DDR channel. -/
structure DdrSt where
  state : BitVec 2 := 0
  cause : BitVec 4 := 0
  rateMts : BitVec 14 := 0
  sizeGib : BitVec 9 := 0
  serial : BitVec 32 := 0
  maker : BitVec 16 := 0
  trains : BitVec 3 := 0
  repairLeft : BitVec 8 := 0
  pendingRows : List Nat := []
  /-- Corrected reads by row in the patrol period that began at `patrolAt` (R331). -/
  rowCounts : List (Nat × Nat) := []
  patrolAt : BitVec 48 := 0
  corrected : BitVec 32 := 0
  uncorrectable : BitVec 32 := 0
  lastAddr : BitVec 48 := 0
  lastUe : Bool := false
  /-- Seconds of uncorrectable reads, for the 24 h of UE_LIMIT (R333). -/
  ueTimes : List (BitVec 48) := []
  /-- A region stop of the channel is under way (R255). -/
  stopping : Bool := false
  /-- Cause with which the channel is disabled at the next boundary or step end (R325). -/
  disableAt : Option (BitVec 4) := none
deriving DecidableEq, Repr

/-! ### Serving (R187-R223) -/

/-- STATE of a ledger slot (R191). -/
inductive SlotState where
  | free | queued | running | paused | held | spilled | ending
deriving DecidableEq, Repr

/-- A ledger slot (R190) with what the head keeps beside it (seals R230-R235, policy R213, admission R211). -/
structure Slot where
  rid : BitVec 64 := 0
  seed : BitVec 128 := 0
  epoch : BitVec 32 := 0
  adapter : BitVec 32 := 0
  tenant : BitVec 16 := 0
  state : SlotState := .free
  endCode : BitVec 4 := 0
  decided : Bool := false
  cancelF : Bool := false
  emitMark : Bool := false
  late : Bool := false
  shared : Bool := false
  group : BitVec 8 := 0
  lane : BitVec 8 := 0xFF
  prompt : BitVec 32 := 0
  position : BitVec 32 := 0
  emitted : BitVec 32 := 0
  maxTokens : BitVec 32 := 0
  stopToken : BitVec 32 := 0
  base : BitVec 32 := 0
  run : BitVec 32 := 0
  spill : BitVec 32 := 0xFFFFFFFF
  deadlineS : BitVec 64 := 0
  deadlineNs : BitVec 32 := 0
  sharedFolios : BitVec 32 := 0
  promptAddr : BitVec 64 := 0
  -- beside the entry
  /-- The run has been allocated (false while an admission waits for spills, R211). -/
  hasRun : Bool := false
  /-- First folio and length of the sieve hit still to be copied (R207). -/
  hitBase : BitVec 32 := 0
  hitLen : BitVec 32 := 0
  hostHold : Bool := false
  /-- Group it rode last (R201). -/
  lastGroup : BitVec 8 := 0
  /-- PAUSE taken, HELD at the next boundary (R213). -/
  pauseReq : Bool := false
  /-- Time it left its group (R213). -/
  since : TimeVal := {}
  /-- Spill run of n folios allocated for a SPILL under way (R201). -/
  spillTo : Option (BitVec 32) := none
  /-- Lane word in flight (R193) and the token marked in the emit window (R214). -/
  word : BitVec 64 := 0
  markToken : BitVec 32 := 0
  /-- Verdict of the prompt read (R330): the lane word is IDLE and the end is FAILED. -/
  promptBad : Bool := false
  sealReq : Bool := false
  sealLen : BitVec 32 := 0
  sealAddr : BitVec 64 := 0
  promptToks : List (BitVec 32) := []
  outToks : List (BitVec 32) := []
  sets : List (BitVec 32 × Digest) := []
  /-- A sheet set of the request held a native image, as far as the head knows (R231; log 21). -/
  isNative : Bool := false
  notes : List NoteEntry := []
  notesDropped : BitVec 16 := 0
  obsFlags : BitVec 32 := 0
  admitTime : TimeVal := {}
  endTime : TimeVal := {}
  firstStep : Option (BitVec 64) := none
  lastStep : BitVec 64 := 0
  /-- Digests of the manifests of its epoch's model and of its adapter, as admitted (R231). -/
  manifest : Digest := 0
  adapterManifest : Digest := 0
deriving DecidableEq, Repr

/-- A request seal waiting for its signature (R230): slot, RID, tokens delivered, SEAL_ADDR, the bytes that D covers and the
observation area, as they stood at posting. -/
structure SealJob where
  slot : Nat
  rid : BitVec 64
  output : BitVec 32
  addr : BitVec 64
  core : Bytes
  obs : Bytes
deriving DecidableEq, Repr

/-- A folio table or spill map entry (R198). -/
structure Folio where
  state : BitVec 8 := 0
  slot : BitVec 16 := 0xFFFF
  sieve : BitVec 32 := 0xFFFFFFFF
  depth : BitVec 32 := 0
deriving DecidableEq, Repr

/-- A sieve entry with its stored tokens (R206). -/
structure SieveEnt where
  key : BitVec 128
  folio : BitVec 32
  prev : BitVec 32
  epoch : BitVec 32
  adapter : BitVec 32
  tenant : BitVec 16
  depth : BitVec 32
  lastUse : BitVec 32
  tokens : List (BitVec 32)
deriving DecidableEq, Repr

/-- What the device before has passed with its commit of a step (R195, R235). -/
structure Passed where
  step : BitVec 64
  record : Option Descriptor
  report : Option PassReport
deriving DecidableEq, Repr

/-- The serving logic. -/
structure ServSt where
  slots : Tbl Slot := []
  folios : Tbl Folio := []
  spills : Tbl Folio := []
  sieve : Tbl SieveEnt := []
  salts : Tbl (BitVec 256) := []
  hits : BitVec 64 := 0
  misses : BitVec 64 := 0
  collisions : BitVec 64 := 0
  evictions : BitVec 64 := 0
  deficits : Tbl Nat := []
  lastBoundary : Nat := 0
  live : BitVec 32 := 0
  stagedE : BitVec 32 := 0xFFFFFFFF
  admission : BitVec 32 := 0
  switching : Bool := false
  /-- Mode of the switch accepted (R219): 0 DRAIN, 1 RETIRE. -/
  switchMode : BitVec 8 := 0
  drainSteps : Nat := 0
  /-- The head has set MARKER for the step about to launch, or this device has met it (R220). -/
  markerStep : Option (BitVec 64) := none
  /-- Descriptors of the head's last steps, newest first (R214); the one in force on this device. -/
  descs : List Descriptor := []
  current : Option Descriptor := none
  /-- Records and reports that the device before has passed with its commits, by its step (R195, R235). -/
  received : List Passed := []
  /-- The report that came with the record in force. -/
  recvReport : Option PassReport := none
  /-- The report of this device's last step, as it was passed on (R235). -/
  outReport : Option PassReport := none
  /-- Mirror of slots holding a lane (R189), other devices. -/
  seals : List SealJob := []
  /-- STAGED messages held: position, epoch, adapter (R357). -/
  stagedMsgs : List (BitVec 32 × BitVec 32 × BitVec 32) := []
deriving DecidableEq, Repr

/-! ### Weight loading (R352-R357) -/

/-- A block entry of a manifest (R352). -/
structure BlockEnt where
  length : BitVec 32
  firstPos : BitVec 32
  lastPos : BitVec 32
  stage : BitVec 64
  target : BitVec 64
  digest : Digest
  kind : BitVec 8
  fmt : BitVec 8
  anchor : BitVec 64
deriving DecidableEq, Repr

/-- A manifest accepted on this device, with its load (R353). -/
structure ManifestSt where
  epoch : BitVec 32
  adapter : BitVec 32
  digest : Digest
  blocks : List BlockEnt
  retain : BitVec 64
  retainLen : BitVec 64
  /-- Blocks verified on this device (R354). -/
  verified : List Nat := []
  complete : Bool := false
  /-- Ring and SEQ of the LOAD_MANIFEST still running. -/
  waiter : Option (Nat × BitVec 32) := none
deriving DecidableEq, Repr

/-- A block delivery in progress on this device (R354, R355). -/
structure BlockRx where
  epoch : BitVec 32
  block : BitVec 32
  length : BitVec 32
  bytes : Bytes
deriving DecidableEq, Repr

/-- A block forwarded and not yet acknowledged: epoch, block, failed deliveries, bytes kept (R354, R355). -/
structure BlockTx where
  epoch : BitVec 32
  block : BitVec 32
  failures : Nat
  /-- The block's grains have been queued; false while RETAIN is full (R354). -/
  queued : Bool
  bytes : Bytes
  /-- Address of the copy kept, at STAGE or in RETAIN, once it is queued (R354 step 3). -/
  keptAt : Nat := 0
deriving DecidableEq, Repr

/-- A LOAD_BLOCK of the chain head (R353): ring, SEQ, fields, failed host reads, whether the host's data is awaited. -/
structure BlockJob where
  ring : Nat
  seq : BitVec 32
  epoch : BitVec 32
  block : BitVec 32
  host : BitVec 64
  length : BitVec 32
  reads : Nat
  reading : Bool
deriving DecidableEq, Repr

/-- Weight loading. -/
structure LoadSt where
  manifests : List ManifestSt := []
  /-- Manifest of the live epoch. -/
  liveManifest : Option ManifestSt := none
  /-- LOAD_MANIFEST reads in progress. -/
  reading : List (Nat × BitVec 32 × ManifestBody) := []
  rx : Option BlockRx := none
  tx : List BlockTx := []
  jobs : List BlockJob := []
deriving DecidableEq, Repr

/-! ### Mailbox, host link -/

/-- A command ring (R340-R345). -/
structure RingSt where
  nextSeq : BitVec 32 := 0
  tail : BitVec 32 := 0
  stalled : Bool := false
  waiting : Bool := false
  /-- Commands read and not yet served, oldest first. -/
  pend : List (BitVec 32 × MboxCmd) := []
  /-- Commands accepted whose completion is not yet written. -/
  open_ : List (BitVec 32) := []
deriving DecidableEq, Repr

/-- A signed seal waiting for the link (R351). -/
structure SealHeld where
  slot : Nat
  rid : BitVec 64
  output : BitVec 32
  addr : BitVec 64
  bytes : Bytes
deriving DecidableEq, Repr

/-- A long command whose data comes over the host link (R337, R344): ring, SEQ, command. -/
structure HostRead where
  ring : Nat
  seq : BitVec 32
  cmd : MboxCmd
deriving DecidableEq, Repr

/-- The mailbox and the host link. -/
structure MboxSt where
  rings : Tbl RingSt := []
  link : BitVec 2 := 0
  width : BitVec 4 := 0
  retrains : BitVec 16 := 0
  irq : BitVec 18 := 0
  tokTail : BitVec 32 := 0
  tokHead : BitVec 32 := 0
  reads : List HostRead := []
  /-- UPDATE_BLOCK data that came while a step could run, oldest first: the boundary applies it (R381). -/
  came : List (HostRead × HostView) := []
  /-- Signed seals waiting for the link (R351), oldest first. -/
  sealHold : List SealHeld := []
  /-- What the last host access or read returned: bytes, or none for an error. -/
  hostReply : Option Bytes := none
  /-- Host reads of NOW_S that a relock holds back: offset and length, oldest first (R255). -/
  timeReads : List (Nat × Nat) := []
  /-- Checkpoint under way: ring, SEQ, step, kind, address, length (R238). -/
  ckpt : Option (Nat × BitVec 32 × BitVec 64 × BitVec 8 × BitVec 64 × BitVec 64) := none
  /-- What the image takes from the boundary after the named step: its header and its sections (R237). -/
  ckptParts : Option (Bytes × List (Nat × Bytes)) := none
  /-- The image, once the named step has committed and what the device passes on to the next step has come. -/
  ckptImage : Option Bytes := none
  restore : Option (Nat × BitVec 32 × BitVec 8 × BitVec 64 × BitVec 64 × Digest) := none
  /-- Addresses at which the MP's next read comes out uncorrectable (R330; log 24). -/
  badReads : List Nat := []
  scrubber : Option (Nat × BitVec 32) := none
  opener : Option (Nat × BitVec 32) := none
deriving DecidableEq, Repr

/-! ### Blotter (R382-R400) -/

/-- A blotter entry (R382); `record` is the second position of a STEP_RECORD pair (R383). CHECK is formed when written out. -/
structure BlotEntry where
  seq : BitVec 32
  cls : BitVec 3
  cause : BitVec 8
  flags : BitVec 16
  timeS : BitVec 64
  timeNs : BitVec 32
  count : BitVec 32
  step : BitVec 64
  locator : BitVec 64
  arg0 : BitVec 64
  arg1 : BitVec 64
  die : BitVec 8
  tag : BitVec 16
  record : Option (BitVec 512)
deriving DecidableEq, Repr

/-- A class ring (R387). -/
structure ClassRing where
  pinned : List BlotEntry := []
  recent : List BlotEntry := []
  nextSeq : BitVec 32 := 0
  lost : BitVec 32 := 0
deriving DecidableEq, Repr

/-- An open coalescing window (R389): key, occurrences since it opened, and the last of them. -/
structure AlarmWindow where
  cls : BitVec 3
  cause : BitVec 8
  locator : BitVec 64
  count : BitVec 32
  last : BlotEntry
deriving DecidableEq, Repr

/-- The blotter, telemetry and the management endpoint. -/
structure BlotSt where
  rings : Tbl ClassRing := []
  counts : Tbl (BitVec 32) := []
  windows : List AlarmWindow := []
  alarm : BitVec 8 := 0
  suspect : BitVec 4 := 0
  -- in-band stream (R393-R396)
  fill : List (BitVec 512) := []
  streamSeq : BitVec 32 := 0
  inSent : BitVec 32 := 0
  inThrottled : BitVec 32 := 0
  inBlotted : BitVec 32 := 0
  noRoute : BitVec 32 := 0
  /-- What the grain rate limit is in debt by, in grains times 10⁹, and when it was reckoned, in ns (R395). -/
  inDebt : Nat := 0
  inAt : Nat := 0
  sinkTail : BitVec 32 := 0
  sinkDropped : BitVec 32 := 0
  -- out-of-band queue (R397, R398)
  oobQueue : List BlotEntry := []
  oobThrottled : BitVec 32 := 0
  oobThrottledRead : BitVec 32 := 0
  /-- What the entry rate limit is in debt by, in entries times 10⁹, and when it was reckoned, in ns (R398). -/
  oobDebt : Nat := 0
  oobAt : Nat := 0
  dynAddr : Option (BitVec 7) := none
  eid : Option (BitVec 8) := none
  ibi : Bool := false
  mctpOut : Option Bytes := none
deriving DecidableEq, Repr

/-! ### Plot, security, debug -/

/-- One entry of the topology view (R348). -/
structure TopoEnt where
  port : BitVec 8
  sub : BitVec 8
  role : BitVec 8
  peerPort : BitVec 8
  peerSub : BitVec 8
  peerId : BitVec 64
  peerMac : BitVec 48
deriving DecidableEq, Repr

/-- The open plot, fences and measurements (R401-R418). -/
structure SecSt where
  plot : BitVec 16 := 0
  /-- The plot closed last (R408). -/
  lastPlot : BitVec 16 := 0
  isOpen : Bool := false
  debug : Bool := false
  scrubbed : Bool := false
  stepSeals : Bool := false
  serving : Bool := false
  servingIf : BitVec 16 := 0
  position : BitVec 32 := 0
  devices : BitVec 32 := 0
  dryMs : BitVec 32 := 0
  topo : List TopoEnt := []
  topoDigest : Digest := 0
  scrubState : BitVec 2 := 0
  scrubMs : BitVec 32 := 0
  quotes : BitVec 32 := 0
  /-- Measurements FW_MP to DEBUG_POLICY, kept at boot and by the updates (R415). -/
  meas : Tbl Digest := []
  restored : Bool := false
deriving DecidableEq, Repr

/-- A breakpoint (R427, R428): raw CTL and STEP. -/
structure Breakpoint where
  ctl : BitVec 64 := 0
  step : BitVec 64 := 0
deriving DecidableEq, Repr

/-- The IDCODE word: [31:28] STEPPING[3:0], [27:12] 0x4816, [11:1] 0x2D3, [0] 1 (R420). -/
def idcode : BitVec 32 := BitVec.ofNat 32 (Config.stepping.toNat % 16 * 2 ^ 28 + 0x4816 * 2 ^ 12 + 0x2D3 * 2 + 1)

/-- The data register between TDI and TDO, with what Capture-DR loads into it (R420). -/
inductive TapData where
  /-- One bit, captured as 0. -/
  | bypass
  /-- The boundary-scan chain, with the values it drives. -/
  | scan (pins : List Bool)
  | idcode (word : BitVec 32)
  /-- DBG.CHALLENGE. -/
  | challenge (word : BitVec 128)
  /-- 1,536 bits, read at Update-DR. -/
  | grant
  /-- The frame shifted out (R421). -/
  | xfer (frame : BitVec 128)
deriving DecidableEq, Repr

/-- The debug port (R420-R431). -/
structure DbgSt where
  policyValid : Bool := false
  scopeMax : BitVec 16 := 0
  tapGrantOk : Bool := false
  grant : Bool := false
  scope : BitVec 16 := 0
  holder : Digest := 0
  notAfter : BitVec 64 := 0
  challenge : BitVec 128 := 0
  debugWrite : Bool := false
  bps : Tbl Breakpoint := []
  unitSel : BitVec 14 := 0
  /-- This device's halt announced by HOLD (R426). -/
  holdSent : Bool := false
  /-- Blots by a halt that outlasted dry time, to handshake at resume (R426). -/
  haltBlotted : Bool := false
  /-- Result of the last XFER frame: RESULT and data (R421). -/
  xferResult : BitVec 2 := 0
  xferData : BitVec 64 := 0
  /-- TAP instruction: IDCODE after a TAP reset (R420, IEEE 1149.1; log 35). -/
  tapIr : BitVec 8 := 0x02
  /-- The data register that `tapIr` selects, as last captured (R420). -/
  tapData : TapData := .idcode idcode
deriving DecidableEq, Repr

/-! ### Boot, power -/

/-- Where the device stands between power-up and service (R369, R372, R439, R444). -/
inductive Phase where
  /-- Rails off or PWRGOOD low. -/
  | off
  /-- PWRGOOD high, RESET_N low. -/
  | reset
  /-- RESET_N released, no reference passing (R439). -/
  | waitRef
  /-- Bedrock mode with its cause (R372). -/
  | bedrock (cause : BitVec 4)
  /-- Boot event 12 reached. -/
  | service
  /-- Thermal trip (R444). -/
  | tripped
deriving DecidableEq, Repr

/-- A firmware target that runs (R360, R371). -/
structure FwSt where
  version : BitVec 32 := 0
  bank : BitVec 1 := 0
  ready : Bool := false
  /-- Waiting for the ready report of a trial start (R370). -/
  starting : Bool := false
deriving DecidableEq, Repr

/-- An open update (R375, R376). -/
structure UpdateSt where
  target : BitVec 8
  version : BitVec 32
  length : BitVec 32
  blocks : BitVec 32
  digest : Digest
  /-- Blocks applied. -/
  applied : List Nat
  /-- Block 0 of TARGET 4, held by the MP until UPDATE_ACTIVATE. -/
  held : Bytes
deriving DecidableEq, Repr

/-- Boot, identity, firmware, power and pins. -/
structure BootSt where
  phase : Phase := .reset
  pwrgood : Bool := true
  /-- The 16 KiB PUF array of die 0's hub, which no unit writes (R363). -/
  puf : BitVec 131072 := 0
  /-- The MP's key store: K and the SM2 attestation private key (R363). -/
  secretK : Digest := 0
  attestKey : Digest := 0
  deviceId : BitVec 64 := 0
  idOk : Bool := false
  flashMode : BitVec 2 := 0
  loamFormat : BitVec 4 := 0
  loamSlot : BitVec 1 := 0
  loamDefaults : Bool := false
  bootMs : BitVec 16 := 0
  fw : Tbl FwSt := []
  /-- The header in force: SEQ, BANK, TRIAL, TRIES, LOAM (R361). -/
  hdrCopy : BitVec 1 := 0
  hdrSeq : BitVec 32 := 0
  hdrBank : BitVec 8 := 0
  hdrTrial : BitVec 8 := 0
  hdrTries : BitVec 8 := 0
  hdrLoam : BitVec 8 := 0
  update : Option UpdateSt := none
  /-- Ring and SEQ of an UPDATE_ACTIVATE waiting for the restarted target (R377). -/
  activating : Option (Nat × BitVec 32 × BitVec 8) := none
  -- bedrock registers (R373)
  bedError : BitVec 8 := 0
  bedBuf : Tbl Byte := []
  /-- Item and length of the last BEGIN (R374). -/
  bedItem : Option (BitVec 4 × BitVec 32) := none
  -- the mapping (R16-R31)
  shipped : BitVec 2 := 0
  effective : BitVec 2 := 0
  portsShifted : Bool := false
  fieldRetired : Bool := false
  coresInService : BitVec 8 := 0
  /-- Physical cores in service by cluster (R17, R384). -/
  clusterCores : List Nat := []
  /-- Firmware interface versions that the running MP image serves (R345, R362). -/
  fwIf : BitVec 8 := 1
  fwIfMin : BitVec 8 := 1
  /-- ID.CORE_MAP words by ruled core (R30). -/
  coreMap : Tbl (BitVec 32) := []
  publishers : List Digest := []
  outOfService : Bool := false
  -- pins (R432)
  alertN : Bool := false
  thermtripN : Bool := false
  ppsOut : Bool := false
  scan : Option (List Bool) := none
deriving DecidableEq, Repr

/-- The state of the device. -/
structure State where
  /-- Commands waiting, oldest first. -/
  pending : List Instr
  /-- Free values drawn so far (log 6): the model's own field. -/
  free : Nat
  boot : BootSt
  /-- Serial flash: an unlisted byte is erased, 0xFF (R360). -/
  flash : Tbl Byte
  /-- Writable register fields of control space, by offset; an unlisted register holds its reset value (R39). -/
  regs : Tbl (BitVec 256)
  /-- The four strata: an unlisted byte reads 0x00 (R405; log 3). -/
  mem : Tbl Byte
  /-- Step copies: bytes of PERSISTENT and FOLIO regions written in the step (R70). -/
  overlay : Tbl (Option Byte)
  stackTbl : Tbl StackSt
  ddrs : Tbl DdrSt
  sheets : SheetSlots
  units : Tbl UnitSt
  scribes : Tbl ScribeSt
  matrix : Tbl MatrixSt
  vector : Tbl VectorSt
  xfer : Tbl XferSt
  chans : Tbl (List Drop)
  step : StepSt
  launch : LaunchSt
  time : TimeSt
  ptp : Tbl PtpSt
  ptpOut : Option PtpOut
  pace : PaceSt
  ports : Tbl PortSt
  subs : Tbl SubSt
  serv : ServSt
  load : LoadSt
  mbox : MboxSt
  blot : BlotSt
  sec : SecSt
  dbg : DbgSt
  /-- Host memory as written by the device: seals, checkpoint images, telemetry sink (R351, R238, R396). -/
  host : Tbl Byte
deriving DecidableEq, Repr

/-- Reasons the machine can stop with a fault. The manual gives every error of the device an effect, so no meaning raises one. -/
inductive Fault where
  /-- Raised by no meaning; the type needs an inhabitant. Safe: nothing rests on it. -/
  | unused
deriving DecidableEq, Repr

/-- Reasons the model can refuse a command. -/
inductive Refusal where
  /-- Raised by an arm of `exec` whose command has no meaning in the model yet. Safe: the step answers no state. -/
  | notModelled (mnemonic : String)
deriving DecidableEq, Repr

/-- The device right after reset: RESET_N has reset every register and the boot sequence of R369 has not run. Fields that boot
sets from flash, DIMMs, stacks or the mapping hold 0 (log 7); memory lists nothing (log 3); flash is erased (log 7). -/
def State.reset : State where
  pending := []
  free := 0
  boot := {}
  flash := []
  regs := []
  mem := []
  overlay := []
  stackTbl := []
  ddrs := []
  sheets := {}
  units := []
  scribes := []
  matrix := []
  vector := []
  xfer := []
  chans := []
  step := {}
  launch := {}
  time := {}
  ptp := []
  ptpOut := none
  pace := {}
  ports := []
  subs := []
  serv := {}
  load := {}
  mbox := {}
  blot := {}
  sec := {}
  dbg := {}
  host := []

end Sys2Proof.Machine
end

