-- ==== Sys2Proof/Machine/RegMap.lean ====
section
/-! DEFINITION. Control space: where the registers lie (R39), what their writable fields hold at reset, and reading a field. -/

namespace Sys2Proof.Machine

/-! ### Offsets (R39 and the register maps of each block) -/

/-- ID block. -/
def offId : Nat := 0
/-- MBOX block. -/
def offMbox : Nat := 0x100000
/-- TBASE block. -/
def offTbase : Nat := 0x200000
/-- PACE block. -/
def offPace : Nat := 0x300000
/-- LAUNCH block. -/
def offLaunch : Nat := 0x400000
/-- Block SPANn. -/
def offSpan (n : Nat) : Nat := 0x1000000 + 0x10000 * n
/-- Registers of sub-port `u` of port `n` (R293). -/
def offSub (n u : Nat) : Nat := offSpan n + 0x1000 + 0x100 * u
/-- LEDGER block. -/
def offLedger : Nat := 0x3000000
/-- SIEVE block. -/
def offSieve : Nat := 0x3400000
/-- MEMC block. -/
def offMemc : Nat := 0x3800000
/-- BLOT block. -/
def offBlot : Nat := 0x3C00000
/-- DBG block. -/
def offDbg : Nat := 0x3E00000
/-- SEC block. -/
def offSec : Nat := 0x3F00000

def offTbaseCtl : Nat := offTbase + 0x30
def offPtpCfg : Nat := offTbase + 0x68
/-- PTP_PORT registers of a sub-port (R257). -/
def offPtpPort (n u : Nat) : Nat := offTbase + 0x10000 + 0x100 * n + 0x20 * u
def offStepCtl : Nat := offLaunch + 0x80000
def offLead : Nat := offLaunch + 0x50
def offTimeouts : Nat := offLaunch + 0x58
def offBoundLimit : Nat := offLaunch + 0x60
def offPaceTarget : Nat := offPace
def offPaceLimits : Nat := offPace + 0x8
def offPaceRate : Nat := offPace + 0x10
def offPaceTrim : Nat := offPace + 0x18
def offSpanCfg (n : Nat) : Nat := offSpan n
def offSpanTimers (n : Nat) : Nat := offSpan n + 0x8
def offSpanPool (n : Nat) : Nat := offSpan n + 0x18
def offSubMac (n u : Nat) : Nat := offSub n u + 0x28
def offSubCtl (n u : Nat) : Nat := offSub n u + 0x38
def offServCfg : Nat := offLedger + 0x100000
def offLaneTable : Nat := offLedger + 0x100008
def offEmitAddr : Nat := offLedger + 0x100010
def offFrameOffset : Nat := offLedger + 0x100018
def offSpillOffset : Nat := offLedger + 0x100020
def offLimits : Nat := offLedger + 0x100028
def offEpochCtl : Nat := offLedger + 0x100048
def offClass (c : Nat) : Nat := offLedger + 0x100100 + 8 * c
def offPolicy : Nat := offLedger + 0x100200
def offSieveCtl : Nat := offSieve
def offSalt (t : Nat) : Nat := offSieve + 0x10000 + 32 * t
def offStackCtl (s : Nat) : Nat := offMemc + 0x1000 * s + 0x20
def offDdrCtl (m : Nat) : Nat := offMemc + 0x10000 + 0x1000 * m + 0x20
def offLinkCfg : Nat := offMbox + 0x10
def offIrqStatus : Nat := offMbox + 0x18
def offIrqEnable : Nat := offMbox + 0x20
def offTokens : Nat := offMbox + 0x28
def offDoorbell (r : Nat) : Nat := offMbox + 0x1000 + 8 * r
def offRingCfg (r : Nat) : Nat := offMbox + 0x2008 + 16 * r
def offBedrockCmd : Nat := offMbox + 0x4008
def offBedrockArg : Nat := offMbox + 0x4010
def offBedrockDigest : Nat := offMbox + 0x4018
def offBedrockBuf : Nat := offMbox + 0x80000
def offBlotCtl : Nat := offBlot
def offAlarm : Nat := offBlot + 0x8
def offInbandCfg : Nat := offBlot + 0x4000
def offSinkAddr : Nat := offBlot + 0x4018
def offSinkPtr : Nat := offBlot + 0x4020
def offOobCfg : Nat := offBlot + 0x5000
def offRunCtl : Nat := offDbg + 0x40
def offBpCtl (i : Nat) : Nat := offDbg + 0x100 + 16 * i
def offUnitSel : Nat := offDbg + 0x200

/-- Reset value of the writable fields of the register at an offset, as its block's map states it; fields the map says come from
loam or identity hold 0 until boot sets them (log 7). -/
def regReset (off : Nat) : BitVec 256 :=
  let hit (base stride n : Nat) : Bool := base ≤ off && off < base + stride * n && (off - base) % stride == 0
  if off = offTbaseCtl then BitVec.ofNat 256 (2 ^ 4 + 100 * 2 ^ 5)
  else if off = offPtpCfg then BitVec.ofNat 256 (2 ^ 8 + 128 * 2 ^ 16 + 128 * 2 ^ 24)
  else if offPtpPort 0 0 ≤ off ∧ off < offPtpPort 50 0 ∧ (off - offPtpPort 0 0) % 0x20 = 0 then
    BitVec.ofNat 256 (0xC * 2 ^ 6 + 0xC * 2 ^ 10 + 2 ^ 14)
  else if off = offLead then 500
  else if off = offTimeouts then BitVec.ofNat 256 (10 + 1000 * 2 ^ 16)
  else if off = offBoundLimit then 100
  else if off = offStepCtl then 20000
  else if off = offPaceTarget then BitVec.ofNat 256 (2000 + 1000 * 2 ^ 24)
  else if off = offPaceLimits then BitVec.ofNat 256 (650 + 900 * 2 ^ 10 + 2200 * 2 ^ 20 + 50 * 2 ^ 32 + 100 * 2 ^ 40)
  else if off = offPaceRate then BitVec.ofNat 256 (50 + 64 * 2 ^ 16 + 750 * 2 ^ 32)
  else if hit (offSpanCfg 0) 0x10000 50 then BitVec.ofNat 256 (2 ^ 2 + 32 * 2 ^ 10 + 0x88B5 * 2 ^ 16)
  else if hit (offSpanTimers 0) 0x10000 50 then BitVec.ofNat 256 (8000 + 1000 * 2 ^ 20 + 200 * 2 ^ 32 + 100 * 2 ^ 44)
  else if hit (offSpanPool 0) 0x10000 50 then BitVec.ofNat 256 (256 + 4096 * 2 ^ 16 + 256 * 2 ^ 32 + 1024 * 2 ^ 48)
  else if off = offServCfg then BitVec.ofNat 256 (4 + 8 * 2 ^ 5 + 64 * 2 ^ 9 + 512 * 2 ^ 21)
  else if off = offEpochCtl then 4
  else if hit (offClass 0) 8 8 then BitVec.ofNat 256 (1 + 100 * 2 ^ 16)
  else if off = offPolicy then BitVec.ofNat 256 (1000 + 4 * 2 ^ 32)
  else if off = offSieveCtl then 1
  else if hit (offStackCtl 0) 0x1000 8 then BitVec.ofNat 256 (24 + 16 * 2 ^ 8)
  else if hit (offDdrCtl 0) 0x1000 8 then BitVec.ofNat 256 (24 + 16 * 2 ^ 8 + 4 * 2 ^ 24)
  else if off = offLinkCfg then 1000
  else if hit (offRingCfg 0) 16 16 then 16
  else if off = offBlotCtl then BitVec.ofNat 256 (1000 + 0x4F * 2 ^ 16)
  else 0

/-- The stored fields of the register at an offset. -/
def cfgReg (s : State) (off : Nat) : BitVec 256 := tget (regReset off) s.regs off

/-- Field `[hi:lo]` of the register at an offset. -/
def cfg (s : State) (off hi lo : Nat) : Nat := bitsOf (cfgReg s off).toNat hi lo

/-- Store a register whole. -/
def putReg (s : State) (off : Nat) (v : BitVec 256) : State := { s with regs := tset (regReset off) s.regs off v }

/-- Store field `[hi:lo]` of a register. -/
def putField (s : State) (off hi lo v : Nat) : State :=
  let old := (cfgReg s off).toNat
  let w := 2 ^ (hi + 1 - lo)
  putReg s off (BitVec.ofNat 256 (old - bitsOf old hi lo * 2 ^ lo + v % w * 2 ^ lo))

end Sys2Proof.Machine
end

