-- ==== Sys2Proof/Machine/Flags.lean ====
section
/-! DEFINITION. Bits, and the FLAGS that the device computes for a blotter entry. -/

namespace Sys2Proof.Machine

/-! ### Bits -/

/-- 1 for true. -/
def b2n (b : Bool) : Nat := if b then 1 else 0

/-- Bit `i` of a number. -/
def tb (v i : Nat) : Bool := v / 2 ^ i % 2 == 1

/-- Sum saturating at the top of the width. -/
def satAdd {w : Nat} (v : BitVec w) (n : Nat) : BitVec w := BitVec.ofNat w (min (v.toNat + n) (2 ^ w - 1))

/-! ### Events and their FLAGS (R382-R385) -/

/-- An event to log. -/
structure Ev where
  cls : Nat
  cause : Nat
  loc : BitVec 64 := 0
  a0 : BitVec 64 := 0
  a1 : BitVec 64 := 0
  die : Nat := 0
  tag : BitVec 16 := 0
  /-- Bit of BLOT.SUSPECT the event sets (R385). -/
  suspect : Option Nat := none
  record : Option (BitVec 512) := none

def clsFatal : Nat := 0
def clsStep : Nat := 1
def clsSpan : Nat := 2
def clsTime : Nat := 3
def clsMemory : Nat := 4
def clsServing : Nat := 5
def clsSecurity : Nat := 6
def clsTrace : Nat := 7

/-- The causes marked A, per class (R384, R418, R431, R446). -/
def alarmCauses (cls : Nat) : List Nat :=
  if cls = clsFatal then [1, 2, 3, 4]
  else if cls = clsSpan then [1, 2, 3, 4, 5, 6, 8, 9]
  else if cls = clsTime then [1, 2, 4, 7, 8, 9, 10, 11]
  else if cls = clsMemory then [1, 2, 4, 6]
  else if cls = clsServing then [1, 2]
  else if cls = clsSecurity then [1, 2, 3, 4, 5, 6, 8, 10, 11]
  else []

/-- FLAGS of an entry, less COALESCED. -/
def evFlags (s : State) (e : Ev) : BitVec 16 :=
  BitVec.ofNat 16 (b2n ((alarmCauses e.cls).contains e.cause) + 4 * b2n e.suspect.isSome + 8 * b2n (!s.time.timeValid)
    + 16 * b2n s.time.holdover)

end Sys2Proof.Machine
end

