-- ==== Sys2Proof/Machine/Ops.lean ====
section
/-! DEFINITION. Operations that many commands share: time, free values, sub-ports, the blotter and its streams, memory, units. -/

namespace Sys2Proof.Machine

/-- What every meaning answers: a next state. -/
abbrev Out := Host.Outcome State Fault Refusal

/-! ### Time (R245) -/

/-- A time value in nanoseconds, the fraction dropped. -/
def timeNs (t : TimeVal) : Nat := t.sec.toNat * 1000000000 + t.acc.toNat / 2 ^ 32

/-- A time value in units of 2⁻¹⁶ ns, in which times are compared: SEC, then NS, then FRAC (R245). -/
def timeUnits (t : TimeVal) : Nat := t.sec.toNat * 65536000000000 + t.acc.toNat / 2 ^ 16

/-- NS and FRAC of a time value, in units of 2⁻¹⁶ ns. -/
def tvUnits (t : TimeVal) : Nat := t.acc.toNat / 2 ^ 16

/-- Units of 2⁻¹⁶ ns in `n` ns. -/
def nsUnits (n : Nat) : Nat := n * 65536

/-- NS of a time value. -/
def tvNs (t : TimeVal) : Nat := t.acc.toNat / 2 ^ 32

/-- Nanoseconds since power-up's zero of the timebase, now. -/
def nowNs (s : State) : Nat := timeNs s.time.now

/-- The present time in units of 2⁻¹⁶ ns. -/
def nowUnits (s : State) : Nat := timeUnits s.time.now

/-- The time value of seconds and nanoseconds. -/
def mkTime (sec : BitVec 48) (ns : BitVec 32) : TimeVal := { sec, acc := BitVec.ofNat 62 (ns.toNat * 2 ^ 32) }

/-- The time value of a count of nanoseconds. -/
def ofNs (n : Nat) : TimeVal :=
  { sec := BitVec.ofNat 48 (n / 1000000000), acc := BitVec.ofNat 62 (n % 1000000000 * 2 ^ 32) }

/-! ### Free values (log 6) -/

/-- A free word, and the state that has drawn it. -/
def drawFree (w : Nat) (s : State) : BitVec w × State := (Config.freeBits w s.free, { s with free := s.free + 1 })

/-- `n` bytes that the manual does not give. -/
def freeBytes (n : Nat) (s : State) : Bytes × State := let d := drawFree (8 * n) s; (bytesOf n d.1, d.2)

/-! ### Sub-ports -/

/-- Key of sub-port `u` of port `n`. -/
def subKey (n u : Nat) : Nat := 8 * n + u

def getSub (s : State) (k : Nat) : SubSt := tget {} s.subs k

/-- SUB.STATUS.STATE code (R294). -/
def linkCode : LinkState → Nat
  | .off => 0
  | .training => 1
  | .up => 2
  | .plot => 3
  | .miswired => 4
  | .holding => 5
  | .down => 6
  | .fenced => 7

def setSub (s : State) (k : Nat) (b : SubSt) : State := { s with subs := tset {} s.subs k b }

def modSub (s : State) (k : Nat) (f : SubSt → SubSt) : State := setSub s k (f (getSub s k))

/-- Locator of a port in SPAN entries (R384). -/
def portLoc (n u : Nat) : BitVec 64 := BitVec.ofNat 64 (n + 64 * u)

/-- The header of a grain (R297). -/
def grainHeader (chan cls ty drops plot : Nat) : BitVec 64 :=
  BitVec.ofNat 64 (chan + cls * 2 ^ 12 + ty * 2 ^ 14 + drops * 2 ^ 18 + plot * 2 ^ 32)

/-- A grain not yet numbered; its CRC is formed when it is sent. -/
def mkGrain (header : BitVec 64) (payload : BitVec 2048) : Grain := { header, payload, crc := 0 }

/-! ### Blotter entries (R382-R384) -/

/-- The entry of an event as raised now, without its SEQ. -/
def mkEntry (s : State) (e : Ev) : BlotEntry :=
  { seq := 0, cls := BitVec.ofNat 3 e.cls, cause := BitVec.ofNat 8 e.cause, flags := evFlags s e
    timeS := BitVec.ofNat 64 s.time.now.sec.toNat, timeNs := BitVec.ofNat 32 (tvNs s.time.now), count := 1
    step := s.step.number, locator := e.loc, arg0 := e.a0, arg1 := e.a1, die := BitVec.ofNat 8 e.die, tag := e.tag
    record := e.record }

/-- Positions an entry takes (R383). -/
def entryLen (e : BlotEntry) : Nat := if e.record.isSome then 2 else 1

/-- The 64 bytes of an entry with its CHECK (R382). -/
def entryHead (e : BlotEntry) : Bytes :=
  let b := bytesOf 4 e.seq ++ [BitVec.ofNat 8 e.cls.toNat, e.cause] ++ bytesOf 2 e.flags ++ bytesOf 8 e.timeS ++ bytesOf 4 e.timeNs
    ++ bytesOf 4 e.count ++ bytesOf 8 e.step ++ bytesOf 8 e.locator ++ bytesOf 8 e.arg0 ++ bytesOf 8 e.arg1 ++ [e.die, 0]
    ++ bytesOf 2 e.tag
  b ++ bytesOf 4 (crc32c b)

/-- The bytes of an entry: one position, or two for a STEP_RECORD pair. -/
def entryBytes (e : BlotEntry) : Bytes :=
  entryHead e ++ (match e.record with | some r => bytesOf 64 r | none => [])

/-- The positions of an entry as 64-byte words. -/
def entryWords (e : BlotEntry) : List (BitVec 512) := dropsOf (entryLen e) (entryBytes e)

/-! ### In-band stream (R393-R396) -/

/-- A rate limit's debt after the time since it was last reckoned (R395, R398). -/
def paidDebt (debt at_ now rate : Nat) : Nat := debt - (now - at_) * rate

/-- The 256 bytes of a TELEMETRY grain (R393). -/
def telemetryPayload (s : State) : BitVec 2048 :=
  wordOf 2048 (bytesOf 8 s.boot.deviceId ++ natLe 2 s.blot.fill.length ++ natLe 2 0 ++ bytesOf 4 s.blot.streamSeq
    ++ List.replicate 48 0 ++ s.blot.fill.flatMap (bytesOf 64))

/-- A grain's payload reaches this device's sink ring (R396). -/
def sinkWrite (s : State) (payload : BitVec 2048) : State :=
  let len := cfg s offSinkPtr 23 0
  let head := cfg s offSinkPtr 63 32
  if len = 0 then { s with blot := { s.blot with noRoute := s.blot.noRoute + 1 } }
  else if (s.blot.sinkTail - BitVec.ofNat 32 head).toNat = len then
    { s with blot := { s.blot with sinkDropped := s.blot.sinkDropped + 1 } }
  else
    let a := cfg s offSinkAddr 63 0 + 256 * (s.blot.sinkTail.toNat % len)
    { s with host := writeRun 0 s.host a (bytesOf 256 payload), blot := { s.blot with sinkTail := s.blot.sinkTail + 1 } }

/-- The uplink of R394, if its sub-port carries the plot. -/
def uplink (s : State) : Option Nat :=
  let k := subKey (cfg s offInbandCfg 5 0) (cfg s offInbandCfg 8 6)
  if (getSub s k).state = .plot ∨ (getSub s k).state = .holding then some k else none

/-- A grain's payload goes to the uplink, or is counted in NO_ROUTE (R394). -/
def telemetryRoute (s : State) (payload : BitVec 2048) : State × Bool :=
  match uplink s with
  | some k => (modSub s k fun b => { b with q2 := b.q2 ++ [mkGrain (grainHeader 0 2 5 0 s.sec.plot.toNat) payload] }, true)
  | none => ({ s with blot := { s.blot with noRoute := s.blot.noRoute + 1 } }, false)

/-- The device sends the grain it holds (R393, R394). -/
def telemetrySend (s : State) : State :=
  if s.blot.fill = [] then s
  else
    let p := telemetryPayload s
    let s1 := { s with blot := { s.blot with fill := [] } }
    if cfg s offInbandCfg 10 10 = 1 then sinkWrite s1 p
    else
      let r := telemetryRoute s1 p
      if r.2 then { r.1 with blot := { r.1.blot with inSent := r.1.blot.inSent + 1, streamSeq := r.1.blot.streamSeq + 1 } } else r.1

/-- An entry enters the in-band stream, or is throttled (R392, R395). -/
def inbandTake (s : State) (e : BlotEntry) : State :=
  if cfg s offInbandCfg 9 9 = 0 ∨ tb (cfg s offInbandCfg 19 12) e.cls.toNat = false then s
  else
    let s0 := if s.blot.fill.length + entryLen e > 3 then telemetrySend s else s
    let debt := paidDebt s0.blot.inDebt s0.blot.inAt (nowNs s0) (cfg s0 offInbandCfg 35 20)
    if s0.blot.fill = [] ∧ debt + 1000000000 > 16000000000 then
      { s0 with blot := { s0.blot with inThrottled := s0.blot.inThrottled + 1 } }
    else
      let charged := if s0.blot.fill = [] then debt + 1000000000 else debt
      let s1 := { s0 with blot := { s0.blot with fill := s0.blot.fill ++ entryWords e, inDebt := charged, inAt := nowNs s0 } }
      if s1.blot.fill.length = 3 then telemetrySend s1 else s1

/-! ### Out-of-band queue (R397, R398) -/

/-- An entry enters the out-of-band queue, or is throttled. -/
def oobTake (s : State) (e : BlotEntry) : State :=
  if cfg s offOobCfg 7 7 = 0 ∨ tb (cfg s offOobCfg 23 16) e.cls.toNat = false then s
  else
    let debt := paidDebt s.blot.oobDebt s.blot.oobAt (nowNs s) (cfg s offOobCfg 39 24)
    if s.blot.oobQueue.length ≥ 256 ∨ debt + 1000000000 > cfg s offOobCfg 47 40 * 1000000000 then
      { s with blot := { s.blot with oobThrottled := s.blot.oobThrottled + 1 } }
    else
      { s with blot := { s.blot with
          oobQueue := s.blot.oobQueue ++ [e], oobDebt := debt + 1000000000, oobAt := nowNs s
          ibi := s.blot.ibi || s.blot.oobQueue.isEmpty } }

/-! ### Rings (R387-R390) -/

/-- Positions that entries use. -/
def positions (es : List BlotEntry) : Nat := (es.map entryLen).foldl (· + ·) 0

/-- Discard the oldest recent entries until `n` positions are free; the entries left and the number discarded (R387). -/
def makeRoom : List BlotEntry → Nat → List BlotEntry × Nat
  | [], _ => ([], 0)
  | e :: es, n => if positions (e :: es) + n ≤ 64 then (e :: es, 0) else let r := makeRoom es n; (r.1, r.2 + 1)

/-- A class ring with an entry added, and the entry as numbered (R387). -/
def ringAdd (r : ClassRing) (e : BlotEntry) : ClassRing × BlotEntry :=
  let e' := { e with seq := r.nextSeq }
  if positions r.pinned + entryLen e ≤ 64 then ({ r with pinned := r.pinned ++ [e'], nextSeq := r.nextSeq + 1 }, e')
  else
    let m := makeRoom r.recent (entryLen e)
    ({ r with recent := m.1 ++ [e'], nextSeq := r.nextSeq + 1, lost := satAdd r.lost m.2 }, e')

/-- An entry is written: ring, PENDING, streams. -/
def blotWrite (s : State) (e : BlotEntry) : State :=
  let r := ringAdd (tget {} s.blot.rings e.cls.toNat) e
  let s1 := { s with blot := { s.blot with
    rings := tset {} s.blot.rings e.cls.toNat r.1
    alarm := if tb e.flags.toNat 0 then s.blot.alarm ||| BitVec.ofNat 8 (2 ^ e.cls.toNat) else s.blot.alarm } }
  oobTake (inbandTake s1 r.2) r.2

/-- Whether a window is the one of a key (R389). -/
def windowIs (cls : BitVec 3) (cause : BitVec 8) (loc : BitVec 64) (w : AlarmWindow) : Bool :=
  w.cls == cls && w.cause == cause && w.locator == loc

/-- An event is raised: it is counted (R388), and written or coalesced (R389). -/
def logRaw (s : State) (e : Ev) : State :=
  let ent := mkEntry s e
  let ck := 256 * e.cls + e.cause
  let s1 := { s with blot := { s.blot with
    counts := tset 0 s.blot.counts ck (satAdd (tget 0 s.blot.counts ck) 1)
    suspect := match e.suspect with | some i => s.blot.suspect ||| BitVec.ofNat 4 (2 ^ i) | none => s.blot.suspect } }
  if (alarmCauses e.cls).contains e.cause then
    if s1.blot.windows.any (windowIs ent.cls ent.cause ent.locator) then
      let bump := fun w => if windowIs ent.cls ent.cause ent.locator w then { w with count := satAdd w.count 1, last := ent } else w
      { s1 with blot := { s1.blot with windows := s1.blot.windows.map bump } }
    else
      let s2 := if s1.blot.windows.length < 256 then
        { s1 with blot := { s1.blot with windows := s1.blot.windows ++
            [{ cls := ent.cls, cause := ent.cause, locator := ent.locator, count := 0, last := ent }] } } else s1
      blotWrite s2 ent
  else blotWrite s1 ent

/-- ALERT_N asserted (R390). -/
def alertAsserted (s : State) : Bool :=
  s.boot.alertN || tb s.blot.alarm.toNat 0 || (s.blot.alarm.toNat &&& cfg s offBlotCtl 23 16) != 0

/-! ### Addresses (R35, R36) -/

/-- What an address decodes to. -/
inductive Place where
  | slab (tile off : Nat)
  | commons (core off : Nat)
  | stack (pc off : Nat)
  | dimm (ch off : Nat)
  | control (off : Nat)
  | unmapped
deriving DecidableEq, Repr

/-- Decode a device address (R35). -/
def decodeAddr (a : Nat) : Place :=
  if a < 0x000200000000 then .slab (a / 2 ^ 22) (a % 2 ^ 22)
  else if a < 0x000300000000 then .commons ((a - 0x000200000000) / 2 ^ 26) (a % 2 ^ 26)
  else if 0x008000000000 ≤ a ∧ a < 0x010000000000 then .stack ((a - 0x008000000000) / 2 ^ 30) (a % 2 ^ 30)
  else if 0x040000000000 ≤ a ∧ a < 0x060000000000 then .dimm ((a - 0x040000000000) / 2 ^ 38) (a % 2 ^ 38)
  else if 0xFF0000000000 ≤ a ∧ a < 0xFF0004000000 then .control (a - 0xFF0000000000)
  else .unmapped

/-- Address of a slab. -/
def slabAddr (tile : Nat) : Nat := tile * 2 ^ 22

/-- Address of a commons. -/
def commonsAddr (core : Nat) : Nat := 0x000200000000 + core * 2 ^ 26

/-- Ruled index of tile `j` of core `c`. -/
def tileIx (c j : Nat) : Nat := c * 24 + j

def getDdr (s : State) (m : Nat) : DdrSt := tget {} s.ddrs m

/-- Size in bytes that channel `m` backs (R34): its DIMM's, while ACTIVE. -/
def dimmBytes (s : State) (m : Nat) : Nat :=
  let d := getDdr s m
  if d.state = 2 then d.sizeGib.toNat * 2 ^ 30 else 0

/-- The address is mapped and backed, outside control space (R34, R36). -/
def backed (s : State) (a : Nat) : Bool :=
  match decodeAddr a with
  | .slab t _ => decide (t < 1536)
  | .commons _ _ => true
  | .stack _ _ => true
  | .dimm m o => decide (o < dimmBytes s m)
  | .control _ => false
  | .unmapped => false

/-- A range of `n` bytes is mapped and backed: strata 0 to 2 are backed
without holes from their base up, so both ends tell, and in stratum 3 a window that the range leaves must be backed whole (R34). -/
def backedRange (s : State) (a n : Nat) : Bool :=
  match n with
  | 0 => true
  | n + 1 =>
    match decodeAddr a, decodeAddr (a + n) with
    | .slab _ _, .slab t _ => decide (t < 1536)
    | .commons _ _, .commons _ _ => true
    | .stack _ _, .stack _ _ => true
    | .dimm m _, .dimm m' o =>
      (List.range (m' - m)).all (fun i => decide (dimmBytes s (m + i) = 2 ^ 38)) && decide (o < dimmBytes s m')
    | _, _ => false

/-! ### Memory -/

/-- The byte at an address, as committed. -/
def memByte (s : State) (a : Nat) : Byte := tget 0 s.mem a

/-- The byte a unit of the step reads: the step copy where the step wrote one (R70). -/
def stepByte (s : State) (a : Nat) : Byte :=
  match tget none s.overlay a with | some b => b | none => memByte s a

/-- `n` bytes as committed. -/
def memRead (s : State) (a n : Nat) : Bytes := readRun 0 s.mem a n

/-- `n` bytes as a unit of the step reads them. -/
def stepRead (s : State) (a : Nat) : Nat → Bytes
  | 0 => []
  | n + 1 => stepByte s a :: stepRead s (a + 1) n

/-- Bytes are stored. -/
def memWrite (s : State) (a : Nat) (bs : Bytes) : State := { s with mem := writeRun 0 s.mem a bs }

/-- Bytes are stored to the step copy (R70). -/
def overlayRun (t : Tbl (Option Byte)) (a : Nat) : Bytes → Tbl (Option Byte)
  | [] => t
  | b :: bs => overlayRun (tset none t a (some b)) (a + 1) bs

def stepCopyWrite (s : State) (a : Nat) (bs : Bytes) : State := { s with overlay := overlayRun s.overlay a bs }

/-- The step copy becomes current (R70). -/
def overlayMerge (mem : Tbl Byte) : Tbl (Option Byte) → Tbl Byte
  | [] => mem
  | (a, some b) :: t => overlayMerge (tset 0 mem a b) t
  | (_, none) :: t => overlayMerge mem t

/-- `n` bytes of host memory as a view shows them. -/
def hostView (v : HostView) (a : Nat) : Nat → Bytes
  | 0 => []
  | n + 1 => ((v.find? fun e => e.1 == a).elim 0 Prod.snd) :: hostView v (a + 1) n

/-- Bytes are written to host memory by the device. -/
def hostWrite (s : State) (a : Nat) (bs : Bytes) : State := { s with host := writeRun 0 s.host a bs }

/-! ### Units -/

/-- Key of the scribe of ruled core `c`. -/
def scribeKey (c : Nat) : Nat := 32 * c + 31

/-- Key of engine tile `j` of ruled core `c`. -/
def tileKey (c j : Nat) : Nat := 32 * c + j

/-- Key of die mover `m`. -/
def moverKey (m : Nat) : Nat := 2048 + m

def getUnit (s : State) (k : Nat) : UnitSt := tget {} s.units k

def setUnit (s : State) (k : Nat) (u : UnitSt) : State := { s with units := tset {} s.units k u }

def modUnit (s : State) (k : Nat) (f : UnitSt → UnitSt) : State := setUnit s k (f (getUnit s k))

/-- Die whose hub serves a span port: that of its lane group, 13 groups a die (R12, R40); die 0 for a port with none. -/
def portDie (s : State) (n : Nat) : Nat :=
  let g := (tget {} s.ports n).group.toNat
  if g < 52 then g / 13 else 0

/-- Die of what lies at an address: 16 cores, two stacks, two DDR channels a die (R12, R40). -/
def addrDie (a : Nat) : Nat :=
  match decodeAddr a with
  | .slab t _ => t / 24 / 16
  | .commons c _ => c / 16
  | .stack pc _ => pc / 64 / 2
  | .dimm m _ => m / 2
  | _ => 0

/-- Die that a unit's key lies on: 16 cores a die, 2 movers a die (R12). -/
def unitDie (k : Nat) : Nat := if k < 2048 then k / 512 else (k - 2048) / 2

/-! ### Channels -/

def getChan (s : State) (ch : Nat) : List Drop := tget [] s.chans ch

def setChan (s : State) (ch : Nat) (ds : List Drop) : State := { s with chans := tset [] s.chans ch ds }

end Sys2Proof.Machine
end

