-- ==== Sys2Proof/Machine/LaunchOps.lean ====
section
/-! DEFINITION. Launch messages on the plot's trees (R261, R263, R271) and the dry hold (R272). -/

namespace Sys2Proof.Machine

/-! ### Message layout (R263) -/

/-- TYPE of a launch message. -/
def launchType : LaunchBody → Nat
  | .census .. => 1
  | .digest .. => 2
  | .commit .. => 3
  | .endN .. => 4
  | .hold .. => 5
  | .holdEnd .. => 6
  | .staged .. => 7

/-- Bytes 24 and up of a message. -/
def launchTail : LaunchBody → Bytes
  | .census tag a r q f m => bytesOf 8 tag ++ bytesOf 4 a ++ bytesOf 4 r ++ bytesOf 4 q ++ bytesOf 4 f ++ bytesOf 4 m
  | .digest d => natLe 8 0 ++ bytesOf 32 d
  | .commit tag sec ns => bytesOf 8 tag ++ bytesOf 8 sec ++ bytesOf 4 ns
  | .endN n st => bytesOf 4 n ++ [st]
  | .hold p u d => [p, u, 0, 0] ++ bytesOf 4 d
  | .holdEnd p u d o => [p, u, 0, 0] ++ bytesOf 4 d ++ [o]
  | .staged e a => bytesOf 4 e ++ bytesOf 4 a

/-- The 256-byte payload of a launch message. -/
def launchPayload (m : LaunchMsg) : BitVec 2048 :=
  wordOf 2048 ([BitVec.ofNat 8 (launchType m.body), m.hdr.tree, m.hdr.hops, 0] ++ bytesOf 4 m.hdr.origin ++ bytesOf 8 m.hdr.job
    ++ bytesOf 8 m.hdr.step ++ launchTail m.body)

/-- The seconds of a launch time lie in `[47:0]`; the bits above are reserved (R263, R245). -/
def secondsOk : LaunchBody → Bool
  | .commit _ sec _ => decide (sec.toNat < 2 ^ 48)
  | _ => true

/-- The message a payload spells; none for an unlisted TYPE or a nonzero byte that the layout leaves 0 (R263). -/
def launchParse (p : BitVec 2048) : Option LaunchMsg :=
  let b := bytesOf 256 p
  let f (w o n : Nat) : BitVec w := fieldAt w b o n
  let body : Option LaunchBody := match (f 8 0 1).toNat with
    | 1 => some (.census (f 64 24 8) (f 32 32 4) (f 32 36 4) (f 32 40 4) (f 32 44 4) (f 32 48 4))
    | 2 => some (.digest (f 256 32 32))
    | 3 => some (.commit (f 64 24 8) (f 64 32 8) (f 32 40 4))
    | 4 => some (.endN (f 32 24 4) (f 8 28 1))
    | 5 => some (.hold (f 8 24 1) (f 8 25 1) (f 32 28 4))
    | 6 => some (.holdEnd (f 8 24 1) (f 8 25 1) (f 32 28 4) (f 8 32 1))
    | 7 => some (.staged (f 32 24 4) (f 32 28 4))
    | _ => none
  match body with
  | none => none
  | some body =>
    let m : LaunchMsg := { hdr := { tree := f 8 1 1, hops := f 8 2 1, origin := f 32 4 4, job := f 64 8 8, step := f 64 16 8 }, body }
    if launchPayload m = p ∧ m.hdr.tree.toNat ≤ 1 ∧ secondsOk m.body = true then some m else none

/-! ### Trees (R261, R348) -/

/-- Role of a topology entry in tree `a`: 1 parent, 2 child. -/
def treeRole (a : Nat) (e : TopoEnt) : Nat := bitsOf e.role.toNat (2 * a + 1) (2 * a)

/-- Sub-port key of a topology entry. -/
def topoKey (e : TopoEnt) : Nat := subKey e.port.toNat e.sub.toNat

/-- Parent sub-port in tree `a`. -/
def treeParent (s : State) (a : Nat) : Option Nat := (s.sec.topo.find? fun e => treeRole a e == 1).map topoKey

/-- Child sub-ports in tree `a`. -/
def treeChildren (s : State) (a : Nat) : List Nat := (s.sec.topo.filter fun e => treeRole a e == 2).map topoKey

/-- Whether a sub-port carries the plot's grains, or keeps them through a hold (R312). -/
def carries (s : State) (k : Nat) : Bool := (getSub s k).state == .plot || (getSub s k).state == .holding

/-- A launch message joins the class-0 queue of a sub-port (R273). -/
def sendLaunch (s : State) (k : Nat) (m : LaunchMsg) : State :=
  if carries s k then
    modSub s k fun b => { b with q0 := b.q0 ++ [mkGrain (grainHeader 0 0 4 0 s.sec.plot.toNat) (launchPayload m)] }
  else s

/-- The message on tree `a`. -/
def onTree (a : Nat) (m : LaunchMsg) : LaunchMsg := { m with hdr := { m.hdr with tree := BitVec.ofNat 8 a } }

/-- Send to each of a list of sub-ports. -/
def sendAll (s : State) (m : LaunchMsg) : List Nat → State
  | [] => s
  | k :: ks => sendAll (sendLaunch s k m) m ks

/-- Tree neighbours in tree `a`: the parent and the children. -/
def treeNeighbours (s : State) (a : Nat) : List Nat := (treeParent s a).toList ++ treeChildren s a

/-- Flood over both trees to every neighbour but the one the message came from (R271). -/
def flood (s : State) (m : LaunchMsg) (source : Option Nat) : State :=
  let out (a : Nat) := (treeNeighbours s a).filter fun k => some k != source
  sendAll (sendAll s (onTree 0 m) (out 0)) (onTree 1 m) (out 1)

/-- What identifies a flooded message (R271). -/
def floodId (m : LaunchMsg) : BitVec 32 × Nat × BitVec 64 × Nat × Nat :=
  let xy : Nat × Nat := match m.body with
    | .hold p u _ => (p.toNat, u.toNat)
    | .holdEnd p u _ _ => (p.toNat, u.toNat)
    | .staged e a => (e.toNat, a.toNat)
    | _ => (0, 0)
  (m.hdr.origin, launchType m.body, m.hdr.step, xy.1, xy.2)

/-- This device creates a flooded message (R271). -/
def originate (s : State) (step : BitVec 64) (body : LaunchBody) : State :=
  let m : LaunchMsg := { hdr := { tree := 0, hops := 0, origin := s.sec.position, job := s.launch.armRec.job, step }, body }
  flood { s with launch := { s.launch with seen := floodId m :: s.launch.seen } } m none

/-- This device originates an END for one step (R74). -/
def sendEnd (s : State) (step : BitVec 64) (status : Nat) : State := originate s step (.endN 1 (BitVec.ofNat 8 status))

/-- Whether a hold record is the one a HOLD_END names. -/
def holdIs (origin : BitVec 32) (port sub : BitVec 8) (h : HoldRec) : Bool := h.origin == origin && h.port == port && h.sub == sub

/-- This device announces a hold (R312, R426): it enters the dry hold and tells the plot. -/
def beginHold (s : State) (port sub : Nat) (dryMs : BitVec 32) : State :=
  let r : HoldRec := { origin := s.sec.position, step := s.step.number, port := BitVec.ofNat 8 port, sub := BitVec.ofNat 8 sub, dryMs }
  originate { s with launch := { s.launch with holds := s.launch.holds ++ [r], heldSince := true } } s.step.number (.hold r.port r.sub dryMs)

/-- This device ends a hold it announced (R313, R314, R426). -/
def endHold (s : State) (port sub : Nat) (dryMs : BitVec 32) (outcome : Nat) : State :=
  let p := BitVec.ofNat 8 port
  let u := BitVec.ofNat 8 sub
  let st := match s.launch.holds.find? (holdIs s.sec.position p u) with | some h => h.step | none => s.step.number
  originate { s with launch := { s.launch with holds := s.launch.holds.filter fun h => !holdIs s.sec.position p u h } } st
    (.holdEnd p u dryMs (BitVec.ofNat 8 outcome))

/-- LAUNCH.STEP_CTL.DRY_HOLD (R272). -/
def dryHold (s : State) : Bool := !s.launch.holds.isEmpty

/-! ### Conditions of the running step (R4, R66) -/

/-- A condition arises in the running step. -/
def raiseCond (s : State) (code : Nat) : State := { s with step := { s.step with conds := s.step.conds ||| BitVec.ofNat 16 (2 ^ code) } }

/-- The conditions that fail a step: bits 3, 4, 5, 6, 8 and 9 (R66). -/
def failMask : BitVec 16 := 0b0000001101111000

/-- The status code of a condition mask: its highest bit, 0 for none (R4). -/
def statusOf (m : BitVec 16) : Nat := if m = 0 then 0 else Nat.log2 m.toNat

/-! ### Halting (R424-R426) -/

/-- Locator of R64. -/
def skipLocator (cause core tile index : Nat) : BitVec 64 :=
  BitVec.ofNat 64 (cause % 256 + core % 64 * 2 ^ 8 + tile % 32 * 2 ^ 14 + index % 2 ^ 32 * 2 ^ 32)

/-- Keys of the 25 units of a ruled core. -/
def coreUnits (c : Nat) : List Nat := (List.range 24).map (tileKey c) ++ [scribeKey c]

/-- Whether any unit is halted. -/
def anyHalted (s : State) : Bool := s.units.any fun e => e.2.halted

/-- DRY_MS that a halt announces: the plot's dry time, or all ones on a debug plot (R426). -/
def haltDry (s : State) : BitVec 32 := if s.sec.debug then 0xFFFFFFFF else s.sec.dryMs

/-- Halt the units of the list. -/
def haltUnits (s : State) : List Nat → State
  | [] => s
  | k :: ks => haltUnits (modUnit s k fun u => { u with halted := true }) ks

/-- A unit that runs on. -/
def runOn (u : UnitSt) : UnitSt := { u with halted := false, oneMore := false, oneStroke := false, passBp := false }

/-- No unit is halted any more; the others are as they were. -/
def clearHalts (s : State) : State :=
  { s with units := s.units.filterMap fun e => let u := runOn e.2; if u = {} then none else some (e.1, u) }

/-- The hold that a halt announced ends with an outcome (R426). -/
def endHaltHold (s : State) (outcome : Nat) : State :=
  if s.dbg.holdSent then endHold { s with dbg := { s.dbg with holdSent := false } } 0xFF 0xFF (haltDry s) outcome else s

/-- The halts of a step that ends or is voided end with it (R431), but for those that have outlasted dry time (R426). -/
def endHalts (s : State) : State := if s.dbg.haltBlotted || !anyHalted s then s else endHaltHold (clearHalts s) 0

/-- Keys of every unit that halting the device reaches. -/
def allUnits : List Nat := (List.range 64).flatMap coreUnits

/-! ### Breakpoints (R427, R428) -/

def getBp (s : State) (i : Nat) : Breakpoint := tget {} s.dbg.bps i

/-- Field `[hi:lo]` of a breakpoint's CTL. -/
def bpField (b : Breakpoint) (hi lo : Nat) : Nat := bitsOf b.ctl.toNat hi lo

/-- Breakpoint `i` is of a kind and armed in the running step (R427). -/
def bpArmed (s : State) (kind i : Nat) : Bool :=
  bpField (getBp s i) 2 0 == kind && (bpField (getBp s i) 18 18 == 0 || (s.step.running && (getBp s i).step == s.step.number))

/-- HIT is set in each breakpoint of a list. -/
def bpHits (s : State) : List Nat → State
  | [] => s
  | i :: is =>
    bpHits { s with dbg := { s.dbg with bps := tmod {} s.dbg.bps i fun b => { b with ctl := b.ctl ||| BitVec.ofNat 64 (2 ^ 19) } } } is

/-- SEQ of the next entry of a class. -/
def nextSeqOf (s : State) (cls : Nat) : BitVec 32 := (tget {} s.blot.rings cls).nextSeq

/-- BLOTTER breakpoints that a written entry of a class meets (R427). -/
def blotMet (s : State) (cls : Nat) (written : Bool) : List Nat :=
  if written then (List.range 16).filter fun i => bpArmed s 4 i && bpField (getBp s i) 17 15 == cls else []

/-- Units halt; the first halt of an open plot announces a hold (R426). `loc` is the locator logged, `bp` the breakpoint or 0xFF. The HALT entry
itself meets the BLOTTER breakpoints of its class, which halt the whole device and log no second halt (R427). -/
def haltWith (s : State) (units : List Nat) (loc : BitVec 64) (bp : Nat) : State :=
  let first := !anyHalted s
  let s1 := logRaw (haltUnits s units) { cls := clsTrace, cause := 2, loc, a0 := BitVec.ofNat 64 bp }
  let met := blotMet s1 clsTrace (nextSeqOf s1 clsTrace != nextSeqOf s clsTrace)
  let s2 := if met.isEmpty then s1 else haltUnits (bpHits s1 met) allUnits
  if first && s.sec.isOpen && !s2.dbg.holdSent then
    beginHold { s2 with dbg := { s2.dbg with holdSent := true } } 0xFF 0xFF (haltDry s2)
  else s2

/-- Breakpoints fire at a unit of core `c`: HIT in each, one halt, of the device when some ACTION is 1 (R427). -/
def bpFire (s : State) (c : Nat) (loc : BitVec 64) (fired : List Nat) : State :=
  let dev := fired.any fun i => bpField (getBp s i) 3 3 == 1
  haltWith (bpHits s fired) (if dev then allUnits else coreUnits c) loc (fired.headD 0xFF)

/-- BLOTTER breakpoints of a class halt the device when an entry of it is written (R427). -/
def blotBreak (s : State) (cls : Nat) (written : Bool) : State :=
  match blotMet s cls written with
  | [] => s
  | i :: is => haltWith (bpHits s (i :: is)) allUnits 0 i

/-- An event is raised: counted, written or coalesced, and met by the BLOTTER breakpoints. -/
def logEv (s : State) (e : Ev) : State :=
  let s1 := logRaw s e
  blotBreak s1 e.cls (nextSeqOf s1 e.cls != nextSeqOf s e.cls)

end Sys2Proof.Machine
end

