-- ==== Sys2Proof/Machine/Operands.lean ====
section
/-! DEFINITION. Operand forms of the engines: the 17-bit location field, and the fields of a command word. -/

namespace Sys2Proof.Machine

/-! ### Locations (R106) -/

/-- A 17-bit location field. -/
inductive LocRef where
  | slab (off : Nat)
  | port (p : Nat)
  | bad
deriving DecidableEq, Repr

/-- Decode a location field: slab offset in bytes, or a port. -/
def locRef (v : BitVec 17) : LocRef :=
  let n := v.toNat
  if n < 2 ^ 16 then .slab (n * 64) else if bitsOf n 15 4 = 0 then .port (n % 16) else .bad

/-- Check-1 failure of a location field. -/
def locBad (v : BitVec 17) : Bool := locRef v == .bad

/-! ### Fields of a command word (R105, R113, R175) -/

/-- Little-endian fields of a command word from bit 8 up: `n` bits at the offset. -/
def wf (w : CmdWord) (hi lo : Nat) : Nat := bitsOf w.toNat hi lo

/-- A command word from its fields with their widths, opcode first. -/
def mkWord (fs : List (Nat × Nat)) : CmdWord := BitVec.ofNat 128 (fs.foldr (fun f acc => f.2 % 2 ^ f.1 + 2 ^ f.1 * acc) 0)

/-- The WAIT word of every class. -/
def waitWord (n : Nat) : CmdWord := mkWord [(8, 0), (16, n)]

end Sys2Proof.Machine
end

