-- ==== Sys2Proof/Machine/Engine.lean ====
section
/-! DEFINITION. What every engine tile and scribe shares: channels, allocation, the checks of R62, null commands, issue and stretching. -/

namespace Sys2Proof.Machine

/-! ### The live sheet (R58, R165) -/

/-- A core's part of the live sheet. -/
def liveCore (s : State) (c : Nat) : CoreSheet := match s.sheets.live with | some sh => tget {} sh.cores c | none => {}

/-- Channel entries of the live sheet. -/
def liveChans (s : State) : List (BitVec 128) := match s.sheets.live with | some sh => sh.channels | none => []

/-- An allocation entry (R58). -/
structure Alloc where
  base : Nat
  size : Nat
  kind : Nat
  owner : Nat
  write : Bool
  read : Bool
  valid : Bool
deriving DecidableEq, Repr

/-- Decode an allocation entry: BASE and SIZE in bytes. -/
def allocOf (v : BitVec 128) : Alloc :=
  let n := v.toNat
  { base := bitsOf n 47 6 * 64, size := bitsOf n 105 64 * 64, kind := bitsOf n 108 106, owner := bitsOf n 113 109
    write := tb n 114, read := tb n 115, valid := tb n 127 }

/-- The valid allocation entries of a ruled core. -/
def allocs (s : State) (c : Nat) : List Alloc := ((liveCore s c).alloc.map allocOf).filter (·.valid)

/-- A range lies wholly inside an entry. -/
def inEntry (a n : Nat) (e : Alloc) : Bool := decide (e.base ≤ a) && decide (a + n ≤ e.base + e.size)

/-- The entry of a core that a range lies inside. -/
def entryOf (s : State) (c a n : Nat) : Option Alloc := (allocs s c).find? (inEntry a n)

/-- A channel entry's fields (R165). -/
def chIndex (v : BitVec 128) : Nat := bitsOf v.toNat 13 0
def chKind (v : BitVec 128) : Nat := bitsOf v.toNat 15 14
def chProducer (v : BitVec 128) : Nat := bitsOf v.toNat 35 16
def chConsumer (v : BitVec 128) : Nat := bitsOf v.toNat 55 36
def chDepth (v : BitVec 128) : Nat := bitsOf v.toNat 72 56
def chBacking (v : BitVec 128) : Nat := bitsOf v.toNat 78 73
def chSpan (v : BitVec 128) : Nat := bitsOf v.toNat 90 79

/-- An endpoint of a tile or scribe (R51). -/
def endpoint (c tile port : Nat) : Nat := c + tile * 2 ^ 6 + port * 2 ^ 11

/-- Tile field of an endpoint. -/
def epTile (e : Nat) : Nat := bitsOf e 10 6

/-- Span port of an endpoint whose tile field is 0x1D (R51). -/
def epSpanPort (e : Nat) : Nat := bitsOf e 19 15 + 32 * (e % 2)

/-- The channel an input port consumes. -/
def inChan (s : State) (c tile port : Nat) : Option Nat :=
  ((liveChans s).find? fun v => chConsumer v == endpoint c tile port).map chIndex

/-- The channel an output port feeds. -/
def outChan (s : State) (c tile port : Nat) : Option Nat :=
  ((liveChans s).find? fun v => chProducer v == endpoint c tile port).map chIndex

/-- The entry of a channel. -/
def chanEntry (s : State) (ch : Nat) : Option (BitVec 128) := (liveChans s).find? fun v => chIndex v == ch

/-- Drops a channel holds at most. -/
def chanDepth (s : State) (ch : Nat) : Nat := match chanEntry s ch with | some v => chDepth v | none => 0

/-! ### Moving drops (R50) -/

/-- Key of a span channel of a sub-port: `4096 * sub-port key + span channel`. -/
def spanKey (sub ch : Nat) : Nat := 4096 * sub + ch

/-- Inbound span channel of a channel entry: sub-port key and span channel (R51, R308). -/
def inboundOf (v : BitVec 128) : Option (Nat × Nat) :=
  if epTile (chProducer v) = 0x1D then some (subKey (epSpanPort (chProducer v)) (bitsOf (chProducer v) 14 11), chSpan v)
  else none

/-- What `n` drops that leave an inbound channel pay back, and the grains still in it: a partial grain's unused drops return with its last
drop, and drops filled in again from RETAIN pay nothing, since their credit came back when the void discarded them (R304, R71). -/
def payFifo : List (Nat × Nat × Bool) → Nat → Nat × List (Nat × Nat × Bool)
  | [], n => (n, [])
  | q, 0 => (0, q)
  | (r, u, p) :: q, n + 1 =>
    if n + 1 < r then (if p then n + 1 else 0, (r - (n + 1), u, p) :: q)
    else
      let t := payFifo q (n + 1 - r)
      ((if p then r + u else 0) + t.1, t.2)

/-- Drops leave an inbound span channel: their room comes free (R304). -/
def drainSpan (b : SubSt) (sc n : Nat) : SubSt :=
  let t := payFifo (tget [] b.fifo sc) n
  { b with drained := tmod 0 b.drained sc (· + t.1), fifo := tset [] b.fifo sc t.2 }

/-- What taking `n` drops off a channel means to its span: they are consumed (R73) and their room comes free (R304). -/
def noteTaken (s : State) (ch n : Nat) : State :=
  match (chanEntry s ch).bind inboundOf with
  | none => s
  | some (k, sc) =>
    if n = 0 then s
    else
      let s1 := modSub s k fun b => drainSpan b sc n
      { s1 with step := { s1.step with
          consumed := if s1.step.consumed.contains (spanKey k sc) then s1.step.consumed else spanKey k sc :: s1.step.consumed } }

/-- Take up to `n` drops off a channel. -/
def takeDrops (s : State) (ch n : Nat) : List Drop × State :=
  let ds := getChan s ch
  let t := ds.take n
  (t, noteTaken (setChan s ch (ds.drop n)) ch t.length)

/-- Inputs of a command by channel and count: what is there is taken; the channel first short, if any. -/
def gather (s : State) : List (Nat × Nat) → List (Nat × List Drop) → State × List (Nat × List Drop) × Option Nat
  | [], _ => (s, [], none)
  | (ch, n) :: ds, got =>
    let g := (got.headD (ch, [])).2
    let t := takeDrops s ch (n - g.length)
    let g' := g ++ t.1
    let r := gather t.2 ds got.tail
    (r.1, (ch, g') :: r.2.1, if g'.length < n then some ch else r.2.2)

/-- Outputs are given in order while their channels have space (R50); what is left. -/
def pump (s : State) : List (Nat × Drop) → State × List (Nat × Drop)
  | [] => (s, [])
  | (ch, d) :: out =>
    let ds := getChan s ch
    if ds.length < chanDepth s ch then pump (setChan s ch (ds ++ [d])) out else (s, (ch, d) :: out)

/-! ### Stores of a unit (R70) -/

/-- Bytes stored by a unit of core `c`: to the step copy of a PERSISTENT or FOLIO region, else to memory. -/
def unitStore (s : State) (c a : Nat) (bs : Bytes) : State :=
  match entryOf s c a bs.length with
  | some e => if e.kind = 1 ∨ e.kind = 4 then stepCopyWrite s a bs else memWrite s a bs
  | none => memWrite s a bs

/-- Patch a run of bytes at `a` with the bytes of a write that fall in it. -/
def patchRun (a : Nat) (bs : Bytes) (wa : Nat) (ws : Bytes) : Bytes :=
  (List.range bs.length).map fun i =>
    if wa ≤ a + i ∧ a + i < wa + ws.length then ws.getD (a + i - wa) 0 else bs.getD i 0

/-- What a load at stroke `r` reads at `a`: writes of the log with `w + 4 ≤ r` over what the step reads (R53). -/
def slabRead (s : State) (log : List SlabWrite) (r a n : Nat) : Bytes :=
  log.foldl (fun bs w => if w.stroke + 4 ≤ r then patchRun a bs w.addr w.bytes else bs) (stepRead s a n)

/-- Slab writes that every later load sees are stored; the rest stay in the log. -/
def settleSlab (s : State) (c r : Nat) : List SlabWrite → State × List SlabWrite
  | [] => (s, [])
  | w :: ws => if w.stroke + 4 ≤ r then settleSlab (unitStore s c w.addr w.bytes) c r ws else (s, w :: ws)

/-- Every write of a log is stored. -/
def flushSlab (s : State) (c : Nat) : List SlabWrite → State
  | [] => s
  | w :: ws => flushSlab (unitStore s c w.addr w.bytes) c ws

/-! ### Checks (R62) -/

/-- A byte range a command names. -/
structure Range where
  addr : Nat
  len : Nat
  write : Bool
deriving DecidableEq, Repr

/-- What a command names, for the checks. -/
structure Names where
  illegal : Bool := false
  misaligned : Bool := false
  inPorts : List Nat := []
  outPorts : List Nat := []
  ranges : List Range := []
  bad : Bool := false

/-- The range meets the live sheet slot of a core (R78). -/
def meetsLive (s : State) (r : Range) : Bool :=
  s.sheets.live.isSome && (List.range 64).any fun c =>
    let lo := commonsAddr c + 0x3800000 + s.sheets.liveSlot.toNat * 0x400000
    decide (r.addr < lo + 0x400000) && decide (lo < r.addr + r.len)

/-- Check 4 passes on a range. -/
def rangeBound (s : State) (c : Nat) (r : Range) : Bool :=
  r.len == 0 || (backedRange s r.addr r.len &&
    (match decodeAddr r.addr with | .dimm .. => true | _ => (entryOf s c r.addr r.len).isSome))

/-- Check 5 passes on a range, for the unit whose allocation owner value is `own`; on a stratum-3 range it always fails (R60). -/
def rangeOwned (s : State) (c own : Nat) (r : Range) : Bool :=
  r.len == 0 || (match decodeAddr r.addr, entryOf s c r.addr r.len with
    | .dimm .., _ => false
    | _, some e => e.owner == own && (if r.write then e.write else e.read)
    | _, none => false)

/-- The first check that fails, as its cause value (R62); `extra` is what else check 5 asks of the unit. -/
def checkCause (s : State) (c tile : Nat) (m : Names) (extra : Bool) : Option Nat :=
  if m.illegal then some 4
  else if m.misaligned then some 1
  else if m.inPorts.any (fun p => (inChan s c tile p).isNone) || m.outPorts.any (fun p => (outChan s c tile p).isNone) then some 5
  else if m.ranges.any fun r => !rangeBound s c r then
    (if m.ranges.any fun r => !rangeBound s c r && r.write && meetsLive s r then some 6 else some 3)
  else if (m.ranges.any fun r => !rangeOwned s c tile r) || !extra then some 2
  else if m.bad then some 7
  else none

/-! ### Skips (R63, R64) -/

/-- A skip is logged and counted (R62, R64, R65). -/
def noteSkip (s : State) (c tile cause index : Nat) : State :=
  let loc := skipLocator cause c tile index
  let s1 := logEv s { cls := clsStep, cause, loc, die := if tile = 0x1E then c / 2 else c / 16 }
  let st := s1.step
  { s1 with step := { st with
      conds := st.conds ||| 2, skips := st.skips + 1, defective := true, firstSkip := if st.skips = 0 then loc else st.firstSkip } }

/-! ### Commands of a tile -/

/-- What a command is about to do: its skip cause, strokes, drops in by channel, drops out of its null command, and its effect at
an issue stroke on the drops gathered. `inAt e d` is the stroke of the command that takes drop `d` of input `e`, `outAt i` the one that
gives its `i`-th drop; neither ever falls with a later drop. -/
structure Plan where
  cause : Option Nat
  strokes : Nat
  demand : List (Nat × Nat) := []
  nulls : List (Nat × Nat) := []
  effect : Nat → List (List Drop) → State → State × List (Nat × Drop) := fun _ _ s => (s, [])
  inAt : Nat → Nat → Nat := fun _ _ => 0
  outAt : Nat → Nat := fun _ => strokes - 1

/-- The plan of a command that check 1 refuses: 1 stroke, no drops (R63). -/
def illegalPlan : Plan := { cause := some 4, strokes := 1 }

/-- Channels of the declared ports of a list, with drop counts (R63). -/
def onInputs (s : State) (c tile : Nat) (l : List (Nat × Nat)) : List (Nat × Nat) :=
  l.filterMap fun e => (inChan s c tile e.1).map fun ch => (ch, e.2)

def onOutputs (s : State) (c tile : Nat) (l : List (Nat × Nat)) : List (Nat × Nat) :=
  l.filterMap fun e => (outChan s c tile e.1).map fun ch => (ch, e.2)

/-- Zero drops of a null command. -/
def zeroDrops (l : List (Nat × Nat)) : List (Nat × Drop) := l.flatMap fun e => List.replicate e.2 (e.1, (0 : Drop))

/-- The command's inputs are all in: its effect happens, or for a skipped one its zeros are formed. -/
def planEffect (p : Plan) (i : Nat) (got : List (Nat × List Drop)) (s : State) : State × List (Nat × Drop) :=
  match p.cause with
  | some _ => (s, zeroDrops p.nulls)
  | none => p.effect i (got.map Prod.snd) s

/-! ### Strokes, breakpoints and halts inside a command (R424, R425, R427) -/

/-- A unit waits inside a stroke, which a halt lets it complete (R424). -/
def midStroke (u : UnitSt) : Bool := match u.waiting with | none => false | some .emptyQueue => false | some _ => true

/-- STROKE breakpoints of unit `k` armed in the running step. -/
def strokeBps (s : State) (k : Nat) : List Nat :=
  (List.range 16).filter fun i => bpArmed s 3 i && bpField (getBp s i) 9 4 == k / 32 && bpField (getBp s i) 14 10 == k % 32

/-- Those that unit `k` meets before its stroke `v`; VALUE 0 is met at the launch (R427). -/
def strokeMet (s : State) (k v : Nat) : List Nat := (strokeBps s k).filter fun i => v != 0 && bpField (getBp s i) 63 32 == v

/-- Strokes of its command, of `n`, that the unit may run before it stops: all of them, as far as the next STROKE breakpoint, or for a halted unit
the current one (R424, R425, R427). -/
def stopAt (s : State) (k : Nat) (u : UnitSt) (n : Nat) : Nat :=
  let lim := if !u.halted || u.oneMore then n else if u.oneStroke || midStroke u then u.stepped + 1 else u.stepped
  (strokeBps s k).foldl (fun m i =>
    let v := bpField (getBp s i) 63 32
    if u.strokes.toNat + u.stepped < v then min m (v - u.strokes.toNat) else m) (min lim n)

/-- Locator of unit `k` at place `idx`: a command's INDEX or a scribe's PC. -/
def unitLocator (k idx : Nat) : BitVec 64 := skipLocator 0 (k / 32) (k % 32) idx

/-- Breakpoints fire before unit `k` begins its next stroke. -/
def fireAt (s : State) (k idx : Nat) (fired : List Nat) : State :=
  bpFire (modUnit s k fun u => { u with passBp := true, oneMore := false, oneStroke := false }) (k / 32) (unitLocator k idx) fired

/-- The command of unit `k` stops with `x` of its strokes run, inside the next one where it waits on `w`; between two strokes the breakpoints there
fire, unless the unit is halted as it is. -/
def pauseUnit (s : State) (k idx x : Nat) (w : Option WaitOn) (b : Blocked) : State :=
  let u := getUnit s k
  let fired := if w.isSome || u.halted then [] else strokeMet s k (u.strokes.toNat + x)
  let s1 := setUnit s k
    { u with stepped := x, waiting := w, blocked := some b, oneStroke := u.oneStroke && w.isSome, passBp := u.passBp && x == u.stepped }
  if fired.isEmpty then s1 else fireAt s1 k idx fired

/-- A command under way goes on by `f`; between two strokes it first meets the breakpoints there. -/
def goOn (s : State) (k idx : Nat) (f : State → State) : State :=
  let u := getUnit s k
  let fired := if midStroke u || u.passBp then [] else strokeMet s k (u.strokes.toNat + u.stepped)
  if fired.isEmpty then f s else fireAt s k idx fired

/-- The command of unit `k` retires after `n` strokes (R41, R47). -/
def retireUnit (s : State) (k n : Nat) : State :=
  modUnit s k fun u =>
    { u with
      strokes := u.strokes + BitVec.ofNat 64 n, waiting := none, blocked := none, stepped := 0, passBp := false, oneMore := false
      oneStroke := false }

/-- Inputs of a plan that strokes before `m` take, by channel and count. -/
def dueInputs (p : Plan) (m : Nat) : List (Nat × Nat) :=
  p.demand.zipIdx.map fun e => (e.1.1, ((List.range e.1.2).filter fun d => decide (p.inAt e.2 d < m)).length)

/-- The first stroke at which an input is short, and its channel; inputs of one channel take from it in their order. -/
def shortAt (s : State) (p : Plan) : Nat → List (Nat × Nat) → List (Nat × List Drop) → List (Nat × Nat) → Option (Nat × Nat)
  | _, [], _, _ => none
  | e, (ch, n) :: ds, got, used =>
    let have_ := (got.headD (ch, [])).2.length
    let used0 := (used.filter fun x => x.1 == ch).foldl (fun a x => a + x.2) 0
    let left := (getChan s ch).length - used0
    let rest := shortAt s p (e + 1) ds got.tail ((ch, n - have_) :: used)
    if n - have_ ≤ left then rest
    else
      let x := p.inAt e (have_ + left)
      match rest with
      | some (y, ch') => if y < x then some (y, ch') else some (x, ch)
      | none => some (x, ch)

/-- The engine of unit `k` without what it wrote at stroke `t` or later. -/
def keepBefore (s : State) (k t : Nat) : State :=
  let m := tget {} s.matrix k
  let v := tget {} s.vector k
  { s with
    matrix := tset {} s.matrix k
      { m with wlog := m.wlog.filter fun w => decide (w.stroke < t), slog := m.slog.filter fun w => decide (w.stroke < t) }
    vector := tset {} s.vector k { v with
      rlog := v.rlog.filter fun w => decide (w.stroke < t), mlog := v.mlog.filter fun w => decide (w.stroke < t)
      wlog := v.wlog.filter fun w => decide (w.stroke < t), slog := v.slog.filter fun w => decide (w.stroke < t) } }

/-- What a command that stops before stroke `t` of unit `k` leaves: the writes of its earlier strokes stand, what it notes and loads with its last
stroke is to come. `s` is the state it stops in, `e` the one that its whole effect makes of it. -/
def partEffect (s e : State) (k t : Nat) : State :=
  let r := keepBefore e k t
  let m := tget {} r.matrix k
  let m0 := tget {} s.matrix k
  { r with step := s.step, matrix := tset {} r.matrix k { m with bank0 := m0.bank0, bank1 := m0.bank1 } }

/-- The state in which the effect of a command under way is formed: what its earlier strokes wrote is formed again with it. -/
def asIssued (s : State) (k : Nat) (u : UnitSt) : State := if u.stepped = 0 then s else keepBefore s k u.strokes.toNat

/-- A command that does not come to its end: it stops at stroke `lim`, or inside the first stroke at which an input is short or an output has no
room. Its earlier strokes have taken, written and given what is theirs. -/
def advancePart (s : State) (k : Nat) (b : Blocked) (p : Plan) (lim : Nat) : State :=
  let u := getUnit s k
  let t := u.strokes.toNat
  let short := (shortAt s p 0 p.demand b.got []).filter fun x => decide (x.1 < lim)
  let g := gather s (dueInputs p (short.elim lim fun x => x.1 + 1)) b.got
  let e := planEffect p t g.2.1 (asIssued g.1 k u)
  let top := short.elim lim Prod.fst
  let due := ((e.2.drop b.moved).zipIdx.takeWhile fun d => decide (p.outAt (b.moved + d.2) < top)).map Prod.fst
  let o := pump g.1 due
  let moved := b.moved + (due.length - o.2.length)
  let x := if o.2.isEmpty then top else p.outAt moved
  let w : Option WaitOn := match o.2 with | (ch, _) :: _ => some (.channel ch) | [] => short.map fun x => .channel x.2
  pauseUnit { partEffect g.1 e.1 k (t + x) with chans := o.1.chans } k (u.issued - 1) x w { b with got := g.2.1, moved }

/-- Go on with a command that has issued: gather, take effect, give outputs, retire (R50); or stop on the way. -/
def advance (s : State) (k : Nat) (b : Blocked) (p : Plan) : State :=
  let u := getUnit s k
  let lim := stopAt s k u p.strokes
  let g := gather s p.demand b.got
  let e := planEffect p u.strokes.toNat g.2.1 (asIssued g.1 k u)
  let o := pump e.1 (e.2.drop b.moved)
  if lim = p.strokes ∧ g.2.2 = none ∧ o.2 = [] then retireUnit o.1 k p.strokes else advancePart s k b p lim

/-- The breakpoints that a unit meets as it comes to its next command: PC or INDEX `idx`, and STROKE; those that have stopped it there already are
passed (R427). -/
def bpNow (s : State) (kind k idx : Nat) (u : UnitSt) : List Nat :=
  let here := (List.range 16).filter fun i =>
    bpArmed s kind i && bpField (getBp s i) 9 4 == k / 32 && bpField (getBp s i) 63 32 == idx && (kind == 1 || bpField (getBp s i) 14 10 == k % 32)
  if u.passBp then [] else here ++ strokeMet s k u.strokes.toNat

/-! ### Two contexts on one physical unit (R19, R20, R161, R162) -/

/-- Ruled unit `j` of a core, 24 for the scribe. -/
def unitKey (c j : Nat) : Nat := if j < 24 then tileKey c j else scribeKey c

/-- Host slot and unit that carry unit `j` of folded core `c`: the sheet's own table, else the places of R161. -/
def hostOf (s : State) (c j : Nat) : Nat × Nat := (liveCore s c).foldHost.getD j (if j < 24 then j % 7 else 6, j)

/-- Host context, folded context and run list of the physical unit that carries a ruled unit, where it carries two. -/
def contextsOf (s : State) (k : Nat) : Option (Nat × Nat × List Nat) :=
  if s.boot.effective ≠ 1 ∨ 2048 ≤ k then none
  else
    let c7 := k / 256 * 8 + 7
    let c := k / 32
    let j := if k % 32 = 31 then 24 else k % 32
    let unit := if c = c7 then some j else (List.range 25).find? fun i => hostOf s c7 i == (c % 8, j)
    unit.map fun i => (unitKey (k / 256 * 8 + (hostOf s c7 i).1) (hostOf s c7 i).2, unitKey c7 i, (liveCore s c7).fold.getD i [])

/-- A context has ended: a scribe's at END, a tile's once its scribe has ended and nothing is left to it. -/
def contextEnded (s : State) (k : Nat) : Bool :=
  let u := getUnit s k
  if k % 32 = 31 then u.ended else u.queue.isEmpty && u.blocked.isNone && (getUnit s (scribeKey (k / 32))).ended

/-- The turn is the host context's after `h` commands of the host and `f` of the folded context; runs past the list are of 64. -/
def hostTurn : Nat → List Nat → Bool → Nat → Nat → Bool
  | 0, _, onHost, _, _ => onHost
  | fuel + 1, runs, onHost, h, f =>
    let r := runs.headD 64
    if (if onHost then h else f) < r then onHost
    else hostTurn fuel runs.tail (!onHost) (if onHost then h - r else h) (if onHost then f else f - r)

/-- The unit's physical unit is free to begin a command of it: it carries no other context, or the other has no command under way
and has ended or passed the turn. No blocked channel, queue or halt moves the turn. -/
def turnOk (s : State) (k : Nat) : Bool :=
  match contextsOf s k with
  | none => true
  | some (hk, fk, runs) =>
    let other := if k = hk then fk else hk
    let h := (getUnit s hk).issued
    let f := (getUnit s fk).issued
    (getUnit s other).blocked.isNone &&
      (contextEnded s other || contextEnded s k || hostTurn (h + f + runs.length + 1) runs true h f == (k == hk))

/-- A unit can begin a command: a step runs, the unit neither halts nor has one under way, and its physical unit is its. -/
def canIssue (s : State) (k : Nat) : Bool :=
  let u := getUnit s k
  s.step.running && !s.step.voided && !s.step.localEnded && (!u.halted || u.oneMore || u.oneStroke) && !u.ended && u.blocked.isNone && turnOk s k

/-- The tile takes the command at the front of its queue and begins it (R46, R62); `go` carries it on. -/
def issueTile (s : State) (c j : Nat) (w : CmdWord) (p : Plan) (go : State → Blocked → State) : State :=
  let k := tileKey c j
  let u := getUnit s k
  let s1 := setUnit s k { u with queue := u.queue.tail, issued := u.issued + 1, waiting := none, stepped := 0, passBp := false }
  let s2 := match p.cause with | some cz => noteSkip s1 c j cz u.issued | none => s1
  go s2 { word := w, got := [], moved := 0, out := [], effectDone := false }

/-- The tile comes to its next command: it waits on an empty queue, halts at a breakpoint, or issues the command. -/
def runTileWith (s : State) (c j : Nat) (w : CmdWord) (p : Plan) (go : State → Blocked → State) : State :=
  let k := tileKey c j
  let u := getUnit s k
  if !canIssue s k then s
  else if u.queue.head? = some w then
    match bpNow s 2 k u.issued u with
    | [] => issueTile s c j w p go
    | fired => fireAt s k u.issued fired
  else if u.queue = [] then setUnit s k { u with waiting := some .emptyQueue }
  else s

/-- The tile comes to a command whose plan says all of it. -/
def runTile (s : State) (c j : Nat) (w : CmdWord) (p : Plan) : State :=
  runTileWith s c j w p fun s b => advance s (tileKey c j) b p

/-- A WAIT command of any class: N strokes; N = 0 is out of range (R48). -/
def planWait (n : Nat) : Plan := { cause := if n = 0 then some 7 else none, strokes := n }

end Sys2Proof.Machine
end

