-- ==== Sys2Proof/Machine/Mover.lean ====
section
/-! DEFINITION. The die movers and their command lists (R183-R186). -/

namespace Sys2Proof.Machine

/-- The list of die mover `m` in the live sheet. -/
def moverList (s : State) (m : Nat) : MoverList := match s.sheets.live with | some sh => tget {} sh.movers m | none => {}

/-- A range entry (R183). -/
structure MoverRange where
  base : Nat
  size : Nat
  read : Bool
  write : Bool
  kind : Nat
deriving DecidableEq, Repr

def moverRangeOf (v : BitVec 128) : MoverRange :=
  let n := v.toNat
  { base := bitsOf n 63 0, size := 4096 * bitsOf n 95 64, read := tb n 96, write := tb n 97, kind := bitsOf n 111 104 }

/-- A command entry (R183). -/
structure MoverEntry where
  op : Nat
  amode : Nat
  dataPort : Nat
  dportIn : Nat
  drops : Nat
  addr : Nat
  cport : Nat
deriving DecidableEq, Repr

def moverEntryOf (v : BitVec 256) : MoverEntry :=
  let n := v.toNat
  { op := bitsOf n 7 0, amode := bitsOf n 15 8, dataPort := bitsOf n 23 16, dportIn := bitsOf n 31 24, drops := bitsOf n 63 32
    addr := bitsOf n 127 64, cport := bitsOf n 135 128 }

/-- The endpoint of a port of die mover `m` (R51). -/
def moverEndpoint (m port : Nat) : Nat := 0x1E * 2 ^ 6 + port * 2 ^ 11 + m * 2 ^ 15

def moverIn (s : State) (m port : Nat) : Option Nat :=
  ((liveChans s).find? fun v => chConsumer v == moverEndpoint m port).map chIndex

def moverOut (s : State) (m port : Nat) : Option Nat :=
  ((liveChans s).find? fun v => chProducer v == moverEndpoint m port).map chIndex

/-- The range of the list that holds `n` bytes at `a` with the access of the operation. -/
def moverRange (s : State) (m a n : Nat) (write : Bool) : Option MoverRange :=
  ((moverList s m).ranges.map moverRangeOf).find? fun r =>
    decide (r.base ≤ a) && decide (a + n ≤ r.base + r.size) && (if write then r.write else r.read)

/-- Whether an entry writes the DIMM. -/
def moverWrites (e : MoverEntry) : Bool := e.op == 2

/-- The skip cause of an entry at its address (R186). -/
def moverCause (s : State) (m : Nat) (e : MoverEntry) (a : Nat) : Option Nat :=
  let n := 64 * e.drops
  if e.amode = 1 ∧ a % 64 ≠ 0 then some 1
  else if (moverRange s m a n (moverWrites e)).isNone || !backedRange s a n then some 3
  else none

/-- Bytes a mover reads and writes: FOLIO ranges through the step copy (R186). -/
def moverStore (s : State) (m a : Nat) (bs : Bytes) : State :=
  match moverRange s m a bs.length true with
  | some r => if r.kind = 4 then stepCopyWrite s a bs else memWrite s a bs
  | none => s

/-- Drops move one by one in ascending address order: the state, how many have moved, and the channel that stops the next. -/
def moverGo (m : Nat) (e : MoverEntry) (a : Nat) (skip : Bool) (ch : Option Nat) : Nat → Nat → State → State × Nat × Option Nat
  | 0, i, s => (s, i, none)
  | n + 1, i, s =>
    match ch with
    | none => moverGo m e a skip ch n (i + 1) s
    | some ch' =>
      if moverWrites e then
        (if (getChan s ch').isEmpty then (s, i, some ch')
        else
          let t := takeDrops s ch' 1
          moverGo m e a skip ch n (i + 1) (if skip then t.2 else moverStore t.2 m (a + 64 * i) (bytesOf 64 (t.1.headD 0))))
      else if (getChan s ch').length < chanDepth s ch' then
        let d : Drop := if skip then 0 else wordOf 512 (stepRead s (a + 64 * i) 64)
        moverGo m e a skip ch n (i + 1) (setChan s ch' (getChan s ch' ++ [d]))
      else (s, i, some ch')

/-- The address of an entry once its descriptor is in. -/
def moverAddr (e : MoverEntry) (b : Blocked) : Nat :=
  if e.amode = 1 then
    (match b.got with | (_, d :: _) :: _ => (e.addr + d.toNat % 2 ^ 64) % 2 ^ 64 | _ => e.addr) else e.addr

/-- The done drop of an entry, if it names a port: zero when skipped. -/
def moverDone (s : State) (m i : Nat) (e : MoverEntry) (skip : Bool) : List (Nat × Drop) :=
  if e.cport = 0xFF then []
  else (moverOut s m e.cport).toList.map fun ch => (ch, if skip then 0 else wordOf 512 (natLe 8 i ++ natLe 8 e.drops))

/-- An entry whose address is known goes on: drops, done drop, retirement. -/
def moverMove (s : State) (m i : Nat) (e : MoverEntry) (b : Blocked) : State :=
  let k := moverKey m
  let a := moverAddr e b
  let skip := (moverCause s m e a).isSome
  let ch := if moverWrites e then moverIn s m e.dataPort else moverOut s m e.dataPort
  let g := moverGo m e a skip ch (e.drops - b.moved) b.moved s
  match g.2.2 with
  | some ch => modUnit g.1 k fun u => { u with waiting := some (.channel ch), blocked := some { b with moved := g.2.1 } }
  | none =>
    let o := pump g.1 (moverDone g.1 m i e skip)
    match o.2 with
    | [] => modUnit o.1 k fun u =>
      { u with strokes := u.strokes + BitVec.ofNat 64 (2 + e.drops), waiting := none, blocked := none }
    | (ch, d) :: rest => modUnit o.1 k fun u =>
      { u with waiting := some (.channel ch), blocked := some { b with moved := e.drops, out := (ch, d) :: rest } }

/-- A skip of a mover entry is logged with TILE 0x1E and CORE m (R186). -/
def noteMoverSkip (s : State) (m i : Nat) (e : MoverEntry) (b : Blocked) : State :=
  match moverCause s m e (moverAddr e b) with
  | some cz => noteSkip s m 0x1E cz i
  | none => s

/-- Entry `i` goes on: its descriptor drop first, then the checks once, then its drops. -/
def moverAdvance (s : State) (m i : Nat) (e : MoverEntry) (b : Blocked) : State :=
  let k := moverKey m
  if b.effectDone then moverMove s m i e b
  else if e.amode = 1 then
    match moverIn s m e.dportIn with
    | none => moverMove (noteMoverSkip s m i e b) m i e { b with effectDone := true }
    | some ch =>
      if (getChan s ch).isEmpty then modUnit s k fun u => { u with waiting := some (.channel ch), blocked := some b }
      else
        let t := takeDrops s ch 1
        let b' := { b with got := [(ch, t.1)] }
        moverMove (noteMoverSkip t.2 m i e b') m i e { b' with effectDone := true }
  else moverMove (noteMoverSkip s m i e b) m i e { b with effectDone := true }

/-- A die mover comes to its next entry, if that is of the operation named. -/
def runMover (s : State) (m op : Nat) : State :=
  let k := moverKey m
  let u := getUnit s k
  match (moverList s m).entries[u.issued]? with
  | none => s
  | some v =>
    let e := moverEntryOf v
    if canIssue s k && e.op == op then
      moverAdvance (setUnit s k { u with issued := u.issued + 1, waiting := none }) m u.issued e
        { word := 0, got := [], moved := 0, out := [], effectDone := false }
    else s

/-- MOVER_READ (R185): DIMM to channel. -/
def execMoverRead (m : BitVec 3) (s : State) : Out := .next (runMover s m.toNat 1)

/-- MOVER_WRITE (R185): channel to DIMM. -/
def execMoverWrite (m : BitVec 3) (s : State) : Out := .next (runMover s m.toNat 2)

end Sys2Proof.Machine
end

