-- ==== Sys2Proof/Machine/ServOps.lean ====
section
/-! DEFINITION. The ledger, folio runs, the sieve and emit marks: what the serving commands share (R187-R209, R214). -/

namespace Sys2Proof.Machine

/-! ### Plot and slots -/

/-- The device is the head of an open serving plot (R187). -/
def isHead (s : State) : Bool := s.sec.isOpen && s.sec.serving && s.sec.position == 0

/-- Devices of the plot. -/
def plotSize (s : State) : Nat := s.sec.devices.toNat

/-- Tokens of a folio, F (R192). -/
def folioTokens (s : State) : Nat := 2 ^ cfg s offServCfg 3 0

/-- Folio engines, S (R192). -/
def engines (s : State) : Nat := 2 ^ cfg s offServCfg 8 5

def tokenDrops (s : State) : Nat := cfg s offServCfg 20 9

def prefillMax (s : State) : Nat := cfg s offServCfg 33 21

def getSlot (s : State) (i : Nat) : Slot := tget {} s.serv.slots i

def setSlot (s : State) (i : Nat) (v : Slot) : State := { s with serv := { s.serv with slots := tset {} s.serv.slots i v } }

def modSlot (s : State) (i : Nat) (f : Slot → Slot) : State := setSlot s i (f (getSlot s i))

/-- Class of a request (R190). -/
def slotClass (v : Slot) : Nat := bitsOf v.tenant.toNat 14 12

/-- Indices of slots that satisfy a condition, ascending; a slot not listed is FREE. -/
def slotsWhere (s : State) (p : Slot → Bool) : List Nat := (s.serv.slots.filter fun e => p e.2).map Prod.fst

/-- Apply a change to each slot of a list of indices. -/
def eachSlot (s : State) (f : Nat → State → State) : List Nat → State
  | [] => s
  | i :: is => eachSlot (f i s) f is

/-- A request's end is decided (R5, R190): a decided code is never replaced. While a step runs the request keeps its lane of that pass;
decided between steps it holds none any more. -/
def decide_ (s : State) (i : Nat) (code : Nat) : State :=
  modSlot s i fun v => if v.decided then v else
    { v with
      endCode := BitVec.ofNat 4 code, decided := true, state := .ending, hostHold := false, pauseReq := false
      lane := if s.step.running then v.lane else 0xFF, group := if s.step.running then v.group else 0 }

def endComplete : Nat := 0
def endCancelled : Nat := 1
def endTooLate : Nat := 2
def endDeadline : Nat := 3
def endEvicted : Nat := 4
def endFailed : Nat := 5
def endRetired : Nat := 6

/-- The least slot index at or after `i` that is FREE among those below `i + n`. -/
def freeSlotFrom (s : State) (i : Nat) : Nat → Option Nat
  | 0 => none
  | n + 1 => if (getSlot s i).state = .free then some i else freeSlotFrom s (i + 1) n

/-- A deadline has passed at a time (R218, R245). -/
def deadlinePassed (v : Slot) (now : TimeVal) : Bool :=
  !(v.deadlineS == 0 && v.deadlineNs == 0) &&
    (decide (v.deadlineS.toNat < now.sec.toNat) ||
      (decide (v.deadlineS.toNat = now.sec.toNat) && decide (v.deadlineNs.toNat ≤ tvNs now)))

/-! ### The sieve (R204-R208) -/

/-- Usable sieve entries (R206). -/
def sieveUsable (s : State) : Nat := min 1048576 (2 ^ 28 / (4 * folioTokens s))

/-- The sieve entry at an index, if valid. -/
def sieveAt (s : State) (i : Nat) : Option SieveEnt := (s.serv.sieve.find? fun e => e.1 == i).map Prod.snd

/-- Bucket of a key. -/
def sieveBucket (s : State) (key : BitVec 128) : Nat := key.toNat % 2 ^ 32 % (sieveUsable s / 8)

def getFolio (s : State) (i : Nat) : Folio := tget {} s.serv.folios i

def setFolio (s : State) (i : Nat) (f : Folio) : State := { s with serv := { s.serv with folios := tset {} s.serv.folios i f } }

/-- A sieve entry is removed (R208): its folio, if CACHED, turns FREE. -/
def sieveRemove (s : State) (idx : Nat) : State :=
  match sieveAt s idx with
  | none => s
  | some e =>
    let s1 := { s with serv := { s.serv with sieve := tdel s.serv.sieve idx, evictions := s.serv.evictions + 1 } }
    let f := getFolio s1 e.folio.toNat
    if f.sieve.toNat = idx then
      setFolio s1 e.folio.toNat (if f.state = 2 then {} else { f with sieve := 0xFFFFFFFF })
    else s1

/-- Remove each of a list of entries. -/
def sieveRemoveAll (s : State) : List Nat → State
  | [] => s
  | i :: is => sieveRemoveAll (sieveRemove s i) is

/-- SM3 as the sieve's 16-byte keys (R204, R205). -/
def key16 (bs : Bytes) : BitVec 128 := fieldAt 128 (sm3Bytes bs) 0 16

/-- The root key (R204) from salt, model manifest digest and adapter manifest digest. -/
def rootKey (salt man ad : BitVec 256) : BitVec 128 :=
  key16 (bytesOf 32 salt ++ (bytesOf 32 man).take 16 ++ (bytesOf 32 ad).take 16)

/-- The key of a block (R205). -/
def blockKey (parent : BitVec 128) (tokens : List (BitVec 32)) : BitVec 128 := key16 (bytesOf 16 parent ++ tokens.flatMap (bytesOf 4))

/-- Tokens of block `k ≥ 1` of a prompt. -/
def blockTokens (f : Nat) (toks : List (BitVec 32)) (k : Nat) : List (BitVec 32) := (toks.drop ((k - 1) * f)).take f

/-- The key of block `k` of a prompt, from the root key. -/
def chainKey (f : Nat) (toks : List (BitVec 32)) (root : BitVec 128) : Nat → BitVec 128
  | 0 => root
  | k + 1 => blockKey (chainKey f toks root k) (blockTokens f toks (k + 1))

/-! ### Runs (R199, R200) -/

/-- Least number at or above `x` that is `r` modulo `m`. -/
def alignUp (x r m : Nat) : Nat := x + (r + m - x % m) % m

/-- Move a candidate base past every blocked index of its run, blocked indices ascending. -/
def passBlocked (n m : Nat) (align : Option Nat) : Tbl Unit → Nat → Nat
  | [], b => b
  | (x, _) :: t, b =>
    passBlocked n m align t
      (if b ≤ x ∧ x < b + n then (match align with | some r => alignUp (x + 1) r m | none => x + 1) else b)

/-- The lowest base of a run of `n` free indices below a limit, aligned to `r` modulo `m` if asked (R199). -/
def lowestBase (limit m n : Nat) (align : Option Nat) (blocked : Tbl Unit) : Option Nat :=
  let b := passBlocked n m align blocked (match align with | some r => alignUp 0 r m | none => 0)
  if b + n ≤ limit then some b else none

/-- List `n` indices from `a` on in a set. -/
def addRange (t : Tbl Unit) (a : Nat) : Nat → Tbl Unit
  | 0 => t
  | n + 1 => addRange (tput t a ()) (a + 1) n

/-- Indices of a folio table in state RUN, less those of the slots of a list. -/
def runIndices (t : Tbl Folio) (less : List Nat) : Tbl Unit :=
  (t.filter fun e => e.2.state == 1 && !less.contains e.2.slot.toNat).map fun e => (e.1, ())

/-- Hits still to be copied by requests not ended: first folio and length (R199, log 19). -/
def pendingHits (s : State) : List (Nat × Nat) :=
  (s.serv.slots.filter fun e => e.2.state != .free && !e.2.decided && e.2.hitLen != 0).map fun e => (e.2.hitBase.toNat, e.2.hitLen.toNat)

/-- Indices that a run may not take: those in state RUN but for the runs of slots given up, and every hit to be copied. -/
def blockedFolios (s : State) (less : List Nat) (hits : List (Nat × Nat)) : Tbl Unit :=
  hits.foldl (fun t h => addRange t h.1 h.2) (runIndices s.serv.folios less)

def folioLimit (s : State) : Nat := cfg s offLimits 22 0

def spillLimit (s : State) : Nat := cfg s offLimits 45 23

/-- Where a run of `n` folios would lie, with the runs of some slots given up (R199). -/
def findRun (s : State) (n : Nat) (align : Option Nat) (hits : List (Nat × Nat)) (less : List Nat) : Option Nat :=
  lowestBase (folioLimit s) (engines s) n align (blockedFolios s less (hits ++ pendingHits s))

/-- A slot takes `n` folios from `base` on; CACHED ones lose their sieve entries (R199). -/
def takeRun (s : State) (slot base : Nat) : Nat → State
  | 0 => s
  | n + 1 =>
    let s1 := takeRun s slot base n
    let f := getFolio s1 (base + n)
    let s2 := if f.state = 2 then sieveRemove s1 f.sieve.toNat else s1
    setFolio s2 (base + n) { state := 1, slot := BitVec.ofNat 16 slot, sieve := 0xFFFFFFFF, depth := BitVec.ofNat 32 (n + 1) }

/-- A slot's run is allocated. -/
def giveRun (s : State) (slot base n : Nat) : State :=
  modSlot (takeRun s slot base n) slot fun v => { v with base := BitVec.ofNat 32 base, run := BitVec.ofNat 32 n, hasRun := true }

/-- A freed folio (R200). -/
def freedFolio (slot : Nat) (f : Folio) : Folio :=
  if f.state = 1 ∧ f.slot.toNat = slot then (if f.sieve = 0xFFFFFFFF then {} else { f with state := 2, slot := 0xFFFF }) else f

/-- Free `n` entries of a folio table from `base` on that a slot owns. -/
def freeRange (t : Tbl Folio) (slot base : Nat) : Nat → Tbl Folio
  | 0 => t
  | n + 1 => tmod {} (freeRange t slot base n) (base + n) (freedFolio slot)

/-- A slot's run is freed (R200). -/
def freeRun (s : State) (i : Nat) : State :=
  let v := getSlot s i
  if v.hasRun then
    modSlot { s with serv := { s.serv with folios := freeRange s.serv.folios i v.base.toNat v.run.toNat } } i
      fun v => { v with hasRun := false }
  else s

/-- A slot's spill runs are freed: the one it holds, and one allocated for a spill not yet done (R200, R202). -/
def freeSpill (s : State) (i : Nat) : State :=
  let v := getSlot s i
  let n := v.run.toNat
  let t1 := if v.spill = 0xFFFFFFFF then s.serv.spills else freeRange s.serv.spills i v.spill.toNat n
  let t2 := match v.spillTo with | some b => freeRange t1 i b.toNat n | none => t1
  modSlot { s with serv := { s.serv with spills := t2 } } i fun v => { v with spill := 0xFFFFFFFF, spillTo := none }

/-- Both runs of a slot are freed. -/
def freeRuns (s : State) (i : Nat) : State := freeSpill (freeRun s i) i

/-! ### Emission (R214) -/

/-- The descriptor that the head built for a head step, if kept. -/
def descOf (s : State) (m : BitVec 64) : Option Descriptor := s.serv.descs.find? fun d => d.headStep == m

/-- The lane-table entry of lane `l` of a descriptor. -/
def laneEntry (d : Descriptor) (l : Nat) : Option LaneEntry := (d.lanes.find? fun e => e.1 == l).map Prod.snd

/-- The request to which lane `l` of the emit window belongs in the running head step: that of the group's previous pass (R214). -/
def emitLane (s : State) (l : Nat) : Option LaneEntry :=
  (descOf s (s.step.number - BitVec.ofNat 64 (plotSize s))).bind fun d => laneEntry d l

/-- A lane's record with VALID = 1 is placed: its slot records EMIT_MARK unless the request has ended (R214, R215). -/
def markLane (s : State) (l : Nat) (token : BitVec 32) : State :=
  match emitLane s l with
  | none => s
  | some e =>
    let i := e.slot.toNat
    let v := getSlot s i
    if v.state = .free ∨ v.rid ≠ e.rid ∨ v.decided = true then s
    else setSlot s i { v with emitMark := true, markToken := token }

/-- The records of the first lanes of the emit window at `base` that lie whole in the bytes of one drop at `a`. -/
def markRecords (s : State) (base a : Nat) (bs : Bytes) : Nat → State
  | 0 => s
  | l + 1 =>
    let s1 := markRecords s base a bs l
    let r := leNat (slice bs (base + 8 * l - a) 8)
    if a ≤ base + 8 * l ∧ base + 8 * l + 8 ≤ a + bs.length ∧ tb r 32 = true then markLane s1 l (BitVec.ofNat 32 r) else s1

/-- A drop of a transfer engine is placed at an address: in the head's emit window its records give marks (R214, R181). -/
def markEmit (s : State) (a : Nat) (bs : Bytes) : State :=
  let base := cfg s offEmitAddr 47 0
  if isHead s ∧ base < a + bs.length ∧ a < base + 512 then markRecords s base a bs 64 else s

end Sys2Proof.Machine
end

