-- ==== Sys2Proof/Machine/MboxOps.lean ====
section
/-! DEFINITION. Mailbox rings, entries and completions (R339-R346), and token records (R351). -/

namespace Sys2Proof.Machine

/-! ### The window (R339) -/

def windowBase : Nat := 0x00FFFC000000

/-- Address of entry `i` of command ring `r`. -/
def ringEntryAddr (r i : Nat) : Nat := windowBase + 0x100000 + 0x8000 * r + 128 * (i % 256)

/-- Address of entry `i` of completion ring `r`. -/
def completionAddr (r i : Nat) : Nat := windowBase + 0x180000 + 0x4000 * r + 64 * (i % 256)

/-- Address of token-ring position `n`. -/
def tokenAddr (n : Nat) : Nat := windowBase + 0x200000 + 16 * (n % 65536)

/-- A range lies in the data area. -/
def inDataArea (a n : Nat) : Bool := decide (windowBase + 0x2000000 ≤ a) && decide (a + n ≤ windowBase + 0x4000000)

/-! ### Error codes (R346) -/

def errOk : Nat := 0x00
def errBadCode : Nat := 0x01
def errBadField : Nat := 0x02
def errVersion : Nat := 0x03
def errState : Nat := 0x04
def errBusy : Nat := 0x05
def errNotRoot : Nat := 0x06
def errNotOwner : Nat := 0x07
def errDigest : Nat := 0x08
def errSignature : Nat := 0x09
def errMissing : Nat := 0x0A
def errNoSpace : Nat := 0x0B
def errStale : Nat := 0x0C
def errPort : Nat := 0x0D
def errMemory : Nat := 0x0E
def errLink : Nat := 0x0F
def errOutOfService : Nat := 0x10
def errRefused : Nat := 0x11
def errTime : Nat := 0x12

/-! ### Commands (R7, R347-R353) -/

/-- CODE of a command. -/
def cmdCode : MboxCmd → Nat
  | .openPlot .. => 0x01
  | .closePlot .. => 0x02
  | .scrub => 0x03
  | .loadManifest .. => 0x10
  | .loadBlock .. => 0x11
  | .activateEpoch .. => 0x13
  | .loadSheet .. => 0x20
  | .flipSheet => 0x21
  | .arm .. => 0x30
  | .commit .. => 0x32
  | .admitReq .. => 0x40
  | .cancel .. => 0x41
  | .pause .. => 0x42
  | .resume .. => 0x43
  | .setDeadline .. => 0x44
  | .checkpoint .. => 0x50
  | .restore .. => 0x51
  | .timeSet .. => 0x60
  | .timeAdjust .. => 0x61
  | .query .. => 0x70
  | .blotterDrain .. => 0x71
  | .fencePort .. => 0x80
  | .unfencePort .. => 0x81
  | .updateBegin .. => 0x90
  | .updateBlock .. => 0x91
  | .updateActivate .. => 0x92
  | .updateConfirm => 0x93
  | .attestQuote .. => 0xA0
  | .debugGrant .. => 0xB0
  | .badCode c => c.toNat
  | .badField c => c.toNat

/-- The 48 bytes of an arm record (R264). -/
def armBytes (r : ArmRecord) : Bytes :=
  bytesOf 8 r.job ++ bytesOf 8 r.firstStep ++ bytesOf 8 r.stopStep ++ bytesOf 4 r.epoch ++ bytesOf 4 r.periodNs
    ++ bytesOf 4 r.devices ++ [r.mode] ++ List.replicate 11 0

/-- BODY of a command, from offset 16, without its trailing zeros (R347-R353). -/
def cmdBody : MboxCmd → Bytes
  | .openPlot b => bytesOf 2 b.plot ++ bytesOf 2 b.flags ++ bytesOf 4 b.devices ++ bytesOf 4 b.position ++ bytesOf 4 b.dryMs
      ++ bytesOf 8 b.topo ++ bytesOf 4 b.topoLen ++ bytesOf 2 b.waitMs ++ bytesOf 2 b.servingIf ++ bytesOf 8 b.servCfg
      ++ bytesOf 32 b.topoDigest
  | .closePlot f => [f]
  | .loadSheet h n d => bytesOf 8 h ++ bytesOf 4 n ++ natLe 4 0 ++ bytesOf 32 d
  | .arm d r => bytesOf 32 d ++ armBytes r
  | .commit s n => bytesOf 8 s ++ bytesOf 4 n
  | .admitReq b => bytesOf 8 b.rid ++ bytesOf 16 b.seed ++ bytesOf 4 b.epoch ++ bytesOf 4 b.adapter ++ bytesOf 2 b.tenant
      ++ bytesOf 2 b.flags ++ bytesOf 4 b.prompt ++ bytesOf 4 b.maxTokens ++ bytesOf 4 b.stopToken ++ bytesOf 8 b.promptAddr
      ++ bytesOf 8 b.deadlineS ++ bytesOf 4 b.deadlineNs ++ bytesOf 4 b.sealLen ++ bytesOf 8 b.sealAddr
  | .cancel s r => bytesOf 2 s ++ natLe 6 0 ++ bytesOf 8 r
  | .pause s r => bytesOf 2 s ++ natLe 6 0 ++ bytesOf 8 r
  | .resume s r => bytesOf 2 s ++ natLe 6 0 ++ bytesOf 8 r
  | .setDeadline s r t n => bytesOf 2 s ++ natLe 6 0 ++ bytesOf 8 r ++ bytesOf 8 t ++ bytesOf 4 n
  | .checkpoint s k a n => bytesOf 8 s ++ [k] ++ natLe 7 0 ++ bytesOf 8 a ++ bytesOf 8 n
  | .restore k a n d => [k] ++ natLe 7 0 ++ bytesOf 8 a ++ bytesOf 8 n ++ bytesOf 32 d
  | .timeSet s n f => bytesOf 8 s ++ bytesOf 4 n ++ bytesOf 2 f
  | .timeAdjust v i o b x => [v] ++ natLe 7 0 ++ bytesOf 8 i ++ bytesOf 8 o ++ bytesOf 4 b ++ [x]
  | .query w i n d l => bytesOf 2 w ++ natLe 6 0 ++ bytesOf 8 i ++ bytesOf 4 n ++ natLe 4 0 ++ bytesOf 8 d ++ bytesOf 4 l
  | .blotterDrain c d l => [c] ++ natLe 7 0 ++ bytesOf 8 d ++ bytesOf 4 l
  | .fencePort p u => [p, u]
  | .unfencePort p u => [p, u]
  | .loadManifest b => bytesOf 4 b.epoch ++ bytesOf 4 b.adapter ++ bytesOf 8 b.host ++ bytesOf 4 b.length ++ bytesOf 4 b.timeoutS
      ++ bytesOf 8 b.retain ++ bytesOf 8 b.retainLen ++ bytesOf 32 b.digest
  | .loadBlock e b h n => bytesOf 4 e ++ bytesOf 4 b ++ bytesOf 8 h ++ bytesOf 4 n
  | .activateEpoch e m => bytesOf 4 e ++ [m]
  | .updateBegin t v l b d => [t] ++ natLe 3 0 ++ bytesOf 4 v ++ bytesOf 4 l ++ bytesOf 4 b ++ bytesOf 32 d
  | .updateBlock i h n d => bytesOf 4 i ++ natLe 4 0 ++ bytesOf 8 h ++ bytesOf 4 n ++ natLe 4 0 ++ bytesOf 32 d
  | .updateActivate t => [t]
  | .attestQuote n d l => bytesOf 32 n ++ bytesOf 8 d ++ bytesOf 4 l
  | .debugGrant h n => bytesOf 8 h ++ bytesOf 4 n
  | .scrub => []
  | .flipSheet => []
  | .updateConfirm => []
  | .badCode _ => []
  | .badField _ => []

/-- The command that the bytes of an entry name by CODE, whatever its reserved bytes. -/
def cmdOf (e : Bytes) : Option MboxCmd :=
  let f (w o n : Nat) : BitVec w := fieldAt w e o n
  match (f 8 4 1).toNat with
  | 0x01 => some (.openPlot {
      plot := f 16 16 2, flags := f 16 18 2, devices := f 32 20 4, position := f 32 24 4, dryMs := f 32 28 4, topo := f 64 32 8
      topoLen := f 32 40 4, waitMs := f 16 44 2, servingIf := f 16 46 2, servCfg := f 64 48 8, topoDigest := f 256 56 32 })
  | 0x02 => some (.closePlot (f 8 16 1))
  | 0x03 => some .scrub
  | 0x10 => some (.loadManifest {
      epoch := f 32 16 4, adapter := f 32 20 4, host := f 64 24 8, length := f 32 32 4, timeoutS := f 32 36 4, retain := f 64 40 8
      retainLen := f 64 48 8, digest := f 256 56 32 })
  | 0x11 => some (.loadBlock (f 32 16 4) (f 32 20 4) (f 64 24 8) (f 32 32 4))
  | 0x13 => some (.activateEpoch (f 32 16 4) (f 8 20 1))
  | 0x20 => some (.loadSheet (f 64 16 8) (f 32 24 4) (f 256 32 32))
  | 0x21 => some .flipSheet
  | 0x30 => some (.arm (f 256 16 32) {
      job := f 64 48 8, firstStep := f 64 56 8, stopStep := f 64 64 8, epoch := f 32 72 4, periodNs := f 32 76 4
      devices := f 32 80 4, mode := f 8 84 1 })
  | 0x32 => some (.commit (f 64 16 8) (f 32 24 4))
  | 0x40 => some (.admitReq {
      rid := f 64 16 8, seed := f 128 24 16, epoch := f 32 40 4, adapter := f 32 44 4, tenant := f 16 48 2, flags := f 16 50 2
      prompt := f 32 52 4, maxTokens := f 32 56 4, stopToken := f 32 60 4, promptAddr := f 64 64 8, deadlineS := f 64 72 8
      deadlineNs := f 32 80 4, sealLen := f 32 84 4, sealAddr := f 64 88 8 })
  | 0x41 => some (.cancel (f 16 16 2) (f 64 24 8))
  | 0x42 => some (.pause (f 16 16 2) (f 64 24 8))
  | 0x43 => some (.resume (f 16 16 2) (f 64 24 8))
  | 0x44 => some (.setDeadline (f 16 16 2) (f 64 24 8) (f 64 32 8) (f 32 40 4))
  | 0x50 => some (.checkpoint (f 64 16 8) (f 8 24 1) (f 64 32 8) (f 64 40 8))
  | 0x51 => some (.restore (f 8 16 1) (f 64 24 8) (f 64 32 8) (f 256 40 32))
  | 0x60 => some (.timeSet (f 64 16 8) (f 32 24 4) (f 16 28 2))
  | 0x61 => some (.timeAdjust (f 8 16 1) (f 64 24 8) (f 64 32 8) (f 32 40 4) (f 8 44 1))
  | 0x70 => some (.query (f 16 16 2) (f 64 24 8) (f 32 32 4) (f 64 40 8) (f 32 48 4))
  | 0x71 => some (.blotterDrain (f 8 16 1) (f 64 24 8) (f 32 32 4))
  | 0x80 => some (.fencePort (f 8 16 1) (f 8 17 1))
  | 0x81 => some (.unfencePort (f 8 16 1) (f 8 17 1))
  | 0x90 => some (.updateBegin (f 8 16 1) (f 32 20 4) (f 32 24 4) (f 32 28 4) (f 256 32 32))
  | 0x91 => some (.updateBlock (f 32 16 4) (f 64 24 8) (f 32 32 4) (f 256 40 32))
  | 0x92 => some (.updateActivate (f 8 16 1))
  | 0x93 => some .updateConfirm
  | 0xA0 => some (.attestQuote (f 256 16 32) (f 64 48 8) (f 32 56 4))
  | 0xB0 => some (.debugGrant (f 64 16 8) (f 32 24 4))
  | _ => none

/-- The command of a 128-byte entry: an unlisted CODE is a bad code, a nonzero unlisted byte a bad field (R340, R346). -/
def parseEntry (e : Bytes) : MboxCmd :=
  match cmdOf e with
  | none => .badCode (fieldAt 8 e 4 1)
  | some c =>
    let b := cmdBody c
    if slice e 6 10 = List.replicate 10 0 ∧ slice e 16 112 = b ++ List.replicate (112 - b.length) 0 then c
    else .badField (fieldAt 8 e 4 1)

/-! ### Rings -/

def getRing (s : State) (r : Nat) : RingSt := tget {} s.mbox.rings r

def modRing (s : State) (r : Nat) (f : RingSt → RingSt) : State :=
  { s with mbox := { s.mbox with rings := tmod {} s.mbox.rings r f } }

/-- A completion is written (R341); `result` is the bytes from offset 8 on. -/
def complete (s : State) (ring : Nat) (seq : BitVec 32) (code err : Nat) (result : Bytes) : State :=
  let body := bytesOf 4 seq ++ [BitVec.ofNat 8 code, BitVec.ofNat 8 err, 0, 0] ++ slice result 0 48
    ++ natLe 4 s.step.lastEnded.toNat ++ bytesOf 4 (seq ^^^ 0xFFFFFFFF)
  let s1 := memWrite s (completionAddr ring seq.toNat) body
  let s2 := modRing s1 ring fun q => { q with open_ := q.open_.filter (· != seq) }
  { s2 with mbox := { s2.mbox with irq := s2.mbox.irq ||| BitVec.ofNat 18 (2 ^ ring) } }

/-- A command completes. -/
def done (s : State) (ring : Nat) (seq : BitVec 32) (c : MboxCmd) (err : Nat) (result : Bytes := []) : State :=
  complete s ring seq (cmdCode c) err result

/-- No step can run: IDLE, ARMED or HELD, or no plot open (R343). -/
def noStep (s : State) : Bool :=
  !s.sec.isOpen || s.launch.state == .idle || s.launch.state == .armed || s.launch.state == .held

/-- A command is served at its doorbell (R343). -/
def atDoorbell (s : State) (c : MboxCmd) : Bool :=
  noStep s || match c with
    | .cancel .. => cfg s offServCfg 4 4 == 0
    | .closePlot f => tb f.toNat 0
    | .checkpoint .. => true
    | .fencePort .. => true
    | .query .. => true
    | .blotterDrain .. => true
    | .attestQuote .. => true
    | .badField c => [0x50, 0x70, 0x71, 0x80, 0xA0].contains c.toNat || (c == 0x41 && cfg s offServCfg 4 4 == 0)
    | _ => false

/-- The ring waits on the completion of the command 256 SEQs earlier (R342). -/
def ringWaits (q : RingSt) : Bool := q.open_.contains (q.nextSeq - 256)

/-- The MP serves mailboxes: the device has booted (R369), and no MP image is between its start and its ready report (R377). -/
def inService (s : State) : Bool := s.boot.phase == .service && !(tget {} s.boot.fw 0).starting

/-! ### Tokens (R351) -/

/-- A token record is written and TAIL advances. -/
def putToken (s : State) (rec16 : Bytes) : State :=
  let s1 := memWrite s (tokenAddr s.mbox.tokTail.toNat) (slice rec16 0 16)
  { s1 with mbox := { s1.mbox with tokTail := s1.mbox.tokTail + 1, irq := s1.mbox.irq ||| 0x10000 } }

/-- A token record from its fields. -/
def tokenRecord (slot flags endCode : Nat) (index token tag : BitVec 32) : Bytes :=
  natLe 2 slot ++ [BitVec.ofNat 8 flags, BitVec.ofNat 8 endCode] ++ bytesOf 4 index ++ bytesOf 4 token ++ bytesOf 4 tag

end Sys2Proof.Machine
end

