-- ==== Sys2Proof/Machine/Num.lean ====
section
/-! DEFINITION. Number formats, exact dyadic values and the one rounding of a result (R84-R87, R97-R99). -/

namespace Sys2Proof.Machine

/-! ### Format codes (R84, R85) -/

/-- Width of an element in bits. -/
def fmtWidth (f : Nat) : Nat := if f ≤ 3 ∨ f = 7 ∨ f = 8 then 8 else if f ≤ 5 then 6 else if f = 6 ∨ f = 9 then 4 else if f = 12 then 32 else 16

/-- Scaled formats carry block scales. -/
def fmtScaled (f : Nat) : Bool := 2 ≤ f && f ≤ 7

/-- Integer formats. -/
def fmtInt (f : Nat) : Bool := f == 8 || f == 9

/-- Class of R85: 0 unscaled float, 1 scaled, 2 integer, 3 output only. -/
def fmtClass (f : Nat) : Nat := if fmtScaled f then 1 else if fmtInt f then 2 else if f = 12 then 3 else 0

/-- Headroom H. -/
def fmtH (f : Nat) : Int := match f with
  | 2 => 9 | 3 => 16 | 4 => 5 | 5 => 3 | 6 => 3 | 8 => 7 | 9 => 3 | _ => 1

/-- Reduction depth KT of a weight tile. -/
def fmtKT (f : Nat) : Nat := if f = 4 ∨ f = 5 ∨ f = 6 ∨ f = 9 then 128 else 64

/-- Largest normal exponent of the element format. -/
def fmtEmax (f : Nat) : Int := match f with
  | 0 => 8 | 1 => 15 | 2 => 8 | 3 => 15 | 4 => 4 | 5 => 2 | 6 => 2 | 10 => 127 | 11 => 15 | 12 => 127 | _ => 0

/-! ### Exact values -/

/-- A decoded element: `sig * 2 ^ q`, an infinity or a NaN. -/
inductive Num where
  | fin (neg : Bool) (mag : Nat) (q : Int)
  | inf (neg : Bool)
  | nan
deriving DecidableEq, Repr

/-- A floating layout: exponent bits, mantissa bits, exponent of the least unit, and what the largest exponent field holds:
0 numbers only, 1 infinity and NaN, 2 the E4M3 rule. -/
structure Flt where
  eb : Nat
  mb : Nat
  qmin : Int
  top : Nat

def fltE4M3 : Flt := { eb := 4, mb := 3, qmin := -9, top := 2 }
def fltE5M2 : Flt := { eb := 5, mb := 2, qmin := -16, top := 1 }
def fltE3M2 : Flt := { eb := 3, mb := 2, qmin := -4, top := 0 }
def fltE2M3 : Flt := { eb := 2, mb := 3, qmin := -3, top := 0 }
def fltE2M1 : Flt := { eb := 2, mb := 1, qmin := -1, top := 0 }
def fltBF16 : Flt := { eb := 8, mb := 7, qmin := -133, top := 1 }
def fltFP16 : Flt := { eb := 5, mb := 10, qmin := -24, top := 1 }
def fltFP32 : Flt := { eb := 8, mb := 23, qmin := -149, top := 1 }

/-- The floating layout of a format code; E4M3 for the integer codes, which do not use it. -/
def fltOf (f : Nat) : Flt := match f with
  | 1 => fltE5M2 | 3 => fltE5M2 | 4 => fltE3M2 | 5 => fltE2M3 | 6 => fltE2M1 | 10 => fltBF16 | 11 => fltFP16 | 12 => fltFP32
  | _ => fltE4M3

/-- Decode a floating word (R86). -/
def fltDecode (l : Flt) (v : Nat) : Num :=
  let m := v % 2 ^ l.mb
  let e := v / 2 ^ l.mb % 2 ^ l.eb
  let neg := v / 2 ^ (l.mb + l.eb) % 2 == 1
  if l.top = 1 ∧ e = 2 ^ l.eb - 1 then (if m = 0 then .inf neg else .nan)
  else if l.top = 2 ∧ e = 2 ^ l.eb - 1 ∧ m = 2 ^ l.mb - 1 then .nan
  else if e = 0 then .fin neg m l.qmin
  else .fin neg (2 ^ l.mb + m) (l.qmin + e - 1)

/-- A two's complement field of `w` bits. -/
def sext (w v : Nat) : Int := if v % 2 ^ w ≥ 2 ^ (w - 1) then (v % 2 ^ w : Nat) - (2 ^ w : Nat) else (v % 2 ^ w : Nat)

/-- A signed integer as an exact value `n * 2 ^ q`. -/
def intNum (n q : Int) : Num := .fin (decide (n < 0)) n.natAbs q

/-- Decode an element of a format (R86). -/
def fmtDecode (f v : Nat) : Num :=
  if f = 7 then intNum (sext 8 v) (-6)
  else if f = 8 then intNum (sext 8 v) 0
  else if f = 9 then intNum (sext 4 v) 0
  else fltDecode (fltOf f) v

/-! ### Rounding (R97-R99) -/

/-- `n * 2 ^ e` in units of `2 ^ q`, ties to even. -/
def rte (n : Nat) (e q : Int) : Nat :=
  if q ≤ e then n * 2 ^ (e - q).toNat
  else
    let d := 2 ^ (q - e).toNat
    let r := n % d
    if 2 * r > d ∨ (2 * r = d ∧ n / d % 2 = 1) then n / d + 1 else n / d

/-- floor(log2) of `n * 2 ^ e` for positive `n`. -/
def flog2 (n : Nat) (e : Int) : Int := (Nat.log2 n : Int) + e

/-- A magnitude `n * 2 ^ e` rounded to a layout with no bound on the exponent: units and their exponent. -/
def roundMag (l : Flt) (n : Nat) (e : Int) : Nat × Int :=
  if n = 0 then (0, l.qmin)
  else
    let q := max (flog2 n e - l.mb) l.qmin
    let r := rte n e q
    if r = 2 ^ (l.mb + 1) then (2 ^ l.mb, q + 1) else (r, q)

/-- Largest finite word of a layout, without its sign. -/
def fltMaxWord (l : Flt) : Nat :=
  let all := 2 ^ (l.eb + l.mb) - 1
  if l.top = 0 then all else if l.top = 2 then all - 1 else (2 ^ l.eb - 1) * 2 ^ l.mb - 1

/-- The word of `r` units of `2 ^ q`, saturating at `cap`; the flag says that it passed the largest finite word. -/
def fltWord (l : Flt) (r : Nat) (q : Int) : Nat × Bool :=
  let w := if r < 2 ^ l.mb then r else ((q - l.qmin).toNat + 1) * 2 ^ l.mb + (r - 2 ^ l.mb)
  if w > fltMaxWord l then (fltMaxWord l, true) else (w, false)

/-- Sign bit of a layout. -/
def fltSign (l : Flt) (neg : Bool) : Nat := if neg then 2 ^ (l.eb + l.mb) else 0

/-- NaN word of a layout (R98). -/
def fltNan (l : Flt) : Nat := if l.top = 2 then 0x7F else if l.eb = 5 ∧ l.mb = 2 then 0x7E else (2 ^ l.eb - 1) * 2 ^ l.mb + 2 ^ (l.mb - 1)

/-- Infinity word of a layout; E4M3 has none and writes its NaN with the sign (R98). -/
def fltInf (l : Flt) (neg : Bool) : Nat :=
  if l.top = 2 then 0x7F + fltSign l neg else (2 ^ l.eb - 1) * 2 ^ l.mb + fltSign l neg

/-- An exact value rounded once and encoded: overflow gives infinity, or the largest number for a layout that has none (R97, R98). -/
def fltEncode (l : Flt) : Num → Nat
  | .nan => fltNan l
  | .inf neg => fltInf l neg
  | .fin neg n e =>
    let r := roundMag l n e
    let w := fltWord l r.1 r.2
    if w.2 && l.top == 1 then fltInf l neg else w.1 + fltSign l neg

/-- A value encoded with saturation to the grid (encode_sat of R99). -/
def fltEncodeSat (l : Flt) (neg : Bool) (n : Nat) (e : Int) : Nat :=
  let r := roundMag l n e
  (fltWord l r.1 r.2).1 + fltSign l neg

/-- A signed value in integer units of `2 ^ q`, ties to even, clamped to `[lo, hi]`. -/
def intRound (neg : Bool) (n : Nat) (e q lo hi : Int) : Int :=
  let r : Int := rte n e q
  max lo (min hi (if neg then -r else r))

/-- An element of a scaled format for a value already divided by its block scale (R99). -/
def elemEncodeSat (f : Nat) (neg : Bool) (n : Nat) (e : Int) : Nat :=
  if f = 7 then (intRound neg n e (-6) (-128) 127 % 256).toNat else fltEncodeSat (fltOf f) neg n e

/-! ### Packing (R87) -/

/-- Words of `w` bits packed from the least bit up. -/
def packNat (w : Nat) : List Nat → Nat
  | [] => 0
  | v :: vs => v % 2 ^ w + 2 ^ w * packNat w vs

/-- `n` words of `w` bits from the least bit up. -/
def unpackNat (w : Nat) : Nat → Nat → List Nat
  | 0, _ => []
  | n + 1, v => v % 2 ^ w :: unpackNat w n (v / 2 ^ w)

/-- Bytes that `k` elements of width `w` fill. -/
def packedLen (w k : Nat) : Nat := (w * k + 7) / 8

/-- Bytes rounded up to whole drops. -/
def dropsFor (n : Nat) : Nat := (n + 63) / 64

/-- A line (R104): elements packed and padded to whole drops. -/
def lineBytes (w : Nat) (vs : List Nat) : Bytes := natLe (64 * dropsFor (packedLen w vs.length)) (packNat w vs)

/-- The `k` elements of a line. -/
def lineElems (w k : Nat) (bs : Bytes) : List Nat := unpackNat w k (leNat bs)

/-- Layout of `nr` lines of `k` elements in a format (R104): drops of a line, and of the whole run with its scale drops. -/
def lineDrops (f k : Nat) : Nat := dropsFor (packedLen (fmtWidth f) k)

def runDrops (f k nr : Nat) : Nat := nr * lineDrops f k + if fmtScaled f then (nr + 15) / 16 else 0

/-- Drop index of row `i`'s line in a run. -/
def rowDrop (f k i : Nat) : Nat := i * lineDrops f k + if fmtScaled f then i / 16 + 1 else 0

/-- Drop index of the scale drop of the group of row `i`. -/
def scaleDrop (f k i : Nat) : Nat := i / 16 * (16 * lineDrops f k + 1)

/-- Row that drop `d` of a run belongs to; a group's scale drop comes with its first row. -/
def rowOfDrop (f k d : Nat) : Nat :=
  let l := lineDrops f k
  if fmtScaled f then 16 * (d / (16 * l + 1)) + (d % (16 * l + 1) - 1) / l else d / l

/-! ### Anchors (R91, R100) -/

/-- Exponent byte of a finite nonzero value: floor(log2 |x|) + 127 clamped to 0 to 254. -/
def expByte (n : Nat) (e : Int) : Nat := (max 0 (min 254 (flog2 n e + 127))).toNat

/-- Anchor byte of unscaled float values: the largest exponent byte of the finite nonzero ones (R91). -/
def floatAnchor (vs : List Num) : Nat :=
  vs.foldl (fun a v => match v with | .fin _ n e => if n = 0 then a else max a (expByte n e) | _ => a) 0

/-- Anchor byte of block scales: the largest other than 0xFF (R91, R100). -/
def scaleAnchor (xs : List Nat) : Nat := xs.foldl (fun a x => if x = 0xFF then a else max a x) 0

/-! ### Write-out of a block to a scaled format (R99) -/

/-- Compare magnitudes by an exact common exponent: the larger of two. -/
def magMax (a b : Nat × Int) : Nat × Int :=
  let e := min a.2 b.2
  if a.1 * 2 ^ (a.2 - e).toNat < b.1 * 2 ^ (b.2 - e).toNat then b else a

/-- Scale byte and elements of a block of values; a value that is no number makes it NaN (R99). -/
def blockEncode (f : Nat) (vs : List Num) : Nat × List Nat :=
  if vs.any fun v => match v with | .fin .. => false | _ => true then (0xFF, vs.map fun _ => 0)
  else
    let mags := vs.map fun v => match v with | .fin _ n e => (n, e) | _ => ((0, 0) : Nat × Int)
    let vmax := mags.foldl magMax (0, 0)
    let x : Int := if vmax.1 = 0 then -127 else min 127 (max (-127) (flog2 vmax.1 vmax.2 - fmtEmax f))
    ((x + 127).toNat, vs.map fun v => match v with | .fin neg n e => elemEncodeSat f neg n (e - x) | _ => 0)

end Sys2Proof.Machine
end

