-- ==== Sys2Proof/Machine/Loading.lean ====
section
/-! DEFINITION. Weight loading: manifests, blocks, the loading chain, epochs staged and switched (R220, R352-R357). -/

namespace Sys2Proof.Machine

/-! ### Manifests -/

/-- The manifest accepted for an epoch and adapter, live one included. -/
def manifestOf (s : State) (epoch adapter : BitVec 32) : Option ManifestSt :=
  match s.load.manifests.find? fun m => m.epoch == epoch && m.adapter == adapter with
  | some m => some m
  | none => match s.load.liveManifest with
    | some m => if m.epoch = epoch ∧ m.adapter = adapter then some m else none
    | none => none

/-- The manifest whose blocks an epoch's number names: the last one accepted for it (R344: one load of an epoch at a time), or that of
the live epoch, whose blocks may still be on their way down the chain (log 38). -/
def loadOf (s : State) (epoch : BitVec 32) : Option ManifestSt :=
  match s.load.manifests.reverse.find? fun m => m.epoch == epoch with
  | some m => some m
  | none => s.load.liveManifest.filter fun m => m.epoch == epoch

/-- Digest of an epoch's model manifest; 0 for an epoch without one. -/
def modelDigest (s : State) (epoch : BitVec 32) : Digest := match manifestOf s epoch 0 with | some m => m.digest | none => 0

/-- Digest of the manifest of an epoch's adapter; 0 for ADAPTER = 0 (R204). -/
def adapterDigest (s : State) (epoch adapter : BitVec 32) : Digest :=
  if adapter = 0 then 0 else match manifestOf s epoch adapter with | some m => m.digest | none => 0

/-- A block entry of 80 bytes (R352). -/
def blockOf (b : Bytes) : BlockEnt :=
  { length := fieldAt 32 b 4 4, firstPos := fieldAt 32 b 8 4, lastPos := fieldAt 32 b 12 4, stage := fieldAt 64 b 16 8
    target := fieldAt 64 b 24 8, digest := fieldAt 256 b 32 32, kind := fieldAt 8 b 64 1, fmt := fieldAt 8 b 65 1
    anchor := fieldAt 64 b 72 8 }

/-- The first `n` block entries from a run of bytes. -/
def blocksOf (bs : Bytes) : Nat → List BlockEnt
  | 0 => []
  | n + 1 => blockOf (bs.take 80) :: blocksOf (bs.drop 80) n

/-- The BLOCK fields of `n` entries are their indices from `i` on. -/
def blocksNumbered (bs : Bytes) (i : Nat) : Nat → Bool
  | 0 => true
  | n + 1 => leNat (slice bs 0 4) == i && blocksNumbered (bs.drop 80) (i + 1) n

/-- This device keeps a block (R352). -/
def keepsBlock (s : State) (e : BlockEnt) : Bool :=
  decide (e.firstPos.toNat ≤ s.sec.position.toNat) && decide (s.sec.position.toNat ≤ e.lastPos.toNat)

/-- Two ranges meet. -/
def meets (a n b m : Nat) : Bool := decide (a < b + m) && decide (b < a + n) && n != 0 && m != 0

/-- Valid allocation entries of every core of a sheet. -/
def sheetAllocs (sh : Sheet) : List Alloc := sh.cores.flatMap fun e => (e.2.alloc.map allocOf).filter (·.valid)

/-- The sheets whose entries a block's ranges are held against: live, and the shadow while valid (R352). -/
def loadedSheets (s : State) : List Sheet := s.sheets.live.toList ++ if s.sheets.shadowValid then s.sheets.shadow.toList else []

/-- Lengths of the STAGE ranges of a manifest on this device. -/
def stageRanges (s : State) (m : ManifestSt) : List (Nat × Nat) :=
  (m.blocks.filter (keepsBlock s)).map fun e => (e.stage.toNat, e.length.toNat)

/-- A STAGE range obeys R352 against a sheet. -/
def stageClear (a n : Nat) (sh : Sheet) : Bool := (sheetAllocs sh).all fun e => !meets a n e.base e.size

/-- `n` bytes from `a` on lie in the entries of a list, each byte in one; `fuel` entries at most. -/
def coveredBy (es : List Alloc) (a n : Nat) : Nat → Bool
  | 0 => n == 0
  | fuel + 1 =>
    n == 0 || match es.find? fun e => inEntry a 1 e with
      | some e => let k := min n (e.base + e.size - a); coveredBy es (a + k) (n - k) fuel
      | none => false

/-- A TARGET or ANCHOR range lies only in WEIGHT entries of a sheet. -/
def inWeight (a n : Nat) (sh : Sheet) : Bool :=
  let es := (sheetAllocs sh).filter fun e => e.kind == 2
  coveredBy es a n (es.length + 1)

/-- A kept block obeys R352 against a sheet. -/
def blockFits (e : BlockEnt) (sh : Sheet) : Bool :=
  stageClear e.stage.toNat e.length.toNat sh && (e.target == 0 || inWeight e.target.toNat e.length.toNat sh)
    && (e.kind != 1 || inWeight e.anchor.toNat 128 sh)

/-- The address lies in stratum 2 with its length. -/
def inStack (a n : Nat) : Bool := decide (0x008000000000 ≤ a) && decide (a + n ≤ 0x010000000000)

/-- A block entry obeys R352 on this device. -/
def blockOk (s : State) (b : ManifestBody) (e : BlockEnt) : Bool :=
  let n := e.length.toNat
  let a := e.stage.toNat
  let live := match s.load.liveManifest with | some m => stageRanges s m | none => []
  n % 64 == 0 && decide (64 ≤ n) && decide (n ≤ 2 ^ 26) && decide (e.kind.toNat ≤ 1) &&
    (!keepsBlock s e ||
      (inStack a n && !meets a n windowBase 0x4000000 && !meets a n b.retain.toNat b.retainLen.toNat
        && live.all (fun r => !meets a n r.1 r.2) && (loadedSheets s).all (blockFits e)))

/-- The error with which a manifest read from the host is refused, or its record (R352, R353). -/
def manifestCheck (s : State) (b : ManifestBody) (bytes : Bytes) : Nat ⊕ ManifestSt :=
  let n := b.length.toNat
  let signed := bytes.take (n - 64)
  let count := (fieldAt 32 bytes 12 4).toNat
  let key := fieldAt 256 bytes 56 32
  let base := fieldAt 256 bytes 88 32
  let ents := blocksOf (bytes.drop 128) count
  if sm3 signed ≠ b.digest then .inl errDigest
  else if slice bytes 0 4 ≠ [0x4D, 0x4E, 0x46, 0] ∨ fieldAt 16 bytes 4 2 ≠ 1 ∨ fieldAt 32 bytes 8 4 ≠ b.epoch
      ∨ tb (leNat (slice bytes 6 2)) 0 ≠ (b.adapter != 0) ∨ count = 0 ∨ count > 131072 ∨ n ≠ 192 + 80 * count
      ∨ base ≠ (if b.adapter = 0 then 0 else modelDigest s b.epoch) ∨ blocksNumbered (bytes.drop 128) 0 count = false
      ∨ ents.all (blockOk s b) = false then .inl errBadField
  else if s.boot.publishers.contains key = false
      ∨ Config.sm2Verify (bytesOf 32 key) (bytesOf 32 b.digest) (fieldAt 512 bytes (n - 64) 64) = false then .inl errSignature
  else .inr { epoch := b.epoch, adapter := b.adapter, digest := b.digest, blocks := ents, retain := b.retain, retainLen := b.retainLen }

/-! ### Anchor lines (R91, R352) -/

/-- Bytes of one weight tile of a format (R104). -/
def weightTileBytes (f : Nat) : Nat :=
  128 * packedLen (fmtWidth f) (fmtKT f) + if fmtScaled f then 128 * (fmtKT f / 32) else 0

/-- Anchor byte of column `n` of one tile (R91). -/
def tileAnchor (f : Nat) (tile : Bytes) (n : Nat) : Nat :=
  let k := fmtKT f
  let col := packedLen (fmtWidth f) k
  if fmtInt f then 0
  else if fmtScaled f then scaleAnchor ((slice tile (128 * col + n * (k / 32)) (k / 32)).map BitVec.toNat)
  else floatAnchor ((lineElems (fmtWidth f) k (slice tile (n * col) col)).map (fmtDecode f))

/-- The greatest anchor of column `n` over `t` tiles. -/
def columnAnchor (f : Nat) (bs : Bytes) (n : Nat) : Nat → Nat
  | 0 => 0
  | t + 1 => max (columnAnchor f bs n t) (tileAnchor f (slice bs (t * weightTileBytes f) (weightTileBytes f)) n)

/-- The weight anchor line of a kind-1 block (R352): 128 bytes. -/
def anchorLine (f : Nat) (bs : Bytes) : Bytes :=
  (List.range 128).map fun n => BitVec.ofNat 8 (columnAnchor f bs n (bs.length / weightTileBytes f))

/-- Two anchor lines merged by maximum. -/
def mergeLines (a b : Bytes) : Bytes := List.zipWith (fun x y => if x.toNat < y.toNat then y else x) a b

/-- The merged anchor line at an address over the kept blocks of a manifest that name it. -/
def anchorAt (s : State) (bs : List BlockEnt) (a : BitVec 64) : Bytes :=
  (bs.filter fun e => e.kind == 1 && e.anchor == a).foldl
    (fun acc e => mergeLines acc (anchorLine e.fmt.toNat (memRead s e.stage.toNat e.length.toNat))) (List.replicate 128 0)

/-! ### Switching an epoch's weights (R220) -/

/-- Copy a block's staged copy to its target. -/
def fillTarget (s : State) (e : BlockEnt) : State :=
  if e.target = 0 then s else memWrite s e.target.toNat (memRead s e.stage.toNat e.length.toNat)

/-- Write the anchor lines that the kept blocks name. -/
def fillAnchors (s : State) (all : List BlockEnt) : List BlockEnt → State
  | [] => s
  | e :: es => fillAnchors (if e.kind = 1 then memWrite s e.anchor.toNat (anchorAt s all e.anchor) else s) all es

/-- Every WEIGHT region is reloaded from the staged copy of the live epoch (R220 step 1). -/
def reloadWeights (s : State) : State :=
  match s.load.liveManifest with
  | none => s
  | some m =>
    let kept := m.blocks.filter (keepsBlock s)
    fillAnchors (kept.foldl fillTarget s) kept kept

/-- LIVE and STAGED are exchanged (R220 step 2), with their manifests. -/
def switchEpoch (s : State) (epoch : BitVec 32) : State :=
  let m := s.load.manifests.find? fun m => m.epoch == epoch && m.adapter == 0
  { s with
    serv := { s.serv with live := epoch, stagedE := s.serv.live }
    load := { s.load with
      liveManifest := m
      manifests := s.load.manifests.filter fun m => !(m.epoch == epoch && m.adapter == 0) } }

/-- The block of a manifest whose target covers an address: its staged copy is that location's backing copy (R71 step 4). -/
def backingBlock (s : State) (a : Nat) : Option BlockEnt :=
  (s.load.liveManifest.map fun m => m.blocks.filter fun e =>
    keepsBlock s e && e.target != 0 && decide (e.target.toNat ≤ a) && decide (a < e.target.toNat + e.length.toNat)).bind List.head?

/-! ### Completion of a load (R353) -/

def modManifest (s : State) (epoch adapter : BitVec 32) (f : ManifestSt → ManifestSt) : State :=
  { s with load := { s.load with manifests := s.load.manifests.map fun m => if m.epoch = epoch ∧ m.adapter = adapter then f m else m } }

/-- Every block this device keeps is verified. -/
def allVerified (s : State) (m : ManifestSt) : Bool :=
  (List.range m.blocks.length).all fun i =>
    match m.blocks[i]? with | some e => !keepsBlock s e || m.verified.contains i | none => true

/-- Lowest block that this device keeps and has not verified. -/
def lowestMissing (s : State) (m : ManifestSt) : Nat :=
  ((List.range m.blocks.length).find? fun i =>
    match m.blocks[i]? with | some e => keepsBlock s e && !m.verified.contains i | none => false).getD 0

/-- A load whose blocks are all verified completes; the plot hears STAGED (R353). -/
def loadDone (s : State) (epoch adapter : BitVec 32) : State :=
  match s.load.manifests.find? fun m => m.epoch == epoch && m.adapter == adapter with
  | none => s
  | some m =>
    match m.waiter with
    | none => s
    | some (ring, seq) =>
      if allVerified s m then
        let s1 := modManifest s epoch adapter fun m => { m with complete := true, waiter := none }
        let s2 := if adapter = 0 then { s1 with serv := { s1.serv with stagedE := epoch } } else s1
        originate (complete s2 ring seq 0x10 errOk []) 0 (.staged epoch adapter)
      else s

/-- A manifest with its load is dropped (R353). -/
def dropManifest (s : State) (epoch adapter : BitVec 32) : State :=
  { s with
    load := { s.load with manifests := s.load.manifests.filter fun m => !(m.epoch == epoch && m.adapter == adapter) }
    serv := if adapter = 0 then { s.serv with stagedE := 0xFFFFFFFF } else s.serv }

/-- The head counts an epoch or adapter staged everywhere (R357). -/
def stagedEverywhere (s : State) (epoch adapter : BitVec 32) : Bool :=
  (match manifestOf s epoch adapter with | some m => m.complete | none => false) &&
    (List.range s.sec.devices.toNat).all fun p =>
      p == s.sec.position.toNat || s.serv.stagedMsgs.contains (BitVec.ofNat 32 p, epoch, adapter)

/-! ### The loading chain (R354, R355) -/

/-- Sub-port to the next device of the chain, and to the one before. -/
def loadNext (s : State) : Option Nat := (s.sec.topo.find? fun e => tb e.role.toNat 4).map topoKey

def loadPrev (s : State) : Option Nat := (s.sec.topo.find? fun e => tb e.role.toNat 5).map topoKey

/-- A BULK grain joins the class-3 queue of a sub-port. -/
def sendBulk (s : State) (k : Nat) (bs : Bytes) : State :=
  modSub s k fun b => { b with q3 := b.q3 ++ [mkGrain (grainHeader 0 3 6 0 s.sec.plot.toNat) (wordOf 2048 (slice bs 0 256))] }

/-- A BULK operation: OP, EPOCH, BLOCK and a last field. -/
def bulkOp (op : Nat) (epoch block last : BitVec 32) : Bytes :=
  [BitVec.ofNat 8 op, 0, 0, 0] ++ bytesOf 4 epoch ++ bytesOf 4 block ++ bytesOf 4 last

/-- Data of a block in 256-byte grains, the last padded. -/
def sendData (s : State) (k : Nat) (bs : Bytes) : Nat → State
  | 0 => s
  | n + 1 => sendData (sendBulk s k bs) k (bs.drop 256) n

/-- A block's START and data are queued to the next device, from the copy kept (R354, R355). -/
def sendBlock (s : State) (t : BlockTx) : State :=
  let n := t.bytes.length
  match loadNext s with
  | none => s
  | some k =>
    sendData (sendBulk s k (bulkOp 1 t.epoch t.block (BitVec.ofNat 32 n))) k (memRead s t.keptAt n) ((n + 255) / 256)

/-- Ranges of RETAIN that hold forwarded blocks not yet acknowledged: address and length. -/
def retainUsed (s : State) (m : ManifestSt) : List (Nat × Nat) :=
  (s.load.tx.filter fun t => t.queued && meets t.keptAt t.bytes.length m.retain.toNat m.retainLen.toNat).map fun t =>
    (t.keptAt, t.bytes.length)

/-- The lowest address of RETAIN at which `n` bytes fit beside those held (log 38). -/
def retainPlace (s : State) (m : ManifestSt) (n : Nat) : Option Nat :=
  let used := retainUsed s m
  (m.retain.toNat :: used.map fun r => r.1 + r.2).foldl (fun best a =>
    if a + n ≤ m.retain.toNat + m.retainLen.toNat ∧ (used.all fun r => !meets a n r.1 r.2) = true ∧ (best.elim true fun b => decide (a < b)) = true
      then some a else best) none

/-- Where a block to be forwarded is kept: at STAGE if this device keeps it, else in RETAIN where it has room. -/
def keepPlace (s : State) (t : BlockTx) : Option Nat :=
  (loadOf s t.epoch).bind fun m => (m.blocks[t.block.toNat]?).bind fun e =>
    if keepsBlock s e then some e.stage.toNat else retainPlace s m t.bytes.length

/-- Forwarded blocks that waited for room in RETAIN are queued, oldest first (R354). -/
def pumpTx (s : State) : List BlockTx → State
  | [] => s
  | t :: ts =>
    match if t.queued then none else keepPlace s t with
    | none => pumpTx s ts
    | some a =>
      let mark := fun x : BlockTx => if x.epoch = t.epoch ∧ x.block = t.block then { x with queued := true, keptAt := a } else x
      pumpTx (sendBlock (memWrite { s with load := { s.load with tx := s.load.tx.map mark } } a t.bytes) { t with keptAt := a }) ts

/-- The first delivery of a block that is not yet acknowledged goes (R354). -/
def dropTx (s : State) (epoch block : BitVec 32) : State :=
  { s with load := { s.load with tx := s.load.tx.eraseP fun t => t.epoch == epoch && t.block == block } }

/-- The LOAD_BLOCK whose block is under way. -/
def jobOf (s : State) (epoch block : BitVec 32) : Option BlockJob :=
  s.load.jobs.find? fun j => !j.reading && j.epoch == epoch && j.block == block

/-- A block is acknowledged upstream, or its LOAD_BLOCK completes at the chain head (R354 step 4). -/
def ackUp (s : State) (epoch block : BitVec 32) : State :=
  match loadPrev s with
  | some k => sendBulk s k (bulkOp 2 epoch block 0)
  | none =>
    match jobOf s epoch block with
    | none => s
    | some j =>
      let stored := match (loadOf s epoch).bind fun m => m.blocks[block.toNat]? with
        | some e => e.lastPos.toNat + 1 - e.firstPos.toNat | none => 0
      let s1 := { s with load := { s.load with jobs := s.load.jobs.filter fun x => !(x.ring == j.ring && x.seq == j.seq) } }
      complete s1 j.ring j.seq 0x11 errOk (natLe 4 stored)

/-- A block whose digest holds is kept and forwarded (R354 steps 1 to 4). -/
def takeBlock (s : State) (m : ManifestSt) (block : BitVec 32) (e : BlockEnt) (bytes : Bytes) : State :=
  let s1 := if keepsBlock s e then
    modManifest (memWrite s e.stage.toNat bytes) m.epoch m.adapter fun m => { m with verified := block.toNat :: m.verified } else s
  let s2 := loadDone s1 m.epoch m.adapter
  if s2.sec.position.toNat < e.lastPos.toNat then
    let t : BlockTx := { epoch := m.epoch, block, failures := 0, queued := false, bytes }
    let s3 := { s2 with load := { s2.load with tx := s2.load.tx ++ [t] } }
    pumpTx s3 s3.load.tx
  else ackUp s2 m.epoch block

/-- A LOAD_BLOCK ends with an error. -/
def failJob (s : State) (j : BlockJob) (err : Nat) (res : Bytes) : State :=
  complete { s with load := { s.load with jobs := s.load.jobs.filter fun x => !(x.ring == j.ring && x.seq == j.seq) } }
    j.ring j.seq 0x11 err res

/-- The error with which a LOAD_BLOCK ends whose block failed at a position: STATE where that device has no accepted manifest, else DIGEST
(R355). BULK_NACK gives no reason: of a device not known to be staged the head cannot tell, and the choice is free (log 38). -/
def blockError (s : State) (j : BlockJob) (position : BitVec 32) : State × Nat :=
  let known := match loadOf s j.epoch with | some m => s.serv.stagedMsgs.contains (position, j.epoch, m.adapter) | none => false
  if position = s.sec.position ∨ known = true then (s, errDigest)
  else
    let d := drawFree 1 s
    (d.2, if d.1 = 0 then errDigest else errState)

/-- A block failed in the host read, or downstream of the chain head: it is read again, or its LOAD_BLOCK ends after three (R355). -/
def readAgain (s : State) (j : BlockJob) (position : BitVec 32) : State :=
  if j.reads + 1 ≥ 3 then
    let e := blockError s j position
    failJob e.1 j e.2 (natLe 4 0 ++ bytesOf 4 position)
  else
    { s with load := { s.load with
        jobs := s.load.jobs.map fun x => if x.ring = j.ring ∧ x.seq = j.seq then { x with reads := x.reads + 1, reading := true } else x } }

/-- A failure passes upstream, or ends at the chain head (R355). -/
def nackUp (s : State) (epoch block position : BitVec 32) : State :=
  match loadPrev s with
  | some k => sendBulk s k (bulkOp 3 epoch block position)
  | none => match jobOf s epoch block with
    | some j => readAgain s j position
    | none => s

/-- Blocks of an epoch that this device no longer holds and has not sent on are answered as failed (R355; log 38). -/
def nackUnsent (s : State) (epoch : BitVec 32) : State :=
  let gone := fun t : BlockTx => t.epoch == epoch && !t.queued
  if (loadOf s epoch).isSome then s
  else (s.load.tx.filter gone).foldl (fun s t => nackUp s t.epoch t.block s.sec.position)
    { s with load := { s.load with tx := s.load.tx.filter fun t => !gone t } }

/-- The sub-port is the one to the device before in the chain. -/
def fromPrev (s : State) (k : Nat) : Bool := loadPrev s == some k

/-- BULK_START (R354, R355). -/
def bulkStartOn (s : State) (k : Nat) (epoch block length : BitVec 32) : State :=
  if !fromPrev s k then s
  else match (loadOf s epoch).filter fun m => decide (block.toNat < m.blocks.length) with
    | none => nackUp s epoch block s.sec.position
    | some _ => { s with load := { s.load with rx := some { epoch, block, length, bytes := [] } } }

/-- BULK_DATA (R354): the last grain of a block ends its delivery. -/
def bulkDataOn (s : State) (k : Nat) (payload : BitVec 2048) : State :=
  match s.load.rx with
  | none => s
  | some r =>
    if !fromPrev s k then s
    else
      let bytes := (r.bytes ++ bytesOf 256 payload).take r.length.toNat
      if bytes.length < r.length.toNat then { s with load := { s.load with rx := some { r with bytes } } }
      else
        let s1 := { s with load := { s.load with rx := none } }
        match (loadOf s1 r.epoch).filter fun m => decide (r.block.toNat < m.blocks.length) with
        | none => nackUp s1 r.epoch r.block s1.sec.position
        | some m => match m.blocks[r.block.toNat]? with
          | none => nackUp s1 r.epoch r.block s1.sec.position
          | some e =>
            if e.length = r.length ∧ sm3 bytes = e.digest then takeBlock s1 m r.block e bytes
            else nackUp s1 r.epoch r.block s1.sec.position

/-- BULK_ACK (R354): the successor holds the block; its retained copy goes. -/
def bulkAckOn (s : State) (k : Nat) (epoch block : BitVec 32) : State :=
  if loadNext s = some k ∧ (s.load.tx.any fun t => t.epoch == epoch && t.block == block) = true then
    let s2 := ackUp (dropTx s epoch block) epoch block
    pumpTx s2 s2.load.tx
  else s

/-- BULK_NACK (R355): the block is sent again from the retained copy; after three failed deliveries, or where POSITION says that it
failed further down than at the successor, the failure passes upstream (log 38). -/
def bulkNackOn (s : State) (k : Nat) (epoch block position : BitVec 32) : State :=
  if loadNext s ≠ some k then s
  else match s.load.tx.find? fun t => t.epoch == epoch && t.block == block with
    | none => s
    | some t =>
      if t.failures + 1 ≥ 3 ∨ position ≠ s.sec.position + 1 then nackUp (dropTx s epoch block) epoch block position
      else
        let bump := fun x : BlockTx => if x.epoch = epoch ∧ x.block = block then { x with failures := x.failures + 1 } else x
        sendBlock { s with load := { s.load with tx := s.load.tx.map bump } } t

/-- Unacknowledged blocks are sent again when the sub-port to the successor returns to PLOT after a blot (R355). -/
def resendBlocks (s : State) : List BlockTx → State
  | [] => s
  | t :: ts => resendBlocks (if t.queued then sendBlock s t else s) ts

/-! ### Commands (R353) -/

/-- LOAD_MANIFEST is served. -/
def serveLoadManifest (s : State) (ring : Nat) (seq : BitVec 32) (b : ManifestBody) : State :=
  let fin := done s ring seq (.loadManifest b)
  let busy := (s.load.manifests.any fun m => m.epoch == b.epoch && m.waiter.isSome) ||
    s.load.reading.any fun r => r.2.2.epoch == b.epoch
  if !s.sec.isOpen || b.epoch == s.serv.live then fin errState
  else if b.length.toNat > 2 ^ 24 ∨ b.length.toNat < 192 ∨ b.timeoutS = 0 ∨ b.timeoutS.toNat > 86400
      ∨ (b.retainLen ≠ 0 ∧ inStack b.retain.toNat b.retainLen.toNat = false) then fin errBadField
  else if busy then fin errBusy
  else { s with load := { s.load with reading := s.load.reading ++ [(ring, seq, b)] } }

/-- The manifest has come from the host (R353). -/
def manifestRead (s : State) (ring : Nat) (seq : BitVec 32) (b : ManifestBody) (host : HostView) : State :=
  let s1 := { s with load := { s.load with reading := s.load.reading.filter fun r => !(r.1 == ring && r.2.1 == seq) } }
  match manifestCheck s1 b (hostView host b.host.toNat b.length.toNat) with
  | .inl err => done s1 ring seq (.loadManifest b) err
  | .inr m =>
    let old := s1.load.manifests.any fun x => x.epoch == b.epoch && x.adapter == b.adapter
    let s2 := if old then dropManifest s1 b.epoch b.adapter else s1
    loadDone { s2 with load := { s2.load with manifests := s2.load.manifests ++ [{ m with waiter := some (ring, seq) }] } }
      b.epoch b.adapter

/-- LOAD_BLOCK is served (R353, R354). -/
def serveLoadBlock (s : State) (ring : Nat) (seq : BitVec 32) (epoch block : BitVec 32) (host : BitVec 64) (length : BitVec 32) : State :=
  let fin := done s ring seq (.loadBlock epoch block host length)
  if !s.sec.isOpen || (loadPrev s).isSome then fin errNotRoot
  else match loadOf s epoch with
    | none => fin errState
    | some m => match m.blocks[block.toNat]? with
      | none => fin errBadField
      | some e =>
        if e.length ≠ length then fin errBadField
        else if s.load.jobs.length ≥ 64 then fin errBusy
        else { s with load := { s.load with jobs := s.load.jobs ++ [{ ring, seq, epoch, block, host, length, reads := 0, reading := true }] } }

/-- A block has come from the host (R354, R355). -/
def blockRead (s : State) (j : BlockJob) (host : HostView) : State :=
  let bytes := hostView host j.host.toNat j.length.toNat
  match loadOf s j.epoch with
  | none => failJob s j errState []
  | some m => match m.blocks[j.block.toNat]? with
    | none => failJob s j errState []
    | some e =>
      if sm3 bytes = e.digest then
        let got := fun x : BlockJob => if x.ring = j.ring ∧ x.seq = j.seq then { x with reading := false } else x
        takeBlock { s with load := { s.load with jobs := s.load.jobs.map got } } m j.block e bytes
      else readAgain s j s.sec.position

/-- MANIFEST_TIMEOUT (R353): with the manifest itself not read yet every block is missing. -/
def execManifestTimeout (epoch adapter : BitVec 32) (s : State) : Out :=
  let mine (r : Nat × BitVec 32 × ManifestBody) : Bool := r.2.2.epoch == epoch && r.2.2.adapter == adapter
  .next (match s.load.reading.find? mine with
    | some (ring, seq, _) =>
      let s1 := { s with load := { s.load with reading := s.load.reading.filter fun r => !(r.1 == ring && r.2.1 == seq) } }
      complete (nackUnsent (dropManifest s1 epoch adapter) epoch) ring seq 0x10 errMissing (natLe 4 0)
    | none => match s.load.manifests.find? fun m => m.epoch == epoch && m.adapter == adapter with
      | none => s
      | some m => match m.waiter with
        | none => s
        | some (ring, seq) =>
          complete (nackUnsent (dropManifest s epoch adapter) epoch) ring seq 0x10 errMissing (natLe 4 (lowestMissing s m)))

end Sys2Proof.Machine
end

