-- ==== Sys2Proof/Machine/Seals.lean ====
section
/-! DEFINITION. Request seals: their bytes, their signature and their delivery (R230-R235, R351). -/

namespace Sys2Proof.Machine

/-- Bytes filled with 0x00 to a multiple of 8. -/
def pad8 (bs : Bytes) : Bytes := bs ++ List.replicate ((8 - bs.length % 8) % 8) 0

/-- The header of a request seal (R231). -/
def sealHeader (s : State) (v : Slot) : Bytes :=
  [0x53, 0x45, 0x41, 0x4C, 1, 0, 0, if v.isNative then 0 else 1] ++ bytesOf 2 s.sec.servingIf ++ natLe 2 s.sec.devices.toNat ++ natLe 4 0
    ++ bytesOf 8 v.rid ++ bytesOf 16 v.seed ++ bytesOf 4 v.epoch ++ bytesOf 4 v.adapter ++ bytesOf 4 v.stopToken
    ++ bytesOf 4 v.maxTokens ++ bytesOf 4 v.prompt ++ natLe 4 v.outToks.length
    ++ [BitVec.ofNat 8 v.endCode.toNat, if v.isNative then 1 else 0, BitVec.ofNat 8 v.sets.length, 0, 0, 0, 0, 0]
    ++ bytesOf 32 v.manifest ++ bytesOf 32 v.adapterManifest ++ natLe 8 0

/-- The bytes that D covers (R231): header, sheet sets, prompt, output. -/
def sealCore (s : State) (v : Slot) : Bytes :=
  sealHeader s v ++ (v.sets.flatMap fun e => bytesOf 4 e.1 ++ natLe 4 0 ++ bytesOf 32 e.2) ++ pad8 (v.promptToks.flatMap (bytesOf 4))
    ++ pad8 (v.outToks.flatMap (bytesOf 4))

/-- A note entry (R235). -/
def noteBytes (n : NoteEntry) : Bytes := bytesOf 2 n.tag ++ [0, 0] ++ bytesOf 4 n.emitted ++ bytesOf 8 n.sa ++ bytesOf 8 n.sb

/-- The observation area (R235). -/
def obsArea (s : State) (i : Nat) (v : Slot) : Bytes :=
  natLe 4 (64 + 24 * v.notes.length) ++ natLe 2 v.notes.length ++ bytesOf 2 v.notesDropped ++ bytesOf 8 s.boot.deviceId ++ natLe 2 i
    ++ bytesOf 2 v.tenant ++ bytesOf 4 v.obsFlags ++ natLe 8 v.admitTime.sec.toNat ++ natLe 4 (tvNs v.admitTime)
    ++ natLe 4 (tvNs v.endTime) ++ natLe 8 v.endTime.sec.toNat ++ natLe 8 (v.firstStep.elim 0 BitVec.toNat) ++ bytesOf 8 v.lastStep
    ++ v.notes.flatMap noteBytes

/-- The message D ‖ O and the signature over it by the attestation key (R234). -/
def signedTail (s : State) (core obs : Bytes) : Bytes × Bytes :=
  let d := sm3Bytes core
  let g := Config.sm2Sign s.boot.attestKey (d ++ sm3Bytes obs)
  (d, (bytesOf 64 g))

/-- The bytes of a seal whose signature is made (R231). -/
def sealBytes (s : State) (j : SealJob) : Bytes :=
  let t := signedTail s j.core j.obs
  j.core ++ t.1 ++ t.2 ++ j.obs

/-- A seal is written to its address in host memory, and its completion record follows (R351). -/
def deliverSeal (s : State) (slot : Nat) (rid : BitVec 64) (output : BitVec 32) (addr : BitVec 64) (bs : Bytes) : State :=
  putToken (hostWrite s addr.toNat bs) (tokenRecord slot 8 0 output (BitVec.ofNat 32 bs.length) (BitVec.ofNat 32 rid.toNat))

/-- A signed seal waits in the hold (R351): the device writes its bytes to the hold of the window, seals one after the other from its base
(R339; log 39). -/
def holdSeal (s : State) (h : SealHeld) : State :=
  let used := s.mbox.sealHold.foldl (fun n x => n + x.bytes.length) 0
  let s1 := { s with mbox := { s.mbox with sealHold := s.mbox.sealHold ++ [h] } }
  if used + h.bytes.length ≤ 2 ^ 24 then memWrite s1 (windowBase + 0x1000000 + used) h.bytes else s1

/-- Seals of the hold are written in order (R351). -/
def flushSeals (s : State) : List SealHeld → State
  | [] => { s with mbox := { s.mbox with sealHold := [] } }
  | h :: hs => flushSeals (deliverSeal s h.slot h.rid h.output h.addr h.bytes) hs

/-- SEAL_SIGNED (R230, R351): the MP has signed the oldest seal of the slot's requests; with the link down it waits in the hold. -/
def execSealSigned (slot : BitVec 13) (s : State) : Out :=
  .next (match s.serv.seals.find? fun j => j.slot == slot.toNat with
    | none => s
    | some j =>
      let s1 := { s with serv := { s.serv with seals := s.serv.seals.erase j } }
      if s.mbox.link = 2 then deliverSeal s1 j.slot j.rid j.output j.addr (sealBytes s j)
      else holdSeal s1 { slot := j.slot, rid := j.rid, output := j.output, addr := j.addr, bytes := sealBytes s j })

/-- Bytes of the largest seal of a request (R349). -/
def sealMax (v : Slot) : Nat := 1008 + 8 * ((v.prompt.toNat + 1) / 2) + 8 * ((v.maxTokens.toNat + 1) / 2)

/-- The seal hold has room for the largest seal of every sealed slot that can end at the next commit (R351; log 19). -/
def sealRoom (s : State) : Bool :=
  let held : Nat := (s.mbox.sealHold.map fun h => h.bytes.length).foldl (· + ·) 0
  let waiting : Nat := (s.serv.seals.map fun j => j.core.length + 96 + j.obs.length).foldl (· + ·) 0
  let live : Nat := (s.serv.slots.map fun e => if e.2.state ≠ .free ∧ e.2.sealReq = true then sealMax e.2 else 0).foldl (· + ·) 0
  decide (held + waiting + live ≤ 2 ^ 24)

/-- The token ring has the room that a head commit can need (R351). -/
def tokenRoom (s : State) : Bool := decide (8256 ≤ 65536 - (s.mbox.tokTail - s.mbox.tokHead).toNat)

end Sys2Proof.Machine
end

