-- ==== Sys2Proof/Machine/Serving.lean ====
section
/-! DEFINITION. Admission, the policy engine, descriptors, commit and end codes of a serving plot (R187-R223). -/

namespace Sys2Proof.Machine

/-! ### Sorting by the policy's order -/

/-- Insert into a list ordered by `lt`. -/
def insertBy (lt : Nat → Nat → Bool) (x : Nat) : List Nat → List Nat
  | [] => [x]
  | y :: ys => if lt x y then x :: y :: ys else y :: insertBy lt x ys

def sortBy (lt : Nat → Nat → Bool) : List Nat → List Nat
  | [] => []
  | x :: xs => insertBy lt x (sortBy lt xs)

def deficitOf (s : State) (c : Nat) : Nat := tget 0 s.serv.deficits c

/-- Rank of R212: greater deficit, lower class, lower slot first. -/
def rankLt (s : State) (a b : Nat) : Bool :=
  let ca := slotClass (getSlot s a)
  let cb := slotClass (getSlot s b)
  let da := deficitOf s ca
  let db := deficitOf s cb
  decide (db < da) || (da == db && (decide (ca < cb) || (ca == cb && decide (a < b))))

/-- Order of victims (R201): ascending deficit of the class, then descending slot. -/
def victimLt (s : State) (a b : Nat) : Bool :=
  let da := deficitOf s (slotClass (getSlot s a))
  let db := deficitOf s (slotClass (getSlot s b))
  decide (da < db) || (da == db && decide (b < a))

/-! ### Sieve lookup (R207) -/

/-- What a lookup finds: folios and entry indices of its hits from block 1 on, misses, collisions. -/
structure Lookup where
  folios : List Nat := []
  entries : List Nat := []
  misses : Nat := 0
  collisions : Nat := 0
deriving DecidableEq, Repr

/-- Every check of R207 passes on an entry. -/
def sieveHit (v : Slot) (k prev : Nat) (toks : List (BitVec 32)) (e : SieveEnt) : Bool :=
  bitsOf e.tenant.toNat 11 0 == bitsOf v.tenant.toNat 11 0 && e.epoch == v.epoch && e.adapter == v.adapter && e.depth.toNat == k
    && e.prev.toNat == prev && e.tokens == toks

/-- Look up `n` blocks from block `k` on. -/
def lookupFrom (s : State) (v : Slot) (toks : List (BitVec 32)) (parent : BitVec 128) (prev k : Nat) : Nat → Lookup
  | 0 => {}
  | n + 1 =>
    let bt := blockTokens (folioTokens s) toks k
    let key := blockKey parent bt
    let b := sieveBucket s key
    let same := s.serv.sieve.filter fun e => e.1 / 8 == b && e.2.key == key
    let coll := (same.filter fun e => !sieveHit v k prev bt e.2).length
    match same.find? fun e => sieveHit v k prev bt e.2 with
    | none => { misses := 1, collisions := coll }
    | some e =>
      let r := lookupFrom s v toks key e.2.folio.toNat (k + 1) n
      { r with folios := e.2.folio.toNat :: r.folios, entries := e.1 :: r.entries, collisions := r.collisions + coll }

/-- Length of the prefix whose folios follow one another by 1. -/
def consecutive : List Nat → Nat
  | [] => 0
  | [_] => 1
  | a :: b :: t => if b = a + 1 then consecutive (b :: t) + 1 else 1

/-- The root key of a request (R204). -/
def requestRoot (s : State) (v : Slot) : BitVec 128 :=
  rootKey (tget 0 s.serv.salts (bitsOf v.tenant.toNat 11 0)) v.manifest v.adapterManifest

/-- The sieve lookup of an admission. -/
def sieveLookup (s : State) (v : Slot) (toks : List (BitVec 32)) : Lookup :=
  if cfg s offSieveCtl 0 0 = 0 then {}
  else lookupFrom s v toks (requestRoot s v) 0xFFFFFFFF 1 ((v.prompt.toNat - 1) / folioTokens s)

/-- LAST_USE of each entry of a list. -/
def useEntries (s : State) (step : BitVec 32) : List Nat → State
  | [] => s
  | i :: is =>
    useEntries (match sieveAt s i with
      | some e => { s with serv := { s.serv with sieve := tput s.serv.sieve i { e with lastUse := step } } }
      | none => s) step is

/-! ### Victims (R201) -/

def logEvicted (s : State) (i : Nat) : State :=
  logEv s { cls := clsServing, cause := 3, loc := BitVec.ofNat 64 i, a0 := (getSlot s i).rid, die := i / 2048 }

/-- A request is evicted to free its run at once (R201). -/
def evictNow (s : State) (i : Nat) : State := logEvicted (freeRun (decide_ s i endEvicted) i) i

/-- Bytes of a folio, Z (R196). -/
def folioBytesLen (s : State) : Nat := folioTokens s * tokenDrops s * 64

/-- Address of the frame of folio `i` (R196). -/
def frameAddr (s : State) (i : Nat) : Nat :=
  0x008000000000 + i % engines s * (256 / engines s) * 2 ^ 31 + cfg s offFrameOffset 30 0 + i / engines s * folioBytesLen s

/-- DDR channel of spill index `j` (R201). -/
def spillChannel (s : State) (j : Nat) : Nat := 2 * (j % engines s / (engines s / 4)) + j / engines s % 2

/-- Address of the spill frame of spill index `j` (R201). -/
def spillAddr (s : State) (j : Nat) : Nat :=
  let quarter := engines s / 4
  0x040000000000 + spillChannel s j * 2 ^ 38 + cfg s offSpillOffset 37 0
    + (j / engines s / 2 * quarter + j % engines s % quarter) * folioBytesLen s

/-- The spill frame lies in a backed FOLIO range of its channel's list (R326). -/
def spillUsable (s : State) (j : Nat) : Bool :=
  backedRange s (spillAddr s j) (folioBytesLen s) &&
    ((moverList s (spillChannel s j)).ranges.map moverRangeOf).any fun r =>
      r.kind == 4 && decide (r.base ≤ spillAddr s j) && decide (spillAddr s j + folioBytesLen s ≤ r.base + r.size)

/-- Spill indices that no run may take: those in state RUN and the unusable ones below `n`. -/
def blockedSpills (s : State) (t : Tbl Unit) : Nat → Tbl Unit
  | 0 => t
  | n + 1 => blockedSpills s (if spillUsable s n then t else tput t n ()) n

/-- Where a run of the spill map would lie for a slot (R199). -/
def findSpill (s : State) (v : Slot) : Option Nat :=
  if engines s < 4 then none
  else lowestBase (spillLimit s) (engines s) v.run.toNat (some (v.base.toNat % engines s))
    (blockedSpills s (runIndices s.serv.spills []) (spillLimit s))

/-- `n` spill indices from `base` on are taken by a slot. -/
def takeSpill (t : Tbl Folio) (slot base : Nat) : Nat → Tbl Folio
  | 0 => t
  | n + 1 => tset {} (takeSpill t slot base n) (base + n)
      { state := 1, slot := BitVec.ofNat 16 slot, sieve := 0xFFFFFFFF, depth := BitVec.ofNat 32 (n + 1) }

/-- A victim gets a spill run, or is evicted. -/
def strike (s : State) (i : Nat) : State :=
  let v := getSlot s i
  match findSpill s v with
  | some j =>
    modSlot { s with serv := { s.serv with spills := takeSpill s.serv.spills i j v.run.toNat } } i
      fun v => { v with spillTo := some (BitVec.ofNat 32 j) }
  | none => evictNow s i

/-- Every victim of a list is struck. -/
def strikeAll (s : State) : List Nat → State
  | [] => s
  | i :: is => strikeAll (strike s i) is

/-- Victims in order until their runs would suffice; none when they never do. -/
def chooseVictims (s : State) (n : Nat) (align : Option Nat) (hits : List (Nat × Nat)) (gone : List Nat) : List Nat → Option (List Nat)
  | [] => none
  | i :: is =>
    let gone' := gone ++ [i]
    if (findRun s n align hits gone').isSome then some gone' else chooseVictims s n align hits gone' is

/-- Requests that can be victims, in order. -/
def victims (s : State) : List Nat :=
  sortBy (victimLt s) (slotsWhere s fun v =>
    (v.state == .paused || v.state == .held) && !v.decided && v.hasRun && v.spillTo.isNone)

/-- A run for a slot, with victims if it takes them: the state, and the base if evictions alone have made room; none when R201 cannot
help. -/
def allocate (s : State) (n : Nat) (align : Option Nat) (hits : List (Nat × Nat)) : Option (State × Option Nat) :=
  match findRun s n align hits [] with
  | some b => some (s, some b)
  | none =>
    match chooseVictims s n align hits [] (victims s) with
    | none => none
    | some vs =>
      let r := strikeAll s vs
      some (r, findRun r n align hits [])

/-! ### Admission (R211, R349) -/

/-- Folios of a request's run. -/
def runLength (s : State) (v : Slot) : Nat := (v.prompt.toNat + v.maxTokens.toNat + folioTokens s - 1) / folioTokens s

/-- Alignment of a request's run: that of its hit. -/
def hitAlign (s : State) (v : Slot) : Option Nat := if v.hitLen = 0 then none else some (v.hitBase.toNat % engines s)

/-- Prompt tokens from the data area. -/
def promptTokens (s : State) (addr n : Nat) : List (BitVec 32) := (List.range n).map fun i => wordOf 32 (memRead s (addr + 4 * i) 4)

/-- An adapter is loaded on every device. -/
def adapterReady (s : State) (epoch adapter : BitVec 32) : Bool := adapter == 0 || stagedEverywhere s epoch adapter

/-- The fields of ADMIT are in range (R211 step 3, R349). -/
def admitFieldsOk (b : AdmitBody) : Bool :=
  let p := b.prompt.toNat
  let m := b.maxTokens.toNat
  !tb b.tenant.toNat 15 && decide (1 ≤ p) && decide (1 ≤ m) && decide (p + m ≤ 4194303) && b.promptAddr.toNat % 4 == 0
    && inDataArea b.promptAddr.toNat (4 * p) && decide (b.flags.toNat ≤ 1) && decide (b.deadlineS.toNat < 2 ^ 48)
    && decide (b.deadlineNs.toNat < 1000000000)
    && (!tb b.flags.toNat 0 || decide (1008 + 8 * ((p + 1) / 2) + 8 * ((m + 1) / 2) ≤ b.sealLen.toNat))

/-- The slot of a request being admitted. -/
def newSlot (s : State) (b : AdmitBody) (toks : List (BitVec 32)) : Slot :=
  { rid := b.rid, seed := b.seed, epoch := b.epoch, adapter := b.adapter, tenant := b.tenant, state := .queued, prompt := b.prompt
    maxTokens := b.maxTokens, stopToken := b.stopToken, deadlineS := b.deadlineS, deadlineNs := b.deadlineNs, promptAddr := b.promptAddr
    sealReq := tb b.flags.toNat 0, sealLen := b.sealLen, sealAddr := b.sealAddr, promptToks := toks, admitTime := s.time.now
    manifest := modelDigest s b.epoch, adapterManifest := adapterDigest s b.epoch b.adapter }

/-- ADMIT is served (R211). -/
def serveAdmit (s : State) (ring : Nat) (seq : BitVec 32) (b : AdmitBody) : State :=
  let fin := done s ring seq (.admitReq b)
  if !isHead s then fin errNotRoot
  else match freeSlotFrom s 0 8192 with
    | none => fin errNoSpace
    | some i =>
      if b.epoch ≠ s.serv.admission ∨ adapterReady s b.epoch b.adapter = false then fin errState
      else if !admitFieldsOk b then fin errBadField
      else
        let toks := promptTokens s b.promptAddr.toNat b.prompt.toNat
        let v0 := newSlot s b toks
        let l := sieveLookup s v0 toks
        let h := consecutive l.folios
        let v := { v0 with hitBase := BitVec.ofNat 32 (l.folios.headD 0), hitLen := BitVec.ofNat 32 h, sharedFolios := BitVec.ofNat 32 h
                           run := BitVec.ofNat 32 (runLength s v0) }
        let hits := if h = 0 then [] else [(l.folios.headD 0, h)]
        match allocate s (runLength s v) (hitAlign s v) hits with
        | none => fin errNoSpace
        | some (s1, base) =>
          let s2 := { s1 with serv := { s1.serv with
            hits := s1.serv.hits + BitVec.ofNat 64 h, misses := s1.serv.misses + BitVec.ofNat 64 l.misses
            collisions := s1.serv.collisions + BitVec.ofNat 64 l.collisions } }
          let s3 := useEntries s2 (BitVec.ofNat 32 s2.launch.nextStep.toNat) l.entries
          let s4 := setSlot s3 i v
          let s5 := match base with | some x => giveRun s4 i x (runLength s v) | none => s4
          done s5 ring seq (.admitReq b) errOk (natLe 2 i ++ [0, 0] ++ natLe 4 h)

/-- Requests admitted without a run try again (R211 step 5). -/
def retryRuns (s : State) : List Nat → State
  | [] => s
  | i :: is =>
    let v := getSlot s i
    retryRuns (match findRun s (runLength s v) (hitAlign s v) [] [] with
      | some b => giveRun s i b (runLength s v)
      | none => s) is

/-- Requests that wait for their run, also where a PAUSE has come between. -/
def runless (s : State) : List Nat :=
  slotsWhere s fun v => (v.state == .queued || v.state == .held || v.state == .paused) && !v.decided && !v.hasRun

/-! ### Commands on a slot (R213, R215, R216, R218, R349) -/

/-- The error with which a command on a slot is refused, if any. -/
def slotError (s : State) (slot : BitVec 16) (rid : BitVec 64) : Option Nat :=
  if !isHead s then some errNotRoot
  else
    let v := getSlot s slot.toNat
    if v.state = .free then some errState else if v.rid ≠ rid then some errStale else none

/-- A cancel is recorded (R215, R216). -/
def recordCancel (s : State) (i : Nat) (code : Nat) : State :=
  freeRuns (modSlot (decide_ s i code) i fun v => { v with cancelF := true }) i

/-- CANCEL is served. -/
def serveCancel (s : State) (ring : Nat) (seq : BitVec 32) (slot : BitVec 16) (rid : BitVec 64) : State :=
  let fin := done s ring seq (.cancel slot rid)
  match slotError s slot rid with
  | some e => fin e
  | none =>
    let v := getSlot s slot.toNat
    if v.decided then done s ring seq (.cancel slot rid) errState [BitVec.ofNat 8 v.endCode.toNat]
    else
      let code := if cfg s offServCfg 4 4 = 0 ∧ v.emitMark = true ∧ s.step.running = true then endTooLate else endCancelled
      done (recordCancel s slot.toNat code) ring seq (.cancel slot rid) errOk [BitVec.ofNat 8 code]

/-- The request leaves its group. -/
def leaveGroup (s : State) (v : Slot) (st : SlotState) : Slot :=
  { v with state := st, lane := 0xFF, group := 0, lastGroup := if v.lane = 0xFF then v.lastGroup else v.group
           since := if v.state = .running ∨ v.state = .queued then s.time.now else v.since }

/-- A request that PAUSE holds becomes HELD; a spilled one keeps SPILLED (R191, R213). -/
def holdSlot (s : State) (v : Slot) : Slot :=
  let w := { v with pauseReq := false }
  if v.decided ∨ v.state = .free then w
  else if v.state = .spilled then w
  else { leaveGroup s w .held with hitLen := 0 }

/-- PAUSE is served. -/
def servePause (s : State) (ring : Nat) (seq : BitVec 32) (slot : BitVec 16) (rid : BitVec 64) : State :=
  let fin := done s ring seq (.pause slot rid)
  match slotError s slot rid with
  | some e => fin e
  | none =>
    if (getSlot s slot.toNat).state = .ending then fin errState
    else
      let v := { getSlot s slot.toNat with hostHold := true, pauseReq := true }
      done (setSlot s slot.toNat (if noStep s then holdSlot s v else v)) ring seq (.pause slot rid) errOk

/-- RESUME is served. -/
def serveResume (s : State) (ring : Nat) (seq : BitVec 32) (slot : BitVec 16) (rid : BitVec 64) : State :=
  let fin := done s ring seq (.resume slot rid)
  match slotError s slot rid with
  | some e => fin e
  | none =>
    let v := getSlot s slot.toNat
    if v.state = .ending ∨ v.hostHold = false then fin errState
    else
      done (setSlot s slot.toNat { v with hostHold := false, pauseReq := false, state := if v.state = .held then .paused else v.state })
        ring seq (.resume slot rid) errOk

/-- SET_DEADLINE is served. -/
def serveSetDeadline (s : State) (ring : Nat) (seq : BitVec 32) (slot : BitVec 16) (rid sec : BitVec 64) (ns : BitVec 32) : State :=
  let fin := done s ring seq (.setDeadline slot rid sec ns)
  match slotError s slot rid with
  | some e => fin e
  | none =>
    if (getSlot s slot.toNat).state = .ending then fin errState
    else if sec.toNat ≥ 2 ^ 48 ∨ ns.toNat ≥ 1000000000 then fin errBadField
    else
      done (modSlot s slot.toNat fun v => { v with deadlineS := sec, deadlineNs := ns }) ring seq (.setDeadline slot rid sec ns) errOk

/-- EVICT_TIMER (R213): longer than EVICT_MS out of its group; the code is posted at the next head commit. -/
def execEvictTimer (slot : BitVec 13) (s : State) : Out :=
  let v := getSlot s slot.toNat
  let ms := cfg s offPolicy 63 40
  .next (
    if isHead s && ms != 0 && !v.decided && (v.state == .paused || v.state == .held || v.state == .spilled)
        && decide (timeUnits v.since + nsUnits (ms * 1000000) < nowUnits s) then logEvicted (decide_ s slot.toNat endEvicted) slot.toNat
    else s)

/-! ### Epochs on the head (R219, R220, R357) -/

/-- Every old-epoch request not already ending becomes ENDING with EPOCH_RETIRED (R219). -/
def retireOld (s : State) (epoch : BitVec 32) : State :=
  eachSlot s (fun i s => decide_ s i endRetired) (slotsWhere s fun v => v.state != .free && !v.decided && v.epoch != epoch)

/-- DRAIN_LIMIT_EXPIRY (R219): DRAIN_LIMIT head steps have passed. -/
def execDrainLimitExpiry (s : State) : Out :=
  let lim := cfg s offEpochCtl 47 16
  .next (
    if isHead s && s.serv.switching && s.serv.switchMode == 0 && lim != 0 && decide (lim ≤ s.serv.drainSteps)
        && s.serv.live != s.serv.admission then retireOld s s.serv.admission
    else s)

/-- ACTIVATE_EPOCH is served (R219, R357). -/
def serveActivate (s : State) (ring : Nat) (seq : BitVec 32) (epoch : BitVec 32) (mode : BitVec 8) : State :=
  let fin := done s ring seq (.activateEpoch epoch mode)
  if mode.toNat > 1 then fin errBadField
  else if noStep s then
    (match s.load.manifests.find? fun m => m.epoch == epoch && m.adapter == 0 && m.complete with
    | none => fin errMissing
    | some _ =>
      let s1 := reloadWeights (switchEpoch (if isHead s then retireOld s epoch else s) epoch)
      done { s1 with serv := { s1.serv with stagedE := 0xFFFFFFFF, admission := epoch, switching := false } } ring seq
        (.activateEpoch epoch mode) errOk)
  else if !isHead s then fin errNotRoot
  else if s.serv.switching || epoch == s.serv.live then fin errState
  else if !stagedEverywhere s epoch 0 then fin errMissing
  else
    let s1 := { s with serv := { s.serv with admission := epoch, switching := true, switchMode := mode, drainSteps := 0 } }
    done (if mode = 1 then retireOld s1 epoch else s1) ring seq (.activateEpoch epoch mode) errOk

/-- A device switches at the boundary before the step that carries MARKER (R220, R221, R275). -/
def switchAtMarker (s : State) (epoch : BitVec 32) : State :=
  let s1 := switchEpoch s epoch
  let shift := BitVec.ofNat 64 (cfg s offEpochCtl 7 0 * s.launch.armRec.periodNs.toNat)
  { s1 with
    serv := { s1.serv with switching := true, markerStep := some s.launch.nextStep }
    launch := { s1.launch with
      reloading := true, shifted := s.launch.paced, shiftNs := if s.launch.paced then s.launch.shiftNs + shift else s.launch.shiftNs } }

/-! ### The policy engine (R212) -/

/-- Classes that want lanes. -/
def classWants (s : State) (c : Nat) : Bool :=
  s.serv.slots.any fun e => slotClass e.2 == c && !e.2.decided &&
    (e.2.state == .running || e.2.state == .queued || e.2.state == .paused || e.2.state == .spilled)

/-- Deficits after `dt` µs. -/
def gainDeficits (s : State) (dt : Nat) : Tbl Nat :=
  (List.range 8).foldl (fun t c =>
    tset 0 t c (if classWants s c then min (tget 0 t c + cfg s (offClass c) 15 0 * dt) (2 ^ 31 - 1) else 0)) s.serv.deficits

/-- Requests eligible for a lane, in rank order: run or spill run ready, of the live epoch. -/
def eligible (s : State) : List Nat :=
  sortBy (rankLt s) (slotsWhere s fun v =>
    !v.decided && !v.hostHold && v.epoch == s.serv.live && v.spillTo.isNone &&
      (match v.state with | .queued => v.hasRun | .paused => v.hasRun | .spilled => v.spill != 0xFFFFFFFF | _ => false))

/-- The last of a list of slots in rank order. -/
def lowestRank (s : State) : List Nat → Nat → Nat
  | [], m => m
  | i :: is, m => lowestRank s is (if rankLt s m i then i else m)

/-- Lanes are given to eligible requests in order, pausing running ones where the deficit allows. -/
def fillLanes (s : State) (room pauseMax margin : Nat) : List Nat → List Nat → Nat → State × List Nat
  | [], lanes, _ => (s, lanes)
  | r :: rs, lanes, pauses =>
    if lanes.length < room then fillLanes s room pauseMax margin rs (lanes ++ [r]) pauses
    else
      match lanes with
      | [] => (s, lanes)
      | l :: ls =>
        let v := lowestRank s ls l
        if pauses < pauseMax ∧ deficitOf s (slotClass (getSlot s v)) + margin < deficitOf s (slotClass (getSlot s r)) then
          fillLanes (modSlot s v fun x => leaveGroup s x .paused) room pauseMax margin rs (lanes.filter (· != v) ++ [r]) (pauses + 1)
        else (s, lanes)

/-- Each lane is charged its class's COST. -/
def chargeLanes (s : State) : List Nat → Tbl Nat → Tbl Nat
  | [], t => t
  | i :: is, t =>
    let c := slotClass (getSlot s i)
    chargeLanes s is (tset 0 t c (tget 0 t c - cfg s (offClass c) 31 16))

/-- Victims whose last group is this one spill in its free lanes (R201; log 19). -/
def spillers (s : State) (group : Nat) : List Nat :=
  slotsWhere s fun v => v.spillTo.isSome && !v.decided && v.lastGroup.toNat == group && (v.state == .paused || v.state == .held)

/-- The lanes of the group about to run: the state, and its slots in slot order (R212). -/
def fillGroup (s : State) (group : Nat) : State × List Nat :=
  let nowUs := nowNs s / 1000
  let dt := min (nowUs - s.serv.lastBoundary) 1000000
  let s1 := { s with serv := { s.serv with lastBoundary := nowUs, deficits := gainDeficits s dt } }
  let running := slotsWhere s1 fun v => v.state == .running && !v.decided && v.group.toNat == group && v.lane != 0xFF
  let sp := (spillers s1 group).take (64 - running.length)
  let r := fillLanes s1 (64 - sp.length) (cfg s1 offPolicy 39 32) (cfg s1 offPolicy 31 0) (eligible s1) running 0
  let s2 := { r.1 with serv := { r.1.serv with deficits := chargeLanes r.1 r.2 r.1.serv.deficits } }
  (s2, sortBy (fun a b => decide (a < b)) (r.2 ++ sp))

/-! ### The descriptor (R193, R194) -/

/-- A lane word. -/
def laneWord (op base b c : Nat) : BitVec 64 := BitVec.ofNat 64 (op * 2 ^ 61 + base % 2 ^ 22 * 2 ^ 39 + b % 2 ^ 22 * 2 ^ 17 + c % 2 ^ 17)

/-- OP of a lane word, its second operand and its third. -/
def wordOp (w : BitVec 64) : Nat := bitsOf w.toNat 63 61
def wordB (w : BitVec 64) : Nat := bitsOf w.toNat 38 17
def wordC (w : BitVec 64) : Nat := bitsOf w.toNat 16 0

/-- The pass takes its tokens from the input area. -/
def fromInput (v : Slot) : Bool := decide (v.position.toNat < v.prompt.toNat)

/-- The word of a chosen request with its run in place (R212, R201). -/
def slotWord (s : State) (v : Slot) : BitVec 64 :=
  match v.spillTo with
  | some j => laneWord 3 v.base.toNat j.toNat v.run.toNat
  | none =>
    if v.state = .spilled then laneWord 4 v.base.toNat v.spill.toNat v.run.toNat
    else if v.state = .queued ∧ v.hitLen ≠ 0 then laneWord 2 v.base.toNat v.hitBase.toNat v.hitLen.toNat
    else laneWord 1 v.base.toNat v.position.toNat
      (if fromInput v then min (prefillMax s) (v.prompt.toNat - v.position.toNat) else 1)

/-- A RUN pass without prompt tokens before the first token has been emitted: R194 gives its INPUT no value (log 6). -/
def inputOpen (v : Slot) (w : BitVec 64) : Bool := wordOp w == 1 && !fromInput v && v.outToks.isEmpty

/-- The lane-table entry of a request (R194); `open_` is the free value where INPUT has none. -/
def slotLane (s : State) (i l : Nat) (v : Slot) (w : BitVec 64) (open_ : BitVec 32) : LaneEntry :=
  let run := wordOp w == 1
  { rid := v.rid, seed := v.seed, tokenIndex := v.emitted
    input := if run && !fromInput v then v.outToks.getLastD open_ else 0xFFFFFFFF
    inputOffset := if run && fromInput v then BitVec.ofNat 32 (4 * l * prefillMax s) else 0
    stopToken := v.stopToken, slot := BitVec.ofNat 16 i, tenant := v.tenant, adapter := v.adapter }

/-- The 64 bytes of a lane-table entry. -/
def laneBytes (e : LaneEntry) : Bytes :=
  bytesOf 8 e.rid ++ bytesOf 16 e.seed ++ bytesOf 4 e.tokenIndex ++ bytesOf 4 e.input ++ bytesOf 4 e.inputOffset
    ++ bytesOf 4 e.stopToken ++ bytesOf 2 e.slot ++ bytesOf 2 e.tenant ++ bytesOf 4 e.adapter ++ List.replicate 16 0

/-- The 4,096 bytes of the lane table of a descriptor. -/
def laneTable (d : Descriptor) : Bytes :=
  (List.range 64).flatMap fun l => match laneEntry d l with | some e => laneBytes e | none => List.replicate 64 0

/-- The 576 bytes of a descriptor record (R193). -/
def descBytes (d : Descriptor) : Bytes :=
  let live := (List.range 64).foldl (fun n l => if d.words.getD l 0 = 0 then n else n + 2 ^ l) 0
  bytesOf 4 d.epoch ++ [if d.marker then 1 else 0, d.group, 0, 0] ++ bytesOf 8 d.headStep ++ natLe 8 live ++ List.replicate 40 0
    ++ (List.range 64).flatMap fun l => bytesOf 8 (d.words.getD l 0)

/-- The sheet-set digest of the plot (R232). -/
def sheetSet (s : State) : Digest :=
  sm3 ((List.range (plotSize s)).flatMap fun p => bytesOf 32 (tget (0, 0) s.launch.digests p).2)

/-- The set in force holds a native image (R229, R231): the device's own sheet, that of another device by its digest, or any on a plot of
more than 64 devices (log 21). -/
def nativeSet (s : State) : Bool :=
  decide (64 < plotSize s) || (match s.sheets.live with | some sh => sh.isNative | none => false)
    || (List.range (plotSize s)).any fun p => p != s.sec.position.toNat && Config.nativeImage (tget (0, 0) s.launch.digests p).2

/-- A sealed request rides a pass under the sheet set in force: its entries, and whether a ninth would be needed (R232, R233). -/
def noteSet (s : State) (v : Slot) : Slot × Bool :=
  if !v.sealReq then (v, false)
  else
    let d := sheetSet s
    if v.sets.getLast?.map Prod.snd = some d then (v, false)
    else if v.sets.length ≥ 8 then (v, true)
    else ({ v with sets := v.sets ++ [(if v.sets = [] then 0 else v.emitted, d)], isNative := v.isNative || nativeSet s }, false)

/-- A SPILLED request chosen gets a new run (R202), with the victims that this takes (R201): the state, and whether it has one now. -/
def fetchRun (s : State) (i : Nat) : State × Bool :=
  let v := getSlot s i
  match allocate s v.run.toNat (some (v.spill.toNat % engines s)) [] with
  | some (s1, some b) => (giveRun s1 i b v.run.toNat, true)
  | some (s1, none) => (s1, false)
  | none => (s, false)

/-- A request chosen for a lane has been struck since, for the run of another (R201). -/
def struck (s : State) (group i : Nat) : Bool :=
  let v := getSlot s i
  v.decided || (v.spillTo.isSome && v.lastGroup.toNat != group)

/-- The descriptor in the making. -/
structure Draft where
  words : List (BitVec 64) := []
  lanes : List (Nat × LaneEntry) := []

/-- A request takes lane `l`: its word and entry, its prompt tokens copied into the input area; or no word, its end decided. -/
def takeLane (s : State) (group i : Nat) (d : Draft) : State × Draft :=
  let l := d.words.length
  let v := getSlot s i
  let n := noteSet s v
  if n.2 then (logEvicted (decide_ s i endEvicted) i, { d with words := d.words ++ [0] })
  else if v.promptBad ∧ v.spillTo = none ∧ v.hitLen = 0 ∧ fromInput v = true then
    (decide_ s i endFailed, { d with words := d.words ++ [0] })
  else
    let w := slotWord s v
    let f := if inputOpen v w then drawFree 32 s else (0, s)
    let e := slotLane s i l v w f.1
    let v1 := { n.1 with
      state := .running, lane := BitVec.ofNat 8 l, group := BitVec.ofNat 8 group, lastGroup := BitVec.ofNat 8 group, word := w
      firstStep := match v.firstStep with | some x => some x | none => some s.launch.nextStep }
    let s1 := setSlot f.2 i v1
    let s2 := if wordOp w = 1 ∧ fromInput v = true then
      memWrite s1 (cfg s offLaneTable 47 0 + 4096 + 4 * l * prefillMax s) (memRead s (v.promptAddr.toNat + 4 * v.position.toNat) (4 * wordC w))
      else s1
    (s2, { words := d.words ++ [w], lanes := d.lanes ++ [(l, e)] })

/-- Lanes are taken in slot order; a SPILLED request without a run takes none, nor does one struck for the run of another. -/
def takeLanes (s : State) (group : Nat) (d : Draft) : List Nat → State × Draft
  | [] => (s, d)
  | i :: is =>
    if struck s group i then takeLanes s group d is
    else
      let f := if (getSlot s i).state = .spilled then fetchRun s i else (s, true)
      let r := if f.2 then takeLane f.1 group i d else (f.1, d)
      takeLanes r.1 group r.2 is

/-! ### Boundary (R159 event 4) -/

/-- Deadlines that have passed are decided (R212, R218). -/
def decideDeadlines (s : State) : State :=
  eachSlot s (fun i s => decide_ s i endDeadline) (slotsWhere s fun v => v.state != .free && !v.decided && deadlinePassed v s.time.now)

/-- Requests that PAUSE holds become HELD. -/
def applyPauses (s : State) : State :=
  eachSlot s (fun i s => modSlot s i (holdSlot s)) (slotsWhere s fun v => v.pauseReq)

/-- No slot of the old epoch is left to run (R220). -/
def oldEpochGone (s : State) : Bool :=
  !s.serv.slots.any fun e => e.2.epoch == s.serv.live &&
    (match e.2.state with | .queued => true | .running => true | .paused => true | .held => true | .spilled => true | _ => false)

/-- The head switches to the admission epoch when it may (R220). -/
def headSwitch (s : State) : State × Bool :=
  if s.serv.switching && s.serv.live != s.serv.admission && oldEpochGone s then (switchAtMarker s s.serv.admission, true) else (s, false)

/-- The lane table is written (R194). -/
def writeLanes (s : State) (d : Descriptor) : State := memWrite s (cfg s offLaneTable 47 0) (laneTable d)

/-- The head builds the descriptor of the step about to launch (R193, R199, R212, R220). -/
def headDescriptor (s : State) : State :=
  let p := plotSize s
  let group := s.launch.nextStep.toNat % p
  let s1 := applyPauses (decideDeadlines s)
  let s2 := retryRuns s1 (runless s1)
  let sw := headSwitch s2
  let f := fillGroup sw.1 group
  let r := takeLanes f.1 group {} f.2
  let d : Descriptor := {
    epoch := r.1.serv.live, marker := sw.2, group := BitVec.ofNat 8 group, headStep := s.launch.nextStep, words := r.2.words
    lanes := r.2.lanes }
  writeLanes { r.1 with serv := { r.1.serv with descs := (d :: r.1.serv.descs).take (p + 1), current := some d } } d

/-- A record with every word IDLE. -/
def idleRecord (s : State) : Descriptor :=
  { epoch := s.serv.live, marker := false, group := 0, headStep := 0, words := [], lanes := [] }

/-- A slot mirrors a lane-table entry (R189). -/
def mirrorLane (s : State) (epoch : BitVec 32) (l : Nat) (e : LaneEntry) : State :=
  modSlot s e.slot.toNat fun v => { v with
    rid := e.rid, seed := e.seed, epoch := epoch, adapter := e.adapter, tenant := e.tenant, emitted := e.tokenIndex, state := .running
    lane := BitVec.ofNat 8 l }

/-- Slots of a device that is not the head: those with a lane are RUNNING, the rest not (R189). -/
def mirrorSlots (s : State) (d : Descriptor) : State :=
  let s1 := eachSlot s (fun i s => modSlot s i fun v => { v with state := .free, lane := 0xFF }) (slotsWhere s fun v => v.state == .running)
  d.lanes.foldl (fun s e => mirrorLane s d.epoch e.1 e.2) s1

/-- What the device before has passed with its commit of a step. -/
def passedAt (s : State) (n : BitVec 64) : Option Passed := s.serv.received.find? fun p => p.step == n

/-- The record for the step that launches next: the one passed with the commit of the step before (R195). -/
def recordFor (s : State) : Option Descriptor := (passedAt s (s.launch.nextStep - 1)).bind fun p => p.record

/-- A record and a report come with the commit of step `t`: each stands beside what that commit has brought already. -/
def pass (s : State) (t : BitVec 64) (record : Option Descriptor) (report : Option PassReport) : State :=
  let old := passedAt s t
  { s with serv := { s.serv with received := (s.serv.received.filter fun p => p.step != t) ++ [{
      step := t, record := record.or (old.bind fun p => p.record), report := report.or (old.bind fun p => p.report) }] } }

/-- The record of the step, with the report that came with it; what was passed for it is used up. -/
def useRecord (s : State) (d : Descriptor) : State :=
  let n := s.launch.nextStep
  let s1 := { s with serv := { s.serv with
    current := some d, recvReport := (passedAt s (n - 1)).bind fun p => p.report
    received := s.serv.received.filter fun p => decide (n.toNat ≤ p.step.toNat) } }
  writeLanes (mirrorSlots s1 d) d

/-- A device other than the head takes the record for its step (R195, R220); `failed` when the step before it failed. -/
def takeRecord (s : State) (failed : Bool) : State :=
  let use := useRecord
  match recordFor s with
  | none => use s (idleRecord s)
  | some d =>
    if failed then use s (idleRecord s)
    else if d.epoch = s.serv.live then use s d
    else if d.marker then use (switchAtMarker s d.epoch) d
    else
      logEv (use s (idleRecord s)) { cls := clsServing, cause := 2, a0 := BitVec.ofNat 64 d.epoch.toNat, a1 := BitVec.ofNat 64 s.serv.live.toNat }

/-! ### Pass reports (R235) -/

/-- At most 16 notes of a request are kept; the rest are counted. -/
def addNote (v : Slot) (n : NoteEntry) : Slot :=
  if v.notes.length < 16 then { v with notes := v.notes ++ [n] } else { v with notesDropped := satAdd v.notesDropped 1 }

/-- Bits of OBS_FLAGS that a report sets. -/
def reportFlags (r : PassReport) : BitVec 32 :=
  BitVec.ofNat 32 (b2n r.skipped + 2 * b2n r.saturated + 16 * b2n r.dropped)

/-- The head takes a report on the pass of a descriptor: notes by slot, flags on every slot of the pass. -/
def takeReport (s : State) (d : Descriptor) (r : PassReport) : State :=
  let sealed (i : Nat) (rid : BitVec 64) : Bool := (getSlot s i).sealReq && (getSlot s i).rid == rid
  let s1 := d.lanes.foldl (fun s e =>
    if sealed e.2.slot.toNat e.2.rid then modSlot s e.2.slot.toNat fun v => { v with obsFlags := v.obsFlags ||| reportFlags r } else s) s
  r.notes.foldl (fun s n =>
    match d.lanes.find? fun e => e.2.slot.toNat == n.1 with
    | some e => if sealed n.1 e.2.rid then modSlot s n.1 fun v => addNote v n.2 else s
    | none => s) s1

/-- What this device's step adds to the report of its pass. -/
def ownReport (s : State) : PassReport :=
  let lanes := match s.serv.current with | some d => d.lanes | none => []
  { notes := lanes.flatMap fun e => s.step.notes.map fun n => (e.2.slot.toNat, { n with emitted := e.2.tokenIndex })
    skipped := s.step.skips != 0, saturated := s.step.saturated, dropped := s.step.dispatchDrops != 0 }

/-- Two reports on one pass. -/
def joinReports (a b : PassReport) : PassReport :=
  { notes := a.notes ++ b.notes, skipped := a.skipped || b.skipped, saturated := a.saturated || b.saturated, dropped := a.dropped || b.dropped }

/-- The report that this device passes on: that of the pass so far with what its own step adds; the head's begins empty (R235). -/
def joinedReport (s : State) : PassReport :=
  if isHead s then { notes := [], skipped := false, saturated := false, dropped := false }
  else match s.serv.recvReport with | some r => joinReports r (ownReport s) | none => ownReport s

/-! ### Head commit (R67 event 9) -/

/-- FOLIO of the entry of block `k - 1 ≥ 1` of a slot's prompt: the hit's, the one at the slot's own folio, or the one with that
block's key (R206); with none, the slot's own folio. -/
def prevFolio (s : State) (v : Slot) (k : Nat) : Nat :=
  let own := v.base.toNat + k - 2
  if v.shared ∧ k - 1 ≤ v.sharedFolios.toNat then v.hitBase.toNat + k - 2
  else if (getFolio s own).sieve ≠ 0xFFFFFFFF then own
  else
    let f := folioTokens s
    let key := chainKey f v.promptToks (requestRoot s v) (k - 1)
    match s.serv.sieve.find? fun e => e.1 / 8 == sieveBucket s key && e.2.key == key && e.2.depth.toNat == k - 1 with
    | some e => e.2.folio.toNat
    | none => own

/-- The sieve entry of block `k` of a slot's prompt is inserted (R208). -/
def sieveInsert (s : State) (i k : Nat) : State :=
  let v := getSlot s i
  let f := folioTokens s
  let folio := v.base.toNat + k - 1
  if cfg s offSieveCtl 0 0 = 0 ∨ (getFolio s folio).sieve ≠ 0xFFFFFFFF then s
  else
    let key := chainKey f v.promptToks (requestRoot s v) k
    let b := sieveBucket s key
    let prev := if k = 1 then 0xFFFFFFFF else prevFolio s v k
    let e : SieveEnt := {
      key, folio := BitVec.ofNat 32 folio, prev := BitVec.ofNat 32 prev, epoch := v.epoch, adapter := v.adapter
      tenant := BitVec.ofNat 16 (bitsOf v.tenant.toNat 11 0), depth := BitVec.ofNat 32 k
      lastUse := BitVec.ofNat 32 s.step.number.toNat, tokens := blockTokens f v.promptToks k }
    let put (s : State) (p : Nat) : State :=
      setFolio { s with serv := { s.serv with sieve := tput s.serv.sieve p e } } folio { getFolio s folio with sieve := BitVec.ofNat 32 p }
    match (List.range 8).find? fun p => (sieveAt s (8 * b + p)).isNone with
    | some p => put s (8 * b + p)
    | none =>
      let cached := (List.range 8).filter fun p => match sieveAt s (8 * b + p) with
        | some x => (getFolio s x.folio.toNat).state == 2 | none => false
      let use (p : Nat) : Nat := match sieveAt s (8 * b + p) with | some x => x.lastUse.toNat | none => 0
      match sortBy (fun x y => decide (use x < use y) || (use x == use y && decide (x < y))) cached with
      | [] => s
      | p :: _ => put (sieveRemove s (8 * b + p)) (8 * b + p)

/-- Blocks `k + 1` to `k + n` of a prompt are inserted, in order. -/
def sieveInsertRun (s : State) (i k : Nat) : Nat → State
  | 0 => s
  | n + 1 => sieveInsert (sieveInsertRun s i k n) i (k + n + 1)

/-- A pass of a request commits (R197, R201, R202, R207, R208). -/
def commitPass (s : State) (i : Nat) (rid w : BitVec 64) : State :=
  let v := getSlot s i
  if v.state = .free ∨ v.decided = true ∨ v.rid ≠ rid then s
  else
    let f := folioTokens s
    match wordOp w with
    | 1 =>
      let old := v.position.toNat
      let new := old + wordC w
      let s1 := setSlot s i { v with position := BitVec.ofNat 32 new }
      let top := min new v.prompt.toNat / f
      sieveInsertRun s1 i (old / f) (top - old / f)
    | 2 => setSlot s i { v with position := BitVec.ofNat 32 (v.position.toNat + wordC w * f), shared := true, hitLen := 0
                                obsFlags := v.obsFlags ||| 4 }
    | 3 =>
      let s1 := freeRun s i
      modSlot s1 i fun x => { leaveGroup s1 x .spilled with spill := BitVec.ofNat 32 (wordB w), spillTo := none }
    | 4 =>
      let s1 := freeSpill s i
      modSlot s1 i fun x => leaveGroup s1 x .paused
    | _ => s

/-- A request's end code is posted: its runs are freed, its seal is begun, its slot is FREE (R191, R200, R230). A request that never had a
pass is sealed with the set in force at posting, because R231 gives SETS at least 1 (log 21). -/
def postEnd (s : State) (i : Nat) : State :=
  let s1 := freeRuns s i
  let v0 := getSlot s1 i
  let v := { v0 with
    endTime := s1.time.now, lastStep := s1.step.number, sets := if v0.sealReq && v0.sets.isEmpty then [(0, sheetSet s)] else v0.sets }
  let s2 := setSlot s1 i {}
  if v.sealReq then
    { s2 with serv := { s2.serv with
        seals := s2.serv.seals ++ [{
          slot := i, rid := v.rid, output := BitVec.ofNat 32 v.outToks.length, addr := v.sealAddr, core := sealCore s1 v
          obs := obsArea s1 i v }] } }
  else s2

/-- A slot at a head commit: token, end code, record (R214, R218, R351). -/
def commitSlot (i : Nat) (s : State) : State :=
  let v := getSlot s i
  let late := !v.decided && deadlinePassed v s.time.now
  let give := v.emitMark && (!v.decided || v.endCode.toNat == endTooLate)
  let v1 := { v with emitMark := false }
  let v2 := if give then { v1 with emitted := v.emitted + 1, outToks := v.outToks ++ [v.markToken], late := v.late || late } else v1
  let ends := if v.decided then none else if late then some endDeadline
    else if give && (v.markToken == v.stopToken && v.stopToken != 0xFFFFFFFF || decide (v.maxTokens.toNat ≤ v2.emitted.toNat)) then some endComplete else none
  let v3 := match ends with | some c => { v2 with decided := true, endCode := BitVec.ofNat 4 c, state := .ending } | none => v2
  let s1 := setSlot s i v3
  let flags := b2n give + 2 * b2n (give && late) + 4 * b2n v3.decided
  if flags = 0 then s1
  else
    let s2 := putToken s1 (tokenRecord i flags (if v3.decided then v3.endCode.toNat else 0) v.emitted (if give then v.markToken else 0)
      (BitVec.ofNat 32 s.step.number.toNat))
    if v3.decided then postEnd s2 i else s2

/-- A head step counts toward DRAIN_LIMIT (R219). -/
def countDrain (s : State) : State :=
  if s.serv.switching && s.serv.switchMode == 0 && s.serv.live != s.serv.admission then
    { s with serv := { s.serv with drainSteps := s.serv.drainSteps + 1 } } else s

/-- The marker step commits (R220 step 3). -/
def markerCommit (s : State) : State :=
  if s.serv.markerStep = some s.step.number then
    { s with serv := { s.serv with markerStep := none, switching := false, stagedE := 0xFFFFFFFF } } else s

/-- What a commit does to the serving state (R67 event 9, R195, R214, R218, R235). -/
def commitServing (s : State) : State :=
  if !(s.sec.isOpen && s.sec.serving) then s
  else
    let d := s.serv.current.getD (idleRecord s)
    let out := if plotSize s = 1 then none else some (joinedReport s)
    if s.sec.position = 0 then
      let s1 := takeReport s d (ownReport s)
      let s2 := d.lanes.foldl (fun s e => commitPass s e.2.slot.toNat e.2.rid (d.words.getD e.1 0)) s1
      let s3 := eachSlot s2 commitSlot (slotsWhere s2 fun v => v.state != .free)
      let s4 := markerCommit (countDrain s3)
      { s4 with serv := { s4.serv with outReport := out } }
    else
      let s1 := markerCommit s
      { s1 with serv := { s1.serv with outReport := out, recvReport := none } }

/-- A request with a lane in a failed step ends (R222). -/
def failSlot (i : Nat) (s : State) : State :=
  let s1 := decide_ s i endFailed
  let v := getSlot s1 i
  let s2 := putToken s1 (tokenRecord i 4 v.endCode.toNat v.emitted 0 (BitVec.ofNat 32 s.step.number.toNat))
  postEnd (setSlot s2 i { v with emitMark := false }) i

/-- What a failed step does to the serving state (R222): every request of a pass it carried ends. -/
def failServing (s : State) : State :=
  if !isHead s then { s with serv := { s.serv with current := none, recvReport := none } }
  else
    let p := plotSize s
    let riding := s.serv.descs.filter fun d => decide (s.step.number.toNat < d.headStep.toNat + p)
    let carried := riding.flatMap fun d => d.lanes.map fun e => (e.2.slot.toNat, e.2.rid)
    let ids := slotsWhere s fun v => v.state != .free
    let hit := ids.filter fun i => carried.contains (i, (getSlot s i).rid)
    let s1 := eachSlot s failSlot hit
    let s2 := eachSlot s1 (fun i s => modSlot s i fun v => { v with emitMark := false }) (slotsWhere s1 fun v => v.emitMark)
    countDrain { s2 with serv := { s2.serv with descs := [], current := none } }

/-- Every slot not FREE is posted with its code, or FAILED (R347, CLOSE_PLOT); how many. -/
def closeSlots (s : State) : State × Nat :=
  let ids := slotsWhere s fun v => v.state != .free
  if isHead s then (eachSlot s failSlot ids, ids.length) else (s, 0)

/-- SPILLED requests with a spill frame on a DDR channel end EVICTED at the next head commit (R203). -/
def spillFrameOn (s : State) (m : Nat) (v : Slot) : Bool :=
  (List.range v.run.toNat).any fun i => spillChannel s (v.spill.toNat + i) == m

/-- A DDR channel is lost to the spill map (R203). -/
def evictSpilledOn (s : State) (m : Nat) : State :=
  if !isHead s then s
  else
    eachSlot s (fun i s => logEvicted (decide_ s i endEvicted) i)
      (slotsWhere s fun v => v.state == .spilled && !v.decided && v.spill != 0xFFFFFFFF && spillFrameOn s m v)

/-- SALT_WRITE (R208): the salt is set and the tenant's entries go; salts are write-only. -/
def execSaltWrite (tenant : BitVec 12) (salt : BitVec 256) (s : State) : Out :=
  let mine := (s.serv.sieve.filter fun e => bitsOf e.2.tenant.toNat 11 0 == tenant.toNat).map Prod.fst
  let s1 := sieveRemoveAll s mine
  .next { s1 with serv := { s1.serv with salts := tset 0 s1.serv.salts tenant.toNat salt } }

end Sys2Proof.Machine
end

