-- ==== Sys2Proof/Machine/MemOps.lean ====
section
/-! DEFINITION. Serial flash and its retirement log (R360, R366); memory errors, pending rows and DDR channels (R322-R333). -/

namespace Sys2Proof.Machine

/-! ### Flash (R360) -/

/-- `n` bytes of flash; erased flash reads 0xFF. -/
def flashRead (s : State) (a n : Nat) : Bytes := readRun 0xFF s.flash a n

def flashWrite (s : State) (a : Nat) (bs : Bytes) : State := { s with flash := writeRun 0xFF s.flash a bs }

def flashErase (s : State) (a n : Nat) : State := { s with flash := clearRun s.flash a n }

/-! ### The retirement log (R366) -/

/-- Base of half `h`. -/
def retireHalf (h : Nat) : Nat := 0x2510000 + 0x20000 * h

/-- A log entry as read: kind, state, unit words. -/
structure RetireEnt where
  kind : Nat
  state : Nat
  u0 : Nat
  u1 : Nat
  u2 : Nat
deriving DecidableEq, Repr

/-- The 32 bytes of an entry. -/
def retireBytes (e : RetireEnt) : Bytes :=
  let b := [BitVec.ofNat 8 e.kind, BitVec.ofNat 8 e.state, 0, 0] ++ natLe 4 e.u0 ++ natLe 4 e.u1 ++ natLe 4 e.u2 ++ List.replicate 12 0
  b ++ bytesOf 4 (crc32c b)

/-- The entry that 32 bytes spell; none when its CRC fails. -/
def retireOf (b : Bytes) : Option RetireEnt :=
  if crc32c (b.take 28) = fieldAt 32 b 28 4 then
    some { kind := leNat (slice b 0 1), state := leNat (slice b 1 1), u0 := leNat (slice b 4 4), u1 := leNat (slice b 8 4)
           u2 := leNat (slice b 12 4) }
  else none

/-- Position `i` of half `h` is erased. -/
def retireFree (s : State) (h i : Nat) : Bool := (flashRead s (retireHalf h + 32 * i) 32).all (· == 0xFF)

/-- The active half: the second one when only it is written. -/
def activeHalf (s : State) : Nat := if retireFree s 0 0 && !retireFree s 1 0 then 1 else 0

/-- Positions in use of half `h`, up to the first erased one of `n` from `i` on. -/
def retireUsed (s : State) (h i : Nat) : Nat → Nat
  | 0 => i
  | n + 1 => if retireFree s h i then i else retireUsed s h (i + 1) n

/-- Two entries name the same unit. -/
def sameUnit (a b : RetireEnt) : Bool := a.kind == b.kind && a.u0 == b.u0 && a.u1 == b.u1 && a.u2 == b.u2

/-- Later entries replace earlier ones of the same unit. -/
def latestOnly (es : List RetireEnt) : List RetireEnt :=
  es.foldl (fun acc e => acc.filter (fun x => !sameUnit x e) ++ [e]) []

/-- The valid entries of half `h`. -/
def retireRead (s : State) (h : Nat) : List RetireEnt :=
  latestOnly ((List.range (retireUsed s h 0 4096)).filterMap fun i => retireOf (flashRead s (retireHalf h + 32 * i) 32))

/-- The retirements in force. -/
def retirements (s : State) : List RetireEnt := retireRead s (activeHalf s)

/-- Entries are written to half `h` from position `i` on. -/
def retireWrite (s : State) (h i : Nat) : List RetireEnt → State
  | [] => s
  | e :: es => retireWrite (flashWrite s (retireHalf h + 32 * i) (retireBytes e)) h (i + 1) es

/-- What a full half leaves, with one more entry: an entry of a new unit that no position is left for is not kept (log 31). -/
def compacted (kept : List RetireEnt) (e : RetireEnt) : List RetireEnt :=
  if kept.length < 4096 then kept ++ [e] else if kept.any (sameUnit e) then latestOnly (kept ++ [e]) else kept

/-- An entry is appended; a full half is compacted into the other first. -/
def retire (s : State) (e : RetireEnt) : State :=
  let h := activeHalf s
  let n := retireUsed s h 0 4096
  if n < 4096 then retireWrite s h n [e]
  else flashErase (retireWrite s (1 - h) 0 (compacted (retireRead s h) e)) (retireHalf h) 0x20000

/-! ### Errors (R330, R331, R333) -/

def getStack (s : State) (k : Nat) : StackSt := tget {} s.stackTbl k

def modStack (s : State) (k : Nat) (f : StackSt → StackSt) : State := { s with stackTbl := tmod {} s.stackTbl k f }

def modDdr (s : State) (m : Nat) (f : DdrSt → DdrSt) : State := { s with ddrs := tmod {} s.ddrs m f }

/-- An error is counted and becomes the last error of its memory. -/
def countError (s : State) (a : Nat) (ue : Bool) : State :=
  match decodeAddr a with
  | .stack pc _ => modStack s (pc / 64) fun k =>
    { k with
      corrected := satAdd k.corrected (b2n !ue), uncorrectable := satAdd k.uncorrectable (b2n ue), lastAddr := BitVec.ofNat 48 a
      lastUe := ue }
  | .dimm m _ => modDdr s m fun k =>
    { k with
      corrected := satAdd k.corrected (b2n !ue), uncorrectable := satAdd k.uncorrectable (b2n ue), lastAddr := BitVec.ofNat 48 a
      lastUe := ue }
  | _ => s

/-- The name of the row that holds an address, under its pseudo-channel or channel. -/
def rowKey (unit a : Nat) : Nat := unit * 2 ^ 64 + (Config.addrBank a).toNat * 2 ^ 32 + (Config.addrRow a).toNat

/-- The log entry of a row in a state. -/
def rowEntry (kind st key : Nat) : RetireEnt :=
  { kind, state := st, u0 := key / 2 ^ 64, u1 := key / 2 ^ 32 % 2 ^ 32, u2 := key % 2 ^ 32 }

/-- The row with the fewest corrected reads. -/
def fewest : List (Nat × Nat) → Nat × Nat → Nat × Nat
  | [], m => m
  | e :: es, m => fewest es (if e.2 < m.2 then e else m)

/-- A corrected read of a row is counted; with 64 rows tracked the one with the fewest goes (R331). -/
def bumpRow (t : List (Nat × Nat)) (r : Nat) : List (Nat × Nat) :=
  if t.any fun e => e.1 == r then t.map fun e => if e.1 = r then (r, e.2 + 1) else e
  else
    match t with
    | [] => [(r, 1)]
    | e :: es => if t.length < 64 then t ++ [(r, 1)] else t.filter (fun x => x.1 != (fewest es e).1) ++ [(r, 1)]

/-- Corrected reads counted of a row. -/
def rowCount (t : List (Nat × Nat)) (r : Nat) : Nat := ((t.find? fun e => e.1 == r).map Prod.snd).getD 0

/-- A row becomes pending retirement (R331, R332). -/
def makePending (s : State) (a : Nat) : State :=
  let note (s : State) (n : Nat) := logEv s { cls := clsMemory, cause := 3, loc := BitVec.ofNat 64 a, a0 := BitVec.ofNat 64 n, die := addrDie a }
  match decodeAddr a with
  | .stack pc _ =>
    let r := rowKey pc a
    let k := getStack s (pc / 64)
    if k.pendingRows.contains r then s
    else note (retire (modStack s (pc / 64) fun k => { k with pendingRows := k.pendingRows ++ [r] }) (rowEntry 5 0 r)) (rowCount k.rowCounts r)
  | .dimm m _ =>
    let r := rowKey m a
    let k := getDdr s m
    if k.pendingRows.contains r then s
    else note (retire (modDdr s m fun k => { k with pendingRows := k.pendingRows ++ [r] }) (rowEntry 6 0 r)) (rowCount k.rowCounts r)
  | _ => s

/-- Start of the patrol period, of `h` hours, that holds second `now`, periods counted on from one that began at `at_` (R331, log 24). -/
def patrolStart (at_ : BitVec 48) (h now : Nat) : BitVec 48 :=
  if h = 0 ∨ now < at_.toNat then at_ else BitVec.ofNat 48 (now - (now - at_.toNat) % (3600 * h))

/-- The counts of the present period: those kept, while it is the period they were counted in. -/
def periodCounts (at_ start : BitVec 48) (t : List (Nat × Nat)) : List (Nat × Nat) := if start = at_ then t else []

/-- A corrected read counts toward its row's limit within the patrol period (R331). -/
def correctedRow (s : State) (a : Nat) : State :=
  match decodeAddr a with
  | .stack pc _ =>
    let r := rowKey pc a
    let p := patrolStart (getStack s (pc / 64)).patrolAt (cfg s (offStackCtl (pc / 64)) 7 0) s.time.now.sec.toNat
    let s1 := modStack s (pc / 64) fun k => { k with rowCounts := bumpRow (periodCounts k.patrolAt p k.rowCounts) r, patrolAt := p }
    let n := rowCount (getStack s1 (pc / 64)).rowCounts r
    if cfg s (offStackCtl (pc / 64)) 23 8 ≤ n then makePending s1 a else s1
  | .dimm m _ =>
    let r := rowKey m a
    let p := patrolStart (getDdr s m).patrolAt (cfg s (offDdrCtl m) 7 0) s.time.now.sec.toNat
    let s1 := modDdr s m fun k => { k with rowCounts := bumpRow (periodCounts k.patrolAt p k.rowCounts) r, patrolAt := p }
    let n := rowCount (getDdr s1 m).rowCounts r
    if cfg s (offDdrCtl m) 23 8 ≤ n then makePending s1 a else s1
  | _ => s

/-! ### DDR channels (R323-R326) -/

/-- Causes of R323. -/
def causeUeLimit : BitVec 4 := 4
def causeThermal : BitVec 4 := 5
def causeRetrain : BitVec 4 := 6

/-- An ACTIVE channel is disabled (R325). -/
def disableDdr (s : State) (m : Nat) (cause : BitVec 4) : State :=
  let d := getDdr s m
  if d.state ≠ 2 then s
  else
    let s1 := modDdr s m fun k => { k with state := 1, cause, rateMts := 0, disableAt := none }
    let s2 := logEv s1 { cls := clsMemory, cause := 6, loc := BitVec.ofNat 64 m, a0 := BitVec.ofNat 64 cause.toNat, die := m / 2 }
    evictSpilledOn (retire s2 { kind := 7, state := 0, u0 := d.serial.toNat, u1 := d.maker.toNat, u2 := 0 }) m

/-- An ACTIVE channel is to be disabled at the next step boundary (R325): the first cause stands. -/
def disableSoon (s : State) (m : Nat) (cause : BitVec 4) : State :=
  if (getDdr s m).state ≠ 2 then s
  else modDdr s m fun k => { k with disableAt := k.disableAt.or (some cause) }

/-- Channels to be disabled at a step boundary are. -/
def applyDisables (s : State) : List Nat → State
  | [] => s
  | m :: ms => applyDisables (match (getDdr s m).disableAt with | some c => disableDdr s m c | none => s) ms

/-- Uncorrectable reads of a DDR channel within 24 h may disable it (R333). -/
def countUe (s : State) (a : Nat) : State :=
  match decodeAddr a with
  | .dimm m _ =>
    let now := s.time.now.sec
    let recent := now :: (getDdr s m).ueTimes.filter fun t => decide (now.toNat < t.toNat + 86400)
    let s1 := modDdr s m fun k => { k with ueTimes := recent }
    if cfg s (offDdrCtl m) 31 24 < recent.length then disableSoon s1 m causeUeLimit else s1
  | _ => s

/-- Stratum of an address, for the blotter. -/
def stratumOf (a : Nat) : Nat := match decodeAddr a with | .dimm .. => 3 | _ => 2

/-- The index that R450 gives a requester kind: 0 for the host, the MP, the debug port and the patrol. -/
def requesterIndex (kind index : Nat) : Nat := if kind ∈ [0, 1, 2, 7] then 0 else index

/-- An uncorrectable read by a requester (R330, R450): counted, logged, its row pending. -/
def noteUncorrectable (s : State) (a kind index : Nat) : State :=
  let s1 := countUe (countError s a true) a
  let s2 := logEv s1 {
    cls := clsMemory, cause := 2, loc := BitVec.ofNat 64 a, a0 := BitVec.ofNat 64 (stratumOf a)
    a1 := BitVec.ofNat 64 (kind + requesterIndex kind index * 2 ^ 32), die := addrDie a }
  makePending s2 a

end Sys2Proof.Machine
end

