-- ==== Sys2Proof/Machine/Firmware.lean ====
section
/-! DEFINITION. What the serial flash holds (R360-R368, R413): headers, firmware images, certificate chain, grade map, loam, and the
checks over them. -/

namespace Sys2Proof.Machine

/-! ### Header copies (R361) -/

/-- The fields of a valid header copy. -/
structure Hdr where
  seq : BitVec 32
  bank : BitVec 8
  trial : BitVec 8
  tries : BitVec 8
  loam : BitVec 8
deriving DecidableEq, Repr

def magicHdr : Bytes := [0x4B, 0x46, 0x4C, 0x00]

/-- The 64 bytes of a header copy. -/
def hdrBytes (h : Hdr) : Bytes :=
  let b := magicHdr ++ natLe 2 1 ++ natLe 2 0 ++ bytesOf 4 h.seq ++ [h.bank, h.trial, h.tries, h.loam] ++ List.replicate 44 0
  b ++ bytesOf 4 (crc32c b)

/-- Header copy `c`, if its MAGIC and CRC check. -/
def hdrAt (s : State) (c : Nat) : Option Hdr :=
  let b := flashRead s (0x1000 * c) 64
  if b.take 4 = magicHdr ∧ crc32c (b.take 60) = fieldAt 32 b 60 4 then
    some { seq := fieldAt 32 b 8 4, bank := fieldAt 8 b 12 1, trial := fieldAt 8 b 13 1, tries := fieldAt 8 b 14 1, loam := fieldAt 8 b 15 1 }
  else none

/-- The valid copy with the higher SEQ, and which it is. -/
def pickHdr (s : State) : Option (Nat × Hdr) :=
  match hdrAt s 0, hdrAt s 1 with
  | some a, some b => some (if a.seq.toNat < b.seq.toNat then (1, b) else (0, a))
  | some a, none => some (0, a)
  | none, some b => some (1, b)
  | none, none => none

/-- The header in force. -/
def curHdr (s : State) : Hdr :=
  { seq := s.boot.hdrSeq, bank := s.boot.hdrBank, trial := s.boot.hdrTrial, tries := s.boot.hdrTries, loam := s.boot.hdrLoam }

/-- A header comes into force. -/
def setHdr (s : State) (c : Nat) (h : Hdr) : State :=
  { s with boot := { s.boot with
      hdrCopy := BitVec.ofNat 1 c, hdrSeq := h.seq, hdrBank := h.bank, hdrTrial := h.trial, hdrTries := h.tries, hdrLoam := h.loam } }

/-- A header write: the other copy, SEQ one higher (R361). -/
def writeHdr (s : State) (h : Hdr) : State :=
  let c := 1 - s.boot.hdrCopy.toNat
  let h1 := { h with seq := s.boot.hdrSeq + 1 }
  setHdr (flashWrite (flashErase s (0x1000 * c) 0x1000) (0x1000 * c) (hdrBytes h1)) c h1

/-- FROZEN and HELD_SLOT of a header. -/
def frozen (s : State) : Bool := tb s.boot.hdrLoam.toNat 0
def heldSlot (s : State) : Nat := bitsOf s.boot.hdrLoam.toNat 1 1

/-! ### The certificate chain (R413, R414) -/

def chainBase : Nat := 0x2550000

/-- The chain region. -/
def chainRegion (s : State) : Bytes := flashRead s chainBase 0x10000

/-- `n` entries from an offset of the region on: role, certificate; and the offset after them. None beyond the region. -/
def chainFrom (r : Bytes) (o : Nat) : Nat → Option (List (Nat × Bytes) × Nat)
  | 0 => some ([], o)
  | n + 1 =>
    let len := leNat (slice r (o + 4) 4)
    let next := o + 8 + (len + 7) / 8 * 8
    if r.length < next ∨ slice r (o + 1) 3 ≠ [0, 0, 0] then none
    else match chainFrom r next n with
      | some (es, e) => some ((leNat (slice r o 1), slice r (o + 8) len) :: es, e)
      | none => none

/-- The entries of a chain region and the offset of its end. -/
def chainParse (r : Bytes) : Option (List (Nat × Bytes) × Nat) :=
  let n := leNat (slice r 6 2)
  if slice r 0 6 = [0x4B, 0x43, 0x52, 0x54, 1, 0] ∧ slice r 8 8 = List.replicate 8 0 ∧ 1 ≤ n ∧ n ≤ 8 then chainFrom r 16 n else none

/-- The certificate of a role. -/
def certOf (es : List (Nat × Bytes)) (role : Nat) : Option Bytes := (es.find? fun e => e.1 == role).map Prod.snd

/-- The chain reaches the vendor root: roles 1 to 5 once each, ROOT with the ROM's digest, every certificate under ROOT (R414). -/
def chainReaches (r : Bytes) : Bool :=
  match chainParse r with
  | none => false
  | some (es, _) =>
    es.length == 5 && ([1, 2, 3, 4, 5].all fun x => es.any fun e => e.1 == x) &&
      match certOf es 1 with
      | none => false
      | some root => sm3 root == Config.romRootDigest && es.all fun e => Config.certVerifies root e.2

/-- The key of the certificate of a role, no bytes if the chain has none. -/
def roleKey (s : State) (role : Nat) : Bytes :=
  match chainParse (chainRegion s) with
  | none => []
  | some (es, _) => (certOf es role).elim [] Config.certKey

/-- The DEVICE certificate carries the device's own key (R414). -/
def chainOwn (s : State) : Bool := roleKey s 4 == Config.publicKey s.boot.attestKey

/-- The chain's bytes, up to the end of its last entry; none where it does not parse. -/
def chainBytes (s : State) : Bytes :=
  let r := chainRegion s
  match chainParse r with
  | some (_, n) => r.take n
  | none => []

/-- Certificates of the chain. -/
def chainCount (s : State) : Nat := match chainParse (chainRegion s) with | some (es, _) => es.length | none => 0

/-- A vendor signature under a chain key over the SM3 digest of bytes (R234, R362, R365). -/
def signedBy (s : State) (role : Nat) (bs : Bytes) (sig : BitVec 512) : Bool :=
  chainReaches (chainRegion s) && Config.sm2Verify (roleKey s role) (sm3Bytes bs) sig

/-! ### Identity (R363) -/

def helperBase : Nat := 0x2570000

/-- KEYCHECK of the helper region. -/
def keyCheck (s : State) : Digest := wordOf 256 (flashRead s (helperBase + 0xFFE0) 32)

/-- The helper data, as far as KEYCHECK. -/
def helperData (s : State) : Bytes := flashRead s helperBase 0xFFE0

/-- The attestation private key that is derived from K: the key derivation function of GB/T 32918.4 over K and the label, for 256 bits, which is
one block with counter 1 (log 8). -/
def attestKeyOf (k : Digest) : Digest := sm3 (bytesOf 32 k ++ [0x41, 0x54, 0x4B] ++ [0, 0, 0, 1])

/-- The public key derived from K is the one that KEYCHECK names. -/
def keyChecks (s : State) (k : Digest) : Bool := sm3 (Config.publicKey (attestKeyOf k)) == keyCheck s

/-- K as the ROM reconstructs and checks it. -/
def rebuiltKey (s : State) : Option Digest := (Config.rebuildSecret s.boot.puf (helperData s)).filter (keyChecks s)

/-- ID.DEVICE_ID that K forms. -/
def deviceIdOf (k : Digest) : BitVec 64 := fieldAt 64 (sm3Bytes ([0x44, 0x49, 0x44, 0x00] ++ bytesOf 32 k)) 0 8

/-- The identity that K gives: the key store holds K and the private key (R363). -/
def takeIdentity (s : State) (k : Digest) : State :=
  { s with boot := { s.boot with idOk := true, secretK := k, attestKey := attestKeyOf k, deviceId := deviceIdOf k } }

/-! ### Firmware images (R360, R362) -/

/-- Offset of target `t`'s slot in a bank, and the slot's size. -/
def slotAt (t : Nat) : Nat × Nat :=
  match t with
  | 0 => (0, 0x800000)
  | 1 => (0x800000, 0x400000)
  | 2 => (0xC00000, 0x200000)
  | _ => (0xE00000, 0x200000)

/-- Flash offset of target `t`'s slot in bank `b`. -/
def imageBase (b t : Nat) : Nat := 0x100000 + 0x1000000 * b + (slotAt t).1

/-- The 256-byte header of an image. -/
def imageHdr (s : State) (b t : Nat) : Bytes := flashRead s (imageBase b t) 256

def imgLength (h : Bytes) : Nat := leNat (slice h 12 4)
def imgVersion (h : Bytes) : BitVec 32 := fieldAt 32 h 8 4
def imgBase (h : Bytes) : BitVec 32 := fieldAt 32 h 16 4
def imgLoamFormat (h : Bytes) : Nat := leNat (slice h 20 1)

/-- COMPAT[u] of an image contains a version. -/
def compatHas (h : Bytes) (u : Nat) (v : BitVec 32) : Bool :=
  decide (leNat (slice h (24 + 8 * u) 4) ≤ v.toNat) && decide (v.toNat ≤ leNat (slice h (28 + 8 * u) 4))

/-- The header's fixed fields name target `t` and a body that its slot holds. -/
def imgHdrOk (h : Bytes) (t : Nat) : Bool :=
  slice h 0 6 == [0x4B, 0x49, 0x4D, 0x47, 1, 0] && leNat (slice h 6 1) == t && imgLength h % 64 == 0
    && decide (imgLength h + 256 ≤ (slotAt t).2)

/-- SIG of an image header verifies (R362). -/
def imgSigned (s : State) (h : Bytes) : Bool := signedBy s 2 (slice h 0 128) (fieldAt 512 h 128 64)

/-- BODY_DIGEST matches the body. -/
def imgBodyOk (s : State) (b t : Nat) : Bool :=
  let h := imageHdr s b t
  fieldAt 256 h 64 32 == sm3 (flashRead s (imageBase b t + 256) (imgLength h))

/-- The image of a bank verifies. -/
def imageVerifies (s : State) (b t : Nat) : Bool := imgHdrOk (imageHdr s b t) t && imgSigned s (imageHdr s b t) && imgBodyOk s b t

/-- An image header runs beside the running versions of the other targets (R376). -/
def compatible (s : State) (h : Bytes) (t : Nat) : Bool :=
  let v := imgVersion h
  [0, 1, 2, 3].all fun u =>
    u == t || (compatHas h u (tget {} s.boot.fw u).version && compatHas (imageHdr s (tget {} s.boot.fw u).bank.toNat u) t v)

/-! ### The grade map (R365) -/

def gradeBase : Nat := 0x2500000

/-- The grade map. -/
def gradeMap (s : State) : Bytes := flashRead s gradeBase 4032

/-- The grade map is valid for an identity. -/
def gradeOk (s : State) : Bool :=
  let g := gradeMap s
  slice g 0 6 == [0x4B, 0x47, 0x52, 0x44, 1, 0] && fieldAt 64 g 8 8 == s.boot.deviceId && fieldAt 256 g 16 32 == keyCheck s
    && signedBy s 3 (slice g 0 3968) (fieldAt 512 g 3968 64)

/-! ### Loam (R367, R368) -/

/-- Flash offset of a loam slot. -/
def loamBase (i : Nat) : Nat := 0x2100000 + 0x200000 * i

/-- Bytes of a slot's check. -/
def loamCheckLen (fmt : Nat) : Nat := if fmt = 1 then 4 else 32

/-- LENGTH, FORMAT and GEN of a loam image. -/
def loamLength (b : Bytes) : Nat := leNat (slice b 12 4)
def loamFormat (b : Bytes) : Nat := leNat (slice b 4 2)
def loamGen (b : Bytes) : BitVec 32 := fieldAt 32 b 8 4

/-- The slot header of an image in a format. -/
def loamHdrOk (b : Bytes) (fmt : Nat) : Bool :=
  slice b 0 4 == [0x4C, 0x4F, 0x41, 0x4D] && loamFormat b == fmt && (fmt == 1 || fmt == 2) && decide (16 ≤ loamLength b)
    && decide (loamLength b + loamCheckLen fmt ≤ 0x200000)

/-- The check that follows the records of an image. -/
def loamCheck (fmt : Nat) (b : Bytes) : Bytes := if fmt = 1 then bytesOf 4 (crc32c b) else sm3Bytes b

/-- Every check of R367 passes. -/
def loamOk (b : Bytes) (fmt : Nat) : Bool :=
  loamHdrOk b fmt && slice b (loamLength b) (loamCheckLen fmt) == loamCheck fmt (b.take (loamLength b))

/-- Slot `i` as far as its image reaches. -/
def loamSlot (s : State) (i : Nat) : Bytes :=
  let h := flashRead s (loamBase i) 16
  if loamLength h ≤ 0x200000 then flashRead s (loamBase i) (min (loamLength h + 32) 0x200000) else h

/-- The valid slot of a format with the higher GEN (R367). -/
def pickLoam (s : State) (fmt : Nat) : Option Nat :=
  let a := loamOk (loamSlot s 0) fmt
  let b := loamOk (loamSlot s 1) fmt
  if a && b then some (if (loamGen (loamSlot s 0)).toNat < (loamGen (loamSlot s 1)).toNat then 1 else 0)
  else if a then some 0
  else if b then some 1
  else none

/-- A loam record: its type and payload. -/
structure LoamRec where
  ty : Nat
  payload : Bytes
deriving DecidableEq, Repr

/-- Header bytes and padding unit of a record. -/
def recHdr (fmt : Nat) : Nat := if fmt = 1 then 4 else 16
def recPad (fmt : Nat) : Nat := if fmt = 1 then 4 else 16

/-- The records of an image from an offset on; `fuel` bounds their number. A format-2 record whose CRC fails is left out. -/
def loamRecs (b : Bytes) (fmt len o : Nat) : Nat → List LoamRec
  | 0 => []
  | fuel + 1 =>
    let ty := leNat (slice b o 2)
    let n := if fmt = 1 then leNat (slice b (o + 2) 2) else leNat (slice b (o + 4) 4)
    let next := o + recHdr fmt + (n + recPad fmt - 1) / recPad fmt * recPad fmt
    if len < o + recHdr fmt ∨ len < next ∨ 0x100000 < n then []
    else
      let p := slice b (o + recHdr fmt) n
      let rest := loamRecs b fmt len next fuel
      if fmt = 2 ∧ fieldAt 32 b (o + 12) 4 ≠ crc32c p then rest else { ty, payload := p } :: rest

/-- The valid records of a loam image, of the types that its format defines. -/
def loamRecords (b : Bytes) : List LoamRec :=
  let fmt := loamFormat b
  (loamRecs b fmt (loamLength b) 16 (loamLength b / 4)).filter fun r => decide (1 ≤ r.ty) && decide (r.ty ≤ if fmt = 1 then 5 else 7)

/-- Bytes filled with 0x00 to a multiple. -/
def padTo (m : Nat) (bs : Bytes) : Bytes := bs ++ List.replicate ((m - bs.length % m) % m) 0

/-- The bytes of a record in a format; VERSION of a format-2 record is the free value given (log 31). -/
def recBytes (fmt : Nat) (version : BitVec 16) (r : LoamRec) : Bytes :=
  if fmt = 1 then natLe 2 r.ty ++ natLe 2 r.payload.length ++ padTo 4 r.payload
  else
    natLe 2 r.ty ++ natLe 2 (b2n (r.ty == 4)) ++ natLe 4 r.payload.length ++ bytesOf 2 version ++ [0, 0] ++ bytesOf 4 (crc32c r.payload)
      ++ padTo 16 r.payload

/-- A loam image with its check: format, generation, records' bytes. -/
def loamImage (fmt : Nat) (gen : BitVec 32) (recs : Bytes) : Bytes :=
  let b := [0x4C, 0x4F, 0x41, 0x4D] ++ natLe 2 fmt ++ [0, 0] ++ bytesOf 4 gen ++ natLe 4 (16 + recs.length) ++ recs
  b ++ loamCheck fmt b

/-- An image with its GEN replaced and its check formed again. -/
def loamRegen (b : Bytes) (gen : BitVec 32) : Bytes := loamImage (loamFormat b) gen (slice b 16 (loamLength b - 16))

/-- Slot that a loam write goes to: not the current one, and never the held one while FROZEN (R367, R378). -/
def loamTarget (s : State) : Nat := if frozen s then 1 - heldSlot s else 1 - s.boot.loamSlot.toNat

/-- Bytes that the records of a slot may take, with its header and check (R360, R367). -/
def loamRoom (fmt : Nat) : Nat := 0x200000 - 16 - loamCheckLen fmt

/-- The loam's records as they stand, with their types. -/
def rawRecs (b : Bytes) (fmt len o : Nat) : Nat → List (Nat × Bytes)
  | 0 => []
  | fuel + 1 =>
    let n := if fmt = 1 then leNat (slice b (o + 2) 2) else leNat (slice b (o + 4) 4)
    let size := recHdr fmt + (n + recPad fmt - 1) / recPad fmt * recPad fmt
    if len < o + recHdr fmt ∨ len < o + size ∨ 0x100000 < n then []
    else (leNat (slice b o 2), slice b o size) :: rawRecs b fmt len (o + size) fuel

/-- A loam image is written to a slot. -/
def writeLoam (s : State) (i : Nat) (img : Bytes) : State := flashWrite (flashErase s (loamBase i) 0x200000) (loamBase i) img

/-! ### The debug policy (R422) -/

def policyBase : Nat := 0x2560000

end Sys2Proof.Machine
end

