-- ==== Sys2Proof/Machine/Records.lean ====
section
/-! DEFINITION. Byte layouts of the records that software reads: step records, ledger entries, folio and sieve entries, lateness. -/

namespace Sys2Proof.Machine

/-- The 64 bytes of a step record (R65). -/
def stepRecordBytes (r : StepRecord) : Bytes :=
  bytesOf 8 r.step ++ [r.status, r.attempts] ++ bytesOf 2 r.mask ++ natLe 4 r.strokes.toNat ++ bytesOf 4 r.skips ++ bytesOf 4 r.flags
    ++ bytesOf 8 r.firstSkip ++ bytesOf 8 r.launchS ++ bytesOf 4 r.launchNs ++ bytesOf 4 r.wallNs ++ bytesOf 4 r.waiting
    ++ bytesOf 4 r.firstWait ++ bytesOf 4 r.sheetTag ++ natLe 4 (r.strokes.toNat / 2 ^ 32)

/-- STATE code of a slot (R191). -/
def slotStateCode : SlotState → Nat
  | .free => 0
  | .queued => 1
  | .running => 2
  | .paused => 3
  | .held => 4
  | .spilled => 5
  | .ending => 6

/-- The slot state of a code. -/
def slotStateOf (n : Nat) : SlotState :=
  match n with
  | 1 => .queued
  | 2 => .running
  | 3 => .paused
  | 4 => .held
  | 5 => .spilled
  | 6 => .ending
  | _ => .free

/-- A bit as a number, at a place. -/
def bitAt (b : Bool) (i : Nat) : Nat := if b then 2 ^ i else 0

/-- The 128 bytes of a ledger entry (R190); an entry that holds no request reads 0 but LANE and SPILL. -/
def slotBytes (v : Slot) : Bytes :=
  bytesOf 8 v.rid ++ bytesOf 16 v.seed ++ bytesOf 4 v.epoch ++ bytesOf 4 v.adapter ++ bytesOf 2 v.tenant
    ++ natLe 1 (slotStateCode v.state) ++ natLe 1 (v.endCode.toNat + bitAt v.decided 7)
    ++ natLe 2 (bitAt v.cancelF 0 + bitAt v.emitMark 1 + bitAt v.late 2 + bitAt v.shared 3) ++ [v.group, v.lane] ++ bytesOf 4 v.prompt
    ++ bytesOf 4 v.position ++ bytesOf 4 v.emitted ++ bytesOf 4 v.maxTokens ++ bytesOf 4 v.stopToken ++ bytesOf 4 v.base
    ++ bytesOf 4 v.run ++ bytesOf 4 (if v.state = .spilled then v.spill else 0xFFFFFFFF) ++ bytesOf 8 v.deadlineS ++ bytesOf 4 v.deadlineNs ++ bytesOf 4 v.sharedFolios
    ++ bytesOf 8 v.promptAddr ++ List.replicate 32 0

/-- The slot that the 128 bytes of an entry spell. -/
def slotOfBytes (b : Bytes) : Slot :=
  let f (w o n : Nat) : BitVec w := fieldAt w b o n
  let e := (f 8 35 1).toNat
  let g := (f 16 36 2).toNat
  { rid := f 64 0 8, seed := f 128 8 16, epoch := f 32 24 4, adapter := f 32 28 4, tenant := f 16 32 2
    state := slotStateOf (f 8 34 1).toNat, endCode := BitVec.ofNat 4 e, decided := bitsOf e 7 7 == 1, cancelF := bitsOf g 0 0 == 1
    emitMark := bitsOf g 1 1 == 1, late := bitsOf g 2 2 == 1, shared := bitsOf g 3 3 == 1, group := f 8 38 1, lane := f 8 39 1
    prompt := f 32 40 4, position := f 32 44 4, emitted := f 32 48 4, maxTokens := f 32 52 4, stopToken := f 32 56 4
    base := f 32 60 4, run := f 32 64 4, spill := f 32 68 4, deadlineS := f 64 72 8, deadlineNs := f 32 80 4
    sharedFolios := f 32 84 4, promptAddr := f 64 88 8 }

/-- The 16 bytes of a folio table or spill map entry (R198). -/
def folioBytes (f : Folio) : Bytes := [f.state, 0] ++ bytesOf 2 f.slot ++ bytesOf 4 f.sieve ++ bytesOf 4 f.depth ++ natLe 4 0

/-- The entry that 16 bytes spell. -/
def folioOfBytes (b : Bytes) : Folio :=
  { state := fieldAt 8 b 0 1, slot := fieldAt 16 b 2 2, sieve := fieldAt 32 b 4 4, depth := fieldAt 32 b 8 4 }

/-- The 48 bytes of a sieve entry (R206); zeros where no entry is valid. -/
def sieveBytes : Option SieveEnt → Bytes
  | none => List.replicate 48 0
  | some e =>
    bytesOf 16 e.key ++ bytesOf 4 e.folio ++ bytesOf 4 e.prev ++ bytesOf 4 e.epoch ++ bytesOf 4 e.adapter ++ bytesOf 2 e.tenant ++ [1, 0]
      ++ bytesOf 4 e.depth ++ bytesOf 4 e.lastUse ++ natLe 4 0

/-- The 32 bytes of a lateness record (R278). -/
def lateBytes (r : LateRec) : Bytes :=
  bytesOf 8 r.step ++ bytesOf 4 r.slackNs ++ bytesOf 2 r.railMv ++ [r.tjC, r.flags] ++ bytesOf 2 r.powerW ++ [0, 0] ++ bytesOf 4 r.readyNs
    ++ natLe 8 0

end Sys2Proof.Machine
end

