-- ==== Sys2Proof/Machine/SpanOps.lean ====
section
/-! DEFINITION. Span channels: what leaves and enters by the spans in a step, credits and commits (R67, R68, R73, R303-R306). -/

namespace Sys2Proof.Machine

/-! ### Span channels of the live sheet -/

/-- Outbound span channel of a channel entry: sub-port key and span channel (R51, R308). -/
def outboundOf (v : BitVec 128) : Option (Nat × Nat) :=
  if epTile (chConsumer v) = 0x1D then some (subKey (epSpanPort (chConsumer v)) (bitsOf (chConsumer v) 14 11), chSpan v) else none

/-- Outbound span channels: device channel, sub-port key, span channel. -/
def outSpans (s : State) : List (Nat × Nat × Nat) := (liveChans s).filterMap fun v => (outboundOf v).map fun o => (chIndex v, o)

/-- Inbound span channels: device channel, sub-port key, span channel. -/
def inSpans (s : State) : List (Nat × Nat × Nat) := (liveChans s).filterMap fun v => (inboundOf v).map fun o => (chIndex v, o)

/-- Device channel fed by a span channel of a sub-port. -/
def inSpanChan (s : State) (k sc : Nat) : Option Nat := ((inSpans s).find? fun e => e.2 == (k, sc)).map Prod.fst

/-- Device channel that feeds a span channel of a sub-port. -/
def outSpanChan (s : State) (k sc : Nat) : Option Nat := ((outSpans s).find? fun e => e.2 == (k, sc)).map Prod.fst

/-- LAG of an inbound span channel (R307). -/
def lagOf (s : State) (k sc : Nat) : Nat :=
  let ol := match s.sheets.live with | some sh => tget ({} : OrderList) sh.orders (k / 8) | none => {}
  bitsOf (tget 0 ol.inbound sc).toNat 1 1

/-! ### Sending -/

/-- A DATA grain of at most 4 drops (R297). -/
def dataGrain (plot sc : Nat) (ds : List Drop) : Grain := mkGrain (grainHeader sc 1 0 ds.length plot) (wordOf 2048 (bytesOfDrops ds))

/-- DATA grains of a list of drops, 4 to a grain. -/
def dataGrains (plot sc : Nat) : Nat → List Drop → List (Nat × Grain)
  | 0, _ => []
  | n + 1, ds => if ds = [] then [] else (sc, dataGrain plot sc (ds.take 4)) :: dataGrains plot sc n (ds.drop 4)

/-- The drops of an outbound channel go to the class-1 queue of its sub-port as grains. -/
def flushOut (s : State) (ch k sc : Nat) : State :=
  let ds := getChan s ch
  modSub (setChan s ch []) k fun b =>
    { b with q1 := b.q1 ++ dataGrains s.sec.plot.toNat sc ds.length ds, sent := tmod 0 b.sent sc (· + ds.length) }

/-- The lowest-numbered outbound span channel, and among equal numbers that of the lowest sub-port. -/
def leastOut (s : State) : Option (Nat × Nat) :=
  (outSpans s).foldl (fun m e =>
    let o := (e.2.2, e.2.1)
    match m with
    | none => some o
    | some x => if o.1 < x.1 ∨ (o.1 = x.1 ∧ o.2 < x.2) then some o else some x) none

/-- What the commit grain of a channel brings along (R195, R235): record and report to the next device of the chain, the completed report
on one channel of the tail, whose spans lead to the head (log 20). -/
def servingCargo (s : State) (k sc : Nat) : Option ServingCargo :=
  if !(s.sec.isOpen && s.sec.serving) || plotSize s == 1 then none
  else if s.sec.position.toNat + 1 = plotSize s then
    (if leastOut s = some (sc, k) then some { record := none, report := some (joinedReport s) } else none)
  else (loadNext s).bind fun n =>
    if (getSub s k).partnerId = (getSub s n).partnerId then
      some { record := some (s.serv.current.getD (idleRecord s)), report := some (joinedReport s) }
    else none

/-- A COMMIT grain of the running step (R297). -/
def commitOut (s : State) (k sc : Nat) : State :=
  modSub s k fun b =>
    { b with
      q1 := b.q1 ++ [(sc, { mkGrain (grainHeader sc 1 1 0 s.sec.plot.toNat)
        (wordOf 2048 (bytesOf 8 s.step.number ++ natLe 8 (tget 0 b.sent sc))) with cargo := servingCargo s k sc })]
      sent := tset 0 b.sent sc 0 }

/-- What is left of a channel's queued grains when a step is voided or fails: those up to its last COMMIT. -/
def keepCommitted (sc : Nat) (q : List (Nat × Grain)) : List (Nat × Grain) :=
  let mine := q.filter fun e => e.1 == sc
  let isCommit (e : Nat × Grain) : Bool := bitsOf e.2.header.toNat 17 14 == 1
  let n := (mine.reverse.dropWhile fun e => !isCommit e).length
  q.filter (fun e => e.1 != sc) ++ mine.take n

/-- The unsent drops and grains of the running step on an outbound channel are discarded. -/
def dropUnsent (s : State) (ch k sc : Nat) : State :=
  modSub (setChan s ch []) k fun b => { b with q1 := keepCommitted sc b.q1, sent := tset 0 b.sent sc 0 }

/-- A VOID grain of the running step takes the place of the channel's unsent grains (R309). -/
def voidOut (s : State) (ch k sc : Nat) : State :=
  modSub (dropUnsent s ch k sc) k fun b =>
    { b with q1 := b.q1 ++ [(sc, mkGrain (grainHeader sc 1 2 0 s.sec.plot.toNat)
        (wordOf 2048 (bytesOf 8 s.step.number ++ [s.step.attempts])))] }

/-- Do something on every outbound span channel. -/
def eachOut (s : State) (f : State → Nat → Nat → Nat → State) : List (Nat × Nat × Nat) → State
  | [] => s
  | (ch, k, sc) :: t => eachOut (f s ch k sc) f t

/-- Commit grains on every outbound span channel, after what is still to be sent (R67 event 7). -/
def sendCommits (s : State) : State := eachOut s (fun s ch k sc => commitOut (flushOut s ch k sc) k sc) (outSpans s)

/-! ### Receiving (R303-R305) -/

/-- A receive buffer of a class is freed (R303). -/
def freeBuffer (s : State) (k cls : Nat) : State := modSub s k fun b => { b with freed := b.freed.modify cls fun n => (n + 1) % 65536 }

/-- Room of `n` drops comes free on an inbound span channel (R304). -/
def creditBack (s : State) (k sc n : Nat) : State := if n = 0 then s else modSub s k fun b => { b with drained := tmod 0 b.drained sc (· + n) }

/-- Everything in an inbound span channel leaves it (R304). -/
def creditLeft (s : State) (k sc : Nat) : State :=
  let q := tget [] (getSub s k).fifo sc
  let n := q.foldl (fun a e => if e.2.2 then a + e.1 + e.2.1 else a) 0
  if q = [] then s else modSub (creditBack s k sc n) k fun b => { b with fifo := tset [] b.fifo sc [] }

/-- First step at or after `n` not known to have failed. -/
def skipFailed (failed : List (BitVec 64)) (n : BitVec 64) : Nat → BitVec 64
  | 0 => n
  | fuel + 1 => if failed.contains n then skipFailed failed (n + 1) fuel else n

/-- The sender step to which the next drops of a span channel belong: the one after its last COMMIT grain that has not failed
(R305; log 22). -/
def senderStep (s : State) (k sc : Nat) : BitVec 64 :=
  let first := s.launch.armRec.firstStep
  let last := ((getSub s k).commits.filter fun e => e.1 == sc).foldl (fun m e => if m.toNat ≤ e.2.toNat then e.2 + 1 else m) first
  skipFailed s.step.failed last s.step.failed.length

/-- Drops of the running step enter their channel and its RETAIN region (R305, R68). -/
def enterDrops (s : State) (ch k sc : Nat) (ds : List Drop) : State :=
  let key := spanKey k sc
  let s1 := { s with step := { s.step with
    retained := tmod [] s.step.retained ch (· ++ ds)
    carried := if s.step.carried.contains key then s.step.carried else key :: s.step.carried } }
  let s2 := if s.step.voided then s1 else setChan s1 ch (getChan s1 ch ++ ds)
  freeBuffer (modSub s2 k fun b => { b with fifo := tmod [] b.fifo sc (· ++ [(ds.length, 4 - ds.length, true)]) }) k 1

/-- A grain of drops is discarded. -/
def discardDrops (s : State) (k sc : Nat) : State := freeBuffer (creditBack s k sc 4) k 1

/-- Drops of an accepted DATA grain (R305). -/
def dataOn (s : State) (k sc : Nat) (ds : List Drop) : State :=
  match inSpanChan s k sc with
  | none => freeBuffer s k 1
  | some ch =>
    let r := senderStep s k sc + BitVec.ofNat 64 (lagOf s k sc)
    if s.step.running && r == s.step.number then enterDrops s ch k sc ds
    else if decide (s.launch.nextStep.toNat ≤ r.toNat) then modSub s k fun b => { b with waitPool := b.waitPool ++ [(sc, r, ds)] }
    else discardDrops s k sc

/-- Waiting drops of the step that launches enter their channels, in order. -/
def enterWaiting (s : State) (k : Nat) : List (Nat × BitVec 64 × List Drop) → State
  | [] => s
  | (sc, r, ds) :: t =>
    if r = s.step.number then
      enterWaiting (match inSpanChan s k sc with | some ch => enterDrops s ch k sc ds | none => discardDrops s k sc) k t
    else if r.toNat < s.step.number.toNat then enterWaiting (discardDrops s k sc) k t
    else enterWaiting (modSub s k fun b => { b with waitPool := b.waitPool ++ [(sc, r, ds)] }) k t

/-- The pool of every sub-port is gone through at a launch. -/
def enterPools (s : State) : List Nat → State
  | [] => s
  | k :: ks =>
    let w := (getSub s k).waitPool
    enterPools (enterWaiting (modSub s k fun b => { b with waitPool := [] }) k w) ks

/-- The drops that a RESTORE has brought back enter their channels at the launch of their step: they came in no grain of this link, so they
hold no credit and no buffer (R241). -/
def enterRestored (s : State) : List (Nat × Nat × BitVec 64 × List Drop) → State
  | [] => s
  | (k, sc, r, ds) :: t =>
    if r = s.step.number then
      enterRestored (match inSpanChan s k sc with
        | some ch =>
          let s1 := { s with step := { s.step with
            retained := tmod [] s.step.retained ch (· ++ ds)
            carried := if s.step.carried.contains (spanKey k sc) then s.step.carried else spanKey k sc :: s.step.carried } }
          modSub (setChan s1 ch (getChan s1 ch ++ ds)) k fun b => { b with fifo := tmod [] b.fifo sc (· ++ [(ds.length, 0, false)]) }
        | none => s) t
    else if r.toNat < s.step.number.toNat then enterRestored s t
    else enterRestored { s with step := { s.step with restored := s.step.restored ++ [(k, sc, r, ds)] } } t

/-- Keys of the sub-ports that the state lists. -/
def subKeys (s : State) : List Nat := s.subs.map Prod.fst

/-- COMMIT grains of a sender step have come on a span channel. -/
def hasCommit (s : State) (k sc : Nat) (t : BitVec 64) : Bool := (getSub s k).commits.contains (sc, t)

/-- Every inbound span channel that carried data in the running step has its commit grain (R67 event 8). -/
def commitsComplete (s : State) : Bool :=
  (inSpans s).all fun e =>
    !s.step.carried.contains (spanKey e.2.1 e.2.2) ||
      hasCommit s e.2.1 e.2.2 (s.step.number - BitVec.ofNat 64 (lagOf s e.2.1 e.2.2))

/-- A COMMIT grain is recorded; one that comes after local end makes the next launch's lateness the upstream's (R278). -/
def commitOn (s : State) (k sc : Nat) (t : BitVec 64) : State :=
  let late := s.step.running && s.step.localEnded && t + BitVec.ofNat 64 (lagOf s k sc) == s.step.number
  let s1 := modSub s k fun b =>
    { b with commits := (b.commits.filter fun e => e.1 != sc || decide (s.step.number.toNat < e.2.toNat + 3)) ++ [(sc, t)] }
  freeBuffer { s1 with step := { s1.step with upstreamLate := s1.step.upstreamLate || late } } k 1

/-- Credits a span channel gains (R304). -/
def creditEntry (s : State) (k : Nat) (e : BitVec 32) : State :=
  if e = 0 then s else modSub s k fun b => { b with credits := tmod 0 b.credits (bitsOf e.toNat 11 0) (· + (BitVec.ofNat 20 (bitsOf e.toNat 31 12)).toInt) }

/-- The entries of a CREDIT grain. -/
def creditOn (s : State) (k : Nat) : List (BitVec 32) → State
  | [] => freeBuffer s k 0
  | e :: es => creditOn (creditEntry s k e) k es

end Sys2Proof.Machine
end

