-- ==== Sys2Proof/Machine/Ckpt.lean ====
section
/-! DEFINITION. Checkpoints and their restoration (R237-R241). The manual leaves the inside of the sections open: log 12. -/

namespace Sys2Proof.Machine

/-! ### What the head keeps beside a ledger entry, as 32-byte numbers (log 12) -/

/-- An optional number, 0 for none. -/
def optNat (o : Option Nat) : Nat := match o with | some n => n + 1 | none => 0

/-- The optional number that a number spells. -/
def natOpt (n : Nat) : Option Nat := if n = 0 then none else some (n - 1)

/-- What a slot holds beyond its 128 bytes. -/
def slotNats (v : Slot) : List Nat :=
  [b2n v.hasRun, v.hitBase.toNat, v.hitLen.toNat, b2n v.hostHold, v.lastGroup.toNat, b2n v.pauseReq, v.since.sec.toNat, v.since.acc.toNat,
    optNat (v.spillTo.map BitVec.toNat), v.word.toNat, v.markToken.toNat, b2n v.promptBad, b2n v.sealReq, v.sealLen.toNat,
    v.sealAddr.toNat, v.obsFlags.toNat, v.admitTime.sec.toNat, v.admitTime.acc.toNat, optNat (v.firstStep.map BitVec.toNat),
    b2n v.isNative, v.notesDropped.toNat, v.promptToks.length, v.outToks.length, v.sets.length, v.notes.length, v.spill.toNat,
    v.manifest.toNat, v.adapterManifest.toNat]
    ++ v.promptToks.map BitVec.toNat ++ v.outToks.map BitVec.toNat ++ v.sets.flatMap (fun e => [e.1.toNat, e.2.toNat])
    ++ v.notes.flatMap fun n => [n.tag.toNat, n.emitted.toNat, n.sa.toNat, n.sb.toNat]

/-- Pairs that a list of numbers spells. -/
def setsOf : List Nat → List (BitVec 32 × Digest)
  | a :: b :: t => (BitVec.ofNat 32 a, BitVec.ofNat 256 b) :: setsOf t
  | _ => []

/-- Notes that a list of numbers spells. -/
def notesOf : List Nat → List NoteEntry
  | a :: b :: c :: d :: t =>
    { tag := BitVec.ofNat 16 a, emitted := BitVec.ofNat 32 b, sa := BitVec.ofNat 64 c, sb := BitVec.ofNat 64 d } :: notesOf t
  | _ => []

/-- A slot with what a list of numbers says beyond its entry. A hit not yet copied is given up, because its folios are CACHED and not
captured (R237): the request computes those blocks itself, with the same bits (R209). -/
def slotWith (v : Slot) (l : List Nat) : Slot :=
  let n (i : Nat) : Nat := l.getD i 0
  let r1 := l.drop 28
  let r2 := r1.drop (n 21)
  let r3 := r2.drop (n 22)
  { v with
    hasRun := n 0 == 1, hitBase := BitVec.ofNat 32 (n 1), hitLen := 0, hostHold := n 3 == 1, spill := BitVec.ofNat 32 (n 25)
    manifest := BitVec.ofNat 256 (n 26), adapterManifest := BitVec.ofNat 256 (n 27)
    lastGroup := BitVec.ofNat 8 (n 4), pauseReq := n 5 == 1
    since := { sec := BitVec.ofNat 48 (n 6), acc := BitVec.ofNat 62 (n 7) }
    spillTo := (natOpt (n 8)).map (BitVec.ofNat 32), word := BitVec.ofNat 64 (n 9), markToken := BitVec.ofNat 32 (n 10)
    promptBad := n 11 == 1, sealReq := n 12 == 1, sealLen := BitVec.ofNat 32 (n 13), sealAddr := BitVec.ofNat 64 (n 14)
    obsFlags := BitVec.ofNat 32 (n 15), admitTime := { sec := BitVec.ofNat 48 (n 16), acc := BitVec.ofNat 62 (n 17) }
    firstStep := (natOpt (n 18)).map (BitVec.ofNat 64), isNative := n 19 == 1, notesDropped := BitVec.ofNat 16 (n 20)
    promptToks := (r1.take (n 21)).map (BitVec.ofNat 32), outToks := (r2.take (n 22)).map (BitVec.ofNat 32)
    sets := setsOf (r3.take (2 * n 23)), notes := notesOf ((r3.drop (2 * n 23)).take (4 * n 24)) }

/-- The ledger section: 8,192 entries, then per slot not FREE its index, a count, and the numbers it holds beyond its entry. -/
def ledgerSection (s : State) : Bytes :=
  ((List.range 8192).flatMap fun i => slotBytes (getSlot s i)) ++
    (s.serv.slots.flatMap fun e =>
      if e.2.state = .free then [] else
        let l := slotNats e.2
        natLe 32 e.1 ++ natLe 32 l.length ++ l.flatMap (natLe 32))

/-- `n` numbers of `w` bytes. -/
def natsOf (w : Nat) (bs : Bytes) : Nat → List Nat
  | 0 => []
  | n + 1 => leNat (slice bs 0 w) :: natsOf w (bs.drop w) n

/-- The extensions that follow the entries; `fuel` slots at most. -/
def slotTail (t : Tbl Slot) (bs : Bytes) : Nat → Tbl Slot
  | 0 => t
  | fuel + 1 =>
    if bs.length < 64 then t
    else
      let i := leNat (slice bs 0 32)
      let n := leNat (slice bs 32 32)
      slotTail (tmod {} t i fun v => slotWith v (natsOf 32 (bs.drop 64) n)) (bs.drop (64 + 32 * n)) fuel

/-- The ledger that a section spells. -/
def ledgerOf (bs : Bytes) : Tbl Slot :=
  let base := (List.range 8192).foldl (fun t i => tset {} t i (slotOfBytes (slice bs (128 * i) 128))) []
  slotTail base (bs.drop (8192 * 128)) 8192

/-! ### Sections -/

/-- The tables of the head: SERV_CFG, LIMITS, POLICY, deficits, folio table, spill map; and its descriptors of the last P + 1 steps, which
R241 needs for the tokens of the passes under way (R214; log 12). -/
def headSection (s : State) : Bytes :=
  natLe 8 (cfgReg s offServCfg).toNat ++ natLe 8 (cfgReg s offLimits).toNat ++ natLe 8 (cfgReg s offPolicy).toNat
    ++ ((List.range 8).flatMap fun c => natLe 4 (deficitOf s c))
    ++ ((List.range (folioLimit s)).flatMap fun i => folioBytes (getFolio s i))
    ++ ((List.range (spillLimit s)).flatMap fun i => folioBytes (tget {} s.serv.spills i))
    ++ natLe 8 s.serv.descs.length ++ s.serv.descs.flatMap fun d => descBytes d ++ laneTable d

/-- A folio that a restored table keeps: CACHED ones and the sieve are not captured. -/
def restoredFolio (f : Folio) : Folio := if f.state = 1 then { f with sieve := 0xFFFFFFFF } else {}

/-- `n` folio entries. -/
def foliosOf (bs : Bytes) (n : Nat) : Tbl Folio :=
  (List.range n).foldl (fun t i => tset {} t i (restoredFolio (folioOfBytes (slice bs (16 * i) 16)))) []

/-- The descriptor that a record and a lane table spell (R193, R194): lanes of nonzero words. -/
def descOfBytes (bs : Bytes) : Descriptor :=
  let words := (List.range 64).map fun l => fieldAt 64 bs (64 + 8 * l) 8
  let entry (l : Nat) : LaneEntry :=
    let b := slice bs (576 + 64 * l) 64
    { rid := fieldAt 64 b 0 8, seed := fieldAt 128 b 8 16, tokenIndex := fieldAt 32 b 24 4, input := fieldAt 32 b 28 4
      inputOffset := fieldAt 32 b 32 4, stopToken := fieldAt 32 b 36 4, slot := fieldAt 16 b 40 2, tenant := fieldAt 16 b 42 2
      adapter := fieldAt 32 b 44 4 }
  { epoch := fieldAt 32 bs 0 4, marker := tb (leNat (slice bs 4 1)) 0, group := fieldAt 8 bs 5 1, headStep := fieldAt 64 bs 8 8
    words, lanes := ((List.range 64).filter fun l => words.getD l 0 != 0).map fun l => (l, entry l) }

/-- `n` descriptors with their lane tables. -/
def descsOf (bs : Bytes) : Nat → List Descriptor
  | 0 => []
  | n + 1 => descOfBytes bs :: descsOf (bs.drop 4672) n

/-- The head's tables are set from a section. -/
def restoreHead (s : State) (bs : Bytes) : State :=
  let s1 := putReg (putReg s offLimits (fieldAt 256 bs 8 8)) offPolicy (fieldAt 256 bs 16 8)
  let t := bs.drop 56
  { s1 with serv := { s1.serv with
      sieve := []
      deficits := (List.range 8).foldl (fun d c => tset 0 d c (leNat (slice bs (24 + 4 * c) 4))) []
      folios := foliosOf t (folioLimit s1)
      spills := foliosOf (t.drop (16 * folioLimit s1)) (spillLimit s1)
      descs := let d := t.drop (16 * (folioLimit s1 + spillLimit s1)); descsOf (d.drop 8) (leNat (slice d 0 8)) } }

/-- Indices in state RUN. -/
def runList (t : Tbl Folio) : List Nat := (t.filter fun e => e.2.state == 1).map Prod.fst

/-- Valid allocation entries of the live sheet, core by core. -/
def liveAllocs (s : State) : List Alloc := match s.sheets.live with | some sh => sheetAllocs sh | none => []

/-- Folio frames to capture: on the head those in state RUN, elsewhere every FOLIO region. -/
def folioRanges (s : State) : List (Nat × Nat) :=
  if isHead s then (runList s.serv.folios).map fun i => (frameAddr s i, folioBytesLen s)
  else ((liveAllocs s).filter fun e => e.kind == 4).map fun e => (e.base, e.size)

/-- Spill frames to capture: on the head those in state RUN, elsewhere every FOLIO range of a mover list. -/
def spillRanges (s : State) : List (Nat × Nat) :=
  if isHead s then (runList s.serv.spills).map fun j => (spillAddr s j, folioBytesLen s)
  else ((List.range 8).flatMap fun m => (moverList s m).ranges.map moverRangeOf).filterMap fun r =>
    if r.kind = 4 then some (r.base, r.size) else none

/-- PERSISTENT and RETAIN regions. -/
def keptRanges (s : State) : List (Nat × Nat) :=
  ((liveAllocs s).filter fun e => e.kind == 1 || e.kind == 3).map fun e => (e.base, e.size)

/-- The bytes of a list of ranges. -/
def readRanges (s : State) (rs : List (Nat × Nat)) : Bytes := rs.flatMap fun r => memRead s r.1 r.2

/-- A section's bytes go back to a list of ranges. -/
def writeRanges (s : State) (bs : Bytes) : List (Nat × Nat) → State
  | [] => s
  | r :: rs => writeRanges (memWrite s r.1 (slice bs 0 r.2)) (bs.drop r.2) rs

/-- Devices 1 to P − 1 of a serving plot. -/
def isFollower (s : State) : Bool := s.sec.serving && s.sec.position != 0

/-! ### What comes for step n + 1 before the image is whole (R241)

A channel of LAG 1 brings in the drops of step n + 1 while the device before runs step n, and they lie in RETAIN regions. The model keeps
inbound drops in lists (log 20), so they follow the bytes of the RETAIN regions in their section, with the COMMIT grains received. -/

/-- A number as 64 bytes. -/
def wide (ns : List Nat) : Bytes := ns.flatMap (natLe 64)

/-- Drops held for steps after `n`: sub-port, span channel, step, drops. -/
def heldDrops (s : State) (n : BitVec 64) : List (Nat × Nat × BitVec 64 × List Drop) :=
  (s.step.restored ++ s.subs.flatMap fun b => b.2.waitPool.map fun e => (b.1, e)).filter fun e => decide (n.toNat < e.2.2.1.toNat)

/-- COMMIT grains received of step `n` and later. -/
def heldCommits (s : State) (n : BitVec 64) : List (Nat × Nat × BitVec 64) :=
  (s.subs.flatMap fun b => b.2.commits.map fun e => (b.1, e)).filter fun e => decide (n.toNat ≤ e.2.2.toNat)

/-- The bytes that say both. -/
def heldBytes (s : State) (n : BitVec 64) : Bytes :=
  let ds := heldDrops s n
  let cs := heldCommits s n
  wide (ds.length :: ds.flatMap fun e => [e.1, e.2.1, e.2.2.1.toNat, e.2.2.2.length] ++ e.2.2.2.map BitVec.toNat)
    ++ wide (cs.length :: cs.flatMap fun e => [e.1, e.2.1, e.2.2.toNat])

/-- `n` entries of held drops from a list of numbers, and what follows them. -/
def dropsHeld : Nat → List Nat → List (Nat × Nat × BitVec 64 × List Drop) × List Nat
  | n + 1, k :: sc :: r :: d :: t =>
    let x := dropsHeld n (t.drop d)
    ((k, sc, BitVec.ofNat 64 r, (t.take d).map (BitVec.ofNat 512)) :: x.1, x.2)
  | _, t => ([], t)

/-- `n` COMMIT grains from a list of numbers. -/
def commitsHeld : Nat → List Nat → List (Nat × Nat × BitVec 64)
  | n + 1, k :: sc :: r :: t => (k, sc, BitVec.ofNat 64 r) :: commitsHeld n t
  | _, _ => []

/-- Everything for step `n + 1` is in: the COMMIT grain of step `n` on each channel of LAG 1, and on a follower its record. -/
def ckptReady (s : State) (n : BitVec 64) : Bool :=
  ((inSpans s).all fun e => lagOf s e.2.1 e.2.2 != 1 || hasCommit s e.2.1 e.2.2 n) &&
    (!isFollower s || ((passedAt s n).bind fun p => p.record).isSome)

/-- The sections of this device's image that stand at the boundary (R237), each with its row of the table; row 6 is filled in later. -/
def ckptSections (s : State) (n : BitVec 64) : List (Nat × Bytes) :=
  [(1, ledgerSection s)] ++ (if isHead s then [(2, headSection s)] else [])
    ++ [(3, readRanges s (folioRanges s)), (4, readRanges s (spillRanges s)), (5, readRanges s (keptRanges s))]
    ++ (if isFollower s then [(6, [])] else [])
    ++ [(7, bytesOf 4 s.serv.live ++ bytesOf 8 n ++ bytesOf 32 ((s.sheets.live.map Sheet.digest).getD 0))]

/-- A section with what came in after the boundary for step `n + 1`. -/
def fillSection (s : State) (n : BitVec 64) (e : Nat × Bytes) : Nat × Bytes :=
  if e.1 = 5 then (5, e.2 ++ heldBytes s n)
  else if e.1 = 6 then
    let d := ((passedAt s n).bind fun p => p.record).getD (idleRecord s)
    (6, descBytes d ++ laneTable d)
  else e

/-- Next multiple of 64. -/
def up64 (n : Nat) : Nat := (n + 63) / 64 * 64

/-- Directory entries and padded bodies of sections that begin at `off`. -/
def layOut : Nat → List (Nat × Bytes) → Bytes × Bytes
  | _, [] => ([], [])
  | off, (ty, bs) :: t =>
    let r := layOut (up64 (off + bs.length)) t
    (bytesOf 2 (Config.ckptType ty) ++ natLe 6 0 ++ natLe 8 bs.length ++ natLe 8 off ++ sm3Bytes bs ++ r.1,
      bs ++ (if t = [] then [] else List.replicate (up64 bs.length - bs.length) 0) ++ r.2)

/-- The digest of the live sheet; 0 with none. -/
def liveDigest (s : State) : Digest := match s.sheets.live with | some sh => sh.digest | none => 0

/-- Manifest digest of the live epoch's model. -/
def liveManifestDigest (s : State) : Digest := match s.load.liveManifest with | some m => m.digest | none => 0

/-- The header of an image (R239) with that many sections. -/
def ckptHeader (s : State) (n : BitVec 64) (sections : Nat) : Bytes :=
  slice ([0x4B, 0x43, 0x4B, 0] ++ natLe 2 1 ++ natLe 2 sections ++ bytesOf 4 s.sec.devices ++ bytesOf 4 s.sec.position
    ++ natLe 4 0 ++ bytesOf 8 n ++ bytesOf 32 (liveDigest s) ++ bytesOf 32 (liveManifestDigest s)
    ++ natLe 8 (cfgReg s offServCfg).toNat) 0 128

/-- The image of R239 from its header and sections. -/
def ckptImage (head : Bytes) (secs : List (Nat × Bytes)) : Bytes :=
  let l := layOut (up64 (128 + 48 * secs.length)) secs
  let body := head ++ slice l.1 0 (up64 (128 + 48 * secs.length) - 128) ++ l.2
  body ++ sm3Bytes body

/-! ### CHECKPOINT (R238) -/

/-- The step that launches next, or would by the plot's count (R265). -/
def upcoming (s : State) : BitVec 64 :=
  if s.launch.state = .committed ∨ s.launch.state = .running then s.launch.nextStep
  else if s.step.launchedSinceOpen ∨ s.sec.restored then s.step.lastEnded + 1 else 0

/-- Step `n` runs while a FLIP_SHEET waits in a ring for the boundary after it: the case of R358 in which a CHECKPOINT of a launched step is
accepted (log 39). -/
def beforeFlip (s : State) (n : BitVec 64) : Bool :=
  s.step.running && n == s.step.number && s.mbox.rings.any fun r => r.2.pend.any fun c => c.2 == .flipSheet

/-- A stratum-3 range is backed and no die-mover list covers any of it. -/
def freeDimm (s : State) (a n : Nat) : Bool :=
  (match decodeAddr a with | .dimm .. => true | _ => false) && backedRange s a n &&
    (List.range 8).all fun m => ((moverList s m).ranges.map moverRangeOf).all fun r => !meets a n r.base r.size

/-- CHECKPOINT is served. -/
def serveCheckpoint (s : State) (ring : Nat) (seq : BitVec 32) (step : BitVec 64) (kind : BitVec 8) (addr len : BitVec 64) : State :=
  let fin := done s ring seq (.checkpoint step kind addr len)
  if !s.sec.isOpen || s.sheets.flipPending || (decide (step.toNat < (upcoming s).toNat) && !beforeFlip s step) || s.mbox.ckpt.isSome then
    fin errState
  else if kind.toNat > 1 ∨ (kind = 1 ∧ freeDimm s addr.toNat len.toNat = false) then fin errBadField
  else { s with mbox := { s.mbox with ckpt := some (ring, seq, step, kind, addr, len), ckptParts := none, ckptImage := none } }

/-- A CHECKPOINT completes with an error. -/
def ckptEnd (s : State) (err : Nat) : State :=
  match s.mbox.ckpt with
  | none => s
  | some (ring, seq, _) => complete { s with mbox := { s.mbox with ckpt := none, ckptParts := none, ckptImage := none } } ring seq 0x50 err []

/-- The image is whole once everything for the next step is in; one longer than the command's range ends it. -/
def ckptFill (s : State) : State :=
  match s.mbox.ckpt, s.mbox.ckptParts with
  | some (_, _, n, _, _, len), some (head, secs) =>
    if !ckptReady s n then s
    else
      let img := ckptImage head (secs.map (fillSection s n))
      if len.toNat < img.length then ckptEnd s errNoSpace
      else { s with mbox := { s.mbox with ckptParts := none, ckptImage := some img } }
  | _, _ => s

/-- The step has ended; one that a CHECKPOINT names holds the plot, and a committed one gives its image. -/
def ckptAtEnd (s : State) (committed : Bool) : State :=
  match s.mbox.ckpt with
  | none => s
  | some (_, _, n, _, _, _) =>
    if n ≠ s.step.number then s
    else
      let s1 := { s with launch := { s.launch with state := .held } }
      if !committed then ckptEnd s1 errState
      else
        let secs := ckptSections s1 n
        ckptFill { s1 with mbox := { s1.mbox with ckptParts := some (ckptHeader s1 n secs.length, secs) } }

/-- CHECKPOINT_WRITTEN (R238 events 3 and 4). -/
def execCheckpointWritten (s : State) : Out :=
  .next (match s.mbox.ckpt, s.mbox.ckptImage with
    | some (ring, seq, _, kind, addr, _), some img =>
      if kind = 0 then
        if s.mbox.link = 2 then
          complete (hostWrite { s with mbox := { s.mbox with ckpt := none, ckptImage := none } } addr.toNat img) ring seq 0x50 errOk
            (sm3Bytes img ++ natLe 8 img.length)
        else s
      else if backedRange s addr.toNat img.length then
        complete (memWrite { s with mbox := { s.mbox with ckpt := none, ckptImage := none } } addr.toNat img) ring seq 0x50 errOk
          (sm3Bytes img ++ natLe 8 img.length)
      else ckptEnd s errMemory
    | _, _ => s)

/-! ### RESTORE (R240) -/

/-- RESTORE is served: step 1, then the image is read. -/
def serveRestore (s : State) (ring : Nat) (seq : BitVec 32) (kind : BitVec 8) (addr len : BitVec 64) (digest : Digest) : State :=
  let fin := done s ring seq (.restore kind addr len digest)
  if !s.sec.isOpen || s.step.launchedSinceOpen then fin errState
  else if kind.toNat > 1 ∨ len.toNat < 160 ∨ (kind = 1 ∧ backedRange s addr.toNat len.toNat = false) then fin errBadField
  else if s.mbox.restore.isSome then fin errBusy
  else { s with mbox := { s.mbox with restore := some (ring, seq, kind, addr, len, digest) } }

/-- Directory entry `i` of an image: type, section. -/
def dirEntry (img : Bytes) (i : Nat) : BitVec 16 × Bytes :=
  let e := slice img (128 + 48 * i) 48
  (fieldAt 16 e 0 2, slice img (leNat (slice e 16 8)) (leNat (slice e 8 8)))

/-- Every section digest holds. -/
def sectionsOk (img : Bytes) (n : Nat) : Bool :=
  (List.range n).all fun i => slice img (128 + 48 * i + 24) 32 == sm3Bytes (dirEntry img i).2 &&
    decide (leNat (slice img (128 + 48 * i + 16) 8) + leNat (slice img (128 + 48 * i + 8) 8) + 32 ≤ img.length)

/-- The error that an image meets in steps 2 to 5, if any. -/
def imageError (s : State) (img : Bytes) (digest : Digest) : Option Nat :=
  let n := leNat (slice img 6 2)
  if img.drop (img.length - 32) ≠ sm3Bytes (img.take (img.length - 32)) ∨ img.length < 128 + 48 * n + 32 ∨ sectionsOk img n = false
      ∨ sm3 img ≠ digest then some errDigest
  else if img.take 6 ≠ [0x4B, 0x43, 0x4B, 0, 1, 0] ∨ fieldAt 32 img 8 4 ≠ s.sec.devices ∨ fieldAt 32 img 12 4 ≠ s.sec.position then
    some errState
  else if fieldAt 256 img 28 32 ≠ liveDigest s then some errDigest
  else if fieldAt 256 img 60 32 ≠ liveManifestDigest s then some errDigest
  else if fieldAt 256 img 92 8 ≠ cfgReg s offServCfg then some errState
  else none

/-- The section of a row, empty if the image has none. -/
def sectionOf (img : Bytes) (row : Nat) : Bytes :=
  match ((List.range (leNat (slice img 6 2))).map (dirEntry img)).find? fun e => e.1 == Config.ckptType row with
  | some e => e.2
  | none => []

/-- What an image held for the step after its own: drops, and COMMIT grains. -/
def restoreHeld (s : State) (bs : Bytes) : State :=
  let ns := natsOf 64 bs (bs.length / 64)
  let d := dropsHeld (ns.headD 0) (ns.drop 1)
  let cs := commitsHeld (d.2.headD 0) (d.2.drop 1)
  cs.foldl (fun s e => modSub s e.1 fun b => { b with commits := b.commits ++ [e.2] }) { s with step := { s.step with restored := d.1 } }

/-- Ranges that a checkpoint captures on this device, by the live sheet: FOLIO, PERSISTENT and RETAIN entries, FOLIO ranges of the movers. -/
def capturedRanges (s : State) : List (Nat × Nat) :=
  keptRanges s ++ (((liveAllocs s).filter fun e => e.kind == 4).map fun e => (e.base, e.size)) ++
    ((List.range 8).flatMap fun m => (moverList s m).ranges.map moverRangeOf).filterMap fun r =>
      if r.kind = 4 then some (r.base, r.size) else none

/-- The plot has no state: what a checkpoint captures is as the SCRUB left it (R240). -/
def noState (s : State) : State :=
  let rs := capturedRanges s
  { s with
    mem := s.mem.filter fun c => !rs.any fun r => decide (r.1 ≤ c.1) && decide (c.1 < r.1 + r.2)
    serv := { s.serv with
      slots := [], folios := [], spills := [], sieve := [], deficits := [], descs := [], current := none, received := [], recvReport := none }
    step := { s.step with restored := [], lastEnded := 0 }
    sec := { s.sec with restored := false } }

/-- A RESTORE ends with an error after its image was asked for (R240; log 12). -/
def restoreFail (s : State) (ring : Nat) (seq : BitVec 32) (err : Nat) : State :=
  complete (noState { s with mbox := { s.mbox with restore := none } }) ring seq 0x51 err []

/-- Step 6 and 7: the sections go into place. -/
def placeImage (s : State) (img : Bytes) : State :=
  let n := fieldAt 64 img 20 8
  let s1 := { s with serv := { s.serv with slots := ledgerOf (sectionOf img 1) } }
  let s2 := if isHead s1 then restoreHead s1 (sectionOf img 2) else s1
  let s3 := writeRanges s2 (sectionOf img 3) (folioRanges s2)
  let s4 := writeRanges s3 (sectionOf img 4) (spillRanges s3)
  let s5 := restoreHeld (writeRanges s4 (sectionOf img 5) (keptRanges s4))
    ((sectionOf img 5).drop ((keptRanges s4).foldl (fun n r => n + r.2) 0))
  let s6 := if isFollower s5 then
    { s5 with serv := { s5.serv with received := [{ step := n, record := some (descOfBytes (sectionOf img 6)), report := none }] } } else s5
  let s7 := { s6 with
    serv := { s6.serv with live := fieldAt 32 (sectionOf img 7) 0 4, admission := fieldAt 32 (sectionOf img 7) 0 4 }
    step := { s6.step with lastEnded := n }
    sec := { s6.sec with restored := true } }
  eachSlot s7 (fun i s => modSlot s i fun v => { v with obsFlags := v.obsFlags ||| 8 }) (slotsWhere s7 fun v => v.state != .free && v.sealReq)

/-- RESTORE_COMPLETE (R240): the image has been read from the host or the DIMM. -/
def execRestoreComplete (host : HostView) (s : State) : Out :=
  .next (match s.mbox.restore with
    | none => s
    | some (ring, seq, kind, addr, len, digest) =>
      if kind = 0 ∧ s.mbox.link ≠ 2 then s
      else
        let img := if kind = 0 then hostView host addr.toNat len.toNat else memRead s addr.toNat len.toNat
        let s1 := { s with mbox := { s.mbox with restore := none } }
        match imageError s1 img digest with
        | some e => restoreFail s1 ring seq e
        | none => complete (placeImage s1 img) ring seq 0x51 errOk [])

end Sys2Proof.Machine
end

