-- ==== Sys2Proof/Machine/Pace.lean ====
section
/-! DEFINITION. The pace controller (R279-R282). -/

namespace Sys2Proof.Machine

/-- PACE.TRIM of die `d`, in mV. -/
def trimOf (s : State) (d : Nat) : Int := (BitVec.ofNat 8 (cfg s offPaceTrim (8 * d + 7) (8 * d))).toInt

/-- Target voltages of rails 0 to 3 for a rail setting (R279). -/
def railTargets (s : State) (v : Nat) : List Nat :=
  (List.range 4).map fun d => (min (max ((v : Int) + trimOf s d) 600) 950).toNat

/-- The rail is commanded over AVSBus (R280, R281). -/
def setRail (s : State) (v : Nat) (byPower byTemp : Bool) : State :=
  { s with pace := { s.pace with
      railMv := BitVec.ofNat 10 v, lastChange := some s.time.now, avsOut := some (railTargets s v)
      powerLimited := byPower, thermalLimited := byTemp } }

/-- UPDATE_US has passed since the last change. -/
def paceDue (s : State) : Bool :=
  match s.pace.lastChange with
  | none => true
  | some t => decide (timeUnits t + nsUnits (1000 * cfg s offPaceRate 15 0) ≤ nowUnits s)

/-- Power above the cap less its margin. -/
def overPower (s : State) : Bool :=
  decide (cfg s offPaceLimits 31 20 < s.pace.powerW.toNat + cfg s offPaceLimits 39 32)

/-- The temperature that forces the rail down. -/
def overTemp (s : State) : Bool := decide (105 ≤ s.pace.tjC.toNat)

/-- A new setting, clamped to VMIN and VMAX, is commanded if it differs (R280). -/
def paceMove (s : State) (v : Nat) (forced : Bool) : State :=
  let c := min (max v (cfg s offPaceLimits 9 0)) (cfg s offPaceLimits 19 10)
  if c = s.pace.railMv.toNat then s else setRail s c (forced && overPower s) (forced && overTemp s)

/-- The controller after a paced launch with its slack in units of 2⁻¹⁶ ns (R280). -/
def paceAfterLaunch (s : State) (slack : Int) (upstream : Bool) : State :=
  let target : Int := nsUnits (cfg s offPaceTarget 23 0)
  let band : Int := nsUnits (cfg s offPaceTarget 47 24)
  let rail := s.pace.railMv.toNat
  if s.pace.avsFault || !paceDue s then s
  else if overPower s || overTemp s then paceMove s (rail - 5) true
  else if slack < target - band ∧ upstream = false ∧ s.pace.tjC.toNat < cfg s offPaceLimits 47 40 then paceMove s (rail + 5) false
  else if target + band < slack then paceMove s (rail - 5) false
  else s

/-- LATE_RUN and SLOW after a launch, with the rail it launched at: any launch but a late paced one at VMAX_MV clears LATE_RUN (R282). -/
def lateRunAfter (s : State) (slack : Int) (upstream : Bool) : State :=
  if s.launch.paced = true ∧ s.pace.railMv.toNat = cfg s offPaceLimits 19 10 ∧ slack < 0 ∧ upstream = false then
    let s1 := { s with pace := { s.pace with lateRun := satAdd s.pace.lateRun 1 } }
    if s1.pace.lateRun.toNat = cfg s1 offPaceRate 31 16 then
      logEv { s1 with pace := { s1.pace with slow := true } }
        { cls := clsTime, cause := 11, a0 := BitVec.ofNat 64 s1.pace.lateRun.toNat, suspect := some 2 }
    else s1
  else { s with pace := { s.pace with lateRun := 0 } }

/-- PACE_FREE_UPDATE (R280): in free mode, toward FREE_MV by 5 mV, or forced down. -/
def execPaceFreeUpdate (s : State) : Out :=
  let rail := s.pace.railMv.toNat
  let free := cfg s offPaceRate 41 32
  .next (
    if s.launch.paced || s.pace.avsFault || !paceDue s then s
    else if overPower s || overTemp s then paceMove s (rail - 5) true
    else if rail < free then paceMove s (min (rail + 5) free) false
    else if free < rail then paceMove s (max (rail - 5) free) false
    else s)

/-- Regulators that did not answer are logged, each by its rail (R281). -/
def logSilent (s : State) : List Nat → State
  | [] => s
  | d :: ds => logSilent (logEv s { cls := clsTime, cause := 10, loc := BitVec.ofNat 64 d, suspect := some 1 }) ds

/-- AVS_READBACK (R280, R281): rails that answered, package power estimate, highest junction temperature. -/
def execAvsReadback (answers : BitVec 4) (powerW : BitVec 16) (tjC : BitVec 8) (s : State) : Out :=
  let s1 := { s with pace := { s.pace with tjC, tjMax := if s.pace.tjMax.toNat < tjC.toNat then tjC else s.pace.tjMax } }
  .next (
    if answers = 15 then { s1 with pace := { s1.pace with powerW } }
    else if s.pace.avsFault then s1
    else logSilent { s1 with pace := { s1.pace with avsFault := true } } ((List.range 4).filter fun d => !tb answers.toNat d))

end Sys2Proof.Machine
end

