-- ==== Sys2Proof/Machine/StepLife.lean ====
section
/-! DEFINITION. The life of a step: launch, local end, commit, failure, void, re-execution, boundary (R65-R77, R158, R159, R275-R278). -/

namespace Sys2Proof.Machine

/-! ### Units at stroke 0 -/

/-- A unit at stroke 0; its halting stays. -/
def freshUnit (u : UnitSt) : UnitSt := { halted := u.halted }

/-- Every unit at stroke 0: engines hold nothing of an earlier step, scribes only their parameter slots (R88, R102, R109, R140, R172). -/
def resetUnits (s : State) : State :=
  { s with
    units := s.units.filterMap fun e => if freshUnit e.2 = {} then none else some (e.1, freshUnit e.2)
    scribes := s.scribes.filterMap fun e => let x : ScribeSt := { p := e.2.p }; if x = {} then none else some (e.1, x)
    matrix := [], vector := [], xfer := [], chans := [] }

/-! ### Stroke length (R23, R161, R162) -/

/-- Switches over a run list: `h` and `f` are the commands left of the host and the folded context, `onHost` whose turn it is,
`last` the context that ran last. Runs past the list are of 64. -/
def switches : Nat → List Nat → Bool → Nat → Nat → Option Bool → Nat
  | 0, _, _, _, _, _ => 0
  | fuel + 1, runs, onHost, h, f, last =>
    if h = 0 ∧ f = 0 then 0
    else
      let n := if onHost then h else f
      let r := if (if onHost then f else h) = 0 then n else min n (runs.headD 64)
      if r = 0 then switches fuel runs.tail (!onHost) h f last
      else
        let cost := if last = some (!onHost) ∧ (if onHost then f else h) ≠ 0 then 1 else 0
        cost + switches fuel runs.tail (!onHost) (if onHost then h - r else h) (if onHost then f else f - r) (some onHost)

/-- Context switches of a physical unit with these contexts. -/
def switchesOf (s : State) (host folded : Nat) (runs : List Nat) : Nat :=
  let h := (getUnit s host).issued
  let f := (getUnit s folded).issued
  switches (h + f + runs.length + 2) runs true h f none

/-- Total of the physical unit that carries ruled unit `j` of core `c`: both contexts and their switches on grade B. -/
def unitTotal (s : State) (c j : Nat) : Nat :=
  let own := (getUnit s (unitKey c j)).strokes.toNat
  match contextsOf s (unitKey c j) with
  | none => own
  | some (hk, fk, runs) => (getUnit s hk).strokes.toNat + (getUnit s fk).strokes.toNat + 2 * switchesOf s hk fk runs

/-- The stroke length of the step (R23). -/
def strokeLength (s : State) : BitVec 64 :=
  let cores := (List.range 64).flatMap fun c => (List.range 25).map fun j => unitTotal s c j
  let movers := (List.range 8).map fun m => (getUnit s (moverKey m)).strokes.toNat
  BitVec.ofNat 64 ((cores ++ movers).foldl max 0)

/-! ### Records (R65) -/

/-- Nanoseconds since the launch, saturating. -/
def wallSince (s : State) : BitVec 32 := BitVec.ofNat 32 (min (nowNs s - timeNs s.step.launchTime) (2 ^ 32 - 1))

/-- The step record of the running step with its final mask. -/
def stepRecord (s : State) (mask : BitVec 16) (strokes : BitVec 64) (wall : BitVec 32) : StepRecord :=
  let t := s.step
  { step := t.number, status := BitVec.ofNat 8 (statusOf mask), attempts := t.attempts, mask, strokes, skips := t.skips
    flags := BitVec.ofNat 32 (b2n (t.defective || tb mask.toNat 7) + 2 * b2n t.saturated + 4 * b2n t.origin + 8 * b2n t.upstreamVoid)
    firstSkip := t.firstSkip, launchS := BitVec.ofNat 64 t.launchTime.sec.toNat, launchNs := BitVec.ofNat 32 (tvNs t.launchTime)
    wallNs := wall, waiting := t.waiting, firstWait := t.firstWait, sheetTag := BitVec.ofNat 32 (liveDigest s).toNat }

/-- A step's record is kept, shown in the registers, and copied to the blotter unless the step is OK. -/
def keepRecord (s : State) (r : StepRecord) : State :=
  let s1 := { s with step := { s.step with
    running := false, voided := false, localEnded := false, reload := none, lastEnded := r.step, lastStatus := r.status
    lastMask := r.mask, lastAttempts := r.attempts, lastStrokes := r.strokes, lastSkips := r.skips
    records := (s.step.records ++ [r]).drop (s.step.records.length + 1 - 256) } }
  if r.status = 0 then s1
  else
    let b := stepRecordBytes r
    logEv s1 { cls := clsStep, cause := 0x10, loc := r.firstSkip, a0 := BitVec.ofNat 64 (crc32c b).toNat, record := some (wordOf 512 b) }

/-- After an ended step: what does not outlive it goes, and the plot goes on or holds after STOP_STEP (R264). -/
def afterStep (s : State) : State :=
  let st := if s.launch.state = .running ∨ s.launch.state = .committed then
      (if s.step.number = s.launch.armRec.stopStep ∧ s.launch.armRec.stopStep ≠ 0xFFFFFFFFFFFFFFFF then LaunchState.held else .running)
    else s.launch.state
  let s1 := { s with
    overlay := [], chans := []
    step := { s.step with retained := [], carried := [], consumed := [] }
    launch := { s.launch with state := st, ready := none, short := false, boundaryDone := false } }
  applyDisables (resetUnits s1) (List.range 8)

/-! ### Failure (R66, R74, R222) -/

/-- Drops of a failed step leave the inbound channels: their room comes free. -/
def creditAll (s : State) : List (Nat × Nat × Nat) → State
  | [] => s
  | (_, k, sc) :: t => creditAll (creditLeft s k sc) t

/-- One entry for the choices that dispatch dropped in the step (R139); an attempt that is voided is not logged again. -/
def logDispatch (s : State) : State :=
  match if s.step.voided then none else s.step.dispatchUnit with
  | none => s
  | some k =>
    logEv s {
      cls := clsServing, cause := 1, loc := BitVec.ofNat 64 (k / 32 + k % 32 * 64), a0 := BitVec.ofNat 64 s.step.dispatchDrops
      die := k / 512 }

/-- The running step ends failed with the conditions given added (R74); dropped choices are logged unless local end did. -/
def endStepFailed (s : State) (mask : BitVec 16) : State :=
  let m := s.step.conds ||| mask
  let strokes := strokeLength s
  let s0 := if s.step.localEnded then s else logDispatch s
  let s1 := eachOut (creditAll s0 (inSpans s0)) dropUnsent (outSpans s0)
  let r := stepRecord s1 m strokes (wallSince s1)
  let s2 := keepRecord s1 r
  let s3 := failServing { s2 with step := { s2.step with failed := r.step :: s2.step.failed } }
  endHalts (ckptAtEnd (afterStep s3) false)

/-- The running step fails with a condition. -/
def failStep (s : State) (code : Nat) : State := endStepFailed s (BitVec.ofNat 16 (2 ^ code))

/-- The device itself raises the condition that ends its running step: ORIGIN and an END (R74). -/
def failHere (s : State) (code : Nat) : State :=
  if s.step.running then
    sendEnd (failStep { s with step := { s.step with origin := true } } code) s.step.number code
  else s

/-- The launch tick of step `n`, in ns (R275); in free mode only the first step has one. -/
def tickNsOf (s : State) (n : BitVec 64) : Nat :=
  let start := s.launch.startS.toNat * 1000000000 + s.launch.startNs.toNat
  if s.launch.paced then
    start + (n - s.launch.armRec.firstStep).toNat * s.launch.armRec.periodNs.toNat + s.launch.shiftNs.toNat
  else if n = s.launch.armRec.firstStep then start else 0

/-- A step that never launched is recorded as failed (R270, R271): its observation fields are free, and so is ATTEMPTS among the values
of R65, which says 1 or more and counts executions, of which there was none (log 23). The tick of the step passes by R275. -/
def recordUnlaunched (s : State) (n : BitVec 64) (code : Nat) (origin : Bool) : State :=
  let a := drawFree 64 s
  let b := drawFree 32 a.2
  let b' := drawFree 8 b.2
  let c := drawFree 32 b'.2
  let mask := BitVec.ofNat 16 (2 ^ code)
  let s1 := { c.2 with
    step := { c.2.step with number := n, failed := n :: c.2.step.failed }
    launch := { c.2.launch with nextStep := n + 1, prevTick := if s.launch.paced then some (tickNsOf s n) else s.launch.prevTick } }
  let r : StepRecord := {
    step := n, status := BitVec.ofNat 8 (statusOf mask), attempts := BitVec.ofNat 8 (1 + b'.1.toNat % 255), mask, strokes := 0, skips := 0
    flags := BitVec.ofNat 32 (4 * b2n origin), firstSkip := 0, launchS := a.1, launchNs := b.1, wallNs := c.1, waiting := 0
    firstWait := 0, sheetTag := BitVec.ofNat 32 (liveDigest s).toNat }
  ckptAtEnd (afterStep (failServing (keepRecord s1 r))) false

/-! ### Launch (R67 events 1 to 3, R275-R278) -/

/-- STATUS of an END held for a step (R271). -/
def endFor (s : State) (n : BitVec 64) : Option (BitVec 8) :=
  (s.launch.ends.find? fun e => decide (e.1.toNat ≤ n.toNat) && decide (n.toNat < e.1.toNat + e.2.1.toNat)).map fun e => e.2.2

/-- A signed number saturated to 32 bits. -/
def sat32 (x : Int) : BitVec 32 := BitVec.ofInt 32 (max (min x 2147483647) (-2147483648))

/-- The lateness record of the launch (R278, R277), from its slack and its ready time in units of 2⁻¹⁶ ns; whole ns are recorded. -/
def lateRecord (s : State) (n : BitVec 64) (slack : Int) (ready : Nat) : State × LateRec :=
  let d : BitVec 32 × State := match s.launch.prevTick with
    | some t => (BitVec.ofNat 32 (min ((ready - nsUnits t) / 65536) (2 ^ 32 - 1)), s)
    | none => drawFree 32 s
  let p := s.pace
  let flags := b2n s.step.upstreamLate + 2 * b2n (s.launch.heldSince || dryHold s) + 4 * b2n p.powerLimited + 8 * b2n p.thermalLimited
    + 16 * b2n (p.railMv.toNat == cfg s offPaceLimits 19 10) + 32 * b2n s.launch.shifted
  (d.2, { step := n, slackNs := if s.launch.paced then sat32 (slack / 65536) else 0x80000000, railMv := BitVec.ofNat 16 p.railMv.toNat
          tjC := p.tjMax, flags := BitVec.ofNat 8 flags, powerW := p.powerW, readyNs := d.1 })

/-- Late launches are counted (R278); the greatest lateness is that of SLACK_NS. -/
def countLate (s : State) (slack : Int) : State :=
  if s.launch.paced = true ∧ slack < 0 then
    { s with launch := { s.launch with
        lateCount := s.launch.lateCount + 1
        ownLate := if s.step.upstreamLate then s.launch.ownLate else s.launch.ownLate + 1
        maxLate := BitVec.ofNat 32 (max s.launch.maxLate.toNat (min (slack / 65536).natAbs (2 ^ 32 - 1))) } }
  else s

/-- A sub-port of the live order lists is DOWN after a blot (R314). -/
def blottedPort (s : State) : Bool :=
  let ports := match s.sheets.live with | some sh => sh.orders.map Prod.fst | none => []
  s.subs.any fun e => ports.contains (e.1 / 8) && e.2.state == .down && e.2.blotted

/-- Stroke 0 of step `n` (R67 event 3). -/
def beginStep (s : State) (n : BitVec 64) : State :=
  let t := s.step
  let s1 := { s with step := { t with
    running := true, number := n, conds := 0, kept := 0, attempts := 1, skips := 0, firstSkip := 0, defective := false, saturated := false
    origin := false, upstreamVoid := false, launchTime := s.time.now, localEnded := false, strokes := 0, voided := false, ownVoids := 0
    reload := none, carried := [], consumed := [], upstreamLate := false, dispatchDrops := 0, dispatchUnit := none, waiting := 0
    firstWait := 0, retained := [], restored := [], notes := [], launchedSinceOpen := true } }
  enterPools (enterRestored s1 t.restored) (subKeys s)

/-- The root logs the positions whose digest for the first step of the launch has not arrived (R268). -/
def logLateDigests (s : State) (n : BitVec 64) : List Nat → State
  | [] => s
  | p :: ps =>
    let have_ := s.launch.digests.any fun e => e.1 == p && decide (n.toNat ≤ e.2.1.toNat)
    logLateDigests (if have_ then s else
      logEv s { cls := clsTime, cause := 9, loc := BitVec.ofNat 64 p, a0 := n }) n ps

/-- STROKE breakpoints with VALUE 0 are met at the launch: each sets HIT, and the halt happens once (R427). -/
def launchBps (s : State) : State :=
  let fired := (List.range 16).filter fun i => bpArmed s 3 i && bpField (getBp s i) 63 32 == 0
  match fired with
  | [] => s
  | i :: _ =>
    let b := getBp s i
    let units := if fired.any fun i => bpField (getBp s i) 3 3 == 1 then allUnits else fired.flatMap fun i => coreUnits (bpField (getBp s i) 9 4)
    haltWith (bpHits s fired) units (skipLocator 0 (bpField b 9 4) (bpField b 14 10) 0) i

/-- Step `n` launches; its slack is in units of 2⁻¹⁶ ns (R245, R277). -/
def launchStep (s : State) (n : BitVec 64) (ready : TimeVal) : State :=
  let slack : Int := (nsUnits (tickNsOf s n) : Int) - timeUnits ready
  let upstream := s.step.upstreamLate
  let l := lateRecord s n slack (timeUnits ready)
  let s1 := countLate l.1 slack
  let s2 := { s1 with
    launch := { s1.launch with
      late := tput s1.launch.late (n.toNat % 256) l.2, state := .running, nextStep := n + 1, ready := none, short := false, boundaryDone := false
      prevTick := some (if s.launch.paced then tickNsOf s n else nowNs s), shifted := false, heldSince := dryHold s1 }
    pace := { s1.pace with tjMax := s1.pace.tjC } }
  let s3 := lateRunAfter s2 slack upstream
  let s3 := if s.launch.paced then paceAfterLaunch s3 slack upstream else s3
  let s3 := if s3.launch.root && n == s3.launch.armRec.firstStep then logLateDigests s3 n (List.range s3.sec.devices.toNat) else s3
  let s4 := launchBps (beginStep (resetUnits s3) n)
  if blottedPort s4 then failHere s4 4 else s4

/-- The launch tick has come. -/
def tickReached (s : State) (n : BitVec 64) : Bool := decide (tickNsOf s n ≤ nowNs s)

/-- LAUNCH_TICK (R271, R276): the go level rises at the later of the tick and the ready time. -/
def execLaunchTick (s : State) : Out :=
  let n := s.launch.nextStep
  .next (
    if !s.sec.isOpen || s.step.running || s.time.relock || anyHalted s || !(s.launch.state == .committed || s.launch.state == .running) then s
    else match endFor s n with
      | some st => if s.launch.paced && !tickReached s n then s else recordUnlaunched s n (st.toNat % 16) false
      | none => match s.launch.ready with
        | none => s
        | some r =>
          if !tickReached s n || s.launch.reloading then s
          else launchStep s n r)

/-! ### Local end (R67 events 5 to 7, R69) -/

/-- An engine tile has nothing left: its queue is empty and no command is under way. -/
def tileDone (u : UnitSt) : Bool := u.queue.isEmpty && u.blocked.isNone

/-- Ruled cores of the live sheet. -/
def sheetCores (s : State) : List Nat := match s.sheets.live with | some sh => sh.cores.map Prod.fst | none => []

/-- Every unit has retired its last command. -/
def allRetired (s : State) : Bool :=
  (sheetCores s).all (fun c => (getUnit s (scribeKey c)).ended && (List.range 24).all fun j => tileDone (getUnit s (tileKey c j))) &&
    (List.range 8).all fun m =>
      let u := getUnit s (moverKey m)
      u.blocked.isNone && decide ((moverList s m).entries.length ≤ u.issued)

/-- The slab writes that no later load has seen yet are stored. -/
def flushUnits (s : State) : List Nat → State
  | [] => s
  | k :: ks =>
    let a := flushSlab s (k / 32) (tget {} s.matrix k).slog
    flushUnits (flushSlab a (k / 32) (tget {} s.vector k).slog) ks

/-- Whether any channel holds a drop or any queue a command. -/
def residue (s : State) : Bool := !s.chans.isEmpty || s.units.any fun e => !e.2.queue.isEmpty

/-- Leftovers are discarded: RESIDUE and DEFECTIVE (R69). -/
def discardResidue (s : State) : State :=
  if residue s then
    let s1 := creditAll s (inSpans s)
    raiseCond { s1 with
      chans := []
      units := s1.units.filterMap fun e => let u := { e.2 with queue := [] }; if u = {} then none else some (e.1, u)
      step := { s1.step with defective := true } } 7
  else s

/-- LOCAL_END (R67 events 6 and 7). -/
def execLocalEnd (s : State) : Out :=
  .next (
    if s.step.running && !s.step.voided && !s.step.localEnded && allRetired s then
      let s1 := flushUnits s (s.matrix.map Prod.fst ++ s.vector.map Prod.fst)
      let s2 := { s1 with step := { s1.step with strokes := strokeLength s1, localEnded := true } }
      discardResidue (sendCommits (logDispatch s2))
    else s)

/-! ### Commit (R67 event 9) -/

/-- The sheet's replay level, 0 for a native one. -/
def liveLevel (s : State) : BitVec 8 := match s.sheets.live with | some sh => if sh.isNative then 0 else sh.level | none => 0

/-- The 280 bytes of a step seal (R236). -/
def stepSeal (s : State) (r : StepRecord) : Bytes :=
  let d := s.serv.current.getD (idleRecord s)
  let emit := if isHead s then memRead s (cfg s offEmitAddr 47 0) 512 else []
  let core := [0x53, 0x45, 0x41, 0x4C, 1, 0, 1, liveLevel s] ++ bytesOf 8 r.step ++ [r.status, 0] ++ bytesOf 2 r.mask
    ++ natLe 2 s.sec.position.toNat ++ natLe 2 (s.sec.devices.toNat - 1) ++ bytesOf 32 (liveDigest s)
    ++ sm3Bytes (descBytes d ++ memRead s (cfg s offLaneTable 47 0) 4096)
    ++ (if isHead s then sm3Bytes emit else List.replicate 32 0) ++ bytesOf 32 (liveManifestDigest s)
  let obs := bytesOf 8 s.boot.deviceId ++ natLe 4 (min r.strokes.toNat (2 ^ 32 - 1)) ++ bytesOf 4 r.wallNs ++ bytesOf 8 r.launchS
    ++ bytesOf 4 r.launchNs ++ natLe 4 0
  let t := signedTail s core obs
  core ++ t.1 ++ t.2 ++ obs

/-- The seal of a committed step, if the plot asks for them (R236). -/
def addStepSeal (s : State) (r : StepRecord) : State :=
  if s.sec.stepSeals then { s with step := { s.step with seals := (s.step.seals ++ [stepSeal s r]).drop (s.step.seals.length + 1 - 256) } }
  else s

/-- STEP_COMMIT (R67 events 8 and 9, R70): what arrived since local end and was not taken is residue too (log 22). -/
def execStepCommit (s : State) : Out :=
  .next (
    if s.step.running && s.step.localEnded && commitsComplete s then
      let s1 := discardResidue s
      let mask := s1.step.conds ||| s1.step.kept
      let r := stepRecord s1 mask s1.step.strokes (wallSince s1)
      let s2 := commitServing { s1 with mem := overlayMerge s1.mem s1.overlay, overlay := [] }
      let s3 := keepRecord (addStepSeal s2 r) r
      ckptAtEnd (afterStep s3) true
    else s)

/-! ### Void and re-execution (R71, R73) -/

/-- The drops that a re-execution fills in again from RETAIN hold no credit (R304). -/
def unpaid (s : State) : List (Nat × Nat × Nat) → State
  | [] => s
  | (ch, k, sc) :: t =>
    let n := (tget [] s.step.retained ch).length
    unpaid (if n = 0 then s else modSub s k fun b => { b with fifo := tset [] b.fifo sc [(n, 0, false)] }) t

/-- The step is voided: units stop, void grains go out, what it did is discarded (R71 steps 1 to 3). -/
def voidStep (s : State) : State :=
  let s1 := eachOut s voidOut (outSpans s)
  let s2 := resetUnits (unpaid (creditAll s1 (inSpans s1)) (inSpans s1))
  endHalts { s2 with overlay := [], step := { s2.step with voided := true, localEnded := false } }

/-- The WEIGHT allocation entry that holds an address, if any. -/
def weightAt (s : State) (a : Nat) : Option Alloc := (liveAllocs s).find? fun e => e.kind == 2 && inEntry a 1 e

/-- STEP_VOID (R71): byte parity fails on a read; a second time the step fails. -/
def execStepVoid (addr : DevAddr) (s : State) : Out :=
  let a := addr.toNat
  .next (
    if s.step.running && !s.step.voided && !s.step.localEnded then
      let w := (weightAt s a).isSome
      let failing := decide (1 ≤ s.step.ownVoids)
      let s1 := logEv s {
        cls := clsMemory, cause := 1, loc := BitVec.ofNat 64 a, a0 := BitVec.ofNat 64 s.step.attempts.toNat
        a1 := BitVec.ofNat 64 (b2n w), die := addrDie a, suspect := if failing then some 0 else none }
      if failing then failHere s1 3
      else
        voidStep { s1 with step := { s1.step with
          ownVoids := s1.step.ownVoids + 1, kept := s1.step.kept ||| 4, reload := if w then some a else none } }
    else s)

/-- A WEIGHT region's block is reloaded from its backing copy (R71 step 4). -/
def reloadBlock (s : State) (a : Nat) : State :=
  match backingBlock s a with
  | some e => fillTarget s e
  | none =>
    match s.load.liveManifest with
    | none => s
    | some m => fillAnchors s (m.blocks.filter (keepsBlock s))
        (m.blocks.filter fun e => keepsBlock s e && e.kind == 1 && decide (e.anchor.toNat ≤ a) && decide (a < e.anchor.toNat + 128))

/-- Inbound channels are filled again from the RETAIN copies. -/
def refill (s : State) : List (Nat × List Drop) → State
  | [] => s
  | (ch, ds) :: t => refill (setChan s ch ds) t

/-- STEP_REEXECUTE (R71 step 5): every unit stands at stroke 0 whatever a debug write did meanwhile (R88, R102, R109, R172), and only what arises in the final execution enters the record. -/
def execStepReexecute (s : State) : Out :=
  .next (
    if s.step.running && s.step.voided then
      let s0 := resetUnits s
      let s1 := match s.step.reload with | some a => reloadBlock s0 a | none => s0
      refill { s1 with step := { s1.step with
        voided := false, reload := none, conds := 0, attempts := s1.step.attempts + 1, skips := 0, firstSkip := 0, defective := false
        saturated := false, localEnded := false, strokes := 0, consumed := [], dispatchDrops := 0, dispatchUnit := none, notes := [] } }
        s1.step.retained
    else s)

/-- A VOID grain for sender step `t` (R73, R305). -/
def voidOn (s : State) (k sc : Nat) (t : BitVec 64) : State :=
  let r := t + BitVec.ofNat 64 (lagOf s k sc)
  let gone := (getSub s k).waitPool.filter fun e => e.1 == sc && e.2.1 == r
  let s0 := modSub s k fun b => { b with waitPool := b.waitPool.filter fun e => !(e.1 == sc && e.2.1 == r) }
  let s1 := freeBuffer (gone.foldl (fun s _ => discardDrops s k sc) s0) k 1
  match inSpanChan s1 k sc with
  | none => s1
  | some ch =>
    if s1.step.running = true ∧ r = s1.step.number then
      let s2 := creditLeft (setChan { s1 with step := { s1.step with
        retained := tset [] s1.step.retained ch [], carried := s1.step.carried.filter (· != spanKey k sc) } } ch []) k sc
      if s1.step.consumed.contains (spanKey k sc) && !s1.step.voided then voidStep { s2 with step := { s2.step with upstreamVoid := true } }
      else s2
    else s1

/-! ### Other ends (R75, R76, R330) -/

/-- Wait locator of a unit (R452). -/
def waitLocator (k : Nat) (u : UnitSt) : BitVec 32 :=
  let core := if k < 2048 then k / 32 else k - 2048
  let tile := if k < 2048 then (if k % 32 = 31 then 0x1F else k % 32) else 0x1E
  let on := match u.waiting with
    | some (.channel ch) => ch
    | some (.fullQueue j) => 2 ^ 14 + j % 32
    | some .emptyQueue => 2 ^ 14
    | _ => 0
  BitVec.ofNat 32 (core + tile * 64 + on % 2 ^ 15 * 2 ^ 11)

/-- A unit that has not retired waits. -/
def waits (k : Nat) (u : UnitSt) : Bool := u.waiting.isSome && !(k < 2048 && k % 32 == 31 && u.ended)

/-- Waiting units, in the order of R452; an engine done with the step does not wait once its core's scribe has ended. -/
def waitingUnits (s : State) : List (Nat × UnitSt) :=
  s.units.filter fun e => waits e.1 e.2 &&
    !(e.2.waiting == some .emptyQueue && (getUnit s (scribeKey (e.1 / 32))).ended)

/-- The first 64 waiting units are logged. -/
def logWaiting (s : State) : List (Nat × UnitSt) → State
  | [] => s
  | (k, u) :: t =>
    logWaiting (logEv s { cls := clsStep, cause := 0x11, loc := BitVec.ofNat 64 (waitLocator k u).toNat, die := unitDie k }) t

/-- WATCHDOG_EXPIRY (R76, R426): not while the plot is in dry hold or the device holds a halted unit. -/
def execWatchdogExpiry (s : State) : Out :=
  .next (
    if s.step.running && !dryHold s && !anyHalted s then
      let w := waitingUnits s
      let s1 := logWaiting s (w.take 64)
      failHere { s1 with step := { s1.step with
        waiting := BitVec.ofNat 32 w.length, firstWait := match w with | (k, u) :: _ => waitLocator k u | [] => 0 } } 6
    else s)

/-- An uncorrectable read fails the running step (R75, R330). -/
def failUncorrectable (s : State) : State := failHere s 8

/-! ### Boundary (R158, R159) -/

/-- The value of a parameter slot for step `n` from its patch entry (R158). -/
def patchValue (s : State) (n : BitVec 64) (e : BitVec 128) : BitVec 64 :=
  let v := e.toNat
  let arg := bitsOf v 31 16
  let base := BitVec.ofNat 64 (bitsOf v 127 64)
  match bitsOf v 3 0 with
  | 1 => base
  | 2 => base + n
  | 3 => base + BitVec.ofNat 64 (n.toNat % arg * bitsOf v 63 32)
  | 4 => base + (match s.serv.current with | some d => d.words.getD arg 0 | none => 0)
  | 5 => base + (if arg = 0 then BitVec.ofNat 64 s.sec.position.toNat else if arg = 1 then BitVec.ofNat 64 s.sec.devices.toNat
      else BitVec.ofNat 64 s.sec.plot.toNat)
  | _ => 0

/-- Every slot of a core. -/
def patchSlots (s : State) (n : BitVec 64) (c : Nat) : Tbl (BitVec 64) :=
  (List.range 64).foldl (fun t i => tset 0 t i (patchValue s n ((liveCore s c).patch.getD i 0))) []

/-- R159 event 5: the slots of every scribe context. -/
def patchCores (s : State) (n : BitVec 64) : List Nat → State
  | [] => s
  | c :: cs => patchCores { s with scribes := tmod {} s.scribes c fun x => { x with p := patchSlots s n c } } n cs

/-- A pending flip takes effect (R81, R159 event 3). -/
def applyFlip (s : State) : State :=
  if s.sheets.flipPending then
    { s with sheets := { s.sheets with
        live := s.sheets.shadow, shadow := s.sheets.live, liveSlot := s.sheets.liveSlot + 1, shadowValid := false, flipPending := false } }
  else s

/-- The plot's launch logic runs. -/
def launching (s : State) : Bool := s.launch.state == .committed || s.launch.state == .running

/-- The step before failed, or there was none. -/
def prevFailed (s : State) : Bool := s.launch.nextStep == 0 || (s.step.lastMask &&& failMask) != 0

/-- The head has the room that R351 asks for. -/
def hasRoom (s : State) : Bool := !isHead s || (tokenRoom s && sealRoom s)

/-- The device has all that R276 asks for at this time; the head is ready once it has room too (R351). -/
def markReady (s : State) : State :=
  if hasRoom s then { s with launch := { s.launch with ready := some s.time.now, short := false } }
  else { s with launch := { s.launch with ready := none, short := true } }

/-- Room has come free: a head that waited for it is ready now (R351). -/
def roomCame (s : State) : State := if s.launch.short && hasRoom s then markReady s else s

/-- R159 events 4 to 6: the descriptor, the slots, and the device is ready, unless a follower still waits for its record. -/
def finishBoundary (s : State) : State :=
  if !launching s || s.step.running || !s.launch.boundaryDone || s.launch.ready.isSome || s.launch.short then s
  else if isFollower s && (recordFor s).isNone && !prevFailed s then s
  else
    let s1 := if isHead s then headDescriptor s else if isFollower s then takeRecord s (prevFailed s) else s
    let s2 := patchCores s1 s1.launch.nextStep (List.range 64)
    if s2.launch.reloading then { s2 with launch := { s2.launch with ready := none } } else markReady s2

/-- EPOCH_RELOAD_DONE (R220, R221): the WEIGHT regions hold the new epoch, and the marker step may launch. -/
def execEpochReloadDone (s : State) : Out :=
  .next (
    if s.launch.reloading then
      let s1 := reloadWeights { s with launch := { s.launch with reloading := false, ready := none } }
      if s1.launch.boundaryDone && launching s1 then markReady s1 else s1
    else s)

end Sys2Proof.Machine
end

