-- ==== Sys2Proof/Machine/Memc.lean ====
section
/-! DEFINITION. The memory controllers: step-down, thermal and retrain faults, patrol, rate changes, uncorrectable reads (R317-R333). -/

namespace Sys2Proof.Machine

/-! ### Stacks (R320) -/

/-- A stack's rate changes by a region stop, and is logged. -/
def stackRate (s : State) (k : Nat) (tempC : BitVec 8) (down : Bool) : State :=
  logEv (modStack s k fun x =>
    { x with tempC, steppedDown := down, rateMbps := if down then 8000 else 10000, stopping := true })
    { cls := clsMemory, cause := 5, loc := BitVec.ofNat 64 k, a0 := BitVec.ofNat 64 (b2n down), die := k / 2 }

/-- A stack sensor is read. -/
def stackTemp (s : State) (k : Nat) (tempC : BitVec 8) : State := modStack s k fun x => { x with tempC }

/-- STACK_STEP_DOWN (R320): at 95 °C or more. -/
def execStackStepDown (k : BitVec 3) (tempC : BitVec 8) (s : State) : Out :=
  .next (if 95 ≤ tempC.toNat ∧ (getStack s k.toNat).steppedDown = false then stackRate s k.toNat tempC true else stackTemp s k.toNat tempC)

/-- STACK_STEP_UP (R320): at 85 °C or less. -/
def execStackStepUp (k : BitVec 3) (tempC : BitVec 8) (s : State) : Out :=
  .next (if tempC.toNat ≤ 85 ∧ (getStack s k.toNat).steppedDown = true then stackRate s k.toNat tempC false else stackTemp s k.toNat tempC)

/-! ### DDR channels (R325, R327, R330) -/

/-- DDR_THERMAL (R325): the channel goes out of service at the next boundary. -/
def execDdrThermal (m : BitVec 3) (s : State) : Out := .next (disableSoon s m.toNat causeThermal)

/-- A retrain in service has failed (R325): a running step with an entry on the channel fails with it. -/
def retrainFailed (s : State) (m : Nat) : State :=
  if (getDdr s m).state ≠ 2 then s
  else if s.step.running && !(moverList s m).entries.isEmpty then
    failUncorrectable (modDdr s m fun k => { k with disableAt := some causeRetrain })
  else disableDdr s m causeRetrain

/-- DDR_RETRAIN (R330): a retrain after eight failed writes; a good one costs wall time only. -/
def execDdrRetrain (m : BitVec 3) (ok : Bool) (s : State) : Out := .next (if ok then s else retrainFailed s m.toNat)

/-- Data rate of a RATE_REQ code, in MT/s. -/
def rateOf (r : Nat) : Nat := if r = 0 then 8800 else if r = 1 then 8000 else 7200

/-- RATE_REQ is written with the rest of DDR[m].CTL unchanged (R327). -/
def rateReqOn (s : State) (m r : Nat) : State :=
  let d := getDdr s m
  let note (s : State) (v : Nat) := logEv s { cls := clsMemory, cause := 7, loc := BitVec.ofNat 64 m, a0 := BitVec.ofNat 64 v, die := m / 2 }
  if 3 ≤ r ∨ tb d.trains.toNat r = false then note s r
  else
    let s1 := putField s (offDdrCtl m) 33 32 r
    if d.state ≠ 2 ∨ d.rateMts.toNat = rateOf r then s1
    else modDdr s1 m fun k => { k with rateMts := BitVec.ofNat 14 (rateOf r), stopping := true }

/-- RATE_REQ (R327). -/
def execRateReq (m : BitVec 3) (rate : BitVec 2) (s : State) : Out := .next (rateReqOn s m.toNat rate.toNat)

/-! ### Patrol (R331) -/

/-- Hours per patrol pass of the memory that holds an address; 0 turns patrol off. -/
def patrolHours (s : State) (a : Nat) : Nat :=
  match decodeAddr a with
  | .stack pc _ => cfg s (offStackCtl (pc / 64)) 7 0
  | .dimm m _ => if backed s a then cfg s (offDdrCtl m) 7 0 else 0
  | _ => 0

/-- A read of anyone that came out corrected: its data is right, and it is counted (R330, R331). -/
def readCorrected (s : State) (a : Nat) : State := correctedRow (countError s a false) a

/-- PATROL_READ (R330, R331). -/
def execPatrolRead (addr : DevAddr) (outcome : ReadOutcome) (s : State) : Out :=
  let a := addr.toNat
  .next (
    if patrolHours s a = 0 then s
    else match outcome with
      | .clean => s
      | .corrected => readCorrected s a
      | .uncorrectable => noteUncorrectable s a 7 0)

/-! ### Reads by requester (R330, R331, R450) -/

/-- The step that read fails; a reload that was to precede a re-execution is given up. -/
def stepReadFails (s : State) : State := failUncorrectable s

/-- The prompt of a slot cannot be read (R330, R358). -/
def promptFails (s : State) (slot : Nat) : State :=
  if (getSlot s slot).state = .free then s else modSlot s slot fun v => { v with promptBad := true }

end Sys2Proof.Machine
end

