-- ==== Sys2Proof/Machine/RegRead.lean ====
section
/-! DEFINITION. What a read of control space returns (R39 and the register maps R30, R77, R190, R192, R210, R247, R257, R262, R279,
R293, R333, R345, R371, R373, R399, R418, R428), by aligned 8-byte words; unlisted offsets and write-only fields read 0. -/

namespace Sys2Proof.Machine

/-- Fields laid side by side: value and lowest bit. -/
def pack (fs : List (Nat × Nat)) : Nat := fs.foldl (fun a f => a + f.1 * 2 ^ f.2) 0

/-- Word `i` of a 256-bit register. -/
def word64 (v : BitVec 256) (i : Nat) : Nat := bitsOf v.toNat (64 * i + 63) (64 * i)

/-- The 8-byte word of two 4-byte registers. -/
def pair32 (f : Nat → Nat) (n : Nat) : Nat := f n % 2 ^ 32 + f (n + 1) % 2 ^ 32 * 2 ^ 32

/-- Whether an offset lies in `n` registers of a stride from a base. -/
def inArr (o base stride n : Nat) : Bool := decide (base ≤ o) && decide (o < base + stride * n)

/-! ### ID (R30, R371) -/

/-- ID.CORE_MAP word of ruled core `n` of the ruling. -/
def coreMapWord (s : State) (n : Nat) : Nat := if n < 64 then (tget 0 s.boot.coreMap n).toNat else 0

/-- ID.PORT_MAP word of span port `n`. -/
def portMapWord (s : State) (n : Nat) : Nat := if n < 50 then (tget {} s.ports n).group.toNat else 0

/-- ID.PART (R30). -/
def idPart : Nat := 0x4816 + Config.stepping.toNat * 2 ^ 16 + 2 ^ 24

/-- ID.GRADE (R30). -/
def idGrade (s : State) : Nat :=
  let b := s.boot
  pack [(b.shipped.toNat, 0), (b.effective.toNat, 2), (b2n b.portsShifted, 4), (b2n b.fieldRetired, 5), (b.coresInService.toNat, 8)]

def getFw (s : State) (t : Nat) : FwSt := tget {} s.boot.fw t

/-- Target `t` is in trial. -/
def inTrial (s : State) (t : Nat) : Bool := tb s.boot.hdrTrial.toNat t

/-- A target is in trial. -/
def anyTrial (s : State) : Bool := s.boot.hdrTrial != 0

/-- ID.UPDATE (R371). -/
def idUpdate (s : State) : Nat :=
  match s.boot.update with
  | some u => pack [(1, 0), (u.target.toNat, 2), (u.applied.length % 2 ^ 17, 5)]
  | none => if anyTrial s then pack [(2, 0), (Nat.log2 s.boot.hdrTrial.toNat, 2)] else 0

def readId (s : State) (o : Nat) : Nat :=
  let b := s.boot
  if o = 0 then idPart
  else if o = 8 then b.deviceId.toNat
  else if o = 0x10 then idGrade s
  else if inArr o 0x100 4 64 then pair32 (coreMapWord s) ((o - 0x100) / 4)
  else if inArr o 0x200 4 50 then pair32 (portMapWord s) ((o - 0x200) / 4)
  else if o = 0x400 then
    pack [(b.flashMode.toNat, 0), (b.loamFormat.toNat, 2), (b.loamSlot.toNat, 6), (b2n b.loamDefaults, 7), (b2n (tb b.hdrLoam.toNat 0), 8),
      (b.bootMs.toNat, 16)]
  else if inArr o 0x408 8 4 then
    let t := (o - 0x408) / 8
    let f := getFw s t
    pack [(f.version.toNat, 0), (f.bank.toNat, 32), (b2n (inTrial s t), 33), (if inTrial s t then b.hdrTries.toNat % 4 else 0, 34)]
  else if o = 0x428 then idUpdate s
  else 0

/-! ### MBOX (R345, R373) -/

/-- The cause of bedrock mode, 0 outside it. -/
def bedrockCause (s : State) : Option Nat := match s.boot.phase with | .bedrock c => some c.toNat | _ => none

/-- The bedrock registers and buffer (R373); 0 in normal service. -/
def readBedrock (s : State) (o : Nat) : Nat :=
  match bedrockCause s with
  | none => 0
  | some c =>
    if o = 0x4000 then pack [(1, 0), (c, 1), (b2n s.boot.idOk, 5), (s.boot.bedError.toNat, 8)]
    else if o = 0x4010 then word64 (cfgReg s offBedrockArg) 0
    else if inArr o 0x4018 8 4 then word64 (cfgReg s offBedrockDigest) ((o - 0x4018) / 8)
    else if inArr o 0x80000 8 65536 then leNat (readRun 0 s.boot.bedBuf (o - 0x80000) 8)
    else 0

def readMbox (s : State) (o : Nat) : Nat :=
  let m := s.mbox
  if o = 0 then pack [(s.boot.fwIf.toNat, 0), (s.boot.fwIfMin.toNat, 8), (16, 16), (256, 24)]
  else if o = 8 then pack [(m.link.toNat, 0), (m.width.toNat, 2), (m.retrains.toNat, 16)]
  else if o = 0x10 then cfg s offLinkCfg 63 0
  else if o = 0x18 then m.irq.toNat
  else if o = 0x20 then cfg s offIrqEnable 63 0
  else if o = 0x28 then pack [(m.tokTail.toNat, 0), (m.tokHead.toNat, 32)]
  else if inArr o 0x2000 16 16 then
    let r := (o - 0x2000) / 16
    let q := getRing s r
    if (o - 0x2000) % 16 = 0 then
      pack [(q.nextSeq.toNat, 0), (b2n q.stalled, 32), (b2n q.waiting, 33), (q.pend.length % 2 ^ 16, 34)]
    else cfg s (offRingCfg r) 63 0
  else readBedrock s o

/-! ### TBASE (R247, R257) -/

def readTbase (s : State) (o : Nat) : Nat :=
  let t := s.time
  let sub (v : TimeVal) := v.acc.toNat / 2 ^ 16
  if o = 0 then t.now.sec.toNat
  else if o = 8 then t.latched.toNat
  else if o = 0x10 then t.incr.toNat
  else if o = 0x18 then pack [(t.offsetAmount.toNat, 0), (b2n t.offsetPending, 63)]
  else if o = 0x20 then t.setSec.toNat
  else if o = 0x28 then pack [(t.setSub.toNat, 0), (b2n t.setGo, 63)]
  else if o = 0x30 then cfg s offTbaseCtl 63 0
  else if o = 0x38 then
    pack [(b2n t.refAok, 0), (b2n t.refBok, 1), (t.refSel.toNat, 2), (b2n t.holdover, 3), (b2n t.timeValid, 4), (t.ppsState.toNat, 5),
      (b2n t.relock, 7)]
  else if o = 0x40 then t.bound.toNat
  else if o = 0x48 then t.servo.toNat
  else if o = 0x50 then t.ppsTs.sec.toNat
  else if o = 0x58 then sub t.ppsTs
  else if o = 0x60 then pack [(t.ppsAccepted.toNat, 0), (t.ppsRejected.toNat, 32)]
  else if o = 0x68 then cfg s offPtpCfg 63 0
  else if inArr o 0x10000 0x100 50 then
    let n := (o - 0x10000) / 0x100
    let u := (o - 0x10000) % 0x100 / 0x20
    let p := tget {} s.ptp (subKey n u)
    let r := o % 0x20
    if r = 0 then cfg s (offPtpPort n u) 63 0
    else if r = 8 then cfg s (offPtpPort n u + 8) 63 0
    else if r = 0x10 then p.meanPs.toNat
    else pack [(p.rxEvent.toNat, 0), (p.discarded.toNat, 32)]
  else 0

/-! ### PACE (R279) -/

def readPace (s : State) (o : Nat) : Nat :=
  let p := s.pace
  if o < 0x20 then cfg s (offPace + o) 63 0
  else if o = 0x20 then
    pack [(p.railMv.toNat, 0), (b2n (p.railMv.toNat == cfg s offPaceLimits 19 10), 10), (b2n p.powerLimited, 11), (b2n p.thermalLimited, 12),
      (b2n p.slow, 13), (b2n p.avsFault, 14), (p.lateRun.toNat, 16)]
  else if o = 0x28 then pack [(p.powerW.toNat, 0), (p.tjC.toNat, 16)]
  else 0

/-! ### LAUNCH (R77, R262) -/

/-- LAUNCH.STATE code. -/
def launchCode : LaunchState → Nat
  | .idle => 0
  | .armed => 1
  | .committed => 2
  | .running => 3
  | .held => 4

/-- The next launch tick, in ns; 0 while none is due. -/
def nextTick (s : State) : Nat := if launching s then tickNsOf s s.launch.nextStep else 0

/-- TREE registers of tree `a` (R262). -/
def readTree (s : State) (a i : Nat) : Nat :=
  let kids := treeChildren s a
  if i = 0 then
    let p := match treeParent s a with | some k => k / 8 + k % 8 * 64 | none => 0x3F
    pack [(p, 0), (if kids = [] then 0 else Config.treeHeight s.sec.topoDigest a % 256, 16), (kids.length % 256, 24)]
  else match kids[i - 1]? with
    | some k => pack [(k / 8, 0), (k % 8, 6), (1, 15)]
    | none => 0

/-- LIVE_DIGEST and SHADOW_DIGEST (R77). -/
def shadowDigest (s : State) : Digest :=
  if s.sheets.shadowValid then (match s.sheets.shadow with | some sh => sh.digest | none => 0) else 0

def readLaunch (s : State) (o : Nat) : Nat :=
  let l := s.launch
  let t := s.step
  if o = 0 then pack [(launchCode l.state, 0), (b2n l.paced, 3), (b2n l.root, 4), (b2n l.censusOk, 5)]
  else if o = 8 then l.armRec.job.toNat
  else if o = 0x10 then l.armRec.firstStep.toNat
  else if o = 0x18 then l.armRec.stopStep.toNat
  else if o = 0x20 then l.armRec.periodNs.toNat
  else if o = 0x28 then l.startS.toNat
  else if o = 0x30 then l.startNs.toNat
  else if o = 0x38 then l.shiftNs.toNat
  else if o = 0x40 then nextTick s / 1000000000
  else if o = 0x48 then nextTick s % 1000000000
  else if inArr o 0x50 8 3 then cfg s (offLaunch + o) 63 0
  else if o = 0x68 then if l.root then pack [(l.censusA.armed.toNat, 0), (l.censusA.refused.toNat, 32)] else 0
  else if o = 0x70 then if l.root then pack [(l.censusB.armed.toNat, 0), (l.censusB.refused.toNat, 32)] else 0
  else if o = 0x78 then
    if l.root then
      pack [(l.censusA.reasons.toNat % 256, 0), (l.censusB.reasons.toNat % 256, 8),
        (min l.censusA.firstRefused.toNat l.censusB.firstRefused.toNat, 32)]
    else (2 ^ 32 - 1) * 2 ^ 32
  else if inArr o 0x10000 8 51 then readTree s 0 ((o - 0x10000) / 8)
  else if inArr o 0x10200 8 51 then readTree s 1 ((o - 0x10200) / 8)
  else if inArr o 0x20000 32 256 then
    let i := (o - 0x20000) / 32
    (match l.late.find? fun e => e.1 == i with | some e => leNat (slice (lateBytes e.2) (o % 32) 8) | none => 0)
  else if o = 0x30000 then pack [(l.lateCount.toNat, 0), (l.ownLate.toNat, 32)]
  else if o = 0x30008 then l.maxLate.toNat
  else if o = 0x80000 then
    pack [(cfg s offStepCtl 23 0, 0), (s.sheets.liveSlot.toNat, 24), (b2n s.sheets.shadowValid, 25), (b2n s.sheets.flipPending, 26),
      (b2n (dryHold s), 27)]
  else if o = 0x80008 then t.lastEnded.toNat
  else if o = 0x80010 then pack [(t.lastStatus.toNat, 0), (t.lastMask.toNat, 8), (t.lastAttempts.toNat, 24)]
  else if o = 0x80018 then t.lastStrokes.toNat
  else if o = 0x80020 then t.lastSkips.toNat
  else if inArr o 0x80040 8 4 then word64 (liveDigest s) ((o - 0x80040) / 8)
  else if inArr o 0x80060 8 4 then word64 (shadowDigest s) ((o - 0x80060) / 8)
  else 0

/-! ### SPANn (R293) -/

def readSub (s : State) (n u r : Nat) : Nat :=
  let b := getSub s (subKey n u)
  if r = 0 then pack [(linkCode b.state, 0), (b2n b.narrowing, 3), (b.width.toNat, 4), (b2n b.pen, 8), (b.lanes.toNat, 16)]
  else if r = 8 then b.partnerId.toNat
  else if r = 0x10 then pack [(b.partnerPort.toNat, 0), (b.partnerSub.toNat, 6), (b.partnerPlot.toNat, 16)]
  else if r = 0x18 then pack [(b.txNext.toNat, 0), (b.txAcked.toNat, 32)]
  else if r = 0x20 then b.rxExpect.toNat
  else if r = 0x28 then cfg s (offSubMac n u) 63 0
  else if r = 0x30 then b.peerMac.toNat
  else if r = 0x40 then pack [(b.crcDrops.toNat, 0), (b.replays.toNat, 32)]
  else if r = 0x48 then pack [(b.retrains.toNat, 0), (b.narrowings.toNat, 16), (b.blots.toNat, 32), (b.miswires.toNat, 48)]
  else if r = 0x50 then pack [(b.plotReject.toNat, 0), (b.otherReject.toNat, 32)]
  else 0

def readSpan (s : State) (n o : Nat) : Nat :=
  let p := tget {} s.ports n
  if o = 0 ∨ o = 8 ∨ o = 0x18 then cfg s (offSpan n + o) 63 0
  else if o = 0x10 then p.dryMs.toNat
  else if o = 0x20 then pack [(p.termFault.toNat, 0), (p.inverted.toNat, 8), (b2n p.reversed, 16)]
  else if inArr o 0x1000 0x100 8 then readSub s n ((o - 0x1000) / 0x100) (o % 0x100)
  else 0

/-! ### LEDGER and SIEVE (R190, R192, R210) -/

/-- Entries of a folio table in a state. -/
def folioCount (t : Tbl Folio) (st : BitVec 8) : Nat := (t.filter fun e => e.2.state == st).length

def readLedger (s : State) (o : Nat) : Nat :=
  let v := s.serv
  if o < 0x100000 then leNat (slice (slotBytes (getSlot s (o / 128))) (o % 128) 8)
  else if inArr o 0x100000 8 6 then cfg s (offLedger + o) 63 0
  else if o = 0x100030 then
    pack [((v.slots.filter fun e => e.2.state != .free).length, 0), (folioCount v.folios 1, 14), (folioCount v.folios 2, 37)]
  else if o = 0x100040 then pack [(v.live.toNat, 0), (v.stagedE.toNat, 32)]
  else if o = 0x100048 then pack [(cfg s offEpochCtl 7 0, 0), (b2n v.switching, 8), (cfg s offEpochCtl 47 16, 16)]
  else if inArr o 0x100100 8 8 then
    let c := (o - 0x100100) / 8
    pack [(cfg s (offClass c) 31 0, 0), (deficitOf s c, 32)]
  else if o = 0x100200 then cfg s offPolicy 63 0
  else 0

def readSieve (s : State) (o : Nat) : Nat :=
  let v := s.serv
  if o = 0 then pack [(cfg s offSieveCtl 0 0, 0), (sieveUsable s, 1)]
  else if o = 8 then v.hits.toNat
  else if o = 0x10 then v.misses.toNat
  else if o = 0x18 then v.collisions.toNat
  else if o = 0x20 then v.evictions.toNat
  else 0

/-! ### MEMC (R333) -/

/-- Channels in service. -/
def activeChannels (s : State) : List Nat := (List.range 8).filter fun m => (getDdr s m).state == 2

def readMemc (s : State) (o : Nat) : Nat :=
  if inArr o 0 0x1000 8 then
    let k := getStack s (o / 0x1000)
    let r := o % 0x1000
    if r = 0 then pack [(b2n k.high16, 0), (b2n k.density32, 1), (k.rateMbps.toNat, 2), (b2n k.steppedDown, 16)]
    else if r = 8 then pack [(k.tempC.toNat, 0), (k.repairLeft.toNat, 8), (k.pendingRows.length % 2 ^ 16, 16)]
    else if r = 0x10 then pack [(k.corrected.toNat, 0), (k.uncorrectable.toNat, 32)]
    else if r = 0x18 then pack [(k.lastAddr.toNat, 0), (b2n k.lastUe, 48)]
    else if r = 0x20 then cfg s (offStackCtl (o / 0x1000)) 63 0
    else 0
  else if inArr o 0x10000 0x1000 8 then
    let m := (o - 0x10000) / 0x1000
    let d := getDdr s m
    let r := o % 0x1000
    if r = 0 then pack [(d.state.toNat, 0), (d.cause.toNat, 2), (d.rateMts.toNat, 6), (d.sizeGib.toNat, 20)]
    else if r = 8 then pack [(d.serial.toNat, 0), (d.maker.toNat, 32)]
    else if r = 0x10 then pack [(d.corrected.toNat, 0), (d.uncorrectable.toNat, 32)]
    else if r = 0x18 then pack [(d.lastAddr.toNat, 0), (b2n d.lastUe, 48)]
    else if r = 0x20 then cfg s (offDdrCtl m) 63 0
    else 0
  else if o = 0x20000 then
    pack [((activeChannels s).foldl (fun a m => a + (getDdr s m).sizeGib.toNat) 0, 0), ((activeChannels s).foldl (fun a m => a + 2 ^ m) 0, 12)]
  else 0

/-! ### BLOT (R399) -/

/-- BLOT.CLASS[c].STATUS. -/
def classStatus (s : State) (c : Nat) : Nat :=
  let r := tget {} s.blot.rings c
  pack [(positions r.pinned, 0), (positions r.recent, 8), (r.nextSeq.toNat, 32)]

/-- BLOT.COUNT[c][k]. -/
def countOf (s : State) (c k : Nat) : Nat := (tget 0 s.blot.counts (256 * c + k)).toNat

def readBlot (s : State) (o : Nat) : Nat :=
  let b := s.blot
  if o = 0 then cfg s offBlotCtl 23 0
  else if o = 8 then b.alarm.toNat
  else if o = 0x10 then b.suspect.toNat
  else if inArr o 0x100 0x10 8 then
    let c := (o - 0x100) / 0x10
    if o % 0x10 = 0 then classStatus s c else (tget {} b.rings c).lost.toNat
  else if inArr o 0x1000 0x400 8 then
    let c := (o - 0x1000) / 0x400
    pair32 (countOf s c) ((o - 0x1000) % 0x400 / 4)
  else if o = 0x4000 then cfg s offInbandCfg 63 0
  else if o = 0x4008 then pack [(b.inSent.toNat, 0), (b.inThrottled.toNat, 32)]
  else if o = 0x4010 then pack [(b.inBlotted.toNat, 0), (b.noRoute.toNat, 32)]
  else if o = 0x4018 then cfg s offSinkAddr 63 0
  else if o = 0x4020 then cfg s offSinkPtr 63 0
  else if o = 0x4028 then pack [(b.sinkTail.toNat, 0), (b.sinkDropped.toNat, 32)]
  else if o = 0x5000 then cfg s offOobCfg 63 0
  else if o = 0x5008 then pack [(b.oobQueue.length % 2 ^ 16, 0), (b.oobThrottled.toNat, 32)]
  else 0

/-! ### SEC (R415, R418) -/

/-- KIND then UNIT, as one number (R415). -/
def retireRank (e : RetireEnt) : Nat := ((e.kind * 2 ^ 32 + e.u0) * 2 ^ 32 + e.u1) * 2 ^ 32 + e.u2

/-- A retirement in its place of an ascending list. -/
def insertRetire (e : RetireEnt) : List RetireEnt → List RetireEnt
  | [] => [e]
  | x :: xs => if retireRank e ≤ retireRank x then e :: x :: xs else x :: insertRetire e xs

/-- Measurement RETIRE: the latest entry of each unit in ascending order; absent with none (R415; log 30). -/
def retireMeas (s : State) : Digest :=
  match (retirements s).foldr insertRetire [] with
  | [] => 0
  | es => sm3 (es.flatMap retireBytes)

/-- Measurement `i` (R415). -/
def measOf (s : State) (i : Nat) : Digest :=
  if i = 6 then retireMeas s
  else if i = 9 then liveDigest s
  else if i = 10 then shadowDigest s
  else if i = 11 then modelDigest s s.serv.live
  else if i = 12 then (if s.serv.stagedE = 0xFFFFFFFF then 0 else modelDigest s s.serv.stagedE)
  else if i = 13 then (if s.sec.isOpen then s.sec.topoDigest else 0)
  else tget 0 s.sec.meas i

/-- SEC.FENCE of port `n`. -/
def fenceMask (s : State) (n : Nat) : Nat :=
  (List.range 8).foldl (fun a u => if (getSub s (subKey n u)).fenced then a + 2 ^ u else a) 0

def readSec (s : State) (o : Nat) : Nat :=
  let p := s.sec
  if o = 0 then
    pack [(p.plot.toNat, 0), (b2n p.isOpen, 16), (b2n p.debug, 17), (b2n p.scrubbed, 18), (b2n p.stepSeals, 19), (b2n p.serving, 20)]
  else if o = 8 then pack [(p.position.toNat, 0), (p.devices.toNat, 32)]
  else if o = 0x10 then pack [(p.scrubState.toNat, 0), (p.scrubMs.toNat, 32)]
  else if o = 0x18 then p.quotes.toNat
  else if inArr o 0x100 8 50 then fenceMask s ((o - 0x100) / 8)
  else if inArr o 0x1000 32 14 then word64 (measOf s ((o - 0x1000) / 32)) (o % 32 / 8)
  else 0

/-! ### DBG (R428) -/

/-- Mask of ruled cores with a halted unit. -/
def haltMask (s : State) : Nat :=
  (List.range 64).foldl (fun a c => if (coreUnits c).any fun k => (getUnit s k).halted then a + 2 ^ c else a) 0

def readDbg (s : State) (o : Nat) : Nat :=
  let d := s.dbg
  if o = 0 then
    pack [(b2n d.grant, 0), (if d.grant then d.scope.toNat % 16 else 0, 1), (b2n (anyHalted s), 5), (b2n d.debugWrite, 6),
      (b2n d.policyValid, 7)]
  else if inArr o 0x10 8 2 then bitsOf d.challenge.toNat (64 * ((o - 0x10) / 8) + 63) (64 * ((o - 0x10) / 8))
  else if inArr o 0x20 8 4 then if d.grant then word64 d.holder ((o - 0x20) / 8) else 0
  else if o = 0x48 then haltMask s
  else if inArr o 0x100 16 16 then
    let b := getBp s ((o - 0x100) / 16)
    if o % 16 = 0 then b.ctl.toNat else b.step.toNat
  else if o = 0x200 then d.unitSel.toNat
  else 0

/-! ### The whole of control space (R39) -/

/-- The aligned 8-byte word at an offset of control space; in bedrock mode only the bedrock registers respond (R372). -/
def regWord (s : State) (o : Nat) : Nat :=
  if (bedrockCause s).isSome then (if offMbox ≤ o ∧ o < offTbase then readBedrock s (o - offMbox) else 0)
  else if o < offMbox then readId s o
  else if o < offTbase then readMbox s (o - offMbox)
  else if o < offPace then readTbase s (o - offTbase)
  else if o < offLaunch then readPace s (o - offPace)
  else if o < 0x500000 then readLaunch s (o - offLaunch)
  else if o < offSpan 0 then 0
  else if o < offSpan 50 then readSpan s ((o - offSpan 0) / 0x10000) (o % 0x10000)
  else if o < offLedger then 0
  else if o < offSieve then readLedger s (o - offLedger)
  else if o < offMemc then readSieve s (o - offSieve)
  else if o < offBlot then readMemc s (o - offMemc)
  else if o < offDbg then readBlot s (o - offBlot)
  else if o < offSec then readDbg s (o - offDbg)
  else readSec s (o - offSec)

/-- Byte at an offset of control space. -/
def regByte (s : State) (o : Nat) : Byte := BitVec.ofNat 8 (regWord s (o / 8 * 8) / 2 ^ (o % 8 * 8))

/-- `n` bytes of control space. -/
def regBytes (s : State) (o : Nat) : Nat → Bytes
  | 0 => []
  | n + 1 => regByte s o :: regBytes s (o + 1) n

/-- A read of NOW_S latches NOW_SUB (R247). -/
def latchNow (s : State) : State := { s with time := { s.time with latched := BitVec.ofNat 46 (s.time.now.acc.toNat / 2 ^ 16) } }

/-- A read takes in TBASE.NOW_S. -/
def readsNow (o n : Nat) : Bool := decide (o < offTbase + 8) && decide (offTbase < o + n)

/-- A read of control space has the effect of its registers: one of NOW_S latches NOW_SUB (R247). -/
def regReadEffect (s : State) (o n : Nat) : State := if readsNow o n && !s.time.relock then latchNow s else s

end Sys2Proof.Machine
end

