-- ==== Sys2Proof/Machine/Mapping.lean ====
section
/-! DEFINITION. The loader's mapping from the grade map and the field retirements: cores, lane groups, die-to-die links (R12-R31, R365,
R366, R449). -/

namespace Sys2Proof.Machine

/-! ### Retirements by kind -/

/-- A retirement of a kind names the units given. -/
def retiredUnit (rs : List RetireEnt) (kind u0 u1 u2 : Nat) : Bool :=
  rs.any fun e => e.kind == kind && e.u0 == u0 && e.u1 == u1 && e.u2 == u2

/-! ### Tiles and cores (R13, R365, R449) -/

/-- Place of physical tile `i` among the matrix-capable tiles of COLUMNS. -/
def columnTile (i : Nat) : Option Nat := if i < 12 then some i else if i = 24 then some 12 else if i = 25 then some 13 else none

/-- Faulty columns of a tile: the grade map's and the retired ones. -/
def faultyColumns (g : Bytes) (rs : List RetireEnt) (p i : Nat) : List Nat :=
  match columnTile i with
  | none => []
  | some k =>
    let shipped := (slice g (48 + 2 * (p * 14 + k)) 2).map BitVec.toNat
    let retired := (rs.filter fun e => e.kind == 3 && e.u0 == p && e.u1 == i).map RetireEnt.u2
    ((shipped ++ retired).filter fun c => decide (c < 130)).eraseDups

/-- Physical tile `i` of physical core `p` is disabled. -/
def tileDisabled (g : Bytes) (rs : List RetireEnt) (p i : Nat) : Bool :=
  tb (leNat (slice g (2064 + 4 * p) 4)) i || retiredUnit rs 2 p i 0 || decide (2 < (faultyColumns g rs p i).length)

/-- Dual tiles in service of a core. -/
def dualsIn (g : Bytes) (rs : List RetireEnt) (p : Nat) : List Nat := [24, 25].filter fun i => !tileDisabled g rs p i

/-- Disabled matrix and vector tiles of a core, in ascending ruled order. -/
def needDual (g : Bytes) (rs : List RetireEnt) (p : Nat) : List Nat := (List.range 20).filter (tileDisabled g rs p)

/-- Physical core `p` is in service. -/
def coreIn (g : Bytes) (rs : List RetireEnt) (p : Nat) : Bool :=
  !tb (leNat (slice g 2352 16)) p && !retiredUnit rs 1 p 0 0 && !tb (leNat (slice g (2064 + 4 * p) 4)) 26
    && !([20, 21, 22, 23].any (tileDisabled g rs p)) && decide ((needDual g rs p).length ≤ (dualsIn g rs p).length)

/-- Cores in service of a cluster, in ascending physical position. -/
def clusterIn (g : Bytes) (rs : List RetireEnt) (cl : Nat) : List Nat :=
  ((List.range 9).map fun k => 9 * cl + k).filter (coreIn g rs)

/-! ### Die-to-die links (R17, R365, R366) -/

/-- Faulty lanes of a link in a direction: the grade map's repairs and the retirements together. -/
def linkLanes (g : Bytes) (rs : List RetireEnt) (link dir : Nat) : List Nat :=
  let shipped := ((List.range 32).map fun i => leNat (slice g (2376 + 2 * ((link * 2 + dir) * 32 + i)) 2)).filter (· != 0xFFFF)
  let retired := (rs.filter fun e => e.kind == 8 && e.u0 == link && e.u1 == dir).map RetireEnt.u2
  (shipped ++ retired).eraseDups

/-- A link is short of lanes. -/
def linkShort (g : Bytes) (rs : List RetireEnt) : Bool :=
  (List.range 8).any fun i => decide (32 < (linkLanes g rs (i / 2) (i % 2)).length)

/-! ### The grade (R17, R31) -/

/-- ID.GRADE.EFFECTIVE. -/
def gradeOf (g : Bytes) (rs : List RetireEnt) : Nat :=
  let n := (List.range 8).map fun cl => (clusterIn g rs cl).length
  if linkShort g rs || n.any (· < 7) then 3 else if n.all (8 ≤ ·) then 0 else 1

/-- Ruled tiles that the dual tiles of a core back: those of DUAL0 and DUAL1, 0x1F where unused. -/
def dualsOf (g : Bytes) (rs : List RetireEnt) (p : Nat) : Nat × Nat :=
  let need := needDual g rs p
  if (dualsIn g rs p).contains 24 then (need.getD 0 0x1F, if (dualsIn g rs p).contains 25 then need.getD 1 0x1F else 0x1F)
  else (0x1F, if (dualsIn g rs p).contains 25 then need.getD 0 0x1F else 0x1F)

/-- ID.CORE_MAP of ruled core `n` under an effective grade (R16, R19, R30, R31). -/
def coreMapOf (g : Bytes) (rs : List RetireEnt) (grade n : Nat) : BitVec 32 :=
  let p := (clusterIn g rs (n / 8)).getD (n % 8) 0x7F
  if grade = 3 then BitVec.ofNat 32 (pack [(0x7F, 0), (0x1F, 8), (0x1F, 13)])
  else if grade = 1 ∧ n % 8 = 7 then BitVec.ofNat 32 (pack [(0x7F, 0), (1, 7), (0x1F, 8), (0x1F, 13)])
  else BitVec.ofNat 32 (pack [(p, 0), ((dualsOf g rs p).1, 8), ((dualsOf g rs p).2, 13)])

/-! ### Lane groups (R26, R29) -/

/-- Good lane groups, in ascending order. -/
def goodGroups (g : Bytes) (rs : List RetireEnt) : List Nat :=
  (List.range 52).filter fun i => !tb (leNat (slice g 2368 8)) i && !retiredUnit rs 4 i 0 0

/-- A retirement applies: a unit of the device, or a DIMM that is fitted (R30). -/
def applies (s : State) (e : RetireEnt) : Bool :=
  if e.kind = 7 then (List.range 8).any fun m => (getDdr s m).state != 0 && (getDdr s m).serial.toNat == e.u0
  else decide (1 ≤ e.kind) && decide (e.kind ≤ 8)

/-- Span ports take the good groups. -/
def mapPorts (t : Tbl PortSt) (good : List Nat) : List Nat → Tbl PortSt
  | [] => t
  | n :: ns => mapPorts (tmod {} t n fun p => { p with group := BitVec.ofNat 6 (good.getD n 0x3F) }) good ns

/-- A port without a lane group is not enabled (R29). -/
def disablePorts (s : State) : List Nat → State
  | [] => s
  | n :: ns => disablePorts (if (tget {} s.ports n).group = 0x3F then putField s (offSpanCfg n) 4 4 0 else s) ns

/-- Boot event 11: the ruling is mapped and the ID block set (R15-R19, R26, R30). -/
def mapDevice (s : State) : State :=
  let g := gradeMap s
  let rs := retirements s
  let grade := gradeOf g rs
  let good := goodGroups g rs
  disablePorts { s with
    ports := mapPorts s.ports good (List.range 50)
    boot := { s.boot with
      shipped := fieldAt 2 g 6 1, effective := BitVec.ofNat 2 grade
      portsShifted := !((List.range 50).all good.contains), fieldRetired := rs.any (applies s)
      coresInService := if grade = 0 then 64 else if grade = 1 then 56 else 0
      clusterCores := (List.range 8).map fun cl => (clusterIn g rs cl).length
      coreMap := (List.range 64).foldl (fun t n => tset 0 t n (coreMapOf g rs grade n)) []
      outOfService := s.boot.outOfService || grade == 3 } } (List.range 50)

end Sys2Proof.Machine
end

