-- ==== Sys2Proof/Machine/LaunchMsgs.lean ====
section
/-! DEFINITION. Arm, census, commit and the flooded notices of a plot (R261-R274, R357). -/

namespace Sys2Proof.Machine

/-! ### Regions that serving asks of a sheet (R194, R214) -/

/-- An owner that is a transfer engine. -/
def ownerTransfer (o : Nat) : Bool := decide (20 ≤ o) && decide (o < 24)

/-- The sheet provides the lane-table region, on the head with the input area, and the emit window there. -/
def servingRegions (s : State) (sh : Sheet) : Bool :=
  let a := cfg s offLaneTable 47 0
  let n := if isHead s then 4096 + 256 * prefillMax s else 4096
  ((sheetAllocs sh).any fun e => e.kind == 1 && !e.write && ownerTransfer e.owner && inEntry a n e) &&
    (!isHead s || (sheetAllocs sh).any fun e => e.kind == 0 && ownerTransfer e.owner && inEntry (cfg s offEmitAddr 47 0) 512 e)

/-! ### ARM (R264-R267) -/

/-- TAG of an arm record. -/
def armTagOf (r : ArmRecord) : BitVec 64 := fieldAt 64 (sm3Bytes (armBytes r)) 0 8

/-- A sub-port that no launch message can take. -/
def portUnfit (s : State) (k : Nat) : Bool :=
  match (getSub s k).state with
  | .miswired => true
  | .fenced => true
  | .down => true
  | .off => true
  | _ => false

/-- The reasons that apply to an ARM (R266), MISMATCH apart. -/
def armReasons (s : State) (digest : Digest) (r : ArmRecord) : Nat :=
  let due : BitVec 64 := if s.step.launchedSinceOpen ∨ s.sec.restored then s.step.lastEnded + 1 else 0
  let sheetBad := match s.sheets.live with
    | none => true
    | some sh => sh.digest != digest || (s.sec.serving && !servingRegions s sh)
  let timeBad := r.mode == 1 && (!s.time.timeValid || decide (cfg s offBoundLimit 31 0 < s.time.bound.toNat))
  let ports := treeNeighbours s 0 ++ treeNeighbours s 1
  bitAt (!(s.launch.state == .idle || s.launch.state == .held)) 0 + bitAt (r.firstStep != due) 1 + bitAt sheetBad 2
    + bitAt (s.serv.live != r.epoch) 3 + bitAt timeBad 4 + bitAt s.sheets.flipPending 5 + bitAt (ports.any (portUnfit s)) 7

/-- The census of a tree. -/
def censusOf (s : State) (a : Nat) : CensusAcc := if a = 0 then s.launch.censusA else s.launch.censusB

def setCensus (s : State) (a : Nat) (c : CensusAcc) : State :=
  if a = 0 then { s with launch := { s.launch with censusA := c } } else { s with launch := { s.launch with censusB := c } }

/-- What the device itself adds to a census: a device whose ARM has not come counts as refused with STATE (R266). -/
def ownCensus (s : State) (c : CensusAcc) : CensusAcc :=
  let pos := s.sec.position
  if c.own then
    if s.launch.refusedWith = 0 then { c with armed := 1, maxBound := s.time.bound }
    else { c with refused := 1, reasons := BitVec.ofNat 32 s.launch.refusedWith.toNat, firstRefused := pos }
  else { c with refused := 1, reasons := 1, firstRefused := pos }

/-- The lesser of two unsigned words. -/
def minW (a b : BitVec 32) : BitVec 32 := if b.toNat < a.toNat then b else a

/-- The greater of two unsigned words. -/
def maxW (a b : BitVec 32) : BitVec 32 := if a.toNat < b.toNat then b else a

/-- A child's census is added; one of another TAG counts its devices as refused with MISMATCH (log 25). -/
def addCensus (tag : BitVec 64) (c : CensusAcc) (m : CensusMsg) : CensusAcc :=
  if m.tag = tag then
    { c with
      armed := c.armed + m.armed, refused := c.refused + m.refused, reasons := c.reasons ||| m.reasons
      firstRefused := minW c.firstRefused m.firstRefused, maxBound := maxW c.maxBound m.maxBound }
  else
    { c with
      refused := c.refused + m.armed + m.refused, reasons := c.reasons ||| 64
      firstRefused := minW c.firstRefused (minW m.firstRefused m.origin) }

/-- The census of a tree succeeded (R267). -/
def censusGood (s : State) (c : CensusAcc) : Bool := c.sent && c.armed == s.launch.armRec.devices && c.refused == 0 && c.reasons == 0

/-- The root completes its ARM with both censuses (R267, R347). -/
def completeArm (s : State) : State :=
  let a := s.launch.censusA
  let b := s.launch.censusB
  match s.launch.armWaiter with
  | none => s
  | some (ring, seq) =>
    if a.sent && b.sent then
      let ok := s.launch.refusedWith == 0 && (censusGood s a || censusGood s b)
      let s1 := { s with launch := { s.launch with censusOk := ok, armWaiter := none } }
      complete s1 ring seq 0x30 (if s.launch.refusedWith = 0 then errOk else errState)
        ([BitVec.ofNat 8 (b2n ok), BitVec.ofNat 8 a.reasons.toNat, BitVec.ofNat 8 b.reasons.toNat, 0] ++ bytesOf 4 a.armed
          ++ bytesOf 4 a.refused ++ bytesOf 4 a.firstRefused ++ bytesOf 4 b.armed ++ bytesOf 4 b.refused ++ bytesOf 4 b.firstRefused
          ++ bytesOf 4 (maxW a.maxBound b.maxBound))
    else s

/-- The device's census of a tree is formed and goes to the parent; the root keeps it. -/
def sendCensus (s : State) (a : Nat) : State :=
  let c := censusOf s a
  let t := c.msgs.foldl (addCensus c.tag) (ownCensus s { c with sent := true })
  let s1 := setCensus s a t
  match treeParent s1 a with
  | none => completeArm s1
  | some k =>
    sendLaunch s1 k {
      hdr := { tree := BitVec.ofNat 8 a, hops := 0, origin := s.sec.position, job := c.job, step := c.first }
      body := .census c.tag t.armed t.refused t.reasons t.firstRefused t.maxBound }

/-- Every child of a tree has been heard. -/
def heardAll (s : State) (a : Nat) : Bool := (treeChildren s a).all fun k => (censusOf s a).heard.contains k

/-- A census goes up once every child is heard and the device's own ARM is in. -/
def tryCensus (s : State) (a : Nat) : State :=
  if (censusOf s a).own && heardAll s a && !(censusOf s a).sent then sendCensus s a else s

/-- A DIGEST of this device for a step goes up both trees; the root keeps its own (R268). -/
def sendDigest (s : State) (step : BitVec 64) : State :=
  if s.sec.position = 0 then { s with launch := { s.launch with digests := tput s.launch.digests 0 (step, liveDigest s) } }
  else
    let m (a : Nat) : LaunchMsg := {
      hdr := { tree := BitVec.ofNat 8 a, hops := 0, origin := s.sec.position, job := s.launch.armRec.job, step }
      body := .digest (liveDigest s) }
    let s1 := match treeParent s 0 with | some k => sendLaunch s k (m 0) | none => s
    match treeParent s1 1 with | some k => sendLaunch s1 k (m 1) | none => s1

/-- The device's own ARM joins the round of a tree, which it begins where the last one is over; a census already sent for this very
launch is the only one (R267). -/
def armRound (r : ArmRecord) (c : CensusAcc) : CensusAcc :=
  if c.sent && !c.own && c.tag == armTagOf r then c
  else { (if c.sent then {} else c) with own := true, tag := armTagOf r, job := r.job, first := r.firstStep }

/-- ARM is served (R266, R347); a root whose ARM still awaits its censuses answers a second one at once (log 25). -/
def serveArm (s : State) (ring : Nat) (seq : BitVec 32) (digest : Digest) (r : ArmRecord) : State :=
  let fin := done s ring seq (.arm digest r)
  if !s.sec.isOpen then fin errState
  else if r.mode.toNat > 1 ∨ (r.mode = 1 ∧ (r.periodNs.toNat < 1000 ∨ 4000000000 < r.periodNs.toNat)) then fin errBadField
  else
    let why := armReasons s digest r
    let isRoot := s.sec.position == 0
    if s.launch.armWaiter.isSome then complete s ring seq 0x30 errState [0, BitVec.ofNat 8 why] else
    let s1 := { s with launch := { s.launch with
      refusedWith := BitVec.ofNat 8 why, root := isRoot, censusOk := false
      censusA := armRound r s.launch.censusA, censusB := armRound r s.launch.censusB
      armWaiter := if isRoot then some (ring, seq) else none } }
    let s2 := if why = 0 then
      sendDigest { s1 with launch := { s1.launch with
        state := .armed, before := s1.launch.state, paced := r.mode == 1, armRec := r, startS := 0, startNs := 0, shiftNs := 0
        nextStep := r.firstStep, ready := none, short := false, boundaryDone := false, prevTick := none, shifted := false, taken := false
        forwardedA := none, forwardedB := none
        ends := s1.launch.ends.filter fun e => decide (r.firstStep.toNat < e.1.toNat + e.2.1.toNat) } } r.firstStep
      else s1
    let s3 := if isRoot then s2
      else if why = 0 then complete s2 ring seq 0x30 errOk []
      else complete s2 ring seq 0x30 errState [0, BitVec.ofNat 8 why]
    completeArm (tryCensus (tryCensus s3 0) 1)

/-- A CENSUS from a child (R267): one of another launch than the round that is over begins the next (log 25). -/
def censusOn (s : State) (k : Nat) (h : LaunchHdr) (m : CensusMsg) : State :=
  let a := h.tree.toNat
  let old := censusOf s a
  let c := if old.sent then {} else old
  if (treeChildren s a).contains k && !c.heard.contains k && !(old.sent && (s.launch.state == .armed || old.tag == m.tag)) then
    let c1 := if c.own || !c.msgs.isEmpty then c else { c with tag := m.tag, job := h.job, first := h.step }
    tryCensus (setCensus s a { c1 with heard := k :: c1.heard, msgs := c1.msgs ++ [m] }) a
  else s

/-- CENSUS_WAIT_EXPIRY (R267): the wait of a tree ends, counted from the ARM or the first child's census. -/
def execCensusWaitExpiry (tree : BitVec 1) (s : State) : Out :=
  let c := censusOf s tree.toNat
  .next (if s.sec.isOpen && !c.sent && (c.own || !c.heard.isEmpty) then sendCensus s tree.toNat else s)

/-! ### DIGEST (R268) -/

/-- The message one hop on. -/
def oneHop (m : LaunchMsg) : LaunchMsg := { m with hdr := { m.hdr with hops := m.hdr.hops + 1 } }

/-- The step that a DIGEST holds for has launched before it came; one for the first step was logged at that launch (R268). -/
def digestLate (s : State) (step : BitVec 64) : Bool :=
  launching s && decide (s.launch.armRec.firstStep.toNat < step.toNat) && decide (step.toNat < s.launch.nextStep.toNat)

/-- A DIGEST passes up, or the root keeps it as its position's latest and logs one that has come too late for its step. -/
def digestOn (s : State) (h : LaunchHdr) (d : Digest) : State :=
  if s.sec.position = 0 then
    let o := h.origin.toNat
    let known := s.launch.digests.any fun e => e.1 == o && decide (h.step.toNat ≤ e.2.1.toNat)
    let newer := s.launch.digests.any fun e => e.1 == o && decide (h.step.toNat < e.2.1.toNat)
    let s1 := if digestLate s h.step && !known then logEv s { cls := clsTime, cause := 9, loc := BitVec.ofNat 64 o, a0 := h.step } else s
    if newer then s1 else { s1 with launch := { s1.launch with digests := tput s1.launch.digests o (h.step, d) } }
  else match treeParent s h.tree.toNat with
    | some k => sendLaunch s k (oneHop { hdr := h, body := .digest d })
    | none => s

/-! ### COMMIT (R269, R270) -/

/-- Records of the steps that a late commit has missed, from `n` on; a held plot records no more. -/
def lateRecords (s : State) (n : BitVec 64) : Nat → State
  | 0 => s
  | c + 1 => if s.launch.state = .held then s else lateRecords (recordUnlaunched s n 5 true) (n + 1) c

/-- A device accepts the COMMIT of its launch (R270). -/
def acceptCommit (s : State) (sec : BitVec 64) (ns : BitVec 32) : State :=
  let s1 := { s with launch := { s.launch with
    state := .committed, startS := BitVec.ofNat 48 sec.toNat, startNs := ns, ready := none, short := false, boundaryDone := false
    nextStep := s.launch.armRec.firstStep, prevTick := none, taken := true } }
  let start := sec.toNat * 1000000000 + ns.toNat
  if nowNs s < start then s1
  else
    let first := s.launch.armRec.firstStep
    let count := if s.launch.paced then (nowNs s - start) / s.launch.armRec.periodNs.toNat + 1 else 1
    lateRecords (originate s1 first (.endN (BitVec.ofNat 32 count) 5)) first count

/-- COMMIT is served on the root (R269). -/
def serveCommit (s : State) (ring : Nat) (seq : BitVec 32) (sec : BitVec 64) (ns : BitVec 32) : State :=
  let fin := done s ring seq (.commit sec ns)
  let t := sec.toNat * 1000000000 + ns.toNat
  if !s.sec.isOpen then fin errState
  else if s.sec.position ≠ 0 then fin errNotRoot
  else if s.launch.censusOk = false ∨ s.launch.state ≠ .armed then fin errState
  else if sec.toNat ≥ 2 ^ 48 ∨ ns.toNat ≥ 1000000000 ∨ nsUnits t < nowUnits s + nsUnits (cfg s offLead 31 0 * 1000)
      ∨ nowUnits s + nsUnits 10000000000 < nsUnits t then fin errTime
  else
    let m (a : Nat) : LaunchMsg := {
      hdr := { tree := BitVec.ofNat 8 a, hops := 0, origin := s.sec.position, job := s.launch.armRec.job, step := s.launch.armRec.firstStep }
      body := .commit (armTagOf s.launch.armRec) sec ns }
    let s1 := sendAll (sendAll s (m 0) (treeChildren s 0)) (m 1) (treeChildren s 1)
    let tag := some (armTagOf s.launch.armRec)
    let s2 := { s1 with launch := { s1.launch with forwardedA := tag, forwardedB := tag } }
    acceptCommit (done s2 ring seq (.commit sec ns) errOk) sec ns

/-- A launch message is discarded and logged (R263, R270). -/
def discardLaunch (s : State) (k ty : Nat) (origin : BitVec 32) : State :=
  logEv s {
    cls := clsTime, cause := 7, loc := portLoc (k / 8) (k % 8), a0 := BitVec.ofNat 64 ty, a1 := BitVec.ofNat 64 origin.toNat
    die := portDie s (k / 8) }

/-- A COMMIT message on a tree: forwarded once a launch, accepted by an armed device that it matches (R269, R270). -/
def commitMsgOn (s : State) (k : Nat) (h : LaunchHdr) (tag sec : BitVec 64) (ns : BitVec 32) : State :=
  let a := h.tree.toNat
  let fwd := if a = 0 then s.launch.forwardedA else s.launch.forwardedB
  let m : LaunchMsg := { hdr := h, body := .commit tag sec ns }
  let s1 := if fwd = some tag then s else sendAll s (oneHop m) (treeChildren s a)
  let s2 := if a = 0 then { s1 with launch := { s1.launch with forwardedA := some tag } }
    else { s1 with launch := { s1.launch with forwardedB := some tag } }
  let r := s.launch.armRec
  if h.job = r.job ∧ h.step = r.firstStep ∧ tag = armTagOf r ∧ (s.launch.state = .armed ∨ s.launch.taken = true) then
    (if s2.launch.state = .armed then acceptCommit s2 sec ns else s2)
  else discardLaunch s2 k 3 h.origin

/-- ARM_EXPIRY (R270): an uncommitted arm returns to the state it armed from. -/
def execArmExpiry (s : State) : Out :=
  .next (
    if s.launch.state = .armed then
      logEv { s with launch := { s.launch with
        state := s.launch.before, censusOk := false } }
        { cls := clsTime, cause := 8, a0 := s.launch.armRec.job }
    else s)

/-! ### Flooded notices (R271, R272, R357) -/

/-- A notice seen for the first time is kept in mind and passed on; none for a repeat. -/
def floodOn (s : State) (k : Nat) (m : LaunchMsg) : Option State :=
  if s.launch.seen.contains (floodId m) then none
  else some (flood { s with launch := { s.launch with seen := floodId m :: s.launch.seen } } (oneHop m) (some k))

/-- The steps that an END names end with its condition: the running one now, later ones at their turn (R271, R74). -/
def endOn (s : State) (step : BitVec 64) (count : BitVec 32) (status : BitVec 8) : State :=
  if status.toNat ≥ 16 ∨ tb failMask.toNat status.toNat = false then s
  else
    let s1 := { s with launch := { s.launch with ends := s.launch.ends ++ [(step, count, status)] } }
    if s.step.running ∧ step.toNat ≤ s.step.number.toNat ∧ s.step.number.toNat < step.toNat + count.toNat then failStep s1 status.toNat
    else s1

/-- The effect of a notice on the device. -/
def noticeEffect (s : State) (m : LaunchMsg) : State :=
  match m.body with
  | .endN n st => endOn s m.hdr.step n st
  | .hold p u d =>
    { s with launch := { s.launch with
        holds := s.launch.holds ++ [{ origin := m.hdr.origin, step := m.hdr.step, port := p, sub := u, dryMs := d }]
        heldSince := true } }
  | .holdEnd p u _ _ => { s with launch := { s.launch with holds := s.launch.holds.filter fun h => !holdIs m.hdr.origin p u h } }
  | .staged e a => { s with serv := { s.serv with stagedMsgs := (m.hdr.origin, e, a) :: s.serv.stagedMsgs } }
  | _ => s

/-- A launch message that has come by a sub-port (R263). -/
def launchOn (s : State) (k : Nat) (m : LaunchMsg) : State :=
  if m.hdr.tree.toNat > 1 ∨ secondsOk m.body = false then discardLaunch s k (launchType m.body) m.hdr.origin
  else match m.body with
    | .census tag a r q f b =>
      censusOn s k m.hdr { origin := m.hdr.origin, tag, armed := a, refused := r, reasons := q, firstRefused := f, maxBound := b }
    | .digest d => digestOn s m.hdr d
    | .commit tag sec ns => commitMsgOn s k m.hdr tag sec ns
    | _ => match floodOn s k m with | some s1 => noticeEffect s1 m | none => s

/-- The payload of a LAUNCH grain (R263). -/
def launchPayloadOn (s : State) (k : Nat) (p : BitVec 2048) : State :=
  match launchParse p with
  | some m => launchOn s k m
  | none => discardLaunch s k (bitsOf p.toNat 7 0) (BitVec.ofNat 32 (bitsOf p.toNat 63 32))

/-- A launch message by its row: the sub-port carries the plot. -/
def launchRow (port : BitVec 6) (sub : BitVec 3) (h : LaunchHdr) (body : LaunchBody) (s : State) : Out :=
  let k := subKey port.toNat sub.toNat
  .next (if s.sec.isOpen && (getSub s k).state == .plot then freeBuffer (launchOn s k { hdr := h, body }) k 0 else s)

/-- CENSUS (R267). -/
def execCensus (port : BitVec 6) (sub : BitVec 3) (h : LaunchHdr) (tag : BitVec 64) (armed refused reasons firstRefused maxBound : BitVec 32)
    (s : State) : Out :=
  launchRow port sub h (.census tag armed refused reasons firstRefused maxBound) s

/-- DIGEST (R268). -/
def execDigest (port : BitVec 6) (sub : BitVec 3) (h : LaunchHdr) (d : Digest) (s : State) : Out := launchRow port sub h (.digest d) s

/-- COMMIT message (R270). -/
def execCommitMessage (port : BitVec 6) (sub : BitVec 3) (h : LaunchHdr) (tag sec : BitVec 64) (ns : BitVec 32) (s : State) : Out :=
  launchRow port sub h (.commit tag sec ns) s

/-- END (R271, R74). -/
def execEndNotice (port : BitVec 6) (sub : BitVec 3) (h : LaunchHdr) (count : BitVec 32) (status : BitVec 8) (s : State) : Out :=
  launchRow port sub h (.endN count status) s

/-- HOLD (R272). -/
def execHold (port : BitVec 6) (sub : BitVec 3) (h : LaunchHdr) (hport hsub : BitVec 8) (dryMs : BitVec 32) (s : State) : Out :=
  launchRow port sub h (.hold hport hsub dryMs) s

/-- HOLD_END (R272). -/
def execHoldEnd (port : BitVec 6) (sub : BitVec 3) (h : LaunchHdr) (hport hsub : BitVec 8) (dryMs : BitVec 32) (outcome : BitVec 8)
    (s : State) : Out :=
  launchRow port sub h (.holdEnd hport hsub dryMs outcome) s

/-- HOLD_LAPSE (R272): 1 ms after its dry time has run out since its receipt; an infinite one does not lapse. -/
def execHoldLapse (origin : BitVec 32) (step : BitVec 64) (hport hsub : BitVec 8) (s : State) : Out :=
  .next { s with launch := { s.launch with holds := s.launch.holds.filter fun h =>
    !(holdIs origin hport hsub h && h.step == step && h.dryMs != 0xFFFFFFFF && origin != s.sec.position) } }

/-- STAGED (R357). -/
def execStaged (port : BitVec 6) (sub : BitVec 3) (h : LaunchHdr) (epoch adapter : BitVec 32) (s : State) : Out :=
  launchRow port sub h (.staged epoch adapter) s

end Sys2Proof.Machine
end

