-- ==== Sys2Proof/Machine/SheetLoad.lean ====
section
/-! DEFINITION. LOAD_SHEET and FLIP_SHEET: the KVC container, the checks of the loader, translation to a checked sheet (R57-R61, R141-R149,
R157, R158, R163-R169, R183, R184, R307, R308, R347, R352). -/

namespace Sys2Proof.Machine

/-! ### Causes (R347) -/

def causeDigest : Nat := 1
def causeEncoding : Nat := 2
def causeOwnership : Nat := 3
def causeChannels : Nat := 4
def causeVerifier : Nat := 5
def causeFold : Nat := 6
def causeHeader : Nat := 7
def causeSize : Nat := 8
def causeLaneTable : Nat := 9
def causeOverlap : Nat := 10

/-- UNIT of a refusal that concerns no unit. -/
def noUnit : Nat := 0xFFFFFFFF

/-- A refusal: CAUSE and UNIT. -/
abbrev Bad := Option (Nat × Nat)

/-- A refusal where a check fails. -/
def need (ok : Bool) (cause unit : Nat) : Bad := if ok then none else some (cause, unit)

/-- The first refusal of a list of checks. -/
def firstBad : List Bad → Bad
  | [] => none
  | some e :: _ => some e
  | none :: t => firstBad t

/-- All bytes of a field are 0. -/
def zeros (bs : Bytes) (o n : Nat) : Bool := (slice bs o n).all (· == 0)

/-- Number of the field of `n` bytes at offset `o`. -/
def num (bs : Bytes) (o n : Nat) : Nat := leNat (slice bs o n)

/-- No value occurs twice. -/
def distinct {α : Type} [DecidableEq α] : List α → Bool
  | [] => true
  | x :: xs => !xs.contains x && distinct xs

/-- No two ranges of a list meet. -/
def apart : List (Nat × Nat) → Bool
  | [] => true
  | x :: xs => xs.all (fun y => !meets x.1 x.2 y.1 y.2) && apart xs

/-- Entries of `n` bytes of a section. -/
def entriesOf (n : Nat) (bs : Bytes) : List Bytes := (List.range (bs.length / n)).map fun i => slice bs (n * i) n

/-! ### The container (R163, R164) -/

/-- A section: TYPE, UNIT, LENGTH, OFFSET. -/
structure Section where
  ty : Nat
  unit : Nat
  len : Nat
  off : Nat
deriving DecidableEq, Repr

/-- Sections of the directory. -/
def sectionDir (img : Bytes) : List Section :=
  (List.range (num img 12 2)).map fun i =>
    let e := slice img (64 + 16 * i) 16
    { ty := num e 0 2, unit := num e 2 2, len := num e 4 4, off := num e 8 8 }

/-- UNIT as a refusal names it. -/
def unitOf (u : Nat) : Nat := if u = 0xFFFF then noUnit else u

/-- UNIT is in range for the type (R164). -/
def unitOk (x : Section) : Bool :=
  if x.ty = 6 then x.unit == 0xFFFF
  else if x.ty = 7 then decide (x.unit < 8)
  else if x.ty = 8 then decide (x.unit < 50)
  else if x.ty = 9 then decide (x.unit < 64) && x.unit % 8 == 7
  else decide (x.unit < 64)

/-- Refusals of a property of each section. -/
def eachSection (dir : List Section) (ok : Section → Bool) : Bad := firstBad (dir.map fun x => need (ok x) causeEncoding (unitOf x.unit))

/-- No later section meets this one. -/
def sectionsApart : List Section → Bad
  | [] => none
  | x :: xs =>
    match xs.find? fun y => meets x.off x.len y.off y.len with
    | some y => some (causeEncoding, unitOf y.unit)
    | none => sectionsApart xs

/-- No (TYPE, UNIT) pair repeats. -/
def sectionsOnce : List Section → Bad
  | [] => none
  | x :: xs => if xs.any fun y => y.ty == x.ty && y.unit == x.unit then some (causeEncoding, unitOf x.unit) else sectionsOnce xs

/-- R166 step 1. -/
def digestBad (img : Bytes) (digest : Digest) : Bad :=
  firstBad [need (sm3 img == digest) causeDigest noUnit, need (decide (96 ≤ img.length)) causeHeader noUnit,
    need (sm3 (img.take (img.length - 32)) == fieldAt 256 img (img.length - 32) 32) causeDigest noUnit]

/-- R166 step 2. -/
def headerBad (s : State) (img : Bytes) : Bad :=
  need (num img 4 2 == 1 && num img 6 1 == 1 && num img 8 2 == s.sec.devices.toNat && num img 10 2 == s.sec.position.toNat
    && zeros img 7 1 && zeros img 14 2 && zeros img 48 16 && s.sec.isOpen && decide (s.sec.devices.toNat ≤ 64)) causeHeader noUnit

/-- R166 step 3. -/
def directoryBad (img : Bytes) : Bad :=
  let dir := sectionDir img
  let top := img.length - 32
  firstBad [need (decide (64 + 16 * num img 12 2 ≤ top)) causeEncoding noUnit, eachSection dir fun x => decide (x.off + x.len ≤ top),
    eachSection dir fun x => x.off % 64 == 0, eachSection dir fun x => decide (1 ≤ x.ty) && decide (x.ty ≤ 9), sectionsOnce dir,
    sectionsApart dir, eachSection dir unitOk,
    firstBad ((List.range 64).flatMap fun c => [1, 4, 5].map fun t =>
      need (dir.any fun x => x.ty == t && x.unit == c) causeEncoding c)]

/-- Bytes of the section of a type and unit; none where it is absent. -/
def sectionBytes (img : Bytes) (ty unit : Nat) : Option Bytes :=
  ((sectionDir img).find? fun x => x.ty == ty && x.unit == unit).map fun x => slice img x.off x.len

/-! ### Scribe programs (R141-R148) -/

/-- Widths of an opcode's fields, from bit 8 (R143); none for an unlisted opcode. -/
def scribeFields (op : Nat) : Option (List Nat) :=
  match op with
  | 0x00 => some [16]
  | 0x01 => some [4, 5, 7, 7]
  | 0x02 => some [4, 5, 7, 32]
  | 0x03 => some [5, 48]
  | 0x08 => some [5, 7, 20, 3]
  | 0x09 => some [7, 7, 20, 3]
  | 0x0A => some [5, 16]
  | 0x10 => some [24]
  | 0x11 => some [3, 7, 7, 24]
  | 0x12 => some [3, 7, 32]
  | 0x13 => some [3, 24]
  | 0x1F => some []
  | 0x20 => some [5, 14, 7, 7, 7]
  | 0x21 => some [5, 5]
  | 0x28 => some [2, 8, 7]
  | 0x30 => some [4, 5]
  | 0x31 => some [4, 16]
  | 0x38 => some [3, 2]
  | 0x39 => some [1, 16, 7, 7]
  | _ => none

/-- Values of fields of given widths, lowest first, and what is left above them. -/
def splitFields (v : Nat) : List Nat → List Nat × Nat
  | [] => ([], v)
  | w :: ws => let r := splitFields (v / 2 ^ w) ws; (v % 2 ^ w :: r.1, r.2)

/-- Opcode and field values of a word; none for an illegal encoding of R143. -/
def scribeParts (w : BitVec 64) : Option (Nat × List Nat) :=
  let op := w.toNat % 256
  match scribeFields op with
  | none => none
  | some ws => let r := splitFields (w.toNat / 256) ws; if r.2 = 0 then some (op, r.1) else none

/-- Positions of the source selectors among an opcode's fields. -/
def selectorFields (op : Nat) : List Nat :=
  match op with
  | 0x01 => [2, 3]
  | 0x02 => [2]
  | 0x08 => [1]
  | 0x09 => [0, 1]
  | 0x11 => [1, 2]
  | 0x12 => [1]
  | 0x20 => [2, 3, 4]
  | 0x28 => [2]
  | 0x39 => [2, 3]
  | _ => []

/-- WIDTH of patch `i` of a template. -/
def patchWidth (t : BitVec 256) (i : Nat) : Nat := bitsOf t.toNat (128 + 16 * i + 12) (128 + 16 * i + 7)

/-- A PUSH names a template of the table, and no source for a disabled patch (R149). -/
def pushOk (tpls : List (BitVec 256)) (f : List Nat) : Bool :=
  match tpls[f.getD 1 0]? with
  | none => false
  | some t => (List.range 3).all fun i => f.getD (2 + i) 0 == 0 || patchWidth t i != 0

/-- LK of an LSET, if the word is one. -/
def lsetOf (w : BitVec 64) : Option Nat := if w.toNat % 256 = 0x12 then some (bitsOf w.toNat 10 8) else none

/-- Instruction `i` of a program is legal (R141, R143-R145, R148, R149). -/
def scribeOk (code : List (BitVec 64)) (tpls : List (BitVec 256)) (i : Nat) (w : BitVec 64) : Bool :=
  match scribeParts w with
  | none => false
  | some (op, f) =>
    (selectorFields op).all (fun k => decide (f.getD k 0 < 0x70)) &&
      match op with
      | 0x01 => decide (f.getD 0 0 < 14)
      | 0x02 => decide (f.getD 0 0 < 14)
      | 0x10 => decide (i < f.getD 0 0) && decide (f.getD 0 0 < code.length)
      | 0x11 => decide (f.getD 0 0 < 6) && decide (i < f.getD 3 0) && decide (f.getD 3 0 < code.length)
      | 0x13 =>
        let t := f.getD 1 0
        decide (t ≤ i) && ((code.drop t).take (i + 1 - t)).all fun x => lsetOf x != some (f.getD 0 0)
      | 0x20 => pushOk tpls f
      | _ => true

/-- A program is legal (R148). -/
def codeOk (code : List (BitVec 64)) (tpls : List (BitVec 256)) : Bool :=
  decide (1 ≤ code.length) && (code.getLast?.map fun w => w == 0x1F).getD false &&
    (List.range code.length).all fun i => scribeOk code tpls i (code.getD i 0)

/-- A template is legal (R149). -/
def templateOk (t : BitVec 256) : Bool :=
  let v := t.toNat
  let lsb (i : Nat) := bitsOf v (128 + 16 * i + 6) (128 + 16 * i)
  let on := (List.range 3).filter fun i => patchWidth t i != 0
  v / 2 ^ 176 == 0 && (List.range 3).all (fun i => bitsOf v (128 + 16 * i + 15) (128 + 16 * i + 13) == 0) &&
    on.all (fun i => decide (patchWidth t i ≤ 48) && decide (8 ≤ lsb i) && decide (lsb i + patchWidth t i ≤ 128)
      && bitsOf v (lsb i + patchWidth t i - 1) (lsb i) == 0) &&
    apart (on.map fun i => (lsb i, patchWidth t i))

/-- A patch entry is legal (R157, R158). -/
def patchOk (e : BitVec 128) : Bool :=
  let v := e.toNat
  let arg := bitsOf v 31 16
  let stride := bitsOf v 63 32
  bitsOf v 15 4 == 0 &&
    match bitsOf v 3 0 with
    | 0 => arg == 0 && stride == 0 && v / 2 ^ 64 == 0
    | 1 => arg == 0 && stride == 0
    | 2 => arg == 0 && stride == 0
    | 3 => arg != 0
    | 4 => decide (arg < 64) && stride == 0
    | 5 => decide (arg < 3) && stride == 0
    | _ => false

/-- A valid allocation entry of core `c` is legal (R58, R59). -/
def allocLegal (c : Nat) (v : BitVec 128) : Bool :=
  let n := v.toNat
  let e := allocOf v
  !e.valid ||
    (bitsOf n 5 0 == 0 && bitsOf n 63 48 == 0 && bitsOf n 126 116 == 0 && decide (e.kind ≤ 5) && e.size != 0 &&
      (decide (e.owner < 24) || e.owner == 0x1F || (e.kind == 5 && c % 16 == 0 && (e.owner == 0x1E || e.owner == 0x1D))))

/-- The run lists of a FOLD_MARKS section (R164); none where one lies outside it. -/
def foldLists (bs : Bytes) : Option (List (List Nat)) :=
  let ok := decide (200 ≤ bs.length) && (List.range 25).all fun u => decide (num bs (8 * u) 4 + 4 * num bs (8 * u + 4) 4 ≤ bs.length)
  if ok then
    some ((List.range 25).map fun u => (List.range (num bs (8 * u + 4) 4)).map fun k => num bs (num bs (8 * u) 4 + 4 * k) 4)
  else none

/-- A core's part of the sheet. -/
def coreOf (img : Bytes) (c : Nat) : CoreSheet :=
  let sec (t : Nat) : Bytes := (sectionBytes img t c).getD []
  { code := (entriesOf 8 (sec 1)).map (wordOf 64), templates := (entriesOf 32 (sec 2)).map (wordOf 256)
    consts := (entriesOf 8 (sec 3)).map (wordOf 64), alloc := (entriesOf 16 (sec 4)).map (wordOf 128)
    patch := (entriesOf 16 (sec 5)).map (wordOf 128), fold := ((sectionBytes img 9 c).bind foldLists).getD [] }

/-- Program, templates, allocation and patch entries of a core's part are legal, in a container and in a native image (R61, R169). -/
def coreOk (c : Nat) (k : CoreSheet) : Bool :=
  codeOk k.code k.templates && k.templates.all templateOk && decide (k.alloc.length ≤ 64) && k.alloc.all (allocLegal c)
    && decide (k.patch.length ≤ 64) && k.patch.all patchOk

/-- Sizes and contents of a core's sections (R61, R164). -/
def coreEncodingOk (img : Bytes) (c : Nat) (k : CoreSheet) : Bool :=
  let len (t : Nat) : Nat := ((sectionBytes img t c).getD []).length
  len 1 % 8 == 0 && decide (len 1 ≤ 8 * 262144) && len 2 % 32 == 0 && decide (len 2 ≤ 32 * 16384) && len 3 % 8 == 0
    && decide (len 3 ≤ 8 * 65536) && len 4 % 16 == 0 && len 5 == 1024 && coreOk c k &&
    match sectionBytes img 9 c with | none => true | some b => (foldLists b).isSome

/-! ### Ownership (R57, R59, R142) -/

/-- What a range has in the stratum from `lo` up to `hi` lies from `home` up to `top`. -/
def keptIn (lo hi home top a n : Nat) : Bool :=
  !meets a n lo (hi - lo) || (decide (home ≤ max a lo) && decide (min (a + n) hi ≤ top))

/-- Every byte of a range whose owner is fixed has the unit `owner` of core `c` for it: the slab of the tile, the core's commons, the
pseudo-channels of a transfer engine, and nothing of stratum 3 (R32, R60). -/
def ownsRange (c owner a n : Nat) : Bool :=
  let slab := slabAddr (tileIx c owner)
  let pcs := 0x008000000000 + 2 ^ 31 * (4 * c + (owner - 20))
  keptIn 0 (1536 * 2 ^ 22) slab (if owner < 24 then slab + 2 ^ 22 else slab) a n &&
    keptIn 0x000200000000 0x000300000000 (commonsAddr c) (commonsAddr c + 2 ^ 26) a n &&
    keptIn 0x008000000000 0x010000000000 pcs (if 20 ≤ owner ∧ owner < 24 then pcs + 2 ^ 31 else pcs) a n &&
    !meets a n 0x040000000000 (2 ^ 41)

/-- A range meets a sheet slot of a core (R78). -/
def meetsSlots (a n : Nat) : Bool := (List.range 64).any fun k => meets a n (commonsAddr k + 0x3800000) 0x800000

/-- A valid entry of core `c` breaks no rule of ownership on its own. -/
def ownedOk (c : Nat) (e : Alloc) : Bool :=
  !(e.kind == 2 && e.write) && !(e.owner == 0x1F && decide (1 ≤ e.kind) && decide (e.kind ≤ 4)) &&
    !meets e.base e.size windowBase 0x4000000 && !meetsSlots e.base e.size && ownsRange c e.owner e.base e.size

/-- Valid entries of a core's part. -/
def validAllocs (k : CoreSheet) : List Alloc := (k.alloc.map allocOf).filter (·.valid)

/-- Every valid entry of the sheet with its core. -/
def allAllocs (sh : Sheet) : List (Nat × Alloc) := sh.cores.flatMap fun e => (validAllocs e.2).map fun a => (e.1, a)

/-- The core of the first entry that an earlier one overlaps. -/
def overlapBad : List (Nat × Alloc) → Bad
  | [] => none
  | (_, e) :: t =>
    match t.find? fun x => meets e.base e.size x.2.base x.2.size with
    | some x => some (causeOwnership, x.1)
    | none => overlapBad t

/-- The ownership rules. -/
def ownershipBad (sh : Sheet) : Bad :=
  firstBad [firstBad ((allAllocs sh).map fun e => need (ownedOk e.1 e.2) causeOwnership e.1), overlapBad (allAllocs sh)]

/-! ### Channels (R51, R52, R307, R308) -/

/-- Fields of an endpoint. -/
def epCore (e : Nat) : Nat := bitsOf e 5 0
def epPort (e : Nat) : Nat := bitsOf e 14 11
def epIndex (e : Nat) : Nat := bitsOf e 19 15

/-- An endpoint names a unit, with every unused bit 0. -/
def endpointOk (s : State) (e : Nat) : Bool :=
  if epTile e < 24 ∨ epTile e = 0x1F then epIndex e == 0
  else if epTile e = 0x1E then epCore e == 0 && decide (epIndex e < 8)
  else if epTile e = 0x1D then bitsOf e 5 1 == 0 && decide (epSpanPort e < 50) && decide (epPort e < 2 ^ cfg s (offSpanCfg (epSpanPort e)) 1 0)
  else false

/-- The die on which an endpoint's unit sits; for a span port, that of its lane group (R12, R40). -/
def epDie (s : State) (e : Nat) : Nat :=
  if epTile e = 0x1E then epIndex e / 2
  else if epTile e = 0x1D then (tget {} s.ports (epSpanPort e)).group.toNat / 13
  else epCore e / 16

/-- An endpoint is a span port. -/
def isSpan (e : Nat) : Bool := epTile e == 0x1D

/-- KIND that the endpoints ask for; none where both are span ports. -/
def kindOf (s : State) (p q : Nat) : Option Nat :=
  if isSpan p && isSpan q then none
  else if isSpan p || isSpan q then some 3
  else if epTile p ≠ 0x1E ∧ epTile q ≠ 0x1E ∧ epCore p = epCore q then some 0
  else if epDie s p = epDie s q then some 1
  else some 2

/-- UNIT that a refusal of a channel names: its consumer's core, mover or port. -/
def channelUnit (v : BitVec 128) : Nat :=
  let q := chConsumer v
  if epTile q = 0x1E then epIndex q else if isSpan q then epSpanPort q else epCore q

/-- Core whose allocation entry backs a channel (R52). -/
def backingCore (s : State) (v : BitVec 128) : Nat :=
  let q := chConsumer v
  if epTile q = 0x1E ∨ epTile q = 0x1D then 16 * epDie s q else epCore q

/-- BACKING is right for the depth (R52). -/
def backingOk (s : State) (sh : Sheet) (v : BitVec 128) : Bool :=
  if chDepth v ≤ 8 then chBacking v == 0x3F
  else
    let c := backingCore s v
    match (tget ({} : CoreSheet) sh.cores c).alloc[chBacking v]? with
    | none => false
    | some w =>
      let e := allocOf w
      let home := commonsAddr c
      e.valid && e.kind == 5 && decide (home ≤ e.base) && decide (e.base + e.size ≤ home + 2 ^ 26) && e.owner == epTile (chConsumer v)
        && decide (64 * (chDepth v - 8) ≤ e.size)

/-- The order list of a port. -/
def orderOf (sh : Sheet) (n : Nat) : OrderList := tget {} sh.orders n

/-- A span channel is listed: outbound in a round of its sub-port, inbound in the table with its sub-port (R51, R308). -/
def listedOk (sh : Sheet) (v : BitVec 128) : Bool :=
  let p := chProducer v
  let q := chConsumer v
  if isSpan q then
    ((orderOf sh (epSpanPort q)).rounds.getD (epPort q) []).any fun r => r.any fun e =>
      bitsOf e.toNat 13 12 == 0 && bitsOf e.toNat 11 0 == chSpan v
  else if isSpan p then
    let b := (tget 0 (orderOf sh (epSpanPort p)).inbound (chSpan v)).toNat
    tb b 0 && bitsOf b 4 2 == epPort p
  else true

/-- A channel entry on its own (R51, R52, R165). -/
def channelOk (s : State) (sh : Sheet) (v : BitVec 128) : Bool :=
  let p := chProducer v
  let q := chConsumer v
  v.toNat / 2 ^ 91 == 0 && endpointOk s p && endpointOk s q && kindOf s p q == some (chKind v) && decide (2 ≤ chDepth v)
    && decide (chDepth v ≤ 65536) && (if chKind v = 3 then chDepth v % 4 == 0 else chSpan v == 0) && backingOk s sh v && listedOk sh v

/-- What of a channel no other may share: index, endpoint ports, backing entry, span channel per port and direction. -/
def channelClaims (s : State) (v : BitVec 128) : List (Nat × Nat) :=
  let p := chProducer v
  let q := chConsumer v
  [(0, chIndex v)] ++ (if isSpan p then [(1, 4096 * epSpanPort p + chSpan v)] else [(2, p)])
    ++ (if isSpan q then [(3, 4096 * epSpanPort q + chSpan v)] else [(4, q)])
    ++ if chDepth v ≤ 8 then [] else [(5, 64 * backingCore s v + chBacking v)]

/-- No channel claims what an earlier one has. -/
def claimsBad (s : State) (seen : List (Nat × Nat)) : List (BitVec 128) → Bad
  | [] => none
  | v :: t =>
    let cl := channelClaims s v
    if cl.any fun x => seen.contains x then some (causeChannels, channelUnit v) else claimsBad s (cl ++ seen) t

/-- Inbound span channels of a port's sub-port. -/
def inboundAt (sh : Sheet) (n u : Nat) : List (BitVec 128) :=
  sh.channels.filter fun v => isSpan (chProducer v) && epSpanPort (chProducer v) == n && epPort (chProducer v) == u

/-- A port's order list beside the channels of the sheet (R308). -/
def orderBad (s : State) (sh : Sheet) (e : Nat × OrderList) : Bad :=
  let n := e.1
  let ports := 2 ^ cfg s (offSpanCfg n) 1 0
  let share := cfg s (offSpanPool n) 31 16 / ports
  need ((e.2.inbound.all fun b => !tb b.2.toNat 0 ||
      (sh.channels.any fun v => isSpan (chProducer v) && epSpanPort (chProducer v) == n && chSpan v == b.1)) &&
    (List.range ports).all fun u => decide (((inboundAt sh n u).map fun v => chDepth v / 4).foldl (· + ·) 0 ≤ share)) causeChannels n

/-- The channel rules. -/
def channelsBad (s : State) (sh : Sheet) : Bad :=
  firstBad [firstBad (sh.channels.map fun v => need (channelOk s sh v) causeChannels (channelUnit v)), claimsBad s [] sh.channels,
    firstBad (sh.orders.map (orderBad s sh))]

/-! ### Die-mover lists (R183, R184) -/

/-- The list of a section. -/
def moverListOf (bs : Bytes) : MoverList :=
  let r := num bs 4 2
  { ranges := (List.range r).map fun i => wordOf 128 (slice bs (64 + 16 * i) 16)
    entries := (List.range (num bs 0 4)).map fun i => wordOf 256 (slice bs (64 + 16 * r + 32 * i) 32) }

/-- The counts and field values of a list, in a container and in a native image (R183, R184). -/
def moverListOk (l : MoverList) : Bool :=
  decide (l.entries.length ≤ 4096) && decide (1 ≤ l.ranges.length) && decide (l.ranges.length ≤ 16) &&
    l.ranges.all (fun v => v.toNat % 4096 == 0 && bitsOf v.toNat 95 64 != 0 && bitsOf v.toNat 103 98 == 0
      && (bitsOf v.toNat 111 104 == 0 || bitsOf v.toNat 111 104 == 4) && v.toNat / 2 ^ 112 == 0) &&
    l.entries.all fun v =>
      let e := moverEntryOf v
      (e.op == 1 || e.op == 2) && decide (e.amode ≤ 1) && decide (e.dataPort < 16) && decide (e.dportIn < 16) && (e.amode == 1 || e.dportIn == 0)
        && decide (1 ≤ e.drops) && decide (e.drops ≤ 16777216) && (decide (e.cport < 16) || e.cport == 0xFF) && v.toNat / 2 ^ 136 == 0

/-- A section's layout and its list (R183). -/
def moverEncodingOk (bs : Bytes) (l : MoverList) : Bool :=
  zeros bs 6 58 && bs.length == 64 + 16 * num bs 4 2 + 32 * num bs 0 4 && moverListOk l

/-- Every range lies in the mover's backed window, and no two meet. -/
def moverRangesOk (s : State) (m : Nat) (l : MoverList) : Bool :=
  let rs := l.ranges.map moverRangeOf
  rs.all (fun r => (match decodeAddr r.base with | .dimm k _ => k == m | _ => false) && backedRange s r.base r.size)
    && apart (rs.map fun r => (r.base, r.size))

/-- Every port that an entry names is bound to a channel with the mover at that end. -/
def moverPortsOk (sh : Sheet) (m : Nat) (l : MoverList) : Bool :=
  let inp (p : Nat) := sh.channels.any fun v => chConsumer v == moverEndpoint m p
  let out (p : Nat) := sh.channels.any fun v => chProducer v == moverEndpoint m p
  (l.entries.map moverEntryOf).all fun e =>
    (if e.op = 1 then out e.dataPort else inp e.dataPort) && (e.amode == 0 || inp e.dportIn) && (e.cport == 0xFF || out e.cport)

/-- Every FIXED entry lies inside a range that permits it. -/
def moverFixedOk (l : MoverList) : Bool :=
  (l.entries.map moverEntryOf).all fun e =>
    e.amode == 1 || (l.ranges.map moverRangeOf).any fun r =>
      decide (r.base ≤ e.addr) && decide (e.addr + 64 * e.drops ≤ r.base + r.size) && (if e.op = 2 then r.write else r.read)

/-- The rules of a die-mover list beside the sheet (log 27 names the causes). -/
def moverBad (s : State) (sh : Sheet) (e : Nat × MoverList) : Bad :=
  firstBad [need (moverRangesOk s e.1 e.2 && moverFixedOk e.2) causeOwnership e.1, need (moverPortsOk sh e.1 e.2) causeChannels e.1]

/-! ### Port order lists (R307) -/

/-- Round counts of a list's sub-ports. -/
def roundCounts (bs : Bytes) : List Nat := (List.range 8).map fun u => num bs (8 + 2 * u) 2

/-- A round: COUNT data entries. -/
def roundOf (b : Bytes) : List (BitVec 32) := (List.range (num b 0 1)).map fun i => fieldAt 32 b (4 + 4 * i) 4

/-- The rounds of the sub-ports, from offset `o` on. -/
def roundsFrom (bs : Bytes) (o : Nat) : List Nat → List (List (List (BitVec 32)))
  | [] => []
  | n :: ns => ((List.range n).map fun i => roundOf (slice bs (o + 32 * i) 32)) :: roundsFrom bs (o + 32 * n) ns

/-- The list of a section. -/
def orderListOf (bs : Bytes) : OrderList :=
  { mode := fieldAt 8 bs 0 1
    inbound := (List.range 4096).foldl (fun t i => tset 0 t i (fieldAt 8 bs (64 + i) 1)) []
    rounds := roundsFrom bs 4160 (roundCounts bs) }

/-- A data entry's fields. -/
def dataEntryOk (e : BitVec 32) : Bool :=
  decide (bitsOf e.toNat 13 12 < 3) && (bitsOf e.toNat 13 12 == 0 || bitsOf e.toNat 11 0 == 0) && decide (1 ≤ bitsOf e.toNat 19 14)
    && decide (bitsOf e.toNat 19 14 ≤ 32) && bitsOf e.toNat 31 20 == 0

/-- A port's list on its own: MODE as the port's, the rounds of each sub-port, the fields, in a container and in a native image
(R307, R308). -/
def orderListOk (s : State) (n : Nat) (l : OrderList) : Bool :=
  let mode := cfg s (offSpanCfg n) 1 0
  l.mode.toNat == mode && l.inbound.all (fun e => decide (e.1 < 4096) && decide (e.2.toNat < 32)) &&
    (List.range 8).all (fun u =>
      let r := (l.rounds.getD u []).length
      if u < 2 ^ mode then decide (1 ≤ r) && decide (r ≤ 4096) else r == 0) &&
    l.rounds.all fun rs => rs.all fun r => decide (r.length ≤ 7) && r.all dataEntryOk

/-- A round's bytes that no data entry takes. -/
def roundOk (b : Bytes) : Bool :=
  let n := num b 0 1
  decide (n ≤ 7) && zeros b 1 3 && zeros b (4 + 4 * n) (28 - 4 * n)

/-- A section's layout and its list (R307). -/
def orderEncodingOk (s : State) (n : Nat) (bs : Bytes) (l : OrderList) : Bool :=
  let total := (roundCounts bs).foldl (· + ·) 0
  zeros bs 1 7 && zeros bs 24 40 && bs.length == 4160 + 32 * total &&
    (List.range total).all (fun i => roundOk (slice bs (4160 + 32 * i) 32)) && orderListOk s n l

/-! ### A whole image (R61, R166) -/

/-- Units of a section type that the container holds. -/
def unitsWith (img : Bytes) (ty : Nat) : List Nat := ((sectionDir img).filter fun x => x.ty == ty).map Section.unit

/-- A table from a list of units. -/
def tableOf {α : Type} (us : List Nat) (f : Nat → α) : Tbl α := us.foldl (fun t u => tput t u (f u)) []

/-- The sheet that a container spells. -/
def kvcSheet (img : Bytes) (digest : Digest) : Sheet :=
  { digest, level := fieldAt 8 img 6 1, isNative := false, cores := tableOf (List.range 64) (coreOf img)
    channels := (entriesOf 16 ((sectionBytes img 6 0xFFFF).getD [])).map (wordOf 128)
    movers := tableOf (unitsWith img 7) fun m => moverListOf ((sectionBytes img 7 m).getD [])
    orders := tableOf (unitsWith img 8) fun n => orderListOf ((sectionBytes img 8 n).getD []) }

/-- Encodings of every section (R166 step 4). -/
def encodingBad (s : State) (img : Bytes) (sh : Sheet) : Bad :=
  firstBad (
    ((List.range 64).map fun c => need (coreEncodingOk img c (tget {} sh.cores c)) causeEncoding c) ++
    [need (((sectionBytes img 6 0xFFFF).getD []).length % 16 == 0) causeEncoding noUnit] ++
    (sh.movers.map fun e => need (moverEncodingOk ((sectionBytes img 7 e.1).getD []) e.2) causeEncoding e.1) ++
    (sh.orders.map fun e => need (orderEncodingOk s e.1 ((sectionBytes img 8 e.1).getD []) e.2) causeEncoding e.1))

/-- KVC size of a core; the span and die-mover endpoints of die d are those of core 16d (R165, R166). -/
def kvcSize (s : State) (img : Bytes) (sh : Sheet) (c : Nat) : Nat :=
  let touches (e : Nat) : Bool := if epTile e = 0x1D ∨ epTile e = 0x1E then c == 16 * epDie s e else epCore e == c
  let own : Nat := ((sectionDir img).map fun x =>
    if x.unit = c ∧ x.ty ≠ 6 ∧ x.ty ≠ 7 ∧ x.ty ≠ 8 then x.len
    else if x.ty = 7 ∧ c = 16 * (x.unit / 2) then x.len
    else if x.ty = 8 ∧ c = 16 * ((tget {} s.ports x.unit).group.toNat / 13) then x.len else 0).foldl (· + ·) 0
  own + 16 * (sh.channels.filter fun v => touches (chProducer v) || touches (chConsumer v)).length

/-- The first core whose translation does not fit its slot. -/
def sizeBad (s : State) (img : Bytes) (sh : Sheet) : Bad :=
  firstBad ((List.range 64).map fun c =>
    need (decide (kvcSize s img sh c ≤ 3 * 2 ^ 20) || Config.translationFits img c) causeSize c)

/-- A manifest's kept blocks obey R352 against a sheet. -/
def manifestFits (s : State) (sh : Sheet) (m : ManifestSt) : Bool := (m.blocks.filter (keepsBlock s)).all fun e => blockFits e sh

/-- The live or the staged epoch breaks R352 against a sheet. -/
def epochBad (s : State) (sh : Sheet) : Bad :=
  need ((s.load.liveManifest.toList ++ s.load.manifests).all (manifestFits s sh)) causeOverlap noUnit

/-- The static rules that hold for native images and KVC alike (R169). -/
def staticBad (s : State) (sh : Sheet) : Bad :=
  firstBad [ownershipBad sh, channelsBad s sh, firstBad (sh.movers.map (moverBad s sh)),
    need (!(s.sec.isOpen && s.sec.serving) || servingRegions s sh) causeLaneTable noUnit, epochBad s sh]

/-- The sheet that an image spells which is no KVC container; none where the loader refuses it (R168: unpublished; log 9). -/
opaque nativeSheet : Bytes → Option Sheet

/-- CAUSE (0 for VERSION) and UNIT with which such an image is refused (log 9). -/
opaque nativeRefusal : Bytes → Nat × Nat

/-- What R169 lets a native image share with a container: every encoding but those of R168. -/
def nativeBad (s : State) (sh : Sheet) : Bad :=
  firstBad (
    ((List.range 64).map fun c => need (coreOk c (tget {} sh.cores c)) causeEncoding c) ++
    (sh.movers.map fun e => need (decide (e.1 < 8) && moverListOk e.2) causeEncoding e.1) ++
    (sh.orders.map fun e => need (decide (e.1 < 50) && orderListOk s e.1 e.2) causeEncoding e.1))

/-- The verifier's record and, on grade B, the fold (R21, R56, R61). -/
def provenBad (s : State) (img : Bytes) : Bad :=
  firstBad [need (Config.verifierPasses img) causeVerifier noUnit, need (s.boot.effective != 1 || Config.foldPasses img) causeFold noUnit]

/-- The firmware interface versions that a native image was built for meet those that the firmware serves (R168). -/
def inRange (s : State) (img : Bytes) : Bool :=
  decide ((Config.nativeBuilt img).1 ≤ s.boot.fwIf.toNat) && decide (s.boot.fwIfMin.toNat ≤ (Config.nativeBuilt img).2)

/-- The loader's verdict on a container (R61, R166). -/
def checkKvc (s : State) (img : Bytes) (digest : Digest) : (Nat × Nat) ⊕ Sheet :=
  let sh := kvcSheet img digest
  match firstBad [digestBad img digest, headerBad s img, directoryBad img, encodingBad s img sh, staticBad s sh, sizeBad s img sh,
      provenBad s img] with
  | some e => .inl e
  | none => .inr sh

/-- The loader's verdict on a native image (R61, R168, R169). -/
def checkNative (s : State) (img : Bytes) (digest : Digest) : (Nat × Nat) ⊕ Sheet :=
  if sm3 img ≠ digest then .inl (causeDigest, noUnit)
  else if !inRange s img then .inl (0, noUnit)
  else match nativeSheet img with
    | none => .inl (nativeRefusal img)
    | some sh0 =>
      let sh := { sh0 with digest, isNative := true }
      match firstBad [nativeBad s sh, staticBad s sh, provenBad s img] with
      | some e => .inl e
      | none => .inr sh

/-- The loader's verdict on an image (R61, R166): a refusal, or the sheet. -/
def checkImage (s : State) (img : Bytes) (digest : Digest) : (Nat × Nat) ⊕ Sheet :=
  if img.take 4 = [0x4B, 0x56, 0x43, 0] then checkKvc s img digest else checkNative s img digest

/-! ### LOAD_SHEET and FLIP_SHEET (R80, R81, R344, R347) -/

/-- LOAD_SHEET is served: the image is read over the link, and it is written once no flip is pending. -/
def serveLoadSheet (s : State) (ring : Nat) (seq : BitVec 32) (host : BitVec 64) (length : BitVec 32) (digest : Digest) : State :=
  let fin := done s ring seq (.loadSheet host length digest)
  if s.sheets.loading.isSome then fin errBusy
  else if s.sec.scrubState = 1 then fin errState
  else
    { s with sheets := { s.sheets with
        loading := some { ring, seq, host, length, digest }
        shadowValid := if s.sheets.flipPending then s.sheets.shadowValid else false } }

/-- What direct writes had changed of a slot's bytes is overwritten (log 11). -/
def clearSlots (mem : Tbl Byte) (slot : Nat) : List Nat → Tbl Byte
  | [] => mem
  | c :: cs => clearSlots (clearRun mem (commonsAddr c + 0x3800000 + 0x400000 * slot) 0x400000) slot cs

/-- LOAD_SHEET_COMPLETE (R61, R80, R81, R166): the image has come, and has been checked and written. -/
def execLoadSheetComplete (host : HostView) (s : State) : Out :=
  .next (match s.sheets.loading with
    | none => s
    | some l =>
      if s.sheets.flipPending ∨ s.mbox.link ≠ 2 then s
      else
        let fin (s : State) (err : Nat) (res : Bytes) := done s l.ring l.seq (.loadSheet l.host l.length l.digest) err res
        let s1 := { s with sheets := { s.sheets with loading := none, shadowValid := false } }
        match checkImage s1 (hostView host l.host.toNat l.length.toNat) l.digest with
        | .inl (0, _) => fin s1 errVersion []
        | .inl (c, u) => fin s1 errRefused ([BitVec.ofNat 8 c, 0, 0, 0] ++ natLe 4 u)
        | .inr sh =>
          fin { s1 with
            sheets := { s1.sheets with shadow := some sh, shadowValid := true }
            mem := clearSlots s1.mem (1 - s1.sheets.liveSlot.toNat) (List.range 64) } errOk [])

/-- FLIP_SHEET is served (R81, R343): at once while no step can run, else at the boundary. -/
def serveFlip (s : State) (ring : Nat) (seq : BitVec 32) : State :=
  if !s.sheets.shadowValid || s.launch.state == .armed || s.launch.state == .committed then
    done s ring seq .flipSheet errState
  else
    let s1 := { s with sheets := { s.sheets with flipPending := true } }
    let s2 := if noStep s1 then applyFlip s1 else s1
    done s2 ring seq .flipSheet errOk (bytesOf 8 (upcoming s))

end Sys2Proof.Machine
end

