-- ==== Sys2Proof/Machine/SpanLink.lean ====
section
/-! DEFINITION. The links of span sub-ports: training, narrowing, handshake, link down, blot and fence (R283-R292, R311-R316). -/

namespace Sys2Proof.Machine

/-! ### Lanes (R283, R286, R288) -/

/-- Sub-ports of port `n` under its MODE. -/
def subsOf (s : State) (n : Nat) : Nat := 2 ^ cfg s (offSpanCfg n) 1 0

/-- Field of SPANn.CFG as it stood at the sub-port's last training. -/
def subCfg (b : SubSt) (hi lo : Nat) : Nat := bitsOf b.cfgIn.toNat hi lo

/-- Sub-ports that shared the port at the last training. -/
def shareOf (b : SubSt) : Nat := 2 ^ subCfg b 1 0

/-- The link is direct (R284). -/
def isDirect (b : SubSt) : Bool := subCfg b 2 2 == 1

/-- Number of lanes in a mask. -/
def laneCount (m : BitVec 8) : Nat := ((List.range 8).filter (tb m.toNat)).length

/-- The lowest `n` lanes of a mask. -/
def lowLanes (m : BitVec 8) (n : Nat) : BitVec 8 :=
  BitVec.ofNat 8 ((((List.range 8).filter (tb m.toNat)).take n).foldl (fun a i => a + 2 ^ i) 0)

/-- Lanes of sub-port `u` of `n` within the group (R283). -/
def ownLanes (n u : Nat) : BitVec 8 := BitVec.ofNat 8 ((2 ^ (8 / n) - 1) * 2 ^ (8 / n * u))

/-- The largest width of at most `cap` lanes that `n` good lanes allow; 0 for none. -/
def widthFor (cap n : Nat) : Nat := ([8, 4, 2, 1].find? fun w => decide (w ≤ cap) && decide (w ≤ n)).getD 0

/-- Lanes good in both directions. -/
def goodBoth (b : SubSt) : BitVec 8 := b.goodLanes &&& ~~~(b.badLanes ||| b.partnerBad)

/-- A sub-port of an enabled port. -/
def subThere (s : State) (n u : Nat) : Bool := decide (n < 50) && decide (u < subsOf s n) && cfg s (offSpanCfg n) 4 4 == 1

/-- A SPAN event of a sub-port, by its key. -/
def spanEv (s : State) (cause k : Nat) (a0 : BitVec 64 := 0) (a1 : BitVec 64 := 0) : Ev :=
  { cls := clsSpan, cause, loc := portLoc (k / 8) (k % 8), a0, a1, die := portDie s (k / 8) }

/-- The state of a sub-port whose link is not in service, where it would be `st`: FENCED while it is fenced, HOLDING while it holds
(R292, R312, R404; log 26). -/
def heldState (b : SubSt) (st : LinkState) : LinkState := if b.fenced then .fenced else if b.holding then .holding else st

/-- The state of a sub-port with its link down: DOWN, or OFF where its port is not enabled (R294). -/
def restState (s : State) (k : Nat) : LinkState := if cfg s (offSpanCfg (k / 8)) 4 4 = 1 then .down else .off

/-! ### Frames of link grains (R290, R296, R297) -/

/-- The VLAN that frames of the sub-port carry in their one 802.1Q tag, if they carry one (R293, R295). -/
def vlanOf (b : SubSt) : Option (BitVec 12) := if subCfg b 32 32 = 1 then some (BitVec.ofNat 12 (subCfg b 44 33)) else none

/-- A frame leaves a sub-port (R295, R296). -/
def sendFrame (s : State) (k : Nat) (link : Bool) (body : List Grain) : State :=
  modSub s k fun b =>
    { b with
      ackOwed := false
      lastTx := some {
        fcsOk := true, srcMac := BitVec.ofNat 48 (cfg s (offSubMac (k / 8) (k % 8)) 47 0), version := 1, flags := if link then 1 else 0
        grains := BitVec.ofNat 8 body.length, sub := BitVec.ofNat 8 (k % 8), ack := b.rxExpect
        freed := wordOf 64 (b.freed.flatMap (natLe 2)), body, destMac := b.peerMac, vlan := vlanOf b
        etherType := BitVec.ofNat 16 (subCfg b 31 16) } }

/-- CRC of a grain under a sequence number (R298). -/
def grainCrc (seq : BitVec 32) (g : Grain) : BitVec 32 := crc32c (bytesOf 4 seq ++ bytesOf 8 g.header ++ bytesOf 256 g.payload)

/-- A link grain of a type, with its CRC. -/
def linkGrain (ty : Nat) (payload : Bytes) : Grain :=
  let g := mkGrain (grainHeader 0 0 ty 0 0) (wordOf 2048 payload)
  { g with crc := grainCrc 0xFFFFFFFF g }

/-- A LINK grain waits for the control slot. -/
def queueLink (s : State) (k op : Nat) (mask width : BitVec 8) (opNum rx : BitVec 32) : State :=
  let g := linkGrain 8 ([BitVec.ofNat 8 op, mask, width, 0] ++ bytesOf 4 opNum ++ bytesOf 4 rx)
  modSub s k fun b => { b with qLink := b.qLink ++ [g] }

/-- The sub-port's own HANDSHAKE (R290). One that answers a repeat says again what it announced in the exchange just completed, where the
partner's SEQ_RESET was met by its own (log 26). -/
def ownHandshake (s : State) (k : Nat) : Bytes :=
  let b := getSub s k
  let n := k / 8
  let reset := if b.shaking then b.needReset else b.partnerReset
  let res (c : Nat) := cfg s (offSpanPool n) (16 * c + 15) (16 * c) / shareOf b
  bytesOf 8 s.boot.deviceId ++ [BitVec.ofNat 8 n, BitVec.ofNat 8 (k % 8), BitVec.ofNat 8 (subCfg b 1 0), BitVec.ofNat 8 b.width.toNat, 1,
      BitVec.ofNat 8 (b2n reset + 2 * b2n b.heard)]
    ++ bytesOf 2 s.sec.plot ++ bytesOf 4 b.rxExpect ++ natLe 4 (16384 / shareOf b) ++ natLe 2 (res 0) ++ natLe 2 (res 1) ++ natLe 2 (res 2)
    ++ natLe 2 (res 3) ++ bytesOf 4 (if reset then b.txStart else 0)

/-- The HANDSHAKE that a payload spells. -/
def handshakeOf (p : Bytes) (mac : BitVec 48) : HandshakeMsg :=
  let f (w o n : Nat) : BitVec w := fieldAt w p o n
  { deviceId := f 64 0 8, port := f 8 8 1, sub := f 8 9 1, mode := f 8 10 1, width := f 8 11 1, replayLevel := f 8 12 1
    flags := f 8 13 1, plot := f 16 14 2, rxExpect := f 32 16 4, pool := f 32 20 4, res := f 64 24 8, txStart := f 32 32 4, mac }

/-- A HANDSHAKE is sent. -/
def sendHandshake (s : State) (k : Nat) : State := sendFrame s k true [linkGrain 7 (ownHandshake s k)]

/-! ### Sequence (R299-R301) -/

/-- Sequence numbers run modulo 2³² − 1. -/
def seqMod : Nat := 2 ^ 32 - 1

/-- The next sequence number. -/
def seqNext (q : BitVec 32) : BitVec 32 := BitVec.ofNat 32 ((q.toNat + 1) % seqMod)

/-- Grains from sequence number `a` up to `b`. -/
def seqDist (a b : BitVec 32) : Nat := (b.toNat + seqMod - a.toNat) % seqMod

/-- An acknowledgement passes grains of the replay buffer; one that lies outside it says nothing. -/
def ackTo (b : SubSt) (ack : BitVec 32) : SubSt :=
  let n := seqDist b.txAcked ack
  if n ≤ b.replay.length then { b with replay := b.replay.drop n, txAcked := ack, replayPos := b.replayPos - n } else b

/-- A replay begins with every unacknowledged grain (R301). -/
def startReplay (b : SubSt) : SubSt := { b with replaying := !b.replay.isEmpty, replayPos := 0 }

/-! ### Handshake (R290, R291, R313) -/

/-- TX_START drawn from the entropy source: 0 to 0xFFFF_FFFE. -/
def drawStart (s : State) : BitVec 32 × State :=
  let d := drawFree 32 s
  (BitVec.ofNat 32 (d.1.toNat % seqMod), d.2)

/-- A handshake begins; `reset` asks for SEQ_RESET. A sub-port that holds stays HOLDING (log 26). -/
def startShake (s : State) (k : Nat) (reset : Bool) : State :=
  let r := reset || (getSub s k).needReset
  let d := if r then drawStart s else (0, s)
  modSub d.2 k fun b =>
    { b with
      state := heldState b .training
      shaking := true, heard := false, acked := false, needReset := r, txStart := d.1, partnerReset := false, partnerTxStart := 0
      narrowing := false, replaying := false }

/-! ### A plot is open no more (R261, R347, R401, R418) -/

/-- Least sub-port key of a list of entries. -/
def leastKey : List TopoEnt → Option Nat
  | [] => none
  | e :: es => match leastKey es with
    | none => some (topoKey e)
    | some k => some (min k (topoKey e))

/-- Result of a failed OPEN_PLOT: PORT, SUB, STATE of a sub-port. -/
def portResult (s : State) (k : Nat) : Bytes := natLe 1 (k / 8) ++ natLe 1 (k % 8) ++ natLe 1 (linkCode (getSub s k).state)

/-- The launch logic of a plot that has just opened: lateness records and counts stay, MAX_LATE starts again (R262). -/
def freshLaunch (l : LaunchSt) : LaunchSt := { late := l.late, lateCount := l.lateCount, ownLate := l.ownLate }

/-- A sub-port leaves the plot: what it holds of the plot's traffic goes, and it handshakes with SEQ_RESET and PLOT 0. -/
def leavePlot (s : State) (k : Nat) : State :=
  let s1 := modSub s k fun b =>
    { b with
      q0 := [], q1 := [], q2 := [], q3 := [], replay := [], replaying := false, replayPos := 0, waitPool := [], commits := [], sent := []
      fifo := [], linkSent := false, holding := false, needReset := true
      state := if b.state = .holding then (if b.training then .training else restState s k) else b.state }
  if (getSub s1 k).linkUp && !(getSub s1 k).fenced then startShake s1 k true else s1

/-- A plot opens or closes: the next handshake of every sub-port sets SEQ_RESET, and one under way starts again (R290, R402). -/
def oweReset (s : State) : List Nat → State
  | [] => s
  | k :: ks =>
    let b := getSub s k
    oweReset (if b.shaking && b.linkUp then startShake s k true else modSub s k fun b => { b with needReset := true }) ks

def leaveAll (s : State) : List Nat → State
  | [] => s
  | k :: ks => leaveAll (leavePlot s k) ks

/-- Sub-ports that carry the plot or that its view names. -/
def plotSubs (s : State) : List Nat :=
  (subKeys s).filter fun k => carries s k || (getSub s k).state == .miswired || s.sec.topo.any fun e => topoKey e == k

/-- No plot is open any more (R401, R418). -/
def forgetPlot (s : State) (scrubbed : Bool) : State :=
  let subs := plotSubs s
  let s0 := oweReset s (subKeys s)
  leaveAll { s0 with
    sec := { s.sec with
      lastPlot := s.sec.plot, plot := 0, isOpen := false, debug := false, scrubbed, stepSeals := false, serving := false, servingIf := 0, position := 0, devices := 0
      topo := [], restored := false }
    launch := { freshLaunch s.launch with maxLate := s.launch.maxLate }
    serv := { s.serv with
      switching := false, markerStep := none, descs := [], current := none, received := [], recvReport := none, outReport := none
      stagedMsgs := [] } } subs

/-- OPEN_PLOT fails with PORT, and the plot is closed again (R261, R347). -/
def failOpen (s : State) (k : Nat) : State :=
  match s.mbox.opener with
  | none => s
  | some (ring, seq) =>
    complete (forgetPlot { s with mbox := { s.mbox with opener := none } } s.sec.scrubbed) ring seq 0x01 errPort (portResult s k)

/-- A sub-port that no plot may use: MISWIRED or FENCED. -/
def unusable (s : State) (k : Nat) : Bool := (getSub s k).state == .miswired || (getSub s k).fenced

/-- An OPEN_PLOT that waits fails once a named sub-port is MISWIRED or FENCED; it names the lowest (R261, R291, R347). -/
def checkOpen (s : State) : State :=
  match leastKey (s.sec.topo.filter fun e => unusable s (topoKey e)) with
  | some k => failOpen s k
  | none => s

/-! ### Handshake completed (R290, R291, R313) -/

/-- The topology entry of a sub-port. -/
def topoFor (s : State) (k : Nat) : Option TopoEnt := s.sec.topo.find? fun e => topoKey e == k

/-- The partner is the one the manifest names (R291). -/
def partnerMatches (s : State) (b : SubSt) (e : TopoEnt) : Bool :=
  b.partnerId == e.peerId && b.partnerPort.toNat == e.peerPort.toNat && b.partnerSub.toNat == e.peerSub.toNat
    && b.partnerPlot == s.sec.plot

/-- OPEN_PLOT completes once every named sub-port is in PLOT (R347). -/
def tryOpen (s : State) : State :=
  match s.mbox.opener with
  | none => s
  | some (ring, seq) =>
    if s.sec.topo.all fun e => (getSub s (topoKey e)).state == .plot then
      complete { s with mbox := { s.mbox with opener := none } } ring seq 0x01 errOk []
    else s

/-- Microseconds since a time. -/
def sinceUs (s : State) (t : TimeVal) : Nat := (nowNs s - timeNs t) / 1000

/-- The dry time that HOLD carries: all ones for infinite (R263). -/
def holdDry (d : BitVec 32) : BitVec 32 := if d = 0 then 0xFFFFFFFF else d

/-- A matching sub-port enters PLOT, and a span that goes on replays from the partner's RX_EXPECT; a hold of it ends, and after a blot the
forwarder sends its blocks again (R290, R313, R355). -/
def enterPlot (s : State) (k : Nat) (goesOn : Bool) : State :=
  let b := getSub s k
  let c := if goesOn then startReplay (ackTo b b.partnerRx) else b
  let s1 := setSub s k { c with state := .plot, holding := false, blotted := false }
  let s2 := if b.holding then
    endHold (logEv s1 (spanEv s 7 k (BitVec.ofNat 64 (sinceUs s b.holdStart)))) (k / 8) (k % 8) (holdDry (tget {} s.ports (k / 8)).dryMs) 0
    else s1
  let s3 := if b.blotted && loadNext s2 == some k then resendBlocks s2 s2.load.tx else s2
  tryOpen s3

/-- A sub-port whose partner differs from the manifest's; an OPEN_PLOT that waits for it fails (R291). -/
def enterMiswired (s : State) (k : Nat) (e : TopoEnt) : State :=
  let b := getSub s k
  checkOpen (logEv (setSub s k { b with state := .miswired, miswires := b.miswires + 1 }) (spanEv s 3 k e.peerId b.partnerId))

/-- The state a sub-port takes after a handshake, which goes on with its span or has started it afresh (R291, R292, R294). -/
def settle (s : State) (k : Nat) (goesOn : Bool) : State :=
  let b := getSub s k
  if b.fenced then setSub s k { b with state := .fenced }
  else match (if s.sec.isOpen then topoFor s k else none) with
    | none => setSub s k { b with state := .up, holding := false }
    | some e => if partnerMatches s b e then enterPlot s k goesOn else enterMiswired s k e

/-- The exchange completes (R290). -/
def finishShake (s : State) (k : Nat) : State :=
  let goesOn := !(getSub s k).needReset
  settle (modSub s k fun b =>
    let c := { b with
      shaking := false, needReset := false, rolesKnown := true, pen := decide (s.boot.deviceId.toNat < b.partnerId.toNat) }
    if b.needReset then
      { c with
        txNext := b.txStart, txAcked := b.txStart, rxExpect := b.partnerTxStart, replay := [], replaying := false, replayPos := 0
        out := [0, 0, 0, 0], last := [0, 0, 0, 0], freed := [0, 0, 0, 0], credits := [], granted := [], drained := [] }
    else c) k goesOn

/-- What a HANDSHAKE says of the partner is kept. -/
def notePartner (b : SubSt) (m : HandshakeMsg) : SubSt :=
  { b with
    partnerId := m.deviceId, partnerPort := BitVec.ofNat 6 m.port.toNat, partnerSub := BitVec.ofNat 3 m.sub.toNat
    partnerPlot := m.plot, peerMac := if isDirect b then m.mac else b.peerMac, partnerRx := m.rxExpect, heard := true
    pool := m.pool.toNat, res := (List.range 4).map fun c => bitsOf m.res.toNat (16 * c + 15) (16 * c)
    partnerReset := b.partnerReset || tb m.flags.toNat 0, partnerTxStart := if tb m.flags.toNat 0 then m.txStart else b.partnerTxStart }

/-- A HANDSHAKE is received (R290). One with ACK that meets no exchange under way is a repeat, and is answered (log 26). -/
def handshakeOn (s : State) (k : Nat) (m : HandshakeMsg) : State :=
  let b := getSub s k
  if !b.linkUp then s
  else if m.mode.toNat ≠ subCfg b 1 0 then logEv s (spanEv s 2 k (BitVec.ofNat 64 m.mode.toNat))
  else if !b.shaking && tb m.flags.toNat 1 then sendHandshake s k
  else
    let s1 := modSub (if b.shaking then s else startShake s k false) k fun b => notePartner b m
    let c := getSub s1 k
    let s2 := if c.partnerReset && !c.needReset then
        let d := drawStart s1
        modSub d.2 k fun b => { b with needReset := true, txStart := d.1, acked := false }
      else modSub s1 k fun b => { b with acked := b.acked || tb m.flags.toNat 1 }
    let e := getSub s2 k
    if e.acked && (!e.needReset || e.partnerReset) then finishShake s2 k else s2

/-! ### Link down and blot (R311, R312, R314) -/

/-- The sub-port finds its link down: reason 1 PHY, 2 request, 3 keepalive (R311, R312). -/
def linkDownOn (s : State) (k reason : Nat) : State :=
  let b := getSub s k
  if !b.linkUp && !b.training then s
  else
    let dry := (tget {} s.ports (k / 8)).dryMs
    let c := { b with
      linkUp := false, training := false, shaking := false, narrowing := false, linkOp := 0, replaying := false, realigned := false
      partnerDone := false, qLink := [], retrains := b.retrains + 1 }
    let ev := spanEv s 5 k (BitVec.ofNat 64 reason)
    if b.state = .plot then
      let s1 := logEv (setSub s k { c with state := .holding, holding := true, holdStart := s.time.now }) ev
      beginHold (logEv s1 (spanEv s 6 k (BitVec.ofNat 64 dry.toNat))) (k / 8) (k % 8) (holdDry dry)
    else logEv (setSub s k { c with state := heldState b (restState s k) }) ev

/-- TELEMETRY grains of a list. -/
def telemetryIn (gs : List Grain) : Nat := (gs.filter fun g => bitsOf g.header.toNat 17 14 == 5).length

/-- R314 step 1: what a sub-port holds of the plot's traffic goes; and how many grains that was. -/
def blotDiscard (s : State) (k : Nat) : State × Nat :=
  let b := getSub s k
  let sent := b.replay.map Prod.snd
  let n := sent.length + b.q0.length + b.q1.length + b.q2.length + b.q3.length + b.waitPool.length
  let s1 := setSub s k { b with replay := [], replaying := false, replayPos := 0, q0 := [], q1 := [], q2 := [], q3 := [], waitPool := [] }
  ({ s1 with blot := { s1.blot with inBlotted := s1.blot.inBlotted + BitVec.ofNat 32 (telemetryIn sent + b.q2.length) } }, n)

/-- R314 step 3: HOLD_END with OUTCOME 1, also where a fence blots a sub-port that did not hold (R292), its new state, the count and the
entry. -/
def blotDown (s : State) (k : Nat) (after : LinkState) (n : Nat) : State :=
  let s1 := endHold s (k / 8) (k % 8) (holdDry (tget {} s.ports (k / 8)).dryMs) 1
  logEv (modSub s1 k fun b =>
    { b with state := after, holding := false, blotted := true, blots := b.blots + 1, needReset := true }) (spanEv s 8 k (BitVec.ofNat 64 n))

/-- A sub-port blots (R314 steps 1 to 3) and is left in a state: DOWN, OFF on a port not enabled, or FENCED (R294, R404). -/
def blot (s : State) (k : Nat) (after : LinkState) : State :=
  let d := blotDiscard s k
  blotDown (failHere d.1 4) k after d.2

/-! ### Training (R286, R287) -/

/-- Training begins; configuration takes effect (R293). -/
def startTraining (s : State) (k : Nat) : State :=
  modSub s k fun b =>
    { b with
      training := true, linkUp := false, shaking := false, state := heldState b .training
      cfgIn := BitVec.ofNat 64 (cfg s (offSpanCfg (k / 8)) 63 0) }

/-- What training found goes to SPANn.LANES. -/
def noteLanes (s : State) (n : Nat) (mine termFault inverted : BitVec 8) (reversed : Bool) : State :=
  { s with ports := tmod {} s.ports n fun p =>
      { p with
        termFault := (p.termFault &&& ~~~mine) ||| (termFault &&& mine), inverted := (p.inverted &&& ~~~mine) ||| (inverted &&& mine)
        reversed } }

/-- TRAINING_COMPLETE (R286): a handshake follows, or the sub-port is OFF. -/
def execTrainingComplete (port : BitVec 6) (sub : BitVec 3) (ok reversed : Bool) (termFault inverted : BitVec 8) (s : State) : Out :=
  let n := port.toNat
  let k := subKey n sub.toNat
  let b := getSub s k
  .next (
    if !b.training then s
    else
      let mine := ownLanes (shareOf b) sub.toNat
      let s1 := noteLanes s n mine termFault inverted reversed
      let good := mine &&& ~~~termFault
      let w := widthFor 8 (laneCount good)
      if !ok || w = 0 || (!isDirect b && good != mine) then
        logEv (setSub s1 k { b with training := false, state := heldState b .off, width := 0, lanes := 0 })
          (spanEv s 1 k (BitVec.ofNat 64 (tget {} s1.ports n).termFault.toNat))
      else
        startShake (setSub s1 k { b with
          training := false, linkUp := true, goodLanes := good, badLanes := 0, partnerBad := 0, width := BitVec.ofNat 4 w
          lanes := lowLanes good w, narrowing := false, linkOp := 0 }) k false)

/-- PEN_HOLDER_WAIT_EXPIRY (R287): the follower of a lost link starts its own training. -/
def execPenHolderWaitExpiry (port : BitVec 6) (sub : BitVec 3) (s : State) : Out :=
  let k := subKey port.toNat sub.toNat
  let b := getSub s k
  .next (
    if subThere s port.toNat sub.toNat && isDirect b && b.rolesKnown && !b.pen && !b.linkUp && !b.training
        && (b.state == .down || b.state == .holding || b.state == .fenced) then startTraining s k
    else s)

/-- HANDSHAKE (R290). -/
def execHandshake (port : BitVec 6) (sub : BitVec 3) (m : HandshakeMsg) (s : State) : Out :=
  .next (handshakeOn s (subKey port.toNat sub.toNat) m)

/-- HANDSHAKE_TIMER (R290): resent every 10 µs until the exchange completes. -/
def execHandshakeTimer (port : BitVec 6) (sub : BitVec 3) (s : State) : Out :=
  let k := subKey port.toNat sub.toNat
  .next (if (getSub s k).shaking && (getSub s k).linkUp then sendHandshake s k else s)

/-! ### Narrowing and widening (R288, R289) -/

/-- The link carries a completed handshake and can narrow. -/
def canNarrow (b : SubSt) : Bool := b.linkUp && isDirect b && b.rolesKnown && !b.shaking

/-- A link operation with a lane set begins on this end: sending stops, the PHY realigns. -/
def beginLanes (s : State) (k : Nat) (lanes : BitVec 8) (w : Nat) (opNum : BitVec 32) (linkOp : BitVec 8) : State :=
  let narrower := decide (w < (getSub s k).width.toNat)
  let s1 := modSub s k fun b =>
    { b with
      narrowing := true, realigned := false, partnerDone := false, replaying := false, lanes, width := BitVec.ofNat 4 w, opNum, linkOp
      narrowings := if narrower then b.narrowings + 1 else b.narrowings }
  if narrower then logEv s1 (spanEv s 4 k (BitVec.ofNat 64 lanes.toNat)) else s1

/-- The pen-holder picks the lanes of at most `cap` and sends NARROW; without a lane pair it retrains. -/
def penLanes (s : State) (k cap : Nat) : State :=
  let b := getSub s k
  let w := widthFor cap (laneCount (goodBoth b))
  if w = 0 then linkDownOn s k 1
  else
    let lanes := lowLanes (goodBoth b) w
    queueLink (beginLanes s k lanes w (b.opNum + 1) 2) k 2 lanes (BitVec.ofNat 8 w) (b.opNum + 1) 0

/-- Lanes in use have failed at either end: the pen-holder narrows, during a narrowing only if the width is not met (R316). -/
def penNarrow (s : State) (k : Nat) : State :=
  let b := getSub s k
  if b.narrowing then (if b.width.toNat ≤ laneCount (goodBoth b) then penLanes s k b.width.toNat else linkDownOn s k 1)
  else penLanes s k (b.width.toNat - 1)

/-- LANE_FAULT (R288, R284, R316); the follower asks, since only the pen-holder chooses lanes (R287). -/
def execLaneFault (port : BitVec 6) (sub : BitVec 3) (lanes : BitVec 8) (s : State) : Out :=
  let k := subKey port.toNat sub.toNat
  let b := getSub s k
  .next (
    if !b.linkUp || (lanes &&& b.lanes) = 0 then s
    else if !canNarrow b || shareOf b = 8 then linkDownOn s k 1
    else
      let s1 := setSub s k { b with badLanes := b.badLanes ||| lanes }
      if b.pen then penNarrow s1 k
      else if b.narrowing && decide (laneCount (goodBoth (getSub s1 k)) < b.width.toNat) then linkDownOn s1 k 1
      else queueLink (modSub s1 k fun b => { b with linkOp := 1 }) k 1 (getSub s1 k).badLanes 0 0 0)

/-- NARROW_REQ reaches the pen-holder (R288); during a narrowing its mask waits for the next (R316). -/
def narrowReqOn (s : State) (k : Nat) (lanes : BitVec 8) : State :=
  let b := getSub s k
  if !canNarrow b || !b.pen then s
  else
    let s1 := setSub s k { b with partnerBad := b.partnerBad ||| lanes }
    if b.narrowing || (lanes &&& b.lanes) = 0 then s1 else if shareOf b = 8 then linkDownOn s1 k 1 else penNarrow s1 k

/-- NARROW reaches the follower (R288); a repeat of the operation just done is answered again. -/
def narrowOn (s : State) (k : Nat) (lanes width : BitVec 8) (opNum : BitVec 32) : State :=
  let b := getSub s k
  if !canNarrow b || b.pen then s
  else if opNum = b.opNum then
    (if b.narrowing && !b.realigned then s else queueLink s k 3 b.lanes (BitVec.ofNat 8 b.width.toNat) opNum b.rxExpect)
  else beginLanes s k lanes width.toNat opNum 0

/-- Both ends are aligned: the sender replays from the partner's RX_EXPECT, and a lane that failed meanwhile starts the next
narrowing (R288, R316). -/
def resumeLanes (s : State) (k : Nat) : State :=
  let s1 := modSub s k fun b =>
    let c := { b with narrowing := false, realigned := false, partnerDone := false, linkOp := if b.linkOp = 2 then 0 else b.linkOp }
    if b.state = .plot then startReplay (ackTo c b.partnerRx) else c
  let b := getSub s1 k
  if b.pen && (b.lanes &&& (b.badLanes ||| b.partnerBad)) != 0 then penNarrow s1 k else s1

/-- NARROW_DONE (R288). -/
def narrowDoneOn (s : State) (k : Nat) (opNum rx : BitVec 32) : State :=
  let b := getSub s k
  if !canNarrow b || !b.narrowing || opNum ≠ b.opNum then s
  else
    let s1 := setSub s k { b with partnerDone := true, partnerRx := rx, linkOp := if b.linkOp = 2 then 0 else b.linkOp }
    if b.realigned then resumeLanes s1 k else s1

/-- NARROW_REQ (R288). -/
def execNarrowReq (port : BitVec 6) (sub : BitVec 3) (lanes : BitVec 8) (s : State) : Out :=
  .next (narrowReqOn s (subKey port.toNat sub.toNat) lanes)

/-- NARROW (R288). -/
def execNarrow (port : BitVec 6) (sub : BitVec 3) (lanes width : BitVec 8) (opNum : BitVec 32) (s : State) : Out :=
  .next (narrowOn s (subKey port.toNat sub.toNat) lanes width opNum)

/-- NARROW_DONE (R288). -/
def execNarrowDone (port : BitVec 6) (sub : BitVec 3) (opNum rxExpect : BitVec 32) (s : State) : Out :=
  .next (narrowDoneOn s (subKey port.toNat sub.toNat) opNum rxExpect)

/-- REALIGN_DONE (R288): NARROW_DONE goes out, or the sub-port retrains. -/
def execRealignDone (port : BitVec 6) (sub : BitVec 3) (ok : Bool) (s : State) : Out :=
  let k := subKey port.toNat sub.toNat
  let b := getSub s k
  .next (
    if !b.narrowing || b.realigned then s
    else if !ok then linkDownOn s k 1
    else
      let s1 := queueLink (setSub s k { b with realigned := true }) k 3 b.lanes (BitVec.ofNat 8 b.width.toNat) b.opNum b.rxExpect
      if b.partnerDone then resumeLanes s1 k else s1)

/-- LINK_OP_REPEAT_TIMER (R288): NARROW_REQ or NARROW again. -/
def execLinkOpRepeatTimer (port : BitVec 6) (sub : BitVec 3) (s : State) : Out :=
  let k := subKey port.toNat sub.toNat
  let b := getSub s k
  .next (
    if b.linkOp = 1 then queueLink s k 1 b.badLanes 0 0 0
    else if b.linkOp = 2 then queueLink s k 2 b.lanes (BitVec.ofNat 8 b.width.toNat) b.opNum 0
    else s)

/-- LINK_RETRAIN (R311): a LINK grain RETRAIN. -/
def execLinkRetrain (port : BitVec 6) (sub : BitVec 3) (s : State) : Out := .next (linkDownOn s (subKey port.toNat sub.toNat) 2)

/-- A write to SUB.CTL is refused (R289, R293). -/
def refuseSubCtl (s : State) (n u v : Nat) : State :=
  logEv s { cls := clsSpan, cause := 10, loc := BitVec.ofNat 64 (offSubCtl n u), a0 := BitVec.ofNat 64 v, die := portDie s n }

/-- RETRAIN is written (R311, R293): the partner hears it in a LINK grain. An OFF sub-port of an enabled port trains (log 26). -/
def retrainOn (s : State) (n u : Nat) : State :=
  let k := subKey n u
  let b := getSub s k
  if s.step.running then refuseSubCtl s n u 1
  else if b.linkUp then linkDownOn (sendFrame s k true [linkGrain 8 ([4, 0, 0, 0] ++ bytesOf 4 b.opNum)]) k 2
  else if subThere s n u && !b.training && b.state == .off then startTraining s k
  else linkDownOn s k 2

/-- RETRAIN (R311). -/
def execRetrain (port : BitVec 6) (sub : BitVec 3) (s : State) : Out := .next (retrainOn s port.toNat sub.toNat)

/-- The pen-holder widens over every lane that training left good, less those the follower names (R289; log 26). -/
def penWiden (s : State) (k : Nat) (mask : BitVec 8) : State :=
  let b := getSub s k
  if canNarrow b && b.pen && !b.narrowing then penLanes (setSub s k { b with badLanes := 0, partnerBad := mask }) k 8 else s

/-- WIDEN is written (R289). -/
def widenOn (s : State) (n u : Nat) : State :=
  let k := subKey n u
  let b := getSub s k
  if s.step.running then refuseSubCtl s n u 2
  else if b.pen then penWiden s k 0
  else if canNarrow b then queueLink (setSub s k { b with badLanes := 0 }) k 5 0 0 0 0
  else s

/-- WIDEN (R289). -/
def execWiden (port : BitVec 6) (sub : BitVec 3) (s : State) : Out := .next (widenOn s port.toNat sub.toNat)

/-- WIDEN_REQ (R289). -/
def execWidenReq (port : BitVec 6) (sub : BitVec 3) (lanes : BitVec 8) (s : State) : Out :=
  .next (penWiden s (subKey port.toNat sub.toNat) lanes)

/-! ### Down, up, dry time -/

/-- LINK_DOWN (R311, R312): the PHY reports it. -/
def execLinkDown (port : BitVec 6) (sub : BitVec 3) (s : State) : Out := .next (linkDownOn s (subKey port.toNat sub.toNat) 1)

/-- KEEPALIVE_EXPIRY (R311). -/
def execKeepaliveExpiry (port : BitVec 6) (sub : BitVec 3) (s : State) : Out :=
  let k := subKey port.toNat sub.toNat
  .next (if (getSub s k).linkUp then linkDownOn s k 3 else s)

/-- LINK_UP (R313, R314): the link returns and the sub-port retrains. -/
def execLinkUp (port : BitVec 6) (sub : BitVec 3) (s : State) : Out :=
  let k := subKey port.toNat sub.toNat
  let b := getSub s k
  .next (if subThere s port.toNat sub.toNat && !b.linkUp && !b.training then startTraining s k else s)

/-- DRY_TIME_EXPIRY (R314); an infinite dry time does not expire. -/
def execDryTimeExpiry (port : BitVec 6) (sub : BitVec 3) (s : State) : Out :=
  let k := subKey port.toNat sub.toNat
  .next (
    if (getSub s k).holding && (tget {} s.ports port.toNat).dryMs != 0 then
      blot (modSub s k fun b => { b with linkUp := false, training := false, shaking := false }) k
        (if (getSub s k).fenced then .fenced else restState s k)
    else s)

/-! ### Fences (R292, R404) -/

/-- FENCE_PORT is served (R292, R404): a sub-port in PLOT blots at once; one that holds runs on its dry clock, FENCED (log 26); one on a
port without a lane group reads OFF (R29). An OPEN_PLOT that waits for it fails (R347). -/
def serveFence (s : State) (ring : Nat) (seq : BitVec 32) (port sub : BitVec 8) : State :=
  let n := port.toNat
  let k := subKey n sub.toNat
  let fin (s : State) (err : Nat) := done s ring seq (.fencePort port sub) err
  if 50 ≤ n ∨ subsOf s n ≤ sub.toNat then fin s errBadField
  else
    let b := getSub s k
    let s1 := modSub s k fun b => { b with fenced := true }
    let s2 := if b.state = .plot then blot s1 k .fenced
      else modSub s1 k fun b => { b with state := if (tget {} s.ports n).group = 0x3F then .off else .fenced }
    fin (checkOpen s2) errOk

/-- UNFENCE_PORT is served: a handshake with SEQ_RESET follows where the link is up. -/
def serveUnfence (s : State) (ring : Nat) (seq : BitVec 32) (port sub : BitVec 8) : State :=
  let n := port.toNat
  let k := subKey n sub.toNat
  let fin (s : State) (err : Nat) := done s ring seq (.unfencePort port sub) err
  if 50 ≤ n ∨ subsOf s n ≤ sub.toNat then fin s errBadField
  else if (getSub s k).fenced = false then fin s errState
  else
    let s1 := modSub s k fun b =>
      { b with fenced := false, needReset := true, state := if b.holding then .holding else if b.training then .training else restState s k }
    fin (if (getSub s1 k).linkUp then startShake s1 k true else s1) errOk

end Sys2Proof.Machine
end

