-- ==== Sys2Proof/Machine/SpanFrames.lean ====
section
/-! DEFINITION. Span frames: grains received (R297, R300, R303-R305), the rotation that sends them (R301-R309), and their timers. -/

namespace Sys2Proof.Machine

/-! ### What a grain does -/

/-- A grain that passed its CRC is discarded: counted in OTHER_REJECT, logged, its buffer freed (R297). -/
def rejectGrain (s : State) (k : Nat) (header : BitVec 64) : State :=
  let s1 := modSub s k fun b => { b with otherReject := b.otherReject + 1 }
  logEv (freeBuffer s1 k (bitsOf header.toNat 13 12)) (spanEv s 9 k header)

/-- A received TELEMETRY grain (R394): to the sink ring, to the uplink, or nowhere; NO_ROUTE counts it where there is neither. -/
def telemetryOn (s : State) (k : Nat) (payload : BitVec 2048) : State :=
  let s1 := if cfg s offInbandCfg 10 10 = 1 then sinkWrite s payload
    else if cfg s offInbandCfg 11 11 = 1 then (telemetryRoute s payload).1
    else if (uplink s).isSome then s
    else { s with blot := { s.blot with noRoute := s.blot.noRoute + 1 } }
  freeBuffer s1 k 2

/-- A BULK grain (R354, R355): data while a delivery from the device before is open, else an operation. -/
def bulkOn (s : State) (k : Nat) (payload : BitVec 2048) : State :=
  let p := bytesOf 256 payload
  let e := fieldAt 32 p 4 4
  let b := fieldAt 32 p 8 4
  let x := fieldAt 32 p 12 4
  let s1 :=
    if fromPrev s k && s.load.rx.isSome then bulkDataOn s k payload
    else match leNat (slice p 0 1) with
      | 1 => bulkStartOn s k e b x
      | 2 => bulkAckOn s k e b
      | 3 => bulkNackOn s k e b x
      | _ => s
  freeBuffer s1 k 3

/-- What the commit grain of a step brings for serving (R195, R235): the descriptor record to a follower, the pass report to the
head. -/
def servingGrain (s : State) (t : BitVec 64) (rec_ : Option Descriptor) (report : Option PassReport) : State :=
  if isHead s then
    match report with
    | none => s
    | some r => match descOf s (t - BitVec.ofNat 64 (plotSize s - 1)) with | some d => takeReport s d r | none => s
  else if isFollower s && (rec_.isSome || report.isSome) then pass s t rec_ report
  else s

/-- A COMMIT grain of sender step `t`, with what it brings for serving; it can release a boundary or complete a checkpoint image. -/
def commitGrainOn (s : State) (k sc : Nat) (t : BitVec 64) (rec_ : Option Descriptor) (report : Option PassReport) : State :=
  finishBoundary (ckptFill (servingGrain (commitOn s k sc t) t rec_ report))

/-- The sub-port carries the open plot's grains. -/
def carriesPlot (s : State) (k : Nat) : Bool := s.sec.isOpen && (getSub s k).state == .plot

/-- A grain of a span channel, or a rejected one where the channel is not an inbound one of the live sheet. -/
def onChannel (s : State) (k sc ty : Nat) (f : State → State) : State :=
  if (inSpanChan s k sc).isSome then f s else rejectGrain s k (grainHeader sc 1 ty 0 s.sec.plot.toNat)

/-- DROPS of a header. -/
def grainDrops (g : Grain) : List Drop := (dropsOf 4 (bytesOf 256 g.payload)).take (bitsOf g.header.toNat 20 18)

/-- The entries of a CREDIT grain's payload. -/
def creditEntries (p : Bytes) : Nat → List (BitVec 32)
  | 0 => []
  | n + 1 => fieldAt 32 p 0 4 :: creditEntries (p.drop 4) n

/-- CLASS that a TYPE asks for (R297); none for a reserved TYPE or a link grain. -/
def classOf (ty : Nat) : Option Nat := [1, 1, 1, 0, 0, 2, 3][ty]?

/-- A grain of the plot just closed that comes during its scrub counts in PLOT_REJECT, whatever the sub-port's state (R408; log 39). -/
def ofClosedPlot (s : State) (plot : Nat) : Bool := s.sec.scrubState == 1 && s.sec.lastPlot != 0 && plot == s.sec.lastPlot.toNat

/-- An accepted grain of a frame that is not a LINK frame (R297). -/
def grainOn (s : State) (k : Nat) (g : Grain) : State :=
  let h := g.header.toNat
  let ty := bitsOf h 17 14
  let cls := bitsOf h 13 12
  let sc := bitsOf h 11 0
  if ((getSub s k).state = .plot ∧ bitsOf h 47 32 ≠ s.sec.plot.toNat) ∨ ofClosedPlot s (bitsOf h 47 32) = true then
    let s1 := modSub s k fun b => { b with plotReject := b.plotReject + 1 }
    logEv (freeBuffer s1 k cls)
      { cls := clsSecurity, cause := 3, loc := portLoc (k / 8) (k % 8), a0 := BitVec.ofNat 64 (bitsOf h 47 32)
        die := portDie s (k / 8) }
  else if classOf ty ≠ some cls ∨ carriesPlot s k = false ∨ (ty ≤ 2 ∧ (inSpanChan s k sc).isSome = false) then rejectGrain s k g.header
  else match ty with
    | 0 => dataOn s k sc (grainDrops g)
    | 1 => commitGrainOn s k sc (fieldAt 64 (bytesOf 256 g.payload) 0 8) (g.cargo.bind (·.record)) (g.cargo.bind (·.report))
    | 2 => voidOn s k sc (fieldAt 64 (bytesOf 256 g.payload) 0 8)
    | 3 => creditOn s k (creditEntries (bytesOf 256 g.payload) 64)
    | 4 => freeBuffer (launchPayloadOn s k g.payload) k 0
    | 5 => telemetryOn s k g.payload
    | _ => bulkOn s k g.payload

/-- An accepted grain of a LINK frame: HANDSHAKE or LINK; any other is out of place (R297). -/
def linkGrainOn (s : State) (k : Nat) (mac : BitVec 48) (g : Grain) : State :=
  let p := bytesOf 256 g.payload
  let ty := bitsOf g.header.toNat 17 14
  let op := leNat (slice p 0 1)
  let mask := fieldAt 8 p 1 1
  if ty = 7 then handshakeOn s k (handshakeOf p mac)
  else if ty = 8 then
    if op = 1 then narrowReqOn s k mask
    else if op = 2 then narrowOn s k mask (fieldAt 8 p 2 1) (fieldAt 32 p 4 4)
    else if op = 3 then narrowDoneOn s k (fieldAt 32 p 4 4) (fieldAt 32 p 8 4)
    else if op = 4 then linkDownOn s k 2
    else if op = 5 then penWiden s k mask
    else s
  else
    logEv (modSub s k fun b => { b with otherReject := b.otherReject + 1 }) (spanEv s 9 k g.header)

/-- A grain whose CRC fails (R300). -/
def dropGrain (s : State) (k : Nat) : State := modSub s k fun b => { b with crcDrops := b.crcDrops + 1 }

/-- The grains of a frame, in order (R300). -/
def grainsOn (s : State) (k : Nat) (link : Bool) (mac : BitVec 48) : List Grain → State
  | [] => s
  | g :: gs =>
    let seq := if link then 0xFFFFFFFF else (getSub s k).rxExpect
    let s1 :=
      if g.crc ≠ grainCrc seq g then dropGrain s k
      else if link then linkGrainOn s k mac g
      else grainOn (modSub s k fun b => { b with rxExpect := seqNext b.rxExpect, ackOwed := true }) k g
    grainsOn s1 k link mac gs

/-- FREED of a frame's header (R303). -/
def freedOn (b : SubSt) (freed : BitVec 64) : SubSt :=
  let f (c : Nat) := bitsOf freed.toNat (16 * c + 15) (16 * c)
  { b with
    out := (List.range 4).map fun c => b.out.getD c 0 - (f c + 65536 - b.last.getD c 0) % 65536
    last := (List.range 4).map f }

/-- A frame is a span frame of this sub-port: its EtherType and tag are those of SPANn.CFG (R293, R295). -/
def frameOurs (b : SubSt) (f : SpanFrame) : Bool := f.etherType.toNat == subCfg b 31 16 && f.vlan == vlanOf b

/-- ACK and FREED of a frame speak of what this end has sent: not while a handshake is under way, in a hold, or from a wrong partner
(R291, R313; log 26). -/
def headerCounts (b : SubSt) : Bool := !b.shaking && !b.holding && b.state != .miswired

/-- SPAN_FRAME (R295-R301): a frame that fails its check sequence or VERSION is discarded whole. -/
def execSpanFrame (port : BitVec 6) (sub : BitVec 3) (f : SpanFrame) (s : State) : Out :=
  let k := subKey port.toNat sub.toNat
  let b := getSub s k
  .next (
    if !b.linkUp || !f.fcsOk || !frameOurs b f || f.version != 1 then s
    else
      let c := if headerCounts b then freedOn (ackTo b f.ack) f.freed else b
      grainsOn (setSub s k c) k (tb f.flags.toNat 0) f.srcMac (f.body.take f.grains.toNat))

/-- A grain by its row: handled as one that was accepted, on a sub-port in PLOT (log 22). -/
def grainRow (port : BitVec 6) (sub : BitVec 3) (s : State) (f : Nat → State → State) : Out :=
  let k := subKey port.toNat sub.toNat
  .next (if carriesPlot s k then f k s else s)

/-- DATA (R305). -/
def execData (port : BitVec 6) (sub : BitVec 3) (chan : BitVec 12) (drops : List Drop) (s : State) : Out :=
  grainRow port sub s fun k s => onChannel s k chan.toNat 0 fun s => dataOn s k chan.toNat (drops.take 4)

/-- COMMIT_GRAIN (R305, R67 event 8, R195, R235). -/
def execCommitGrain (port : BitVec 6) (sub : BitVec 3) (chan : BitVec 12) (step _count : BitVec 64) (rec_ : Option Descriptor)
    (report : Option PassReport) (s : State) : Out :=
  grainRow port sub s fun k s => onChannel s k chan.toNat 1 fun s => commitGrainOn s k chan.toNat step rec_ report

/-- VOID (R73). -/
def execVoid (port : BitVec 6) (sub : BitVec 3) (chan : BitVec 12) (step : BitVec 64) (_attempt : BitVec 8) (s : State) : Out :=
  grainRow port sub s fun k s => onChannel s k chan.toNat 2 fun s => voidOn s k chan.toNat step

/-- CREDIT (R304). -/
def execCredit (port : BitVec 6) (sub : BitVec 3) (entries : List (BitVec 32)) (s : State) : Out :=
  grainRow port sub s fun k s => creditOn s k (entries.take 64)

/-- LAUNCH (R263). -/
def execLaunch (port : BitVec 6) (sub : BitVec 3) (payload : BitVec 2048) (s : State) : Out :=
  grainRow port sub s fun k s => freeBuffer (launchPayloadOn s k payload) k 0

/-- TELEMETRY (R394). -/
def execTelemetry (port : BitVec 6) (sub : BitVec 3) (payload : BitVec 2048) (s : State) : Out :=
  grainRow port sub s fun k s => telemetryOn s k payload

/-- BULK_START (R354, R355). -/
def execBulkStart (port : BitVec 6) (sub : BitVec 3) (epoch block length : BitVec 32) (s : State) : Out :=
  grainRow port sub s fun k s => freeBuffer (bulkStartOn s k epoch block length) k 3

/-- BULK_DATA (R354). -/
def execBulkData (port : BitVec 6) (sub : BitVec 3) (payload : BitVec 2048) (s : State) : Out :=
  grainRow port sub s fun k s => freeBuffer (bulkDataOn s k payload) k 3

/-- BULK_ACK (R354). -/
def execBulkAck (port : BitVec 6) (sub : BitVec 3) (epoch block : BitVec 32) (s : State) : Out :=
  grainRow port sub s fun k s => freeBuffer (bulkAckOn s k epoch block) k 3

/-- BULK_NACK (R355). -/
def execBulkNack (port : BitVec 6) (sub : BitVec 3) (epoch block position : BitVec 32) (s : State) : Out :=
  grainRow port sub s fun k s => freeBuffer (bulkNackOn s k epoch block position) k 3

/-! ### Sending (R299, R301-R304, R309) -/

/-- GRAINS_MAX of the sub-port. -/
def grainsMax (b : SubSt) : Nat := subCfg b 15 10

/-- Pool credit for a grain of class `c` (R303). -/
def maySend (b : SubSt) (c : Nat) : Bool :=
  let ovr := ((List.range 4).map fun k => b.out.getD k 0 - b.res.getD k 0).foldl (· + ·) 0
  decide (b.out.getD c 0 < b.res.getD c 0) || decide (ovr < b.pool - b.res.foldl (· + ·) 0)

/-- The replay share has room (R302). -/
def replayRoom (b : SubSt) : Bool := decide (b.replay.length < 16384 / shareOf b)

/-- A grain is numbered and kept for replay (R299, R301, R303). -/
def numberGrain (b : SubSt) (g : Grain) : SubSt × Grain :=
  let g1 := { g with crc := grainCrc b.txNext g }
  let c := bitsOf g.header.toNat 13 12
  ({ b with replay := b.replay ++ [(b.txNext, g1)], txNext := seqNext b.txNext, out := b.out.modify c (· + 1) }, g1)

/-- The first grains of a queue, at most `n`, that credits and the replay share allow: sender, grains sent, queue left. -/
def takeQueue (b : SubSt) (q : List Grain) (n : Nat) : SubSt × List Grain × List Grain :=
  match q, n with
  | [], _ => (b, [], [])
  | q, 0 => (b, [], q)
  | g :: q, n + 1 =>
    if maySend b (bitsOf g.header.toNat 13 12) && replayRoom b then
      let r := numberGrain b g
      let t := takeQueue r.1 q n
      (t.1, r.2 :: t.2.1, t.2.2)
    else (b, [], g :: q)

/-- Grains owed to the partner on an inbound span channel (R304, R306). -/
def creditDue (s : State) (k sc : Nat) : Int :=
  let b := getSub s k
  let depth : Nat := match inSpanChan s k sc with
    | some ch => ((liveChans s).find? fun v => chIndex v == ch).elim 0 chDepth
    | none => 0
  ((depth / 4 + tget 0 b.drained sc / 4 : Nat) : Int) - (tget 0 b.granted sc : Nat)

/-- Span channels of a sub-port that may be owed credit. -/
def creditChans (s : State) (k : Nat) : List Nat :=
  let live := ((inSpans s).filter fun e => e.2.1 == k).map fun e => e.2.2
  live ++ ((getSub s k).granted.map Prod.fst).filter fun c => !live.contains c

/-- Entries of the next CREDIT grain: at most 64 (R297). -/
def creditList (s : State) (k : Nat) : List (Nat × Int) :=
  (((creditChans s k).map fun c => (c, creditDue s k c)).filter fun e => e.2 != 0).take 64

/-- A CREDIT grain of entries. -/
def creditGrain (plot : Nat) (es : List (Nat × Int)) : Grain :=
  mkGrain (grainHeader 0 0 3 0 plot) (wordOf 2048 (es.flatMap fun e => natLe 4 (e.1 + 4096 * (BitVec.ofInt 20 e.2).toNat)))

/-- Credits that a grant leaves as granted. -/
def noteGranted (b : SubSt) (es : List (Nat × Int)) : SubSt :=
  { b with granted := es.foldl (fun t e => tset 0 t e.1 (((tget 0 t e.1 : Nat) : Int) + e.2).toNat) b.granted }

/-- A slot of the rotation. -/
inductive RotSlot where
  | control
  | chan (sc grains : Nat)
  | telemetry (grains : Nat)
  | bulk (grains : Nat)
deriving DecidableEq, Repr

/-- A data entry of a round (R307). -/
def rotEntry (v : BitVec 32) : List RotSlot :=
  let n := bitsOf v.toNat 19 14
  match bitsOf v.toNat 13 12 with
  | 0 => [.chan (bitsOf v.toNat 11 0) n]
  | 1 => [.telemetry n]
  | 2 => [.bulk n]
  | _ => []

/-- The rotation of a sub-port (R308, R309). -/
def rotation (s : State) (k : Nat) : List RotSlot :=
  let m := grainsMax (getSub s k)
  let rounds : List (List (BitVec 32)) := match s.sheets.live with
    | some sh => (tget ({} : OrderList) sh.orders (k / 8)).rounds.getD (k % 8) []
    | none => []
  let body : List RotSlot := if rounds = [] then [.control] else rounds.flatMap fun r => .control :: r.flatMap rotEntry
  body ++ [.telemetry m, .bulk m]

/-- A frame of a class queue. -/
def offerQueue (s : State) (k n : Nat) (q : SubSt → List Grain) (put : SubSt → List Grain → SubSt) : Option State :=
  let b := getSub s k
  let t := takeQueue b (q b) n
  if t.2.1 = [] then none else some (sendFrame (setSub s k (put t.1 t.2.2)) k false t.2.1)

/-- The control slot: a LINK frame, then one frame of class-0 grains, launch messages before CREDIT (R309). -/
def offerControl (s : State) (k : Nat) : Option State :=
  let b := getSub s k
  let m := grainsMax b
  if b.qLink ≠ [] ∧ b.linkSent = false then
    some (sendFrame (setSub s k { b with qLink := b.qLink.drop m, linkSent := true }) k true (b.qLink.take m))
  else if b.state ≠ .plot then none
  else
    let t := takeQueue b b.q0 m
    let es := creditList s k
    if es ≠ [] ∧ t.2.1.length < m ∧ maySend t.1 0 = true ∧ replayRoom t.1 = true then
      let r := numberGrain (noteGranted t.1 es) (creditGrain s.sec.plot.toNat es)
      some (sendFrame (setSub s k { r.1 with q0 := t.2.2 }) k false (t.2.1 ++ [r.2]))
    else if t.2.1 = [] then none
    else some (sendFrame (setSub s k { t.1 with q0 := t.2.2 }) k false t.2.1)

/-- The producer of a channel has reported its stroke total: it has retired its last command (R67 event 5). -/
def producerDone (s : State) (ch : Nat) : Bool :=
  match chanEntry s ch with
  | none => false
  | some v =>
    let e := chProducer v
    let c := bitsOf e 5 0
    if epTile e = 0x1E then
      let m := bitsOf e 19 15
      (getUnit s (moverKey m)).blocked.isNone && decide ((moverList s m).entries.length ≤ (getUnit s (moverKey m)).issued)
    else (getUnit s (scribeKey c)).ended && (epTile e == 0x1F || tileDone (getUnit s (tileKey c (epTile e))))

/-- An outbound channel's drops wait as grains: full ones, and a partial one once the producer has reported its total (R304). -/
def packFull (s : State) (k sc : Nat) : State :=
  match outSpanChan s k sc with
  | none => s
  | some ch =>
    let ds := getChan s ch
    let n := if producerDone s ch then ds.length else ds.length / 4 * 4
    modSub (setChan s ch (ds.drop n)) k fun b =>
      { b with q1 := b.q1 ++ dataGrains s.sec.plot.toNat sc n (ds.take n), sent := tmod 0 b.sent sc (· + n) }

/-- Grains of one span channel that credits allow, in channel order: a DATA grain takes a channel credit (R304, R309). -/
def takeChan (b : SubSt) (sc : Nat) : List (Nat × Grain) → Nat → SubSt × List Grain × List (Nat × Grain)
  | [], _ => (b, [], [])
  | q, 0 => (b, [], q)
  | (c, g) :: q, n + 1 =>
    if c ≠ sc then
      let t := takeChan b sc q (n + 1)
      (t.1, t.2.1, (c, g) :: t.2.2)
    else
      let isData := bitsOf g.header.toNat 17 14 == 0
      if maySend b 1 && replayRoom b && (!isData || decide ((1 : Int) ≤ tget 0 b.credits sc)) then
        let b1 := if isData then { b with credits := tmod 0 b.credits sc (· - 1) } else b
        let r := numberGrain b1 g
        let t := takeChan r.1 sc q n
        (t.1, r.2 :: t.2.1, t.2.2)
      else (b, [], (c, g) :: q)

/-- A CHANNEL slot. -/
def offerChan (s : State) (k sc n : Nat) : Option State :=
  let s1 := packFull s k sc
  let b := getSub s1 k
  let t := takeChan b sc b.q1 n
  if t.2.1 = [] then none else some (sendFrame (setSub s1 k { t.1 with q1 := t.2.2 }) k false t.2.1)

/-- What a slot sends; none where it has nothing. Only a sub-port in PLOT sends classes 1 to 3. -/
def offer (s : State) (k : Nat) (r : RotSlot) : Option State :=
  match r with
  | .control => offerControl s k
  | .chan sc n => if (getSub s k).state = .plot then offerChan s k sc (min n (grainsMax (getSub s k))) else none
  | .telemetry n =>
    if (getSub s k).state = .plot then
      offerQueue s k (min n (grainsMax (getSub s k))) (fun b => b.q2) fun b q => { b with q2 := q } else none
  | .bulk n =>
    if (getSub s k).state = .plot then
      offerQueue s k (min n (grainsMax (getSub s k))) (fun b => b.q3) fun b q => { b with q3 := q } else none

/-- The next slot that has something to send, at most `n` slots from position `i` on; a control slot that has sent its LINK frame keeps
its turn for its class-0 frame. -/
def rotate (s : State) (k : Nat) (rot : List RotSlot) (i : Nat) : Nat → State
  | 0 => s
  | n + 1 =>
    let owed := (getSub s k).linkSent
    match offer s k (rot.getD (i % rot.length) .control) with
    | some s1 => modSub s1 k fun b => if b.linkSent && !owed then { b with slot := i % rot.length } else { b with slot := (i + 1) % rot.length, linkSent := false }
    | none => rotate (if owed then modSub s k fun b => { b with linkSent := false } else s) k rot (i + 1) n

/-- The sub-port may send frames other than handshakes. -/
def mayTransmit (b : SubSt) : Bool := b.linkUp && !b.shaking && !b.narrowing

/-- FRAME_SEND (R301, R309): during a replay the unacknowledged grains, unchanged, else the next slot of the rotation. -/
def execFrameSend (port : BitVec 6) (sub : BitVec 3) (s : State) : Out :=
  let k := subKey port.toNat sub.toNat
  let b := getSub s k
  .next (
    if !b.linkUp || b.shaking then s
    else if b.narrowing then
      (if b.qLink = [] then s else sendFrame (setSub s k { b with qLink := b.qLink.drop (grainsMax b) }) k true (b.qLink.take (grainsMax b)))
    else if b.replaying then
      (if b.qLink ≠ [] then sendFrame (setSub s k { b with qLink := b.qLink.drop (grainsMax b) }) k true (b.qLink.take (grainsMax b))
      else
        let gs := ((b.replay.drop b.replayPos).take (grainsMax b)).map Prod.snd
        if gs = [] then s else sendFrame (setSub s k { b with replayPos := b.replayPos + gs.length }) k false gs)
    else
      let rot := rotation s k
      rotate s k rot b.slot (rot.length + 1))

/-- ACK_TIMER (R301). -/
def execAckTimer (port : BitVec 6) (sub : BitVec 3) (s : State) : Out :=
  let k := subKey port.toNat sub.toNat
  .next (if mayTransmit (getSub s k) && (getSub s k).ackOwed then sendFrame s k false [] else s)

/-- REPLAY_TIMER (R301). -/
def execReplayTimer (port : BitVec 6) (sub : BitVec 3) (s : State) : Out :=
  let k := subKey port.toNat sub.toNat
  let b := getSub s k
  .next (if mayTransmit b && b.state == .plot && !b.replay.isEmpty then setSub s k { startReplay b with replays := b.replays + 1 } else s)

/-- REPLAY_CAUGHT_UP (R301): every unacknowledged grain has been sent again. -/
def execReplayCaughtUp (port : BitVec 6) (sub : BitVec 3) (s : State) : Out :=
  let k := subKey port.toNat sub.toNat
  let b := getSub s k
  .next (if b.replaying && decide (b.replay.length ≤ b.replayPos) then setSub s k { b with replaying := false, replayPos := 0 } else s)

/-- FLUSH_TIMER (R304): a partial grain of an outbound span channel is due. -/
def execFlushTimer (port : BitVec 6) (sub : BitVec 3) (chan : BitVec 12) (s : State) : Out :=
  let k := subKey port.toNat sub.toNat
  .next (match outSpanChan s k chan.toNat with
    | some ch => if getChan s ch = [] then s else flushOut s ch k chan.toNat
    | none => s)

/-- KEEPALIVE_TIMER (R311): a frame at least every KEEPALIVE_US. -/
def execKeepaliveTimer (port : BitVec 6) (sub : BitVec 3) (s : State) : Out :=
  let k := subKey port.toNat sub.toNat
  .next (if mayTransmit (getSub s k) then sendFrame s k false [] else s)

end Sys2Proof.Machine
end

