-- ==== Sys2Proof/Machine/Plot.lean ====
section
/-! DEFINITION. Opening and closing a plot, and scrubbing (R261, R347, R348, R401-R408). -/

namespace Sys2Proof.Machine

/-! ### OPEN_PLOT (R347) -/

/-- The topology view's header holds what OPEN_PLOT names (R348). -/
def topoHeaderOk (s : State) (b : OpenPlotBody) (t : Bytes) : Bool :=
  slice t 0 4 == [0x54, 0x4F, 0x50, 0] && fieldAt 16 t 4 2 == 1 && (fieldAt 16 t 6 2).toNat * 24 + 64 == b.topoLen.toNat
    && fieldAt 16 t 8 2 == b.plot && fieldAt 32 t 12 4 == b.position && fieldAt 32 t 16 4 == b.devices
    && fieldAt 64 t 24 8 == s.boot.deviceId

/-- The entry at an offset of the view; its MAC address in IEEE 802.3 order, first octet highest. -/
def topoEntAt (t : Bytes) (o : Nat) : TopoEnt :=
  { port := fieldAt 8 t o 1, sub := fieldAt 8 t (o + 1) 1, role := fieldAt 8 t (o + 2) 1, peerPort := fieldAt 8 t (o + 3) 1
    peerSub := fieldAt 8 t (o + 4) 1, peerId := fieldAt 64 t (o + 8) 8, peerMac := wordOf 48 (slice t (o + 16) 6).reverse }

/-- The entries of a view. -/
def topoEnts (t : Bytes) : List TopoEnt := (List.range (fieldAt 16 t 6 2).toNat).map fun i => topoEntAt t (64 + 24 * i)

/-- An entry names a sub-port of the device and defined roles. -/
def topoEntOk (s : State) (e : TopoEnt) : Bool :=
  decide (e.port.toNat < 50) && decide (e.sub.toNat < subsOf s e.port.toNat) && treeRole 0 e != 3 && treeRole 1 e != 3
    && bitsOf e.role.toNat 7 6 == 0

/-- Entries with a role in tree `a`. -/
def roleCount (es : List TopoEnt) (a r : Nat) : Nat := (es.filter fun e => treeRole a e == r).length

/-- The view obeys R261 and R348; one parent at most in each tree (log 28). -/
def topoObeys (position : BitVec 32) (es : List TopoEnt) : Bool :=
  let a := roleCount es 0 2
  let b := roleCount es 1 2
  decide (a ≤ 50) && decide (b ≤ 50) && decide (roleCount es 0 1 ≤ 1) && decide (roleCount es 1 1 ≤ 1)
    && (if position = 0 then roleCount es 0 1 == 0 && roleCount es 1 1 == 0 else a == 0 || b == 0)
    && decide ((es.filter fun e => tb e.role.toNat 4).length ≤ 1) && decide ((es.filter fun e => tb e.role.toNat 5).length ≤ 1)

/-- The fields of OPEN_PLOT are in range. -/
def openFieldsOk (s : State) (b : OpenPlotBody) : Bool :=
  let f := b.flags.toNat
  b.plot != 0 && decide (f < 8) && decide (1 ≤ b.devices.toNat) && decide (b.devices.toNat ≤ 65536)
    && decide (b.position.toNat < b.devices.toNat) && (!tb f 2 || decide (b.devices.toNat ≤ 256))
    && decide (b.dryMs.toNat ≤ 10000) && (b.dryMs != 0 || tb f 0) && fieldAt 256 (bytesOf 8 b.servCfg) 0 8 == cfgReg s offServCfg
    && decide (64 ≤ b.topoLen.toNat) && decide (b.topoLen.toNat ≤ 64 + 24 * 400) && (b.topoLen.toNat - 64) % 24 == 0

/-- No plot is open and a SCRUB has completed. -/
def mayOpen (s : State) : Bool := !s.sec.isOpen && s.sec.scrubState != 1 && s.sec.scrubbed

/-- The FATAL entry of an out-of-service device (R18, R384). -/
def logOutOfService (s : State) : State :=
  logEv s { cls := clsFatal, cause := 1, a0 := wordOf 64 (s.boot.clusterCores.map (BitVec.ofNat 8)) }

/-- The error with which OPEN_PLOT is refused before its view is read, if any (R18, R347; log 28). -/
def openError (s : State) (b : OpenPlotBody) : Option Nat :=
  if s.boot.outOfService then some errOutOfService
  else if !mayOpen s then some errState
  else if !openFieldsOk s b then some errBadField
  else none

/-- A named sub-port that no plot may use: fenced, or on a port without a lane group (R29, R404). -/
def barred (s : State) (e : TopoEnt) : Bool :=
  (getSub s (topoKey e)).fenced || (tget {} s.ports e.port.toNat).group == 0x3F

/-- Named sub-ports begin their handshakes with SEQ_RESET; without a link the reset is owed. -/
def shakeAll (s : State) : List TopoEnt → State
  | [] => s
  | e :: es =>
    let k := topoKey e
    let s1 := modSub s k fun b => { b with needReset := true, peerMac := if isDirect b then b.peerMac else e.peerMac }
    shakeAll (if (getSub s1 k).linkUp then startShake s1 k true else s1) es

/-- Every span port takes the plot's dry time. -/
def setDry (t : Tbl PortSt) (d : BitVec 32) : List Nat → Tbl PortSt
  | [] => t
  | n :: ns => setDry (tmod {} t n fun p => { p with dryMs := d }) d ns

/-- The plot is open on the device (R401): its fields, what OPEN_PLOT clears (R210, R262, R279, R399, R428), its handshakes. -/
def acceptOpen (s : State) (b : OpenPlotBody) (es : List TopoEnt) : State :=
  let f := b.flags.toNat
  let s0 := oweReset s (subKeys s)
  shakeAll { s0 with
    sec := { s.sec with
      plot := b.plot, isOpen := true, debug := tb f 0, stepSeals := tb f 1, serving := tb f 2, servingIf := b.servingIf
      position := b.position, devices := b.devices, dryMs := b.dryMs, topo := es, topoDigest := b.topoDigest, restored := false }
    ports := setDry s.ports b.dryMs (List.range 50)
    blot := { s.blot with suspect := s.blot.suspect &&& 8 }
    pace := { s.pace with slow := false }
    dbg := { s.dbg with debugWrite := false }
    boot := { s.boot with scan := none }
    launch := { freshLaunch s.launch with root := b.position == 0 }
    step := { s.step with launchedSinceOpen := false, failed := [], restored := [] }
    serv := { s.serv with
      hits := 0, misses := 0, collisions := 0, evictions := 0, admission := s.serv.live, switching := false, markerStep := none
      descs := [], current := none, received := [], recvReport := none, outReport := none, stagedMsgs := [] } } es

/-- The view has come from the host: OPEN_PLOT fails, or is accepted and waits for its sub-ports (R347). -/
def openRead (s : State) (ring : Nat) (seq : BitVec 32) (b : OpenPlotBody) (host : HostView) : State :=
  let fin (s : State) (err : Nat) (res : Bytes) := done s ring seq (.openPlot b) err res
  let t := hostView host b.topo.toNat b.topoLen.toNat
  let es := topoEnts t
  match openError s b with
  | some e => fin s e []
  | none =>
    if sm3 t ≠ b.topoDigest then fin s errDigest []
    else if !(topoHeaderOk s b t && es.all (topoEntOk s) && topoObeys b.position es) then fin s errBadField []
    else match leastKey (es.filter (barred s)) with
      | some k => fin s errPort (portResult s k)
      | none =>
        let s1 := acceptOpen s b es
        tryOpen { s1 with mbox := { s1.mbox with opener := some (ring, seq) } }

/-! ### Closing (R347, R402) -/

/-- OPEN_PLOT_WAIT_EXPIRY (R347): a named sub-port is not in PLOT. -/
def execOpenPlotWaitExpiry (s : State) : Out :=
  .next (
    if s.mbox.opener.isNone then s
    else match leastKey (s.sec.topo.filter fun e => (getSub s (topoKey e)).state != .plot) with
      | none => tryOpen s
      | some k => failOpen s k)

/-- A command that is pending on the plot: it asks for an open one, or is a SCRUB rung before CLOSE_PLOT completes (R347, R408). -/
def onPlot : MboxCmd → Bool
  | .closePlot .. => true
  | .loadManifest .. => true
  | .loadBlock .. => true
  | .activateEpoch .. => true
  | .arm .. => true
  | .commit .. => true
  | .admitReq .. => true
  | .cancel .. => true
  | .pause .. => true
  | .resume .. => true
  | .setDeadline .. => true
  | .checkpoint .. => true
  | .restore .. => true
  | .scrub => true
  | _ => false

/-- The pending commands of ring `r` that are on the plot complete with STATE. -/
def dropPending (s : State) (r : Nat) : State :=
  let l := (getRing s r).pend.filter fun e => onPlot e.2
  l.foldl (fun s e => done s r e.1 e.2 errState) (modRing s r fun q => { q with pend := q.pend.filter fun e => !onPlot e.2 })

def dropAllPending (s : State) : List Nat → State
  | [] => s
  | r :: rs => dropAllPending (dropPending s r) rs

/-- Loads that still run complete with STATE, their staged epochs discarded (R353). -/
def dropLoads (s : State) : State :=
  let s1 := s.load.reading.foldl (fun s r => complete s r.1 r.2.1 0x10 errState []) { s with load := { s.load with reading := [] } }
  let running := s1.load.manifests.filter fun m => m.waiter.isSome
  let s2 := running.foldl (fun s m => match m.waiter with
    | some w => complete (dropManifest s m.epoch m.adapter) w.1 w.2 0x10 errState [] | none => s) s1
  let s3 := s2.load.jobs.foldl (fun s j => failJob s j errState []) s2
  { s3 with load := { s3.load with rx := none, tx := [] } }

/-- A LOAD_SHEET that runs completes with STATE; the shadow slot is invalid. -/
def dropSheetLoad (s : State) : State :=
  match s.sheets.loading with
  | none => s
  | some l =>
    done { s with sheets := { s.sheets with loading := none, shadowValid := false } } l.ring l.seq (.loadSheet l.host l.length l.digest) errState

/-- Commands of the plot that wait for something complete with STATE. -/
def dropWaiters (s : State) : State :=
  let s1 := ckptEnd s errState
  let s2 := match s1.mbox.restore with
    | some (ring, seq, _) => complete { s1 with mbox := { s1.mbox with restore := none } } ring seq 0x51 errState []
    | none => s1
  let s3 := match s2.launch.armWaiter with
    | some (ring, seq) => complete { s2 with launch := { s2.launch with armWaiter := none } } ring seq 0x30 errState []
    | none => s2
  match s3.mbox.opener with
  | some (ring, seq) => complete { s3 with mbox := { s3.mbox with opener := none } } ring seq 0x01 errState []
  | none => s3

/-- CLOSE_PLOT with ABORT ends the running step, or the launch that is to come (R75, R274). -/
def abortStep (s : State) : State :=
  if s.step.running then failHere s 9
  else if launching s then
    let n := s.launch.nextStep
    sendEnd (recordUnlaunched s n 9 true) n 9
  else s

/-- What waits in the class-0 queue of a sub-port leaves it in frames, as far as credits and the replay share allow (R309). -/
def sendQueued (s : State) (k : Nat) : Nat → State
  | 0 => s
  | n + 1 =>
    let b := getSub s k
    if b.state == .plot && mayTransmit b && !b.replaying then
      match offerQueue s k (grainsMax b) (fun b => b.q0) fun b q => { b with q0 := q } with
      | some s1 => sendQueued s1 k n
      | none => s
    else s

/-- The notices of an abort leave by every tree neighbour before the sub-ports leave the plot (R75, R274). -/
def sendNotices (s : State) : List Nat → State
  | [] => s
  | k :: ks => sendNotices (sendQueued s k (getSub s k).q0.length) ks

/-- CLOSE_PLOT is served (R347, R353). -/
def serveClose (s : State) (ring : Nat) (seq : BitVec 32) (flags : BitVec 8) : State :=
  let fin := done s ring seq (.closePlot flags)
  let abort := tb flags.toNat 0
  if !s.sec.isOpen then fin errState
  else if flags.toNat > 1 then fin errBadField
  else
    let a := abortStep s
    let s1 := if abort then sendNotices a (treeNeighbours a 0 ++ treeNeighbours a 1) else s
    let c := closeSlots (dropSheetLoad s1)
    let s2 := dropAllPending (dropLoads (dropWaiters c.1)) (List.range 16)
    let s3 := forgetPlot s2 false
    done s3 ring seq (.closePlot flags) errOk (bytesOf 8 s3.step.lastEnded ++ natLe 4 c.2)

/-! ### SCRUB (R332, R405-R407) -/

/-- A device address in a row: in the row's pseudo-channel or DDR channel (R35), at an offset that no rule gives (log 24). -/
def rowFirst (kind row : Nat) : Nat :=
  let unit := row / 2 ^ 64
  if kind = 5 then 0x008000000000 + unit % 512 * 2 ^ 30 + (Config.rowOffset row).toNat % 2 ^ 30
  else 0x040000000000 + unit % 8 * 2 ^ 38 + (Config.rowOffset row).toNat

/-- One row is repaired (R328, R332): `st` is 1 for sPPR, 2 for hPPR. A bank has a spare row while REPAIR_LEFT, the least of all
banks, is above 0; at 0, and for what a repair leaves, the bank's own count is free (log 24). -/
def repairRow (s : State) (kind k row st : Nat) : State :=
  let left := if kind = 5 then (getStack s k).repairLeft else (getDdr s k).repairLeft
  let d := drawFree 1 s
  let s1 := if kind = 5 then modStack d.2 k fun x => { x with pendingRows := x.pendingRows.filter (· != row) }
    else modDdr d.2 k fun x => { x with pendingRows := x.pendingRows.filter (· != row) }
  if left = 0 ∧ d.1 = 0 then
    let a := rowFirst kind row
    retire (logEv s1 { cls := clsMemory, cause := 4, loc := BitVec.ofNat 64 a, suspect := some 3, die := addrDie a }) (rowEntry kind 3 row)
  else
    let rest := if left = 0 then left else left - BitVec.ofNat 8 d.1.toNat
    retire (if kind = 5 then modStack s1 k fun x => { x with repairLeft := rest } else modDdr s1 k fun x => { x with repairLeft := rest })
      (rowEntry kind st row)

/-- Rows of a list are repaired. -/
def repairRows (s : State) (kind k st : Nat) : List Nat → State
  | [] => s
  | r :: rs => repairRows (repairRow s kind k r st) kind k st rs

/-- Every pending row of the stacks and channels listed is repaired. -/
def repairPending (s : State) (kind st : Nat) : List Nat → State
  | [] => s
  | k :: ks =>
    repairPending (repairRows s kind k st (if kind = 5 then (getStack s k).pendingRows else (getDdr s k).pendingRows)) kind st ks

/-- SCRUB is served (R406 events 1 and 2). -/
def serveScrub (s : State) (ring : Nat) (seq : BitVec 32) : State :=
  if s.sec.isOpen || s.sec.scrubState == 1 || !s.mbox.sealHold.isEmpty then done s ring seq .scrub errState
  else
    let s1 := { s with sec := { s.sec with scrubState := 1, scrubbed := false }, mbox := { s.mbox with scrubber := some (ring, seq) } }
    repairPending (repairPending s1 5 1 (List.range 8)) 6 1 (List.range 8)

/-- A byte of memory that SCRUB keeps: the command and completion rings, and what no ACTIVE channel backs. -/
def scrubKeeps (s : State) (a : Nat) : Bool :=
  (decide (windowBase + 0x100000 ≤ a) && decide (a < windowBase + 0x1C0000)) ||
    match decodeAddr a with
    | .dimm m o => decide (dimmBytes s m ≤ o)
    | _ => false

/-- What SCRUB erases (R405); seals not yet signed stay (R351; log 28). -/
def eraseTenant (s : State) : State :=
  let s1 := resetUnits s
  { s1 with
    mem := s1.mem.filter fun e => scrubKeeps s e.1
    overlay := []
    scribes := []
    sheets := { liveSlot := s1.sheets.liveSlot, loading := s1.sheets.loading }
    serv := { seals := s1.serv.seals, lastBoundary := s1.serv.lastBoundary }
    load := {}
    mbox := { s1.mbox with tokTail := 0, tokHead := 0 } }

/-- SCRUB_COMPLETE (R406 events 3 to 5): the erase is done after `ms`, or an ACTIVE DDR channel failed its writes and its retrain; a
channel that is not ACTIVE is skipped. -/
def execScrubComplete (ms : BitVec 32) (badChannel : Option (BitVec 3)) (s : State) : Out :=
  .next (match s.mbox.scrubber with
    | none => s
    | some (ring, seq) =>
      let s1 := eraseTenant { s with mbox := { s.mbox with scrubber := none } }
      match badChannel.filter fun m => (getDdr s m.toNat).state == 2 with
      | none =>
        let s2 := { s1 with sec := { s1.sec with scrubState := 2, scrubbed := true, scrubMs := ms } }
        let s3 := logEv s2 { cls := clsSecurity, cause := 7, a0 := BitVec.ofNat 64 ms.toNat }
        done s3 ring seq .scrub errOk (bytesOf 4 ms)
      | some m =>
        let s2 := disableDdr { s1 with sec := { s1.sec with scrubState := 3, scrubMs := ms } } m.toNat causeRetrain
        let s3 := logEv s2 { cls := clsSecurity, cause := 8, loc := BitVec.ofNat 64 m.toNat, a0 := BitVec.ofNat 64 errMemory }
        done s3 ring seq .scrub errMemory)

end Sys2Proof.Machine
end

