-- ==== Sys2Proof/Machine/Timebase.lean ====
section
/-! DEFINITION. The timebase, its references, holdover, PPS, and region stops (R245-R255). -/

namespace Sys2Proof.Machine

/-! ### Tick (R248) -/

/-- `10⁹` ns with 32 fraction bits. -/
def secAcc : Nat := 1000000000 * 2 ^ 32

/-- A time value from seconds and an accumulator of any size, brought into range second by second (R248). -/
def carrySec (sec : BitVec 48) (a : Int) : TimeVal :=
  { sec := BitVec.ofInt 48 (sec.toNat + a / secAcc), acc := BitVec.ofInt 62 (a % secAcc) }

/-- The time value that SET loads. -/
def setValue (t : TimeSt) : TimeVal := { sec := t.setSec, acc := BitVec.ofNat 62 (t.setSub.toNat * 2 ^ 16) }

/-- One tick of the timebase (R248); none comes while it relocks (R255). -/
def tickTime (t : TimeSt) : TimeSt :=
  if t.relock then t
  else if t.setGo then { t with now := setValue t, setGo := false, timeValid := true }
  else
    let a : Int := t.now.acc.toNat + t.incr.toNat
    if t.offsetPending then { t with now := carrySec t.now.sec (a + t.offsetAmount.toInt * 2 ^ 16), offsetPending := false }
    else { t with now := carrySec t.now.sec a }

/-- The whole second nearest a time. -/
def nearestSecond (t : TimeVal) : BitVec 48 := if tvNs t < 500000000 then t.sec else t.sec + 1

/-- A faulty PPS_IN is OK again once its third good second is over (R253). -/
def ppsSettle (t : TimeSt) : TimeSt :=
  if 3 ≤ t.ppsGood ∧ t.ppsState ≠ 1 ∧ t.ppsSecond ≠ some (nearestSecond t.now) then
    { t with ppsState := 1, ppsGood := 0, ppsSecond := none, ppsRejTimes := [] }
  else t

/-! ### References (R251) -/

/-- Whether a reference passes its monitor. -/
def refOk (t : TimeSt) (r : BitVec 1) : Bool := if r = 0 then t.refAok else t.refBok

/-- The PLL switches to a reference, hitless (R251). -/
def refSwitch (s : State) (r : BitVec 1) : State :=
  logEv { s with time := { s.time with refSel := r } } { cls := clsTime, cause := 1, a0 := BitVec.ofNat 64 r.toNat }

/-- Ticks still to come before REVERT may take a reference back. -/
def refWait (t : TimeSt) (r : BitVec 1) : Nat := if r = 0 then t.refWaitA else t.refWaitB

/-- Under REVERT a primary that has passed again for 10 ms is taken back (R251). -/
def refRevert (s : State) : State :=
  let p := BitVec.ofNat 1 (cfg s offTbaseCtl 1 1)
  if cfg s offTbaseCtl 2 2 = 1 ∧ s.time.refSel ≠ p ∧ refOk s.time p = true ∧ refWait s.time p = 0 ∧ s.time.holdover = false then refSwitch s p
  else s

/-- What runs on with each tick beside the time value: the wait of recovered references and the watch on PPS_IN. -/
def tickWatch (s : State) : State :=
  refRevert { s with time := ppsSettle { s.time with refWaitA := s.time.refWaitA - 1, refWaitB := s.time.refWaitB - 1 } }

/-- One tick of the device's clock: what the block does when no command waits (log 1); none comes while it relocks (R255). -/
def tick (s : State) : State := if s.time.relock then s else tickWatch { s with time := tickTime s.time }

/-- TIME_SET_LOAD (R248): the requested SET is loaded at this tick. -/
def execTimeSetLoad (s : State) : Out := .next (if s.time.setGo then tick s else s)

/-- PHASE_STEP_APPLY (R248): the pending phase step is applied at this tick; a SET load takes its tick first. -/
def execPhaseStepApply (s : State) : Out := .next (if s.time.offsetPending && !s.time.setGo then tick s else s)

/-- TBASE_NOW_READ (R247): a read of NOW_S latches NOW_SUB; while the timebase relocks it waits for the end (R255). -/
def execTbaseNowRead (s : State) : Out :=
  .next (if s.time.relock then { s with time := { s.time with latchOwed := true } } else latchNow s)

/-- The reads of NOW_S that a relock held back are answered at its end (R255). -/
def answerTimeReads (s : State) : State :=
  let s1 := if s.time.latchOwed || !s.mbox.timeReads.isEmpty then latchNow s else s
  let s2 := { s1 with time := { s1.time with latchOwed := false } }
  match s.mbox.timeReads.getLast? with
  | some (o, n) => { s2 with mbox := { s2.mbox with timeReads := [], hostReply := some (regBytes s2 o n) } }
  | none => s2

/-! ### Writes of the servo's registers (R247-R250) -/

/-- A refused write of a TBASE register is logged (R247). -/
def refuseTime (s : State) (off val : Nat) : State :=
  logEv s { cls := clsTime, cause := 6, loc := BitVec.ofNat 64 off, a0 := BitVec.ofNat 64 val }

/-- The host owns the servo (R250). -/
def hostOwnsServo (s : State) : Bool := cfg s offTbaseCtl 0 0 == 1

/-- An increment lies within 1 ± 2⁻¹⁰ ns per tick (R248). -/
def incrOk (v : Nat) : Bool := decide (2 ^ 32 - 2 ^ 22 ≤ v) && decide (v ≤ 2 ^ 32 + 2 ^ 22)

/-- A phase step may be requested now (R249). -/
def offsetOk (s : State) (amount : BitVec 47) : Bool :=
  s.launch.state == .idle || decide (amount.toInt.natAbs ≤ 1000 * 65536)

/-- A SET load may be requested now (R249). -/
def setOk (s : State) : Bool := s.launch.state == .idle

/-- The bound that a writer gives is one it may write: in holdover none smaller than the value that stands (R252). -/
def boundOk (s : State) (v : BitVec 32) : Bool := !s.time.holdover || decide (s.time.bound.toNat ≤ v.toNat)

/-! ### The monitors (R251, R252) -/

/-- 10 ms in ticks of the timebase. -/
def revertTicks : Nat := 10000000

/-- The monitor's verdict on a reference; one that passes again begins the wait of REVERT (R251). -/
def setRef (t : TimeSt) (r : BitVec 1) (ok : Bool) : TimeSt :=
  let w := if ok && !refOk t r then revertTicks else refWait t r
  if r = 0 then { t with refAok := ok, refWaitA := w } else { t with refBok := ok, refWaitB := w }

/-- REF_FAIL (R251, R252). -/
def execRefFail (r : BitVec 1) (s : State) : Out :=
  let s1 := { s with time := setRef s.time r false }
  .next (
    if s.time.refSel ≠ r ∨ s.time.holdover then s1
    else if refOk s1.time (1 - r) then refSwitch s1 (1 - r)
    else
      logEv { s1 with time := { s1.time with holdover := true, holdMs := 0 } }
        { cls := clsTime, cause := 2, a0 := BitVec.ofNat 64 s1.time.bound.toNat })

/-- REF_PASS (R251, R252): the end of holdover begins with a relock; a recovered primary is taken back 10 ms later under REVERT
(`refRevert`). -/
def execRefPass (r : BitVec 1) (s : State) : Out :=
  let s1 := { s with time := setRef s.time r true }
  .next (
    if s1.time.holdover then
      if s1.time.relock then s1 else { s1 with time := { s1.time with refSel := r, relock := true }, boot := { s1.boot with ppsOut := false } }
    else s1)

/-- HOLDOVER_BOUND_TICK (R252). -/
def execHoldoverBoundTick (s : State) : Out :=
  .next (if s.time.holdover then
    { s with time := { s.time with bound := satAdd s.time.bound 20, holdMs := satAdd s.time.holdMs 1 } } else s)

/-- A region stop is logged (R255): region, length in ns. -/
def logStop (s : State) (region : Nat) (ns : BitVec 32) : State :=
  logEv s { cls := clsTime, cause := 5, loc := BitVec.ofNat 64 region, a0 := BitVec.ofNat 64 ns.toNat, die := region % 8 / 2 }

/-- The timebase relock ends (R252, R255): HOLDOVER clears; with that reference lost again the device stays in holdover, and relocks to the
other one where it passes (log 18). -/
def relockEnd (s : State) (ns : BitVec 32) : State :=
  let t := s.time
  let ok := refOk t t.refSel
  let again := !ok && refOk t (1 - t.refSel)
  let s1 := logStop { s with time := { t with relock := again, holdover := !ok, refSel := if again then 1 - t.refSel else t.refSel } } 16 ns
  let s2 := if ok then logEv s1 { cls := clsTime, cause := 3, a0 := BitVec.ofNat 64 s.time.holdMs.toNat } else s1
  if again then s2 else answerTimeReads s2

/-- REGION_STOP_END (R255): the region stop under way in the region ends. -/
def execRegionStopEnd (region : BitVec 5) (ns : BitVec 32) (s : State) : Out :=
  let g := region.toNat
  .next (
    if g < 8 then
      if (tget {} s.stackTbl g).stopping then
        logStop { s with stackTbl := tmod {} s.stackTbl g fun k => { k with stopping := false } } g ns
      else s
    else if g < 16 then
      if (getDdr s (g - 8)).stopping then
        logStop { s with ddrs := tmod {} s.ddrs (g - 8) fun k => { k with stopping := false } } g ns
      else s
    else if g = 16 ∧ s.time.relock then relockEnd s ns else s)

/-! ### PPS (R253, R254) -/

/-- A time lies within ±1 ms of a whole second. -/
def nearSecond (t : TimeVal) : Bool := decide (tvUnits t ≤ nsUnits 1000000) || decide (nsUnits 999000000 ≤ tvUnits t)

/-- A time lies within 1 ns of a whole second (R254). -/
def atSecond (t : TimeVal) : Bool := decide (tvUnits t ≤ nsUnits 1) || decide (nsUnits 999999999 ≤ tvUnits t)

/-- PPS_IN fails: STUCK or CHATTER, with its alarm. -/
def ppsFault (s : State) (st : BitVec 2) : State :=
  logEv { s with time := { s.time with ppsState := st, ppsGood := 0, ppsSecond := none } }
    { cls := clsTime, cause := 4, a0 := BitVec.ofNat 64 st.toNat }

/-- An edge in STUCK or CHATTER: only its second counts toward the return to OK, which comes when the third good one is over; a
rejected edge, or a second one, spoils its second (R253; log 18). -/
def ppsRecover (t : TimeSt) (acc : Bool) : TimeSt :=
  let sec := nearestSecond t.now
  if !acc then { t with ppsGood := 0, ppsSecond := some sec }
  else
    let good := match t.ppsSecond with
      | none => 1
      | some p => if sec = p + 1 then t.ppsGood + 1 else if sec = p then 0 else 1
    { t with ppsGood := good, ppsSecond := some sec }

/-- PPS_IN_EDGE (R253). -/
def execPpsInEdge (s : State) : Out :=
  .next (
    if cfg s offTbaseCtl 3 3 = 0 then s
    else
      let now := s.time.now
      let acc := !s.time.timeValid || nearSecond now
      let close := match s.time.ppsLastEdge with | some e => decide (timeUnits now < timeUnits e + nsUnits 2000000) | none => false
      let rej := if acc then s.time.ppsRejTimes else
        now :: s.time.ppsRejTimes.filter fun e => decide (timeUnits now < timeUnits e + nsUnits 1000000000)
      let t1 := { s.time with ppsLastEdge := some now, ppsRejTimes := rej }
      if s.time.ppsState ≠ 1 then { s with time := ppsRecover t1 acc }
      else
        let t2 := if acc then { t1 with ppsTs := now, ppsAccepted := t1.ppsAccepted + 1 } else { t1 with ppsRejected := t1.ppsRejected + 1 }
        let s2 := { s with time := t2 }
        if close || decide (rej.length > 4) then ppsFault s2 3 else s2)

/-- PPS_STUCK (R253): no edge has been accepted for 2 s. -/
def execPpsStuck (s : State) : Out := .next (if cfg s offTbaseCtl 3 3 = 1 ∧ s.time.ppsState = 1 then ppsFault s 2 else s)

/-- PPS_OUT_SECOND (R254): the time value is within 1 ns of a whole second. -/
def execPpsOutSecond (s : State) : Out :=
  .next (if cfg s offTbaseCtl 4 4 = 1 ∧ s.time.relock = false ∧ atSecond s.time.now = true then
    { s with boot := { s.boot with ppsOut := true }, time := { s.time with ppsOutAt := s.time.now } } else s)

/-- PPS_OUT has been high for PPS_OUT_MS; a time value set back before its rise ends it as well (log 18). -/
def ppsOutOver (s : State) : Bool :=
  decide (timeUnits s.time.ppsOutAt + nsUnits (1000000 * cfg s offTbaseCtl 14 5) ≤ nowUnits s)
    || decide (nowUnits s < timeUnits s.time.ppsOutAt)

/-- PPS_OUT_FALL (R254). -/
def execPpsOutFall (s : State) : Out := .next (if ppsOutOver s then { s with boot := { s.boot with ppsOut := false } } else s)

end Sys2Proof.Machine
end

