-- ==== Sys2Proof/Machine/RegWrite.lean ====
section
/-! DEFINITION. Writes of control space (R10, R39, R451 and the register maps of each block), taken whole or refused whole. The
doorbells, the bedrock commands and the DBG block are written in Serve, Bedrock and Debug. -/

namespace Sys2Proof.Machine

/-! ### Refusals -/

/-- A write that is dropped (R39, R345, R373, R399): class SECURITY, WRITE_DROPPED. -/
def dropWrite (s : State) (off v : Nat) : State :=
  logEv s { cls := clsSecurity, cause := 2, loc := BitVec.ofNat 64 off, a0 := BitVec.ofNat 64 v }

/-- A value out of range where the chapter names no other class (R451, R77, R192, R279): class STEP, RANGE_REFUSED. -/
def refuseRange (s : State) (off v : Nat) : State :=
  logEv s { cls := clsStep, cause := 9, loc := BitVec.ofNat 64 off, a0 := BitVec.ofNat 64 v }

/-- A write refused by span port `n` (R289, R293): class SPAN, WRITE_REFUSED. -/
def refuseSpan (n : Nat) (s : State) (off v : Nat) : State :=
  logEv s { cls := clsSpan, cause := 10, loc := BitVec.ofNat 64 off, a0 := BitVec.ofNat 64 v, die := portDie s n }

/-- A refusal of R62's causes that no unit's command meets: class STEP. The locator of R64 names a unit's command; a write by the host
or the debug port has none, so its CORE, TILE and INDEX are free (log 29). -/
def refuseNoUnit (s : State) (cause : Nat) : State :=
  let c := drawFree 6 s
  let t := drawFree 5 c.2
  let i := drawFree 32 t.2
  logEv i.2 { cls := clsStep, cause, loc := skipLocator cause c.1.toNat t.1.toNat i.1.toNat }

/-- A write that reaches an RWS field while a step runs (R10): RWS_WRITE. -/
def refuseRws (s : State) : State := refuseNoUnit s 8

/-- A write into the live sheet slot (R79): LIVE_WRITE. -/
def refuseLive (s : State) : State := refuseNoUnit s 6

/-- A register takes a value. -/
def putCfg (s : State) (off v : Nat) : State := putReg s off (BitVec.ofNat 256 v)

/-- Field `[hi:lo]` of a value written lies within bounds. -/
def within (v hi lo a b : Nat) : Bool := decide (a ≤ bitsOf v hi lo) && decide (bitsOf v hi lo ≤ b)

/-- A write of an RWS register whose fields must satisfy `ok`; `out` says how a bad value is refused. -/
def writeRws (s : State) (off v : Nat) (ok : Bool) (out : State → Nat → Nat → State) : State :=
  if s.step.running then refuseRws s else if ok then putCfg s off v else out s off v

/-! ### MBOX (R345) -/

/-- Bits of MBOX.IRQ_STATUS are cleared. -/
def irqClear (s : State) (v : Nat) : State := { s with mbox := { s.mbox with irq := s.mbox.irq &&& ~~~ BitVec.ofNat 18 v } }

/-- IRQ_CLEAR (R345). -/
def execIrqClear (mask : BitVec 32) (s : State) : Out := .next (irqClear s mask.toNat)

/-- Registers of MBOX other than the doorbells and the bedrock ones. -/
def writeMbox (s : State) (o v : Nat) : State :=
  let off := offMbox + o
  if o = 0 ∨ o = 8 then s
  else if o = 0x10 then if within v 15 0 100 60000 then putCfg s off (v % 2 ^ 16) else dropWrite s off v
  else if o = 0x18 then irqClear s v
  else if o = 0x20 then putCfg s off (v % 2 ^ 18)
  else if o = 0x28 then roomCame { s with mbox := { s.mbox with tokHead := BitVec.ofNat 32 (bitsOf v 63 32) } }
  else if inArr o 0x2000 16 16 ∧ o % 16 = 0 then s
  else if inArr o 0x2000 16 16 ∧ o % 16 = 8 then if v % 256 = 0 then dropWrite s off v else putCfg s off (v % 256)
  else dropWrite s off v

/-! ### TBASE (R247-R250, R252, R254, R257) -/

/-- TBASE.CTL takes a value: PPS_IN_EN starts or stops the input's state, PPS_OUT_EN 0 lets the output fall (R253, R254). -/
def writeTimeCtl (s : State) (v : Nat) : State :=
  let was := cfg s offTbaseCtl 3 3
  let s1 := putCfg s offTbaseCtl (v % 2 ^ 15)
  let s2 := if was = bitsOf v 3 3 then s1 else
    { s1 with time := { s1.time with
        ppsState := BitVec.ofNat 2 (bitsOf v 3 3), ppsGood := 0, ppsSecond := none, ppsLastEdge := none, ppsRejTimes := [] } }
  if tb v 4 then s2 else { s2 with boot := { s2.boot with ppsOut := false } }

/-- A servo register; `owner` when the writer owns the servo. NS of SET has the range of R245 (log 18). -/
def writeServo (s : State) (o v : Nat) (owner : Bool) : State :=
  let t := s.time
  let amount := BitVec.ofNat 47 v
  if !owner then refuseTime s (offTbase + o) v
  else if o = 0x10 then
    if incrOk (v % 2 ^ 36) then { s with time := { t with incr := BitVec.ofNat 36 v } } else refuseTime s (offTbase + o) v
  else if o = 0x18 then
    if tb v 63 && !offsetOk s amount then refuseTime s (offTbase + o) v
    else { s with time := { t with offsetAmount := amount, offsetPending := t.offsetPending || tb v 63 } }
  else if o = 0x20 then { s with time := { t with setSec := BitVec.ofNat 48 v } }
  else if o = 0x28 then
    if 1000000000 ≤ bitsOf v 45 16 then refuseRange s (offTbase + o) v
    else if tb v 63 && !setOk s then refuseTime s (offTbase + o) v
    else { s with time := { t with setSub := BitVec.ofNat 46 v, setGo := t.setGo || tb v 63 } }
  else if o = 0x40 then
    if boundOk s (BitVec.ofNat 32 v) then { s with time := { t with bound := BitVec.ofNat 32 v } } else refuseTime s (offTbase + o) v
  else { s with time := { t with servo := BitVec.ofNat 2 v } }

/-- A 4-bit field in two's complement lies within bounds. -/
def log2In (v lo : Nat) (a b : Int) : Bool :=
  let x := (BitVec.ofNat 4 (bitsOf v (lo + 3) lo)).toInt
  decide (a ≤ x) && decide (x ≤ b)

/-- A value of PTP_PORT.CFG lies within its ranges: TRANSPORT (R257), the intervals (R256). -/
def ptpCfgOk (v : Nat) : Bool := bitsOf v 2 1 != 3 && log2In v 6 (-7) 0 && log2In v 10 (-7) 0 && log2In v 14 (-3) 3

def writeTbase (s : State) (o v : Nat) (owner : Bool) : State :=
  let off := offTbase + o
  if o % 8 ≠ 0 then dropWrite s off v
  else if o = 0x10 ∨ o = 0x18 ∨ o = 0x20 ∨ o = 0x28 ∨ o = 0x40 ∨ o = 0x48 then writeServo s o v owner
  else if o = 0x30 then if within v 14 5 1 999 then writeTimeCtl s v else refuseRange s off v
  else if o = 0x68 then putCfg s off (v % 2 ^ 9 + bitsOf v 31 16 * 2 ^ 16)
  else if o < 0x68 then s
  else if inArr o 0x10000 0x100 50 then
    if o % 0x20 = 0 then if ptpCfgOk v then putCfg s off (v % 2 ^ 31) else refuseRange s off v
    else if o % 0x20 = 8 then putCfg s off (v % 2 ^ 32)
    else s
  else dropWrite s off v

/-! ### PACE (R279) -/

/-- A voltage offset of −50 to +50 mV. -/
def trimOk (v d : Nat) : Bool := decide ((BitVec.ofNat 8 (bitsOf v (8 * d + 7) (8 * d))).toInt.natAbs ≤ 50)

def writePace (s : State) (o v : Nat) : State :=
  let off := offPace + o
  if o = 0 then writeRws s off (v % 2 ^ 48) true refuseRange
  else if o = 8 then
    writeRws s off (v % 2 ^ 48)
      (within v 9 0 600 900 && within v 19 10 (v % 1024) 900 && within v 31 20 500 2200 && within v 47 40 60 104) refuseRange
  else if o = 0x10 then writeRws s off (v % 2 ^ 42) (within v 15 0 10 65535) refuseRange
  else if o = 0x18 then writeRws s off (v % 2 ^ 32) ((List.range 4).all (trimOk v)) refuseRange
  else if o = 0x20 ∨ o = 0x28 then s
  else dropWrite s off v

/-! ### LAUNCH (R77, R262) -/

/-- Read-only registers of the LAUNCH block. -/
def launchReadOnly (o : Nat) : Bool :=
  o % 8 == 0 && (decide (o ≤ 0x78) || inArr o 0x10000 8 51 || inArr o 0x10200 8 51 || inArr o 0x20000 32 256 || o == 0x30000
    || o == 0x30008 || inArr o 0x80008 8 4 || inArr o 0x80040 8 8)

def writeLaunch (s : State) (o v : Nat) : State :=
  let off := offLaunch + o
  if o = 0x50 then writeRws s off (v % 2 ^ 32) (within v 31 0 50 1000000) refuseRange
  else if o = 0x58 then writeRws s off (v % 2 ^ 32) (within v 15 0 1 65535 && within v 31 16 1 65535) refuseRange
  else if o = 0x60 then writeRws s off (v % 2 ^ 32) true refuseRange
  else if o = 0x80000 then writeRws s off (v % 2 ^ 24) (within v 23 0 1000 16777215) refuseRange
  else if launchReadOnly o then s
  else dropWrite s off v

/-! ### SPANn (R293, R286) -/

/-- A sub-port of the port carries the plot or holds. -/
def portBusy (s : State) (n : Nat) : Bool :=
  (List.range 8).any fun u => (getSub s (subKey n u)).state == .plot || (getSub s (subKey n u)).state == .holding

/-- A value may be written to SPANn.CFG: ranges, the EtherType, no new MODE, DIRECT or FEC_BYPASS under a plot, no ENABLE on a
port without a lane group (R29, R293; log 29). -/
def spanCfgOk (s : State) (n v : Nat) : Bool :=
  within v 15 10 1 32 && within v 31 16 0x600 0xFFFF && bitsOf v 31 16 != 0x88F7
    && (bitsOf v 3 0 == cfg s (offSpanCfg n) 3 0 || !portBusy s n)
    && !(tb v 4 && (tget {} s.ports n).group == 0x3F)

/-- Sub-ports of a port that becomes enabled begin to train, and their first handshake sets SEQ_RESET (R286, R290). -/
def trainSubs (s : State) (n : Nat) : List Nat → State
  | [] => s
  | u :: us =>
    let b := getSub s (subKey n u)
    let s1 := modSub s (subKey n u) fun b => { b with needReset := true }
    trainSubs (if b.training || b.linkUp then s1 else startTraining s1 (subKey n u)) n us

/-- Sub-ports of a port that is no longer enabled lose their links, and are OFF once nothing holds (R294; log 26). -/
def disableSubs (s : State) (n : Nat) : List Nat → State
  | [] => s
  | u :: us =>
    let s1 := linkDownOn s (subKey n u) 2
    disableSubs (modSub s1 (subKey n u) fun b => { b with state := heldState b .off }) n us

/-- SPANn.CFG takes a value; a port that becomes enabled trains (log 26). -/
def writeSpanCfg (s : State) (n v : Nat) : State :=
  let was := cfg s (offSpanCfg n) 4 4
  let s1 := putCfg s (offSpanCfg n) (v % 2 ^ 5 + bitsOf v 44 10 * 2 ^ 10)
  if was = 0 ∧ tb v 4 = true then trainSubs s1 n (List.range (subsOf s1 n))
  else if was = 1 ∧ tb v 4 = false then disableSubs s1 n (List.range 8)
  else s1

/-- SUB.CTL is written (R289, R311). -/
def writeSubCtl (s : State) (n u v : Nat) : State :=
  if v % 4 = 0 then s
  else if s.step.running then refuseSubCtl s n u v
  else
    let s1 := if tb v 0 then retrainOn s n u else s
    if tb v 1 then widenOn s1 n u else s1

def writeSpan (s : State) (n o v : Nat) : State :=
  let off := offSpan n + o
  if o = 0 then
    if s.step.running then refuseRws s else if spanCfgOk s n v then writeSpanCfg s n v else refuseSpan n s off v
  else if o = 8 then
    writeRws s off (v % 2 ^ 60)
      (within v 19 0 2000 1000000 && within v 31 20 100 4000 && within v 43 32 50 4000 && within v 59 44 10 10000) (refuseSpan n)
  else if o = 0x18 then
    writeRws s off (v % 2 ^ 64)
      (within v 15 0 128 65535 && decide (bitsOf v 15 0 + bitsOf v 31 16 + bitsOf v 47 32 + bitsOf v 63 48 ≤ 16384)) (refuseSpan n)
  else if o = 0x10 ∨ o = 0x20 then s
  else if inArr o 0x1000 0x100 8 ∧ o % 8 = 0 ∧ o % 0x100 ≤ 0x50 then
    let u := (o - 0x1000) / 0x100
    if o % 0x100 = 0x28 then writeRws s off (v % 2 ^ 48) true (refuseSpan n)
    else if o % 0x100 = 0x38 then writeSubCtl s n u v
    else s
  else dropWrite s off v

/-! ### LEDGER and SIEVE (R192, R210) -/

def writeLedger (s : State) (o v : Nat) : State :=
  let off := offLedger + o
  if o % 8 ≠ 0 then dropWrite s off v
  else if o < 0x100000 then s
  else if o = 0x100000 then
    writeRws s off (v % 2 ^ 34) (within v 3 0 4 8 && within v 8 5 2 8 && within v 20 9 1 4095 && within v 33 21 1 4096) refuseRange
  else if o = 0x100008 then writeRws s off (v % 2 ^ 48) (v % 64 == 0) refuseRange
  else if o = 0x100010 then writeRws s off (v % 2 ^ 48) true refuseRange
  else if o = 0x100018 then writeRws s off (v % 2 ^ 31) (v % 64 == 0) refuseRange
  else if o = 0x100020 then writeRws s off (v % 2 ^ 38) (v % 64 == 0) refuseRange
  else if o = 0x100028 then writeRws s off (v % 2 ^ 46) (within v 22 0 0 4194304 && within v 45 23 0 4194304) refuseRange
  else if o = 0x100030 ∨ o = 0x100040 then s
  else if o = 0x100048 then writeRws s off (v % 2 ^ 8 + bitsOf v 47 16 * 2 ^ 16) (within v 7 0 1 255) refuseRange
  else if inArr o 0x100100 8 8 then writeRws s off (v % 2 ^ 32) true refuseRange
  else if o = 0x100200 then writeRws s off (v % 2 ^ 64) (within v 39 32 0 64) refuseRange
  else dropWrite s off v

/-- A tenant's salt is set and its entries go (R208). -/
def saltWrite (s : State) (t : Nat) (salt : BitVec 256) : State :=
  match execSaltWrite (BitVec.ofNat 12 t) salt s with | .next s1 => s1 | _ => s

def writeSieve (s : State) (o v : Nat) : State :=
  let off := offSieve + o
  if o = 0 then writeRws s off (v % 2) true refuseRange
  else if o % 8 = 0 ∧ o ≤ 0x20 then s
  else if inArr o 0x10000 32 4096 ∧ o % 32 = 0 then saltWrite s ((o - 0x10000) / 32) (BitVec.ofNat 256 v)
  else dropWrite s off v

/-! ### MEMC (R327, R333) -/

/-- Registers of one memory. -/
def memcReadOnly (o : Nat) : Bool := o % 8 == 0 && decide (o % 0x1000 ≤ 0x18) && (inArr o 0 0x1000 8 || inArr o 0x10000 0x1000 8)

/-- DDR[m].CTL is written whole (R327, R451): a refused rate refuses the write. -/
def writeDdrCtl (s : State) (m v : Nat) : State :=
  let off := offDdrCtl m
  let rate := bitsOf v 33 32
  if s.step.running then refuseRws s
  else if !(within v 23 8 1 65535 && within v 31 24 1 255) then refuseRange s off v
  else if 3 ≤ rate ∨ tb (getDdr s m).trains.toNat rate = false then rateReqOn s m rate
  else if rate = cfg s off 33 32 then putCfg s off (v % 2 ^ 34)
  else rateReqOn (putCfg s off (v % 2 ^ 32 + cfg s off 33 32 * 2 ^ 32)) m rate

def writeMemc (s : State) (o v : Nat) : State :=
  let off := offMemc + o
  if inArr o 0 0x1000 8 ∧ o % 0x1000 = 0x20 then writeRws s off (v % 2 ^ 24) (within v 23 8 1 65535) refuseRange
  else if inArr o 0x10000 0x1000 8 ∧ o % 0x1000 = 0x20 then writeDdrCtl s ((o - 0x10000) / 0x1000) v
  else if memcReadOnly o ∨ o = 0x20000 then s
  else dropWrite s off v

/-! ### BLOT (R388, R390, R399) -/

/-- Bits of BLOT.ALARM.PENDING are cleared. -/
def alarmClear (s : State) (mask : BitVec 8) : State := { s with blot := { s.blot with alarm := s.blot.alarm &&& ~~~ mask } }

/-- ALARM_CLEAR (R390). -/
def execAlarmClear (mask : BitVec 8) (s : State) : Out := .next (alarmClear s mask)

/-- Every BLOT.COUNT is cleared. -/
def clearCounts (s : State) : State := { s with blot := { s.blot with counts := [] } }

/-- CLEAR_COUNTS (R388). -/
def execClearCounts (s : State) : Out := .next (clearCounts s)

/-- Read-only registers of the BLOT block. -/
def blotReadOnly (o : Nat) : Bool :=
  o == 0x10 || (o % 8 == 0 && inArr o 0x100 0x10 8) || (o % 4 == 0 && inArr o 0x1000 0x400 8) || o == 0x4008 || o == 0x4010
    || o == 0x4028 || o == 0x5008

/-- A BLOT register takes a value, or the write is dropped (R399). -/
def blotPut (s : State) (off v w : Nat) (ok : Bool) : State := if ok then putCfg s off w else dropWrite s off v

def writeBlot (s : State) (o v : Nat) : State :=
  let off := offBlot + o
  if o = 0 then
    if within v 15 0 10 60000 then
      let s1 := putCfg s off (v % 2 ^ 24)
      if tb v 24 then clearCounts s1 else s1
    else dropWrite s off v
  else if o = 8 then alarmClear s (BitVec.ofNat 8 v)
  else if o = 0x4000 then blotPut s off v (v % 2 ^ 36) (within v 35 20 1 65535)
  else if o = 0x4018 then blotPut s off v (v % 2 ^ 64) (v % 256 == 0)
  else if o = 0x4020 then blotPut s off v (v % 2 ^ 24 + bitsOf v 63 32 * 2 ^ 32) true
  else if o = 0x5000 then blotPut s off v (v % 2 ^ 48) (within v 39 24 1 65535 && within v 47 40 1 255)
  else if blotReadOnly o then s
  else dropWrite s off v

/-! ### Read-only blocks (R30, R371, R418) -/

/-- Registers of the ID block. -/
def idListed (o : Nat) : Bool :=
  o == 0 || o == 8 || o == 0x10 || (o % 4 == 0 && (inArr o 0x100 4 64 || inArr o 0x200 4 50)) || (o % 8 == 0 && inArr o 0x400 8 6)

/-- Registers of the SEC block. -/
def secListed (o : Nat) : Bool :=
  o % 8 == 0 && (decide (o ≤ 0x18) || inArr o 0x100 8 50 || inArr o 0x1000 32 14)

/-- A write to a register of control space outside the doorbells, the bedrock registers and DBG; `owner` when the writer owns the
servo. -/
def regWriteCore (s : State) (o v : Nat) (owner : Bool) : State :=
  if o < offMbox then if idListed o then s else dropWrite s o v
  else if o < offTbase then writeMbox s (o - offMbox) v
  else if o < offPace then writeTbase s (o - offTbase) v owner
  else if o < offLaunch then writePace s (o - offPace) v
  else if o < 0x500000 then writeLaunch s (o - offLaunch) v
  else if offSpan 0 ≤ o ∧ o < offSpan 50 then writeSpan s ((o - offSpan 0) / 0x10000) (o % 0x10000) v
  else if offLedger ≤ o ∧ o < offSieve then writeLedger s (o - offLedger) v
  else if offSieve ≤ o ∧ o < offMemc then writeSieve s (o - offSieve) v
  else if offMemc ≤ o ∧ o < offBlot then writeMemc s (o - offMemc) v
  else if offBlot ≤ o ∧ o < offDbg then writeBlot s (o - offBlot) v
  else if offSec ≤ o then if secListed (o - offSec) then s else dropWrite s o v
  else dropWrite s o v

end Sys2Proof.Machine
end

