-- ==== Sys2Proof/Machine/Update.lean ====
section
/-! DEFINITION. Updates of firmware and loam: starts, trials, fall-back, delta blocks, activation (R370, R375-R381). -/

namespace Sys2Proof.Machine

/-! ### Starting images (R370, R371, R377) -/

/-- The image of a bank starts; a trial image has yet to report ready. -/
def startImage (s : State) (t bank : Nat) (ready : Bool) : State :=
  let h := imageHdr s bank t
  { s with
    boot := { s.boot with
      fw := tset {} s.boot.fw t { version := imgVersion h, bank := BitVec.ofNat 1 bank, ready, starting := !ready }
      fwIf := if t = 0 then fieldAt 8 h 22 1 else s.boot.fwIf
      fwIfMin := if t = 0 then fieldAt 8 h 21 1 else s.boot.fwIfMin }
    sec := { s.sec with meas := tset 0 s.sec.meas t (sm3 h) } }

/-- Bank of a target in the header. -/
def hdrBankOf (s : State) (t : Nat) : Nat := bitsOf s.boot.hdrBank.toNat t t

/-- A trial image starts: TRIES is raised first (R370). -/
def startTrial (s : State) (t : Nat) : State :=
  startImage (writeHdr s { curHdr s with tries := s.boot.hdrTries + 1 }) t (hdrBankOf s t) false

/-- The header of a fall-back, and its entry (R370). -/
def fallBackHdr (s : State) (t : Nat) : State :=
  let v := imgVersion (imageHdr s (hdrBankOf s t) t)
  logEv (writeHdr s { curHdr s with bank := s.boot.hdrBank ^^^ BitVec.ofNat 8 (2 ^ t), trial := 0, tries := 0, loam := s.boot.hdrLoam &&& 0xFE })
    { cls := clsSecurity, cause := 5, loc := BitVec.ofNat 64 t, a0 := BitVec.ofNat 64 v.toNat }

/-- Loam format of the running MP image. -/
def mpLoamFormat (s : State) : Nat := imgLoamFormat (imageHdr s (getFw s 0).bank.toNat 0)

/-- The MP reads the loam slot of its format: ID.BOOT and the measurement, and the entry of a device without one (R367, R368). -/
def readLoam (s : State) : State :=
  let fmt := mpLoamFormat s
  let b := { s.boot with loamFormat := BitVec.ofNat 4 fmt }
  match pickLoam s fmt with
  | none =>
    logEv { s with boot := { b with loamDefaults := true, loamSlot := 0 }, sec := { s.sec with meas := tset 0 s.sec.meas 4 0 } }
      { cls := clsSecurity, cause := 6, a0 := 1 }
  | some i =>
    let img := loamSlot s i
    { s with
      boot := { b with loamDefaults := false, loamSlot := BitVec.ofNat 1 i }
      sec := { s.sec with meas := tset 0 s.sec.meas 4 (sm3 (img.take (loamLength img))) } }

/-- Every enabled sub-port and the host link retrain (R377). -/
def retrainAll (s : State) : List Nat → State
  | [] => { s with mbox := { s.mbox with link := if s.mbox.link = 0 then 0 else 1 } }
  | k :: ks => retrainAll (if subThere s (k / 8) (k % 8) then startTraining (linkDownOn s k 2) k else s) ks

/-- A target falls back in service: header, old image (a LINK restart retrains), and the UPDATE_ACTIVATE that waited completes with STATE (R370,
R377, R378). -/
def fallBack (s : State) (t : Nat) : State :=
  let s1 := fallBackHdr s t
  let s2 := startImage s1 t (hdrBankOf s1 t) true
  let s3 := if t = 0 then readLoam s2 else if t = 2 then retrainAll s2 (subKeys s2) else s2
  match s3.boot.activating with
  | some (ring, seq, u) =>
    if u.toNat = t then complete { s3 with boot := { s3.boot with activating := none } } ring seq 0x92 errState [] else s3
  | none => s3

/-! ### Loam conversion (R378) -/

/-- Records in a format, each with a free VERSION, as far as they fit `room` bytes (log 31). -/
def convertRecs (s : State) (fmt room : Nat) : List LoamRec → Bytes × State
  | [] => ([], s)
  | r :: rs =>
    let d := drawFree 16 s
    let b := recBytes fmt d.1 r
    if room < b.length then convertRecs d.2 fmt room rs
    else
      let t := convertRecs d.2 fmt (room - b.length) rs
      (b ++ t.1, t.2)

/-- The held slot is in another format than the MP's, and the MP has not yet converted it: the other slot holds nothing later in its own. -/
def mustConvert (s : State) : Bool :=
  let fmt := mpLoamFormat s
  let held := loamSlot s (heldSlot s)
  let other := loamSlot s (1 - heldSlot s)
  frozen s && loamFormat held != fmt && !(loamOk other fmt && decide ((loamGen held).toNat < (loamGen other).toNat))

/-- The new MP writes the held slot's settings in its own format to the other slot, with GEN + 1, before it reads the loam. -/
def convertLoam (s : State) : State :=
  let old := loamSlot s (heldSlot s)
  let fmt := mpLoamFormat s
  let c := convertRecs s fmt (loamRoom fmt) ((loamRecords old).filter fun r => decide (r.ty ≤ 5))
  if mustConvert s then writeLoam c.2 (1 - heldSlot s) (loamImage fmt (loamGen old + 1) c.1) else s

/-- FIRMWARE_READY (R370, R377): a started image reports ready; an UPDATE_ACTIVATE that waited for it completes. -/
def execFirmwareReady (target : BitVec 2) (s : State) : Out :=
  let t := target.toNat
  let f := getFw s t
  .next (
    if !f.starting then s
    else
      let s1 := { s with boot := { s.boot with fw := tset {} s.boot.fw t { f with starting := false, ready := true } } }
      match s1.boot.activating with
      | none => s1
      | some (ring, seq, u) =>
        if u.toNat ≠ t then s1
        else
          let s2 := if t = 0 then readLoam (convertLoam s1) else s1
          complete { s2 with boot := { s2.boot with activating := none } } ring seq 0x92 errOk [])

/-- TRIAL_READY_TIMEOUT (R370). -/
def execTrialReadyTimeout (target : BitVec 2) (s : State) : Out :=
  let t := target.toNat
  .next (if (getFw s t).starting && inTrial s t then fallBack s t else s)

/-! ### UPDATE_BEGIN (R376) -/

/-- Size that an update of a target may have. -/
def updateMax (t : Nat) : Nat := if t = 4 then 0x200000 else (slotAt t).2

/-- UPDATE_BEGIN is served. -/
def serveUpdateBegin (s : State) (ring : Nat) (seq : BitVec 32) (target : BitVec 8) (version length blocks : BitVec 32) (digest : Digest) : State :=
  let fin (s : State) (err : Nat) := done s ring seq (.updateBegin target version length blocks digest) err
  let t := target.toNat
  if s.boot.update.isSome || anyTrial s then fin s errState
  else if 4 < t ∨ blocks.toNat < 2 ∨ 65536 < blocks.toNat ∨ updateMax t < length.toNat ∨ (t = 4 ∧ blocks ≠ 2) then fin s errBadField
  else
    let s1 := if t = 4 then s else flashErase s (imageBase (1 - (getFw s t).bank.toNat) t) (slotAt t).2
    fin { s1 with boot := { s1.boot with update := some { target, version, length, blocks, digest, applied := [], held := [] } } } errOk

/-! ### UPDATE_BLOCK (R375, R376, R379) -/

/-- The update is closed and discarded. -/
def closeUpdate (s : State) : State := { s with boot := { s.boot with update := none } }

/-- The result bytes of `n` operations from an offset of a block on, and the offset after them; none where one is not well formed. -/
def deltaOps (old : Bytes) (b : Bytes) (o : Nat) : Nat → Option (Bytes × Nat)
  | 0 => some ([], o)
  | n + 1 =>
    let ty := leNat (slice b o 1)
    let len := leNat (slice b (o + 4) 4)
    let src := leNat (slice b (o + 8) 4)
    let step : Option (Bytes × Nat) :=
      if b.length < o + 8 ∨ slice b (o + 2) 2 ≠ [0, 0] then none
      else if ty = 1 then
        if b.length < o + 16 ∨ slice b (o + 12) 4 ≠ [0, 0, 0, 0] ∨ old.length < src + len then none else some (slice old src len, o + 16)
      else if ty = 2 then
        let next := o + 8 + (len + 7) / 8 * 8
        if b.length < next then none else some (slice b (o + 8) len, next)
      else if ty = 3 then some (List.replicate len (fieldAt 8 b (o + 1) 1), o + 8)
      else none
    match step with
    | none => none
    | some (out, next) => match deltaOps old b next n with
      | none => none
      | some (rest, e) => some (out ++ rest, e)

/-- OUT_OFFSET and result bytes of a delta block with an INDEX. -/
def deltaBlock (old : Bytes) (b : Bytes) (index : Nat) : Option (Nat × Bytes) :=
  let off := leNat (slice b 8 4)
  if slice b 0 4 ≠ [0x4B, 0x44, 0x4C, 0x54] ∨ leNat (slice b 4 4) ≠ index ∨ off % 64 ≠ 0 ∨ slice b 20 12 ≠ List.replicate 12 0
      ∨ b.length < 32 then none
  else match deltaOps old b 32 (min (leNat (slice b 16 4)) (b.length / 8)) with
    | some (out, e) => if e = b.length ∧ out.length = leNat (slice b 12 4) ∧ leNat (slice b 16 4) ≤ b.length / 8 then some (off, out) else none
    | none => none

/-- The body of the image that target `t` runs. -/
def oldBody (s : State) (t : Nat) : Bytes :=
  let b := (getFw s t).bank.toNat
  flashRead s (imageBase b t + 256) (imgLength (imageHdr s b t))

/-- The error of block 0 of an update, if any (R376). -/
def block0Error (s : State) (u : UpdateSt) (b : Bytes) : Option Nat :=
  let t := u.target.toNat
  if t = 4 then
    if loamHdrOk b (mpLoamFormat s) && loamLength b + loamCheckLen (loamFormat b) == u.length.toNat && b.length == u.length.toNat then none
    else some errBadField
  else if !(imgHdrOk b t && imgVersion b == u.version && imgLength b + 256 == u.length.toNat && b.length == 256) then some errBadField
  else if imgBase b ≠ (getFw s t).version then some errVersion
  else if !imgSigned s b then some errSignature
  else none

/-- Block `i` of an update is marked applied. -/
def markApplied (u : UpdateSt) (i : Nat) : UpdateSt := { u with applied := u.applied ++ [i] }

/-- A block's bytes have come: the error it meets, or the state with it applied. -/
def applyBlock (s : State) (u : UpdateSt) (i : Nat) (b : Bytes) : Nat ⊕ State :=
  let t := u.target.toNat
  let base := imageBase (1 - (getFw s t).bank.toNat) t
  let put (s : State) (u : UpdateSt) : State := { s with boot := { s.boot with update := some (markApplied u i) } }
  if i = 0 then
    match block0Error s u b with
    | some e => .inl e
    | none => .inr (if t = 4 then put s { u with held := b } else put (flashWrite s base b) u)
  else
    match deltaBlock (if t = 4 then [] else oldBody s t) b i with
    | none => .inl errBadField
    | some (off, out) =>
      if t = 4 then (if out.isEmpty then .inr (put s u) else .inl errBadField)
      else if u.length.toNat < 256 + off + out.length then .inl errBadField
      else .inr (put (flashWrite s (base + 256 + off) out) u)

/-- LENGTH that block `i` may have. -/
def blockLengthOk (u : UpdateSt) (i length : Nat) : Bool :=
  if i = 0 then length == (if u.target = 4 then u.length.toNat else 256) else decide (length ≤ 0x400000)

/-- UPDATE_BLOCK is served: it completes at once, or its data is read from the host. -/
def serveUpdateBlock (s : State) (ring : Nat) (seq : BitVec 32) (index : BitVec 32) (host : BitVec 64) (length : BitVec 32) (digest : Digest) : State :=
  let cmd := MboxCmd.updateBlock index host length digest
  match s.boot.update with
  | none => done s ring seq cmd errBusy
  | some u =>
    if u.blocks.toNat ≤ index.toNat ∨ blockLengthOk u index.toNat length.toNat = false then done (closeUpdate s) ring seq cmd errBadField
    else if u.applied.contains index.toNat then done s ring seq cmd errOk
    else { s with mbox := { s.mbox with reads := s.mbox.reads ++ [{ ring, seq, cmd }] } }

/-- The block's data has come from the host (R376). -/
def updateBlockRead (s : State) (ring : Nat) (seq : BitVec 32) (index : BitVec 32) (host : BitVec 64) (length : BitVec 32) (digest : Digest)
    (view : HostView) : State :=
  let fin (s : State) (err : Nat) := done s ring seq (.updateBlock index host length digest) err
  let b := hostView view host.toNat length.toNat
  match s.boot.update with
  | none => fin s errBusy
  | some u =>
    if u.applied.contains index.toNat then fin s errOk
    else if sm3 b ≠ digest then fin s errDigest
    else match applyBlock s u index.toNat b with
      | .inl e => fin (closeUpdate s) e
      | .inr s1 => fin s1 errOk

/-! ### UPDATE_ACTIVATE and UPDATE_CONFIRM (R376-R379) -/

/-- Every entry read and not yet served has IF 1: the new MP image serves it (R376). -/
def pendingServed (s : State) (h : Bytes) : Bool :=
  (s.mbox.rings.all fun e => e.2.pend.isEmpty) || (decide (leNat (slice h 21 1) ≤ 1) && decide (1 ≤ leNat (slice h 22 1)))

/-- The error of a complete firmware result, if any. -/
def resultError (s : State) (u : UpdateSt) : Option Nat :=
  let t := u.target.toNat
  let b := 1 - (getFw s t).bank.toNat
  let h := imageHdr s b t
  if sm3 (flashRead s (imageBase b t) u.length.toNat) ≠ u.digest ∨ imgBodyOk s b t = false then some errDigest
  else if !imgSigned s h then some errSignature
  else if !(compatible s h t && (t != 0 || pendingServed s h)) then some errVersion
  else none

/-- LOAM of the header that activates target `t`: an MP of another loam format freezes the current slot (R378). -/
def activateLoam (s : State) (t : Nat) : BitVec 8 :=
  if t = 0 ∧ imgLoamFormat (imageHdr s (1 - (getFw s 0).bank.toNat) 0) ≠ mpLoamFormat s then
    BitVec.ofNat 8 (1 + 2 * s.boot.loamSlot.toNat)
  else s.boot.hdrLoam

/-- BANK of the header that activates target `t`: its bit names the bank that the running image is not in. Where boot took the other bank than
the header names (R370), the bit already does (log 31). -/
def activateBank (s : State) (t : Nat) : BitVec 8 :=
  if hdrBankOf s t = (getFw s t).bank.toNat then s.boot.hdrBank ^^^ BitVec.ofNat 8 (2 ^ t) else s.boot.hdrBank

/-- The result of a firmware update is activated (R376, R377). -/
def activateImage (s : State) (ring : Nat) (seq : BitVec 32) (target : BitVec 8) : State :=
  let t := target.toNat
  let h : Hdr := { curHdr s with bank := activateBank s t, trial := BitVec.ofNat 8 (2 ^ t), tries := 0, loam := activateLoam s t }
  let s1 := writeHdr (closeUpdate s) h
  if t = 3 then done s1 ring seq (.updateActivate target) errOk
  else
    let s2 := startTrial { s1 with boot := { s1.boot with activating := some (ring, seq, target) } } t
    if t = 2 then retrainAll s2 (subKeys s2) else s2

/-- A loam image is activated (R379). -/
def activateLoamImage (s : State) (ring : Nat) (seq : BitVec 32) (u : UpdateSt) : State :=
  let fin (s : State) (err : Nat) := done s ring seq (.updateActivate u.target) err
  if sm3 u.held ≠ u.digest ∨ loamOk u.held (mpLoamFormat s) = false then fin (closeUpdate s) errDigest
  else
    let cur := if s.boot.loamDefaults then 0 else loamGen (loamSlot s s.boot.loamSlot.toNat)
    fin (writeLoam (closeUpdate s) (loamTarget s) (loamRegen u.held (cur + 1))) errOk

/-- UPDATE_ACTIVATE is served. -/
def serveUpdateActivate (s : State) (ring : Nat) (seq : BitVec 32) (target : BitVec 8) : State :=
  let fin (s : State) (err : Nat) := done s ring seq (.updateActivate target) err
  match s.boot.update with
  | none => fin s errState
  | some u =>
    if s.sec.isOpen || u.target != target then fin s errState
    else if target = 4 ∧ frozen s = true then fin (logEv s { cls := clsSecurity, cause := 6, a0 := 2 }) errState
    else if u.applied.length < u.blocks.toNat then fin s errMissing
    else if target = 4 then activateLoamImage s ring seq u
    else match resultError s u with
      | some e => fin (closeUpdate s) e
      | none => activateImage s ring seq target

/-- UPDATE_CONFIRM is served; a MEMORY trial has started once TRIES counts a start. -/
def serveUpdateConfirm (s : State) (ring : Nat) (seq : BitVec 32) : State :=
  if !anyTrial s || (inTrial s 3 && s.boot.hdrTries == 0) then done s ring seq .updateConfirm errState
  else
    done (writeHdr s { curHdr s with trial := 0, tries := 0, loam := s.boot.hdrLoam &&& 0xFE }) ring seq .updateConfirm errOk

end Sys2Proof.Machine
end

