-- ==== Sys2Proof/Machine/Boot.lean ====
section
/-! DEFINITION. The boot sequence (R318-R328, R359-R372, R422, R439, R441) and self-test (R225). -/

namespace Sys2Proof.Machine

/-! ### Firmware images at boot (R362, R369 events 6 and 7, R370) -/

/-- A target whose bank does not verify tries the other one; none where both fail. -/
def bootBank (s : State) (t bank : Nat) : Option State :=
  if imageVerifies s bank t then some (startImage s t bank true)
  else if imageVerifies s (1 - bank) t && compatible s (imageHdr s (1 - bank) t) t then some (startImage s t (1 - bank) true)
  else none

/-- The state and the header as a target falls back before it starts: its TRIES are used up, or its trial image does not verify. -/
def bootHeader (s : State) (t : Nat) : State :=
  if inTrial s t && (decide (3 ≤ s.boot.hdrTries.toNat) || !imageVerifies s (hdrBankOf s t) t) then fallBackHdr s t else s

/-- One target starts under the trial rule; none where neither bank serves. -/
def bootTarget (s : State) (t : Nat) : Option State :=
  if inTrial s t then some (startTrial s t) else bootBank s t (hdrBankOf s t)

/-- The targets start in order, and whether every one of them has started; what was written to the header before one did not stays. -/
def bootTargets (s : State) : List Nat → State × Bool
  | [] => (s, true)
  | t :: ts => match bootTarget (bootHeader s t) t with
    | some s1 => bootTargets s1 ts
    | none => (bootHeader s t, false)

/-- The images that the header names, before they are verified: what COMPAT is checked against (R370, R376). -/
def namedImages (s : State) : State :=
  { s with boot := { s.boot with
      fw := [0, 1, 2, 3].foldl (fun t i => tset {} t i
        { version := imgVersion (imageHdr s (hdrBankOf s i) i), bank := BitVec.ofNat 1 (hdrBankOf s i), ready := false, starting := false }) [] } }

/-! ### Loam settings (R368, R399) -/

/-- Settings without a loam record where they are not zero (R399). -/
def loamResets (s : State) : State :=
  putCfg (putCfg s offInbandCfg (1000 * 2 ^ 20)) offOobCfg (0x4F * 2 ^ 16 + 100 * 2 ^ 24 + 64 * 2 ^ 40)

/-- PORTS: ENABLE, MODE, DIRECT and FEC_BYPASS of every port. -/
def loamPorts (p : Bytes) (s : State) : List Nat → State
  | [] => s
  | n :: ns =>
    let b := leNat (slice p (8 + n) 1)
    loamPorts p (putField (putField s (offSpanCfg n) 3 0 (bitsOf b 3 0)) (offSpanCfg n) 4 4 (b2n (tb (leNat (slice p 0 8)) n))) ns

/-- MAC_BASE: SUB.MAC of every sub-port. -/
def loamMacs (base : Nat) (s : State) : List Nat → State
  | [] => s
  | k :: ks => loamMacs base (putCfg s (offSubMac (k / 8) (k % 8)) ((base + k) % 2 ^ 48)) ks

/-- One record's setting; a payload that its register would refuse sets nothing (log 31). -/
def loamApply (s : State) (r : LoamRec) : State :=
  let p := r.payload
  match r.ty with
  | 1 => if p.length = 58 then loamPorts p s (List.range 50) else s
  | 2 => if p.length = 6 then loamMacs (leNat p.reverse) s (List.range 400) else s
  | 3 => if p.length = 4 ∧ (List.range 4).all (trimOk (leNat p)) = true then putCfg s offPaceTrim (leNat p) else s
  | 5 =>
    let n := leNat (slice p 0 4)
    if n ≤ 32 ∧ p.length = 4 + 32 * n then
      { s with boot := { s.boot with publishers := (List.range n).map fun i => fieldAt 256 p (4 + 32 * i) 32 } }
    else s
  | 6 =>
    let v := 2 * leNat (slice p 0 2)
    if p.length = 6 ∧ within v 14 5 1 999 = true then
      let w := leNat (slice p 2 4)
      putCfg (writeTimeCtl s (v % 2 ^ 15 + cfg s offTbaseCtl 0 0)) offPtpCfg (w % 2 ^ 9 + bitsOf w 31 16 * 2 ^ 16)
    else s
  | 7 =>
    let o := leNat (slice p 0 8)
    let i := leNat (slice p 8 8)
    if p.length = 16 ∧ (within o 39 24 1 65535 && within o 47 40 1 255 && within i 35 20 1 65535) = true then
      putCfg (putCfg s offOobCfg (o % 2 ^ 48)) offInbandCfg (i % 2 ^ 36)
    else s
  | _ => s

/-- Boot event 8: the loam is read and its settings taken; a trial MP that was reset before it had converted the held slot does so (R378). -/
def bootLoam (s : State) : State :=
  let s1 := readLoam (convertLoam (loamResets s))
  if s1.boot.loamDefaults then s1 else (loamRecords (loamSlot s1 s1.boot.loamSlot.toNat)).foldl loamApply s1

/-! ### Host link, rails, debug policy -/

/-- Lanes in use of the host link from those that trained (R334). -/
def hostWidth (lanes : BitVec 4) : Nat :=
  let n := ((List.range 4).filter (tb lanes.toNat)).length
  if n = 4 then 4 else if 2 ≤ n then 2 else n

/-- The host link has trained on lanes. -/
def linkTrained (s : State) (width : Nat) : State :=
  { s with mbox := { s.mbox with link := if width = 0 then 0 else 2, width := BitVec.ofNat 4 width } }

/-- The MP reads each rail back and sets it (R441). -/
def bootRails (s : State) (ok : Bool) : State :=
  if ok then { s with pace := { s.pace with avsOut := some (railTargets s s.pace.railMv.toNat) } }
  else logSilent { s with pace := { s.pace with avsFault := true } } (List.range 4)

/-- The debug policy is read, and measured (R415, R422). -/
def bootPolicy (s : State) : State :=
  let p := flashRead s policyBase 128
  let erased := p.all (· == 0xFF)
  let ok := !erased && slice p 0 6 == [0x4B, 0x44, 0x50, 0x4C, 1, 0] && fieldAt 64 p 8 8 == s.boot.deviceId
    && signedBy s 5 (slice p 0 64) (fieldAt 512 p 64 64)
  { s with
    dbg := { s.dbg with policyValid := ok, scopeMax := if ok then fieldAt 16 p 6 2 else 0, tapGrantOk := ok && tb (leNat (slice p 16 4)) 0 }
    sec := { s.sec with meas := tset 0 s.sec.meas 8 (if erased then 0 else sm3 p) } }

/-! ### Memories at boot (R318, R323, R328) -/

/-- Rows that the retirements name and that are not yet permanent (states PENDING, SOFT and NO_REPAIR, R332), of stack or channel `k`. -/
def rowsOf (s : State) (kind k : Nat) : List Nat :=
  ((retirements s).filter fun e => e.kind == kind && e.state != 2 && (if kind = 5 then e.u0 / 64 else e.u0) == k).map fun e =>
    rowKey' e
where
  /-- The name of a retired row. -/
  rowKey' (e : RetireEnt) : Nat := e.u0 * 2 ^ 64 + e.u1 * 2 ^ 32 + e.u2

/-- Lane repairs of stack `k` in a grade map: the entries in use (R365). -/
def stackLanes (g : Bytes) (k : Nat) : List (BitVec 16) :=
  ((List.range 64).map fun i => fieldAt 16 g (2888 + 128 * k + 2 * i) 2).filter (· != 0xFFFF)

/-- A stack's lanes and its recorded rows are repaired, it trains and answers; otherwise the device is out of service (R318, R328). -/
def bootStack (s : State) (k : Nat) (v : StackView) : State :=
  let s1 := modStack s k fun x =>
    { x with high16 := v.high16, density32 := v.density32, repairLeft := v.repairLeft, laneRepairs := stackLanes (gradeMap s) k }
  let s2 := repairRows s1 5 k 2 (rowsOf s1 5 k)
  if v.high16 && v.density32 && v.trained then s2
  else
    logEv { s2 with boot := { s2.boot with outOfService := true } }
      { cls := clsFatal, cause := 2, loc := BitVec.ofNat 64 k, a0 := BitVec.ofNat 64 v.badChannel.toNat, die := k / 2 }

def bootStacks (s : State) (k : Nat) : List StackView → State
  | [] => s
  | v :: vs => bootStacks (bootStack s k v) (k + 1) vs

/-- STATE and CAUSE of a channel from what its slot answers (R323). -/
def dimmVerdict (s : State) (v : DimmView) : Nat × Nat :=
  if !v.present then (0, 0)
  else if v.shorted then (1, 1)
  else if !(v.supported && [64, 96, 128, 192, 256].contains v.sizeGib.toNat) then (1, 2)
  else if (retirements s).any fun e => e.kind == 7 && e.u0 == v.serial.toNat then (1, 7)
  else if v.trains = 0 then (1, 3)
  else (2, 0)

/-- Highest rate at which training passed: its RATE_REQ code. -/
def bestRate (trains : BitVec 3) : Nat := ((List.range 3).find? (tb trains.toNat)).getD 0

/-- A DDR channel is found, its recorded rows are repaired whatever its SPD and training then show, and it is trained; a fall-back rate
is logged (R328 events 2, 4 and 5). -/
def bootDimm (s : State) (m : Nat) (v : DimmView) : State :=
  let d := dimmVerdict s v
  let rate := if d.1 = 2 then rateOf (bestRate v.trains) else 0
  let s1 := modDdr s m fun x =>
    { x with
      state := BitVec.ofNat 2 d.1, cause := BitVec.ofNat 4 d.2, rateMts := BitVec.ofNat 14 rate, sizeGib := if v.present then v.sizeGib else 0
      serial := if v.present then v.serial else 0, maker := if v.present then v.maker else 0, trains := if d.1 = 2 then v.trains else 0 }
  let s2 := if v.present then repairRows s1 6 m 2 (rowsOf s1 6 m) else s1
  if d.1 = 2 ∧ rate ≠ 8800 then
    logEv s2 { cls := clsMemory, cause := 7, loc := BitVec.ofNat 64 m, a0 := BitVec.ofNat 64 rate, die := m / 2 }
  else s2

def bootDimms (s : State) (m : Nat) : List DimmView → State
  | [] => s
  | v :: vs => bootDimms (bootDimm s m v) (m + 1) vs

/-! ### Stored training values (R328 event 5, R368, R381) -/

/-- The part of a DDR_TRAIN payload that holds one channel: SERIAL, RATE_MTS, and all of it; `n` channels lie before it. -/
def trainEntry (p : Bytes) : Nat → Nat × Nat × Bytes
  | 0 => (leNat (slice p 0 4), leNat (slice p 4 2), p.take (8 + leNat (slice p 6 2)))
  | n + 1 => trainEntry (p.drop (8 + leNat (slice p 6 2))) n

/-- Channel `m`'s part of the new payload. A channel that trains with values stored for its DIMM and rate keeps them where the verify pass
confirms them, which is free; values of a full training are free too. A channel that does not train keeps its part (log 31). -/
def trainPart (s : State) (old : Bytes) (m : Nat) : Bytes × State :=
  let d := getDdr s m
  let e := trainEntry old m
  let kept := if e.2.2.length < 8 then List.replicate 8 (0 : Byte) else e.2.2
  if d.state ≠ 2 then (kept, s)
  else
    let c := drawFree 1 s
    if e.1 = d.serial.toNat ∧ e.2.1 = d.rateMts.toNat ∧ c.1 = 1 then (kept, c.2)
    else
      let b := freeBytes Config.trainLength.toNat c.2
      (bytesOf 4 d.serial ++ natLe 2 d.rateMts.toNat ++ bytesOf 2 Config.trainLength ++ b.1, b.2)

/-- The parts of the channels from `m` on. -/
def trainParts (s : State) (old : Bytes) (m : Nat) : Nat → Bytes × State
  | 0 => ([], s)
  | n + 1 =>
    let a := trainPart s old m
    let r := trainParts a.2 old (m + 1) n
    (a.1 ++ r.1, r.2)

/-- Training values that are new are written with the loam's other records to the slot that is neither current nor held; without a valid slot, or
without room, they are not kept (log 31). -/
def storeTraining (s : State) : State :=
  let fmt := mpLoamFormat s
  match pickLoam s fmt with
  | none => s
  | some i =>
    let img := loamSlot s i
    let old := ((loamRecords img).find? fun r => r.ty == 4).elim [] LoamRec.payload
    let p := trainParts s old 0 8
    let v := drawFree 16 p.2
    let rest := ((rawRecs img fmt (loamLength img) 16 (loamLength img / 4)).filter fun r => r.1 != 4).flatMap Prod.snd
    let recs := rest ++ recBytes fmt v.1 { ty := 4, payload := p.1 }
    if p.1 = old ∨ loamRoom fmt < recs.length ∨ (fmt = 1 ∧ 0x10000 ≤ p.1.length) then p.2
    else writeLoam v.2 (loamTarget s) (loamImage fmt (loamGen img + 1) recs)

/-! ### Self-test (R225, R366, R369 event 10) -/

/-- The log entry of a failing unit. -/
def failingEntry (f : FailingUnit) : RetireEnt := { kind := f.kind.toNat, state := 0, u0 := f.u0.toNat, u1 := f.u1.toNat, u2 := f.u2.toNat }

/-- Kinds that self-test records. -/
def selfTestKind (f : FailingUnit) : Bool := [1, 2, 3, 4, 8].contains f.kind.toNat

/-- Failing units are recorded, each once. -/
def recordFailing (s : State) : List FailingUnit → State
  | [] => s
  | f :: fs =>
    let e := failingEntry f
    recordFailing (if selfTestKind f && !(retirements s).any (sameUnit e) then retire s e else s) fs

/-- SELF_TEST (R225): on a device with no open plot; what it retires takes effect at the next boot (R15). -/
def execSelfTest (failing : List FailingUnit) (s : State) : Out :=
  .next (if inService s && !s.sec.isOpen then recordFailing s failing else s)

/-! ### The sequence (R369) -/

/-- Bedrock mode (R372): the ROM alone, no firmware image running, the host link on lane 0, the registers at their reset values. -/
def enterBedrock (s : State) (v : BootView) (cause : Nat) : State :=
  linkTrained (loamResets { s with boot := { s.boot with phase := .bedrock (BitVec.ofNat 4 cause), fw := [] } }) (b2n (tb v.hostLanes.toNat 0))

/-- Every enabled port begins training (R369 event 12). -/
def trainPorts (s : State) : List Nat → State
  | [] => s
  | n :: ns => trainPorts (if cfg s (offSpanCfg n) 4 4 = 1 then trainSubs s n (List.range (subsOf s n)) else s) ns

/-- The FATAL entry of a device that the mapping finds out of service (R17). -/
def noteOutOfService (s : State) : State := if s.boot.effective = 3 then logOutOfService s else s

/-- Events 8 to 12, with the MP running. -/
def bootService (s : State) (v : BootView) : State :=
  let s1 := bootRails (linkTrained (bootPolicy (bootLoam s)) (hostWidth v.hostLanes)) v.avsOk
  let s2 := recordFailing (storeTraining (bootDimms (bootStacks s1 0 (v.stackTbl.take 8)) 0 (v.dimms.take 8))) v.failing
  let s3 := noteOutOfService (mapDevice s2)
  trainPorts { s3 with boot := { s3.boot with phase := .service, bootMs := v.bootMs } } (List.range 50)

/-- Events 3 to 7, with the flash read mode chosen. -/
def bootRom (s : State) (v : BootView) : State :=
  match pickHdr s with
  | none => enterBedrock s v 2
  | some (c, h) =>
    let s1 := setHdr s c h
    match rebuiltKey s1 with
    | none => enterBedrock s1 v 3
    | some k =>
      let s2 := takeIdentity s1 k
      if !(chainReaches (chainRegion s2) && chainOwn s2) then enterBedrock s2 v 4
      else
        let s3 := { s2 with sec := { s2.sec with meas := tset 0 s2.sec.meas 7 (sm3 (chainBytes s2)) } }
        if !gradeOk s3 then enterBedrock s3 v 5
        else
          let s4 := { s3 with sec := { s3.sec with meas := tset 0 s3.sec.meas 5 (sm3 (gradeMap s3)) } }
          let s5 := bootTargets (namedImages s4) [0, 1, 2, 3]
          if s5.2 then bootService s5.1 v else enterBedrock s5.1 v 6

/-- The fastest mode of R359's table, in ascending read rate, that an SFDP table declares. -/
def fastestMode (modes : Option (BitVec 4)) : Option (BitVec 2) :=
  match modes with
  | none => none
  | some ms => ([3, 2, 1, 0].find? (tb ms.toNat)).map (BitVec.ofNat 2)

/-- RESET_N_RELEASE (R369, R439): with PWRGOOD high the PLL locks to a passing reference and the device boots; with none it waits, and
the command given again is the reference that passes (log 32). -/
def execResetNRelease (v : BootView) (s : State) : Out :=
  .next (
    if !(s.boot.phase == .reset || s.boot.phase == .waitRef) then s
    else if !(v.refA || v.refB) then { s with boot := { s.boot with phase := .waitRef } }
    else
      let ref : BitVec 1 := if v.refA then 0 else 1
      let s1 := { s with
        time := { s.time with refAok := v.refA, refBok := v.refB, refSel := ref }
        boot := { s.boot with alertN := false } }
      match fastestMode v.sfdpModes with
      | none => enterBedrock s1 v 1
      | some m => bootRom { s1 with boot := { s1.boot with flashMode := m } } v)

/-- REFERENCE_WAIT_ALERT (R439). -/
def execReferenceWaitAlert (s : State) : Out :=
  .next (if s.boot.phase = .waitRef then { s with boot := { s.boot with alertN := true } } else s)

end Sys2Proof.Machine
end

