-- ==== Sys2Proof/Machine/Grants.lean ====
section
/-! DEFINITION. Debug grants (R423, R430, R431): how one is accepted, refused and ended; what resumes when halts end (R426). -/

namespace Sys2Proof.Machine

/-! ### Resuming (R425, R426) -/

/-- Sub-ports of the plot that a halt blotted handshake with SEQ_RESET (R426). -/
def shakeBlotted (s : State) : List Nat → State
  | [] => s
  | k :: ks =>
    let b := getSub s k
    shakeBlotted (if b.linkUp && b.blotted && b.needReset && !b.fenced then startShake s k true else s) ks

/-- Units have resumed: when none is halted any more, HOLD_END goes out, or blotted sub-ports handshake (R426). -/
def afterResume (s : State) : State :=
  if anyHalted s then s
  else
    let s1 := if s.dbg.haltBlotted then shakeBlotted { s with dbg := { s.dbg with haltBlotted := false } } (subKeys s) else s
    endHaltHold s1 0

/-! ### Grants -/

/-- The fields of a grant of 192 bytes. -/
def grantScope (b : Bytes) : BitVec 16 := fieldAt 16 b 6 2
def grantAfter (b : Bytes) : BitVec 64 := fieldAt 64 b 32 8
def grantHolder (b : Bytes) : Digest := fieldAt 256 b 40 32

/-- A time in whole seconds has passed. -/
def passed (s : State) (sec : BitVec 64) : Bool := decide (nsUnits (sec.toNat * 1000000000) < nowUnits s)

/-- The error with which a grant is refused, if any. -/
def grantError (s : State) (b : Bytes) : Option Nat :=
  let t := grantAfter b
  if b.length ≠ 192 ∨ slice b 0 6 ≠ [0x4B, 0x44, 0x47, 0x52, 1, 0] ∨ slice b 72 56 ≠ List.replicate 56 0 ∨ 16 ≤ (grantScope b).toNat then
    some errBadField
  else if !signedBy s 5 (slice b 0 128) (fieldAt 512 b 128 64) then some errSignature
  else if fieldAt 64 b 8 8 ≠ s.boot.deviceId ∨ fieldAt 128 b 16 16 ≠ s.dbg.challenge ∨ grantScope b &&& ~~~s.dbg.scopeMax ≠ 0
      ∨ s.dbg.policyValid = false ∨ (t ≠ 0 ∧ (s.time.timeValid = false ∨ passed s t = true)) then some errState
  else none

/-- A grant is presented: accepted, replacing any active one, or refused; both are logged. -/
def takeGrant (s : State) (b : Bytes) : State × Nat :=
  match grantError s b with
  | some e => (logEv s { cls := clsSecurity, cause := 11, a0 := BitVec.ofNat 64 e }, e)
  | none =>
    let h := grantHolder b
    (logEv { s with dbg := { s.dbg with grant := true, scope := grantScope b, holder := h, notAfter := grantAfter b } }
      { cls := clsSecurity, cause := 10, a0 := BitVec.ofNat 64 h.toNat, a1 := BitVec.ofNat 64 (grantScope b).toNat }, errOk)

/-- The active grant ends: 0 by command, 1 by time; halted units resume and breakpoints are cleared. -/
def endGrant (s : State) (why : Nat) : State :=
  if !s.dbg.grant then s
  else
    let s1 := afterResume (clearHalts { s with
      dbg := { s.dbg with grant := false, scope := 0, holder := 0, notAfter := 0, bps := [] }
      boot := { s.boot with scan := none } })
    logEv s1 { cls := clsSecurity, cause := 12, a0 := BitVec.ofNat 64 why }

/-- GRANT_EXPIRY (R423): the time passes NOT_AFTER_S. -/
def execGrantExpiry (s : State) : Out :=
  .next (if s.dbg.grant && s.dbg.notAfter != 0 && passed s s.dbg.notAfter then endGrant s 1 else s)

/-- The XFER frame shifted out next: the data at [113:50], RESULT at [115:114] (R421). -/
def xferFrame (s : State) : BitVec 128 := BitVec.ofNat 128 (s.dbg.xferData.toNat * 2 ^ 50 + s.dbg.xferResult.toNat * 2 ^ 114)

/-- The data register of a TAP instruction, as Capture-DR loads it; every value not listed acts as BYPASS, and so does EXTEST until
`execExtest` lets it act (R420). -/
def tapDataOf (s : State) (ir : BitVec 8) : TapData :=
  match ir.toNat with
  | 0x01 => .scan (s.boot.scan.getD [])
  | 0x02 => .idcode idcode
  | 0x10 => .challenge s.dbg.challenge
  | 0x11 => .grant
  | 0x20 => .xfer (xferFrame s)
  | _ => .bypass

/-- The TAP takes an instruction; the pins are driven by boundary scan no longer (R420). -/
def tapSelect (s : State) (ir : BitVec 8) : State :=
  { s with dbg := { s.dbg with tapIr := ir, tapData := tapDataOf s ir }, boot := { s.boot with scan := none } }

/-- TAP_GRANT (R420, R423): Update-DR presents 192 bytes when the policy lets the TAP. -/
def execTapGrant (grant : Bytes) (s : State) : Out :=
  let s1 := tapSelect s 0x11
  .next (if s.dbg.tapGrantOk then (takeGrant s1 (slice grant 0 192)).1 else s1)

/-- The bytes of a DEBUG_GRANT have come from the host. -/
def debugGrantRead (s : State) (ring : Nat) (seq : BitVec 32) (addr : BitVec 64) (length : BitVec 32) (view : HostView) : State :=
  let r := takeGrant s (hostView view addr.toNat length.toNat)
  done r.1 ring seq (.debugGrant addr length) r.2

/-- DEBUG_GRANT is served before its data is read: the answer it has without, if any. -/
def debugGrantAtOnce (s : State) (ring : Nat) (seq : BitVec 32) (addr : BitVec 64) (length : BitVec 32) : Option State :=
  if length = 0 then some (done (endGrant s 0) ring seq (.debugGrant addr length) errOk)
  else if length ≠ 192 then
    some (done (logEv s { cls := clsSecurity, cause := 11, a0 := BitVec.ofNat 64 errBadField }) ring seq (.debugGrant addr length) errBadField)
  else none

end Sys2Proof.Machine
end

