-- ==== Sys2Proof/Machine/Power.lean ====
section
/-! DEFINITION. Power, reset, thermal trip, lost controllers (R384, R437-R445), and bedrock operations (R372-R374). -/

namespace Sys2Proof.Machine

/-! ### Reset (R437-R440) -/

/-- The device after a reset: every register at its reset value, flash kept, strata as given, a new challenge drawn (R423, R438, R440);
the TAP has a reset of its own (R420). -/
def resetDevice (s : State) (mem : Tbl Byte) (phase : Phase) (pwrgood : Bool) : State :=
  let d := drawFree 128 s
  { State.reset with
    pending := s.pending, free := d.2.free, flash := s.flash, mem, host := s.host
    boot := { phase, pwrgood, puf := s.boot.puf }
    dbg := { challenge := d.1, tapIr := s.dbg.tapIr, tapData := s.dbg.tapData } }

/-- POWER_UP (R363, R437, R438): nothing is retained but the flash, and the PUF array shows its response. -/
def execPowerUp (s : State) : Out :=
  let d := drawFree 131072 (resetDevice s [] .off false)
  .next { d.2 with boot := { d.2.boot with puf := d.1 }, dbg := { d.2.dbg with tapIr := 0x02, tapData := .idcode idcode } }

/-- PWRGOOD_ASSERT (R439). -/
def execPwrgoodAssert (s : State) : Out :=
  .next (if s.boot.pwrgood then s else { s with boot := { s.boot with pwrgood := true, phase := .reset } })

/-- PWRGOOD_FALL (R440): the device resets; the strata are not erased by it, and its occurrence counters stay (R388). -/
def execPwrgoodFall (s : State) : Out :=
  let s1 := resetDevice s s.mem .off false
  .next { s1 with blot := { s1.blot with counts := s.blot.counts } }

/-- A reset with power and PWRGOOD kept: the device ignores it while PWRGOOD is low (R439). A thermal trip outlasts it, until PWRGOOD
falls (R444). The occurrence counters stay: power-up clears them (R388). A grant that it ends is logged (R430). -/
def poweredReset (s : State) : State :=
  if !s.boot.pwrgood then s
  else
    let s0 := resetDevice s s.mem (if s.boot.phase = .tripped then .tripped else .reset) true
    let s1 := { s0 with boot := { s0.boot with thermtripN := s.boot.thermtripN }, blot := { s0.blot with counts := s.blot.counts } }
    if s.dbg.grant then logEv s1 { cls := clsSecurity, cause := 12, a0 := 2 } else s1

/-- RAIL_FAULT (R440). -/
def execRailFault (_rail : BitVec 4) (s : State) : Out := .next (poweredReset s)

/-- WARM_RESET (R440): as a power cycle, but the PUF array and the strata keep their contents; so the occurrence counters begin again (R388). -/
def execWarmReset (s : State) : Out := .next (poweredReset (if s.boot.pwrgood then clearCounts s else s))

/-! ### Thermal trip (R443-R445) -/

/-- Sensor names as in the LOCATOR of R445: bit 3 set is stack `sensor % 8`, otherwise a die's; further bits number its sensors. -/
def tripTemp (sensor : BitVec 8) : Nat := if tb sensor.toNat 3 then 105 else 115

/-- Transmitters off: every sub-port without a link. -/
def linksOff (t : Tbl SubSt) : Tbl SubSt :=
  t.filterMap fun e =>
    let b : SubSt := { e.2 with linkUp := false, training := false, shaking := false, state := .off }
    if b = {} then none else some (e.1, b)

/-- THERMAL_TRIP (R444). -/
def execThermalTrip (sensor tempC : BitVec 8) (s : State) : Out :=
  .next (
    if s.boot.phase = .off ∨ s.boot.phase = .tripped ∨ tempC.toNat < tripTemp sensor then s
    else
      logEv { s with
        boot := { s.boot with phase := .tripped, thermtripN := true }
        step := { s.step with running := false }
        launch := { s.launch with state := .idle, ready := none, short := false }
        subs := linksOff s.subs
        mbox := { s.mbox with link := 0, width := 0 } }
        { cls := clsFatal, cause := 4, loc := BitVec.ofNat 64 sensor.toNat, a0 := BitVec.ofNat 64 tempC.toNat })

/-- CONTROLLER_LOST (R384): a hub, link or memory controller; the entry's locator holds target and die. -/
def execControllerLost (target die : BitVec 2) (s : State) : Out :=
  .next (
    if target = 0 ∨ s.boot.phase ≠ .service then s
    else logEv s { cls := clsFatal, cause := 3, loc := Config.controllerLocator target.toNat die.toNat, die := die.toNat })

/-! ### Bedrock operations (R373, R374) -/

/-- The device is in bedrock mode. -/
def inBedrock (s : State) : Bool := (bedrockCause s).isSome

/-- Flash base and size of an item's region; images go to bank A, loam to slot 0. -/
def itemRegion (item : Nat) : Nat × Nat :=
  if item < 4 then (imageBase 0 item, (slotAt item).2)
  else if item = 4 then (chainBase, 0x10000)
  else if item = 5 then (gradeBase, 0x10000)
  else if item = 6 then (loamBase 0, 0x200000)
  else (retireHalf 0, 0x40000)

/-- OFFSET and LENGTH of BEDROCK_ARG; BEDROCK_DIGEST. -/
def bedOffset (s : State) : Nat := cfg s offBedrockArg 31 0
def bedLength (s : State) : Nat := cfg s offBedrockArg 63 32
def bedDigest (s : State) : Digest := cfgReg s offBedrockDigest

/-- The operation ends with a code of R346. -/
def bedDone (s : State) (err : Nat) : State := { s with boot := { s.boot with bedError := BitVec.ofNat 8 err } }

/-- BEGIN: the item's region is erased. -/
def bedBegin (s : State) (item : Nat) : State :=
  let r := itemRegion item
  if 7 < item ∨ r.2 < bedLength s then bedDone s errBadField
  else
    bedDone { flashErase s r.1 r.2 with
      boot := { s.boot with bedItem := some (BitVec.ofNat 4 item, BitVec.ofNat 32 (bedLength s)) } } errOk

/-- Length of the item that BEGIN opened, if it is this one. -/
def bedOpen (s : State) (item : Nat) : Option Nat :=
  match s.boot.bedItem with
  | some (i, n) => if i.toNat = item then some n.toNat else none
  | none => none

/-- CHUNK: bytes of the buffer go to the region when their digest matches. -/
def bedChunk (s : State) (item : Nat) : State :=
  match bedOpen s item with
  | none => bedDone s errState
  | some n =>
    let b := readRun 0 s.boot.bedBuf 0 (bedLength s)
    if 0x80000 < bedLength s ∨ n < bedOffset s + bedLength s then bedDone s errBadField
    else if sm3 b ≠ bedDigest s then bedDone s errDigest
    else bedDone (flashWrite s ((itemRegion item).1 + bedOffset s) b) errOk

/-- The error with which END refuses an item, if any. -/
def bedRefuses (s : State) (item n : Nat) : Option Nat :=
  let matches_ := sm3 (flashRead s (itemRegion item).1 n) == bedDigest s
  if item < 4 then
    let h := imageHdr s 0 item
    if !(matches_ && imgBodyOk s 0 item) then some errDigest
    else if imgBase h ≠ 0 then some errVersion
    else if !imgHdrOk h item then some errBadField
    else if !imgSigned s h then some errSignature
    else none
  else if item = 4 then (if chainReaches (chainRegion s) then none else some errSignature)
  else if item = 5 then
    if !s.boot.idOk then some errState else if gradeOk s then none else some errSignature
  else if matches_ then none else some errDigest

/-- END: the whole item is checked and, accepted, comes into force. -/
def bedEnd (s : State) (item : Nat) : State :=
  match bedOpen s item with
  | none => bedDone s errState
  | some n => match bedRefuses s item n with
    | some e => bedDone s e
    | none =>
      let s1 := { s with boot := { s.boot with bedItem := none } }
      if item < 4 then
        bedDone (writeHdr s1 { curHdr s1 with bank := s1.boot.hdrBank &&& ~~~BitVec.ofNat 8 (2 ^ item), trial := 0, tries := 0 }) errOk
      else if item = 6 then bedDone (flashErase s1 (loamBase 1) 0x200000) errOk
      else bedDone s1 errOk

/-- BEDROCK_BEGIN (R374). -/
def execBedrockBegin (item : BitVec 4) (s : State) : Out := .next (if inBedrock s then bedBegin s item.toNat else s)

/-- BEDROCK_CHUNK (R374). -/
def execBedrockChunk (item : BitVec 4) (s : State) : Out := .next (if inBedrock s then bedChunk s item.toNat else s)

/-- BEDROCK_END (R374). -/
def execBedrockEnd (item : BitVec 4) (s : State) : Out := .next (if inBedrock s then bedEnd s item.toNat else s)

/-- BEDROCK_RESTART (R374): the device resets; RESET_N_RELEASE is the boot that follows (log 32). -/
def execBedrockRestart (s : State) : Out := .next (if inBedrock s then poweredReset s else s)

/-- A write of MBOX.BEDROCK_CMD starts the operation that OP names; OP 0 and 5 to 7 name none (R373). -/
def bedCmd (s : State) (v : Nat) : State :=
  let item := bitsOf v 6 3
  match v % 8 with
  | 1 => bedBegin s item
  | 2 => bedChunk s item
  | 3 => bedEnd s item
  | 4 => poweredReset s
  | _ => s

/-- A write of a register in bedrock mode: the bedrock registers and the buffer answer (R372). -/
def writeBedrock (s : State) (o v : Nat) : State :=
  if o = offBedrockCmd then bedCmd s v
  else if o = offBedrockArg then putCfg s offBedrockArg (v % 2 ^ 64)
  else if o = offBedrockDigest then putCfg s offBedrockDigest v
  else if inArr o offBedrockBuf 8 65536 then
    { s with boot := { s.boot with bedBuf := writeRun 0 s.boot.bedBuf (o / 8 * 8 - offBedrockBuf) (natLe 8 v) } }
  else s

end Sys2Proof.Machine
end

