-- ==== Sys2Proof/Machine/Query.lean ====
section
/-! DEFINITION. Commands that read the device or set its time: TIME_SET, TIME_ADJUST, QUERY, BLOTTER_DRAIN, ATTEST_QUOTE (R250, R349,
R391, R416). -/

namespace Sys2Proof.Machine

/-! ### TIME_SET and TIME_ADJUST (R248-R250, R349) -/

/-- TIME_SET is served: a write of TBASE.SET with GO. -/
def serveTimeSet (s : State) (ring : Nat) (seq : BitVec 32) (sec : BitVec 64) (ns : BitVec 32) (frac : BitVec 16) : State :=
  let fin (s : State) (err : Nat) := done s ring seq (.timeSet sec ns frac) err
  if !hostOwnsServo s then fin s errNotOwner
  else if !setOk s then fin (refuseTime s (offTbase + 0x28) ((ns.toNat * 2 ^ 16 + frac.toNat) % 2 ^ 46 + 2 ^ 63)) errState
  else if 2 ^ 48 ≤ sec.toNat ∨ 1000000000 ≤ ns.toNat then fin s errBadField
  else
    fin { s with time := { s.time with
      setSec := BitVec.ofNat 48 sec.toNat, setSub := BitVec.ofNat 46 (ns.toNat * 2 ^ 16 + frac.toNat), setGo := true } } errOk

/-- The fields marked VALID hold values that their registers take. -/
def adjustOk (s : State) (v : Nat) (incr offset : BitVec 64) (boundNs : BitVec 32) (servo : BitVec 8) : Bool :=
  decide (v < 16) && (!tb v 0 || (decide (incr.toNat < 2 ^ 36) && incrOk incr.toNat))
    && (!tb v 1 || decide (offset.toInt.natAbs < 2 ^ 46)) && (!tb v 2 || boundOk s boundNs) && (!tb v 3 || decide (servo.toNat < 4))

/-- TIME_ADJUST is served: writes of the fields marked VALID; a refusal under R248 or R249 is logged as a write's is. -/
def serveTimeAdjust (s : State) (ring : Nat) (seq : BitVec 32) (valid : BitVec 8) (incr offset : BitVec 64) (boundNs : BitVec 32)
    (servo : BitVec 8) : State :=
  let fin (s : State) (err : Nat) := done s ring seq (.timeAdjust valid incr offset boundNs servo) err
  let v := valid.toNat
  let amount := BitVec.ofNat 47 offset.toNat
  let t := s.time
  if !hostOwnsServo s then fin s errNotOwner
  else if !adjustOk s v incr offset boundNs servo then
    fin (if tb v 0 && !incrOk incr.toNat then refuseTime s (offTbase + 0x10) incr.toNat else s) errBadField
  else if tb v 1 && !offsetOk s amount then fin (refuseTime s (offTbase + 0x18) (amount.toNat + 2 ^ 63)) errState
  else
    fin { s with time := { t with
      incr := if tb v 0 then BitVec.ofNat 36 incr.toNat else t.incr
      offsetAmount := if tb v 1 then amount else t.offsetAmount
      offsetPending := t.offsetPending || tb v 1
      bound := if tb v 2 then boundNs else t.bound
      servo := if tb v 3 then BitVec.ofNat 2 servo.toNat else t.servo } } errOk

/-! ### QUERY (R349) -/

/-- The step seal of a step, if the device built one (R236). -/
def sealOfStep (s : State) (n : BitVec 64) : Bytes := (s.step.seals.find? fun b => fieldAt 64 b 8 8 == n).getD []

/-- Step records of `count` steps from a first one on, each with its step seal (log 23). -/
def queryRecords (s : State) (first count : Nat) : List Bytes :=
  (s.step.records.filter fun r => decide (first ≤ r.step.toNat) && decide (r.step.toNat < first + count)).map fun r =>
    stepRecordBytes r ++ sealOfStep s r.step

/-- Lateness records of `count` steps from a first one on. -/
def queryLate (s : State) (first count : Nat) : List Bytes :=
  sortLate ((s.launch.late.map Prod.snd).filter fun r => decide (first ≤ r.step.toNat) && decide (r.step.toNat < first + count))
    |>.map lateBytes
where
  /-- In ascending order of the step. -/
  sortLate (rs : List LateRec) : List LateRec := rs.foldr place []
  /-- A record in its place. -/
  place (r : LateRec) : List LateRec → List LateRec
    | [] => [r]
    | x :: xs => if r.step.toNat ≤ x.step.toNat then r :: x :: xs else x :: place r xs

/-- `n` entries of a table from an index on. -/
def queryTable (entry : Nat → Bytes) (first n : Nat) : List Bytes := (List.range n).map fun i => entry (first + i)

/-- The staged manifest whose blocks QUERY shows: that of the latest load (R349). -/
def stagedManifest (s : State) : Option ManifestSt := s.load.manifests.getLast?

/-- Block state of block `i` (R349). -/
def blockState (m : ManifestSt) (i : Nat) : Bytes := [BitVec.ofNat 8 (b2n (m.verified.contains i))]

/-- The records that QUERY asks for, at most as many as `room` bytes could hold. -/
def queryList (s : State) (what first count room : Nat) : List Bytes :=
  let some_ (total size : Nat) (entry : Nat → Bytes) : List Bytes :=
    queryTable entry first (min (min count (total - first)) (room / size))
  match what with
  | 0 => queryRecords s first count
  | 1 => some_ 8192 128 fun i => slotBytes (getSlot s i)
  | 2 => some_ 4194304 16 fun i => folioBytes (getFolio s i)
  | 3 => some_ 4194304 16 fun i => folioBytes (tget {} s.serv.spills i)
  | 4 => queryLate s first count
  | 5 => some_ 1048576 48 fun i => sieveBytes (sieveAt s i)
  | 6 => match stagedManifest s with
    | none => []
    | some m => some_ m.blocks.length 1 (blockState m)
  | _ => []

/-- The records, from the first on, that a number of bytes holds. -/
def thatFit : Nat → List Bytes → List Bytes
  | _, [] => []
  | room, r :: rs => if r.length ≤ room then r :: thatFit (room - r.length) rs else []

/-- Where QUERY's records lie is not given: a read of the MP outside the command rings that is to come out uncorrectable is the query's
(R330, R349; log 24). -/
def queryLost (s : State) : Option Nat :=
  s.mbox.badReads.find? fun a => !(decide (windowBase + 0x100000 ≤ a) && decide (a < windowBase + 0x180000))

/-- QUERY is served. -/
def serveQuery (s : State) (ring : Nat) (seq : BitVec 32) (what : BitVec 16) (index : BitVec 64) (count : BitVec 32) (dest : BitVec 64)
    (len : BitVec 32) : State :=
  let fin (s : State) (err : Nat) (res : Bytes) := done s ring seq (.query what index count dest len) err res
  if 7 < what.toNat ∨ inDataArea dest.toNat len.toNat = false then fin s errBadField []
  else if what = 7 then
    let c := chainBytes s
    if index ≠ 0 ∨ count ≠ 0 then fin s errBadField []
    else if len.toNat < c.length then fin s errNoSpace []
    else fin (memWrite s dest.toNat c) errOk (natLe 4 (chainCount s))
  else match queryLost s with
    | some a => fin { s with mbox := { s.mbox with badReads := s.mbox.badReads.filter (· != a) } } errMemory []
    | none =>
      let rs := thatFit len.toNat (queryList s what.toNat index.toNat count.toNat len.toNat)
      fin (memWrite s dest.toNat rs.flatten) errOk (natLe 4 rs.length)

/-! ### BLOTTER_DRAIN (R391) -/

/-- What a drain has gathered: bytes, entries, LOST, and the rings as they stand. -/
structure Drained where
  bytes : Bytes
  entries : Nat
  lost : Nat
  rings : Tbl ClassRing
  stopped : Bool

/-- Entries of a ring from the first on that a number of bytes holds: those taken and those left. -/
def takeFit (room : Nat) : List BlotEntry → List BlotEntry × List BlotEntry
  | [] => ([], [])
  | e :: es =>
    if 64 * entryLen e ≤ room then
      let r := takeFit (room - 64 * entryLen e) es
      (e :: r.1, r.2)
    else ([], e :: es)

/-- One class is drained into what is left of LEN. -/
def drainClass (len : Nat) (d : Drained) (c : Nat) : Drained :=
  if d.stopped then d
  else
    let r := tget {} d.rings c
    let p := takeFit (len - d.bytes.length) (r.pinned ++ r.recent)
    let kept : ClassRing :=
      { r with
        pinned := r.pinned.drop p.1.length, recent := r.recent.drop (p.1.length - r.pinned.length)
        lost := if p.2.isEmpty then 0 else r.lost }
    { bytes := d.bytes ++ p.1.flatMap entryBytes, entries := d.entries + p.1.length, lost := d.lost + r.lost.toNat
      rings := tset {} d.rings c kept, stopped := !p.2.isEmpty }

/-- BLOTTER_DRAIN is served. -/
def serveDrain (s : State) (ring : Nat) (seq : BitVec 32) (classes : BitVec 8) (dest : BitVec 64) (len : BitVec 32) : State :=
  let fin (s : State) (err : Nat) (res : Bytes) := done s ring seq (.blotterDrain classes dest len) err res
  if inDataArea dest.toNat len.toNat = false then fin s errBadField []
  else
    let d := ((List.range 8).filter (tb classes.toNat)).foldl (drainClass len.toNat)
      { bytes := [], entries := 0, lost := 0, rings := s.blot.rings, stopped := false }
    let s1 := memWrite { s with blot := { s.blot with rings := d.rings } } dest.toNat d.bytes
    fin s1 errOk (natLe 4 d.entries ++ natLe 4 d.lost)

/-! ### ATTEST_QUOTE (R416) -/

/-- STATE of a quote. -/
def quoteState (s : State) : Nat :=
  pack [(b2n s.sec.isOpen, 0), (b2n s.sec.scrubbed, 1), (b2n s.sec.debug, 2), (b2n s.dbg.grant, 3), (b2n s.boot.loamDefaults, 4),
    (b2n (anyTrial s), 5), (b2n s.time.timeValid, 6)]

/-- Bytes 0 to 543 of a quote. -/
def quoteCore (s : State) (nonce : Digest) : Bytes :=
  [0x4B, 0x51, 0x54, 0x45] ++ natLe 2 1 ++ natLe 2 14 ++ bytesOf 8 s.boot.deviceId ++ natLe 4 idPart ++ natLe 4 (idGrade s)
    ++ ([0, 1, 2, 3].flatMap fun t => bytesOf 4 (getFw s t).version) ++ natLe 4 (quoteState s) ++ bytesOf 2 s.sec.plot ++ [0, 0]
    ++ natLe 8 s.time.now.sec.toNat ++ natLe 4 (tvNs s.time.now) ++ natLe 4 0 ++ bytesOf 32 nonce
    ++ (List.range 14).flatMap fun i => bytesOf 32 (measOf s i)

/-- The 640 bytes of a quote. -/
def quoteBytes (s : State) (nonce : Digest) : Bytes :=
  let core := quoteCore s nonce
  let d := sm3Bytes core
  core ++ d ++ bytesOf 64 (Config.sm2Sign s.boot.attestKey d)

/-- ATTEST_QUOTE is served. -/
def serveQuote (s : State) (ring : Nat) (seq : BitVec 32) (nonce : Digest) (dest : BitVec 64) (len : BitVec 32) : State :=
  let fin (s : State) (err : Nat) (res : Bytes) := done s ring seq (.attestQuote nonce dest len) err res
  if len.toNat < 640 then fin s errNoSpace []
  else if inDataArea dest.toNat 640 = false then fin s errBadField []
  else
    let s1 := memWrite s dest.toNat (quoteBytes s nonce)
    let s2 := logEv { s1 with sec := { s1.sec with quotes := s1.sec.quotes + 1 } }
      { cls := clsSecurity, cause := 9, a0 := fieldAt 64 (bytesOf 32 nonce) 0 8 }
    fin s2 errOk (natLe 4 640)

end Sys2Proof.Machine
end

