-- ==== Sys2Proof/Machine/Serve.lean ====
section
/-! DEFINITION. The mailbox: commands read from the rings and served, doorbells, the step boundary (R159, R342-R346). -/

namespace Sys2Proof.Machine

/-! ### Serving (R343, R344) -/

/-- A command waits for its data from the host (R337, R344). -/
def park (s : State) (ring : Nat) (seq : BitVec 32) (cmd : MboxCmd) : State :=
  { s with mbox := { s.mbox with reads := s.mbox.reads ++ [{ ring, seq, cmd }] } }

/-- OPEN_PLOT is served; its view is read at once where the command carries host memory and the link is up. -/
def serveOpenPlot (s : State) (ring : Nat) (seq : BitVec 32) (b : OpenPlotBody) (view : Option HostView) : State :=
  match openError s b with
  | some e => done (if s.boot.outOfService then logOutOfService s else s) ring seq (.openPlot b) e
  | none => match view with
    | some v => if s.mbox.link = 2 then openRead s ring seq b v else park s ring seq (.openPlot b)
    | none => park s ring seq (.openPlot b)

/-- DEBUG_GRANT is served. -/
def serveDebugGrant (s : State) (ring : Nat) (seq : BitVec 32) (addr : BitVec 64) (length : BitVec 32) (view : Option HostView) : State :=
  match debugGrantAtOnce s ring seq addr length with
  | some s1 => s1
  | none => match view with
    | some v => if s.mbox.link = 2 then debugGrantRead s ring seq addr length v else park s ring seq (.debugGrant addr length)
    | none => park s ring seq (.debugGrant addr length)

/-- A command is served. -/
def serveCmd (s : State) (ring : Nat) (seq : BitVec 32) (c : MboxCmd) (view : Option HostView) : State :=
  match c with
  | .openPlot b => serveOpenPlot s ring seq b view
  | .closePlot flags => serveClose s ring seq flags
  | .scrub => serveScrub s ring seq
  | .loadSheet host length digest => serveLoadSheet s ring seq host length digest
  | .flipSheet => serveFlip s ring seq
  | .arm digest r => serveArm s ring seq digest r
  | .commit sec ns => serveCommit s ring seq sec ns
  | .admitReq b => serveAdmit s ring seq b
  | .cancel slot rid => serveCancel s ring seq slot rid
  | .pause slot rid => servePause s ring seq slot rid
  | .resume slot rid => serveResume s ring seq slot rid
  | .setDeadline slot rid sec ns => serveSetDeadline s ring seq slot rid sec ns
  | .checkpoint step kind addr len => serveCheckpoint s ring seq step kind addr len
  | .restore kind addr len digest => serveRestore s ring seq kind addr len digest
  | .timeSet sec ns frac => serveTimeSet s ring seq sec ns frac
  | .timeAdjust valid incr offset boundNs servo => serveTimeAdjust s ring seq valid incr offset boundNs servo
  | .query what index count dest len => serveQuery s ring seq what index count dest len
  | .blotterDrain classes dest len => serveDrain s ring seq classes dest len
  | .fencePort port sub => serveFence s ring seq port sub
  | .unfencePort port sub => serveUnfence s ring seq port sub
  | .loadManifest b => serveLoadManifest s ring seq b
  | .loadBlock epoch block host length => serveLoadBlock s ring seq epoch block host length
  | .activateEpoch epoch mode => serveActivate s ring seq epoch mode
  | .updateBegin target version length blocks digest => serveUpdateBegin s ring seq target version length blocks digest
  | .updateBlock index host length digest => serveUpdateBlock s ring seq index host length digest
  | .updateActivate target => serveUpdateActivate s ring seq target
  | .updateConfirm => serveUpdateConfirm s ring seq
  | .attestQuote nonce dest len => serveQuote s ring seq nonce dest len
  | .debugGrant addr length => serveDebugGrant s ring seq addr length view
  | .badCode _ => done s ring seq c errBadCode
  | .badField _ => done s ring seq c errBadField

/-- A command read is served at its doorbell, or waits in its ring's pending list for the boundary (R343). -/
def submit (s : State) (ring : Nat) (seq : BitVec 32) (c : MboxCmd) (view : Option HostView) : State :=
  if atDoorbell s c then serveCmd s ring seq c view else modRing s ring fun q => { q with pend := q.pend ++ [(seq, c)] }

/-! ### Reading the rings (R342) -/

/-- The entry expected next has been read: NEXT_SEQ advances, its completion is owed. -/
def takeEntry (s : State) (ring : Nat) : State :=
  modRing s ring fun q => { q with nextSeq := q.nextSeq + 1, open_ := q.open_ ++ [q.nextSeq] }

/-- Entries that a doorbell has announced and the MP has not read. -/
def announced (q : RingSt) : Nat := (q.tail - q.nextSeq).toNat

/-- The device serves this firmware interface version (R345). -/
def ifServed (s : State) (v : Nat) : Bool := v == 1 && decide (s.boot.fwIfMin.toNat ≤ 1) && decide (1 ≤ s.boot.fwIf.toNat)

/-- An entry whose SEQ is the one expected is taken: an unsupported IF completes with VERSION. -/
def readEntry (s : State) (ring : Nat) (e : Bytes) (view : Option HostView) : State :=
  let seq := (getRing s ring).nextSeq
  let s1 := takeEntry s ring
  if ifServed s (leNat (slice e 5 1)) then submit s1 ring seq (parseEntry e) view
  else complete s1 ring seq (leNat (slice e 4 1)) errVersion []

/-- The ring stops at an entry whose SEQ is not the one expected. -/
def stall (s : State) (ring : Nat) (found : BitVec 32) : State :=
  logEv (modRing s ring fun q => { q with stalled := true })
    { cls := clsSecurity, cause := 4, loc := BitVec.ofNat 64 ring, a0 := BitVec.ofNat 64 found.toNat }

/-- An address of a range at which the MP's read comes out uncorrectable. -/
def badRead (s : State) (a n : Nat) : Option Nat := s.mbox.badReads.find? fun x => decide (a ≤ x) && decide (x < a + n)

/-- That read is over: each is judged on its own (R330). -/
def readOver (s : State) (x : Nat) : State := { s with mbox := { s.mbox with badReads := s.mbox.badReads.filter (· != x) } }

/-- The entry that could not be read completes with MEMORY (R342); its CODE was not read: a free value. -/
def entryLost (s : State) (r : Nat) : State :=
  let d := drawFree 8 s
  complete (takeEntry d.2 r) r (getRing s r).nextSeq d.1.toNat errMemory []

/-- The MP reads on, at most `n` entries, up to TAIL. -/
def readOn (s : State) (ring : Nat) (view : Option HostView) : Nat → State
  | 0 => s
  | n + 1 =>
    let q := getRing s ring
    if announced q = 0 ∨ 256 < announced q then s
    else if ringWaits q then modRing s ring fun q => { q with waiting := true }
    else match badRead s (ringEntryAddr ring q.nextSeq.toNat) 128 with
    | some x => readOn (entryLost (readOver s x) ring) ring view n
    | none =>
      let e := memRead s (ringEntryAddr ring q.nextSeq.toNat) 128
      if fieldAt 32 e 0 4 ≠ q.nextSeq then stall s ring (fieldAt 32 e 0 4) else readOn (readEntry s ring e view) ring view n

/-- A write of TAIL to a doorbell; between an MP image's start and its ready report the MP only takes note of it (R377). -/
def doorbellOn (s : State) (ring : Nat) (tail : BitVec 32) (view : Option HostView) : State :=
  let d := (tail - (getRing s ring).nextSeq).toNat
  if s.boot.phase ≠ .service ∨ d = 0 ∨ 2 ^ 31 ≤ d then s
  else if d ≤ 256 then
    let s1 := modRing s ring fun q => { q with tail, stalled := false, waiting := false }
    if inService s then readOn s1 ring view d else s1
  else logEv s { cls := clsSecurity, cause := 4, loc := BitVec.ofNat 64 ring, a0 := BitVec.ofNat 64 tail.toNat }

/-- DOORBELL (R342): a doorbell that the link loses is discarded (R335). -/
def execDoorbell (ring : BitVec 4) (tail : BitVec 32) (host : HostView) (s : State) : Out :=
  .next (if s.mbox.link = 2 then doorbellOn s ring.toNat tail (some host) else s)

/-- RING_WAIT_RESUME (R342): the completion that the ring waited for has been written, or the MP serves again. -/
def execRingWaitResume (ring : BitVec 4) (host : HostView) (s : State) : Out :=
  let r := ring.toNat
  let q := getRing s r
  .next (
    if inService s && !q.stalled && !ringWaits q && decide (1 ≤ announced q) && decide (announced q ≤ 256) then
      readOn (modRing s r fun q => { q with waiting := false }) r (some host) 256
    else s)

/-! ### The rows of the commands

Each is the MP reading an entry of that command, with the SEQ expected, announced by its doorbell. -/

/-- TAIL announces the entry now read. -/
def announce (q : RingSt) : RingSt :=
  { q with tail := if announced q = 0 then q.nextSeq + 1 else q.tail, stalled := false, waiting := false }

/-- A command is read from a ring, unless the ring waits or the MP does not serve. -/
def rowCmd (ring : BitVec 4) (c : MboxCmd) (view : Option HostView) (s : State) : Out :=
  let r := ring.toNat
  .next (
    if !inService s || ringWaits (getRing s r) then s
    else submit (takeEntry (modRing s r announce) r) r (getRing s r).nextSeq c view)

/-- OPEN_PLOT (R347). -/
def execOpenPlot (ring : BitVec 4) (b : OpenPlotBody) (host : HostView) (s : State) : Out := rowCmd ring (.openPlot b) (some host) s

/-- CLOSE_PLOT (R347). -/
def execClosePlot (ring : BitVec 4) (flags : BitVec 8) (s : State) : Out := rowCmd ring (.closePlot flags) none s

/-- SCRUB (R406). -/
def execScrub (ring : BitVec 4) (s : State) : Out := rowCmd ring .scrub none s

/-- LOAD_SHEET (R347). -/
def execLoadSheet (ring : BitVec 4) (host : BitVec 64) (length : BitVec 32) (digest : Digest) (s : State) : Out :=
  rowCmd ring (.loadSheet host length digest) none s

/-- FLIP_SHEET (R81, R347). -/
def execFlipSheet (ring : BitVec 4) (s : State) : Out := rowCmd ring .flipSheet none s

/-- ARM (R264, R266). -/
def execArm (ring : BitVec 4) (digest : Digest) (r : ArmRecord) (s : State) : Out := rowCmd ring (.arm digest r) none s

/-- COMMIT (R269). -/
def execCommit (ring : BitVec 4) (sec : BitVec 64) (ns : BitVec 32) (s : State) : Out := rowCmd ring (.commit sec ns) none s

/-- ADMIT (R211, R349). -/
def execAdmit (ring : BitVec 4) (b : AdmitBody) (s : State) : Out := rowCmd ring (.admitReq b) none s

/-- CANCEL (R216). -/
def execCancel (ring : BitVec 4) (slot : BitVec 16) (rid : BitVec 64) (s : State) : Out := rowCmd ring (.cancel slot rid) none s

/-- PAUSE (R213). -/
def execPause (ring : BitVec 4) (slot : BitVec 16) (rid : BitVec 64) (s : State) : Out := rowCmd ring (.pause slot rid) none s

/-- RESUME (R213). -/
def execResume (ring : BitVec 4) (slot : BitVec 16) (rid : BitVec 64) (s : State) : Out := rowCmd ring (.resume slot rid) none s

/-- SET_DEADLINE (R218). -/
def execSetDeadline (ring : BitVec 4) (slot : BitVec 16) (rid sec : BitVec 64) (ns : BitVec 32) (s : State) : Out :=
  rowCmd ring (.setDeadline slot rid sec ns) none s

/-- CHECKPOINT (R238). -/
def execCheckpoint (ring : BitVec 4) (step : BitVec 64) (kind : BitVec 8) (addr len : BitVec 64) (s : State) : Out :=
  rowCmd ring (.checkpoint step kind addr len) none s

/-- RESTORE (R240). -/
def execRestore (ring : BitVec 4) (kind : BitVec 8) (addr len : BitVec 64) (digest : Digest) (s : State) : Out :=
  rowCmd ring (.restore kind addr len digest) none s

/-- TIME_SET (R349). -/
def execTimeSet (ring : BitVec 4) (sec : BitVec 64) (ns : BitVec 32) (frac : BitVec 16) (s : State) : Out :=
  rowCmd ring (.timeSet sec ns frac) none s

/-- TIME_ADJUST (R349). -/
def execTimeAdjust (ring : BitVec 4) (valid : BitVec 8) (incr offset : BitVec 64) (boundNs : BitVec 32) (servo : BitVec 8) (s : State) :
    Out :=
  rowCmd ring (.timeAdjust valid incr offset boundNs servo) none s

/-- QUERY (R349). -/
def execQuery (ring : BitVec 4) (what : BitVec 16) (index : BitVec 64) (count : BitVec 32) (dest : BitVec 64) (len : BitVec 32)
    (s : State) : Out :=
  rowCmd ring (.query what index count dest len) none s

/-- BLOTTER_DRAIN (R391). -/
def execBlotterDrain (ring : BitVec 4) (classes : BitVec 8) (dest : BitVec 64) (len : BitVec 32) (s : State) : Out :=
  rowCmd ring (.blotterDrain classes dest len) none s

/-- FENCE_PORT (R404). -/
def execFencePort (ring : BitVec 4) (port sub : BitVec 8) (s : State) : Out := rowCmd ring (.fencePort port sub) none s

/-- UNFENCE_PORT (R404). -/
def execUnfencePort (ring : BitVec 4) (port sub : BitVec 8) (s : State) : Out := rowCmd ring (.unfencePort port sub) none s

/-- LOAD_MANIFEST (R353). -/
def execLoadManifest (ring : BitVec 4) (b : ManifestBody) (s : State) : Out := rowCmd ring (.loadManifest b) none s

/-- LOAD_BLOCK (R353). -/
def execLoadBlock (ring : BitVec 4) (epoch block : BitVec 32) (host : BitVec 64) (length : BitVec 32) (s : State) : Out :=
  rowCmd ring (.loadBlock epoch block host length) none s

/-- ACTIVATE_EPOCH (R219, R353). -/
def execActivateEpoch (ring : BitVec 4) (epoch : BitVec 32) (mode : BitVec 8) (s : State) : Out :=
  rowCmd ring (.activateEpoch epoch mode) none s

/-- UPDATE_BEGIN (R375). -/
def execUpdateBegin (ring : BitVec 4) (target : BitVec 8) (version length blocks : BitVec 32) (digest : Digest) (s : State) : Out :=
  rowCmd ring (.updateBegin target version length blocks digest) none s

/-- UPDATE_BLOCK (R375). -/
def execUpdateBlock (ring : BitVec 4) (index : BitVec 32) (host : BitVec 64) (length : BitVec 32) (digest : Digest) (s : State) : Out :=
  rowCmd ring (.updateBlock index host length digest) none s

/-- UPDATE_ACTIVATE (R376). -/
def execUpdateActivate (ring : BitVec 4) (target : BitVec 8) (s : State) : Out := rowCmd ring (.updateActivate target) none s

/-- UPDATE_CONFIRM (R376). -/
def execUpdateConfirm (ring : BitVec 4) (s : State) : Out := rowCmd ring .updateConfirm none s

/-- ATTEST_QUOTE (R416). -/
def execAttestQuote (ring : BitVec 4) (nonce : Digest) (dest : BitVec 64) (len : BitVec 32) (s : State) : Out :=
  rowCmd ring (.attestQuote nonce dest len) none s

/-- DEBUG_GRANT (R423). -/
def execDebugGrant (ring : BitVec 4) (addr : BitVec 64) (length : BitVec 32) (host : HostView) (s : State) : Out :=
  rowCmd ring (.debugGrant addr length) (some host) s

/-! ### The boundary (R159, R343) -/

/-- At most `n` commands of a ring's pending list are served, oldest first. -/
def serveRing (s : State) (r : Nat) (view : Option HostView) : Nat → State
  | 0 => s
  | n + 1 =>
    match (getRing s r).pend with
    | [] => s
    | (seq, c) :: rest => serveRing (serveCmd (modRing s r fun q => { q with pend := rest }) r seq c view) r view n

/-- The launch tick of the next step has come: where one is set, the boundary serves no more (R67 event 10, R343). -/
def tickDue (s : State) : Bool :=
  launching s && (s.launch.paced || s.launch.nextStep == s.launch.armRec.firstStep) && tickReached s s.launch.nextStep

/-- Commands of each ring that a boundary may serve: those pending at its snapshot, at most BUDGET, and none once the tick is due. -/
def budgets (s : State) : List (Nat × Nat) :=
  (List.range 16).map fun r => (r, if tickDue s then 0 else min (getRing s r).pend.length (cfg s (offRingCfg r) 7 0))

/-- The rings are served in index order. -/
def serveRings (s : State) (view : Option HostView) : List (Nat × Nat) → State
  | [] => s
  | (r, n) :: t => serveRings (serveRing s r view n) view t

/-- A pending flip takes effect; a device that launches sends its new digest to the root (R268). -/
def flipAtBoundary (s : State) : State :=
  if s.sheets.flipPending then
    let s1 := applyFlip s
    if launching s1 then sendDigest s1 s1.launch.nextStep else s1
  else s

/-- Blocks of an update that came while the step ran are applied (R381). -/
def applyBlocks (s : State) : List (HostRead × HostView) → State
  | [] => s
  | (r, host) :: t => match r.cmd with
    | .updateBlock index addr length digest => applyBlocks (updateBlockRead s r.ring r.seq index addr length digest host) t
    | _ => applyBlocks s t

/-- The blocks that wait for the boundary are applied, ahead of the commands that it serves (log 31). -/
def applyCame (s : State) : State := applyBlocks { s with mbox := { s.mbox with came := [] } } s.mbox.came

/-- STEP_BOUNDARY (R159): while no step can run, only leftovers of the pending lists and of a flip are at stake. -/
def execStepBoundary (host : HostView) (s : State) : Out :=
  .next (
    if !inService s || s.step.running || (launching s && s.launch.ready.isSome) then s
    else if launching s && s.launch.boundaryDone then finishBoundary s
    else
      let s1 := flipAtBoundary (serveRings (applyCame (applyDisables s (List.range 8))) (some host) (budgets s))
      if launching s1 then finishBoundary { s1 with launch := { s1.launch with boundaryDone := true } } else s1)

end Sys2Proof.Machine
end

