-- ==== Sys2Proof/Machine/HostAcc.lean ====
section
/-! DEFINITION. The host link: its state, host accesses and packets, register writes, data that comes or fails to come over it, and
uncorrectable reads by requester (R38, R330, R334-R339, R450). -/

namespace Sys2Proof.Machine

/-! ### Register writes (R39, R451) -/

/-- Doorbell that an offset names, if any. -/
def doorbellAt (o : Nat) : Option Nat := if inArr o (offDoorbell 0) 8 16 ∧ o % 8 = 0 then some ((o - offDoorbell 0) / 8) else none

/-- The offset belongs to the bedrock registers or their buffer (R373). -/
def isBedrockReg (o : Nat) : Bool :=
  (decide (offMbox + 0x4000 ≤ o) && decide (o < offBedrockDigest + 32)) || inArr o offBedrockBuf 8 65536

/-- A write to the register at an offset, from the host; one to the DBG block is dropped (R428). -/
def regWrite (s : State) (o v : Nat) : State :=
  match s.boot.phase with
  | .bedrock _ => writeBedrock s o v
  | .service =>
    match doorbellAt o with
    | some r => doorbellOn s r (BitVec.ofNat 32 v) none
    | none =>
      if isBedrockReg o || (decide (offDbg ≤ o) && decide (o < offSec)) then dropWrite s o v else regWriteCore s o v (hostOwnsServo s)
  | _ => s

/-- REGISTER_WRITE (R451). -/
def execRegisterWrite (offset : BitVec 26) (value : BitVec 256) (s : State) : Out := .next (regWrite s offset.toNat value.toNat)

/-! ### Packets (R335) -/

/-- First offset and length of the register that holds a byte: salts and the bedrock digest take 32 bytes, the others 8. -/
def regSpan (o : Nat) : Nat × Nat :=
  if inArr o (offSalt 0) 32 4096 then (o / 32 * 32, 32)
  else if offBedrockDigest ≤ o ∧ o < offBedrockDigest + 32 then (offBedrockDigest, 32)
  else (o / 8 * 8, 8)

/-- What the bytes of a register that a packet does not carry are written as: what they hold, 0 in fields written one to clear
(log 29). -/
def keptBytes (s : State) (b : Nat) : Bytes :=
  if inArr b (offSalt 0) 32 4096 then bytesOf 32 (tget 0 s.serv.salts ((b - offSalt 0) / 32))
  else if b = offBedrockDigest then bytesOf 32 (cfgReg s offBedrockDigest)
  else if b = offIrqStatus ∨ b = offAlarm then natLe 8 0
  else natLe 8 (regWord s b)

/-- Bytes `i` to `i + n` of a run replaced. -/
def patch (old : Bytes) (i : Nat) (new : Bytes) : Bytes := old.take i ++ new ++ old.drop (i + new.length)

/-- The part of a packet that falls in one register is written; bytes 4 to 7 of DDR[m].CTL alone are a RATE_REQ (log 29). -/
def writePart (s : State) (o : Nat) (part : Bytes) : State :=
  let b := (regSpan o).1
  let m := (b - offDdrCtl 0) / 0x1000
  if s.boot.phase = .service ∧ inArr b (offDdrCtl 0) 0x1000 8 ∧ b = offDdrCtl m ∧ 4 ≤ o - b then
    rateReqOn s m (leNat (patch (keptBytes s b) (o - b) part) / 2 ^ 32 % 4)
  else regWrite s b (leNat (patch (keptBytes s b) (o - b) part))

/-- A packet to control space, register by register; `n` at most. -/
def writePacket (s : State) (o : Nat) (data : Bytes) : Nat → State
  | 0 => s
  | n + 1 =>
    if data = [] then s
    else
      let k := (regSpan o).1 + (regSpan o).2 - o
      writePacket (writePart s o (data.take k)) (o + k) (data.drop k) n

/-! ### Host accesses (R36, R38, R336) -/

/-- The address lies in the mailbox window (R33). -/
def inWindow (a : Nat) : Bool := decide (windowBase ≤ a) && decide (a < windowBase + 0x4000000)

/-- The range lies in the command rings. -/
def inRings (a n : Nat) : Bool := decide (windowBase + 0x100000 ≤ a) && decide (a + n ≤ windowBase + 0x180000)

/-- Reserved ranges of the window read 0 (R339). -/
def windowReserved (a : Nat) : Bool :=
  let o := a - windowBase
  decide (o < 0x100000) || (decide (0x1C0000 ≤ o) && decide (o < 0x200000)) || (decide (0x300000 ≤ o) && decide (o < 0x1000000))

/-- `n` bytes of the window as the host reads them. -/
def windowRead (s : State) (a : Nat) : Nat → Bytes
  | 0 => []
  | n + 1 => (if windowReserved a then 0 else memByte s a) :: windowRead s (a + 1) n

/-- What a host access answers: bytes, or none for an error. -/
def hostAnswer (s : State) (r : Option Bytes) : State := { s with mbox := { s.mbox with hostReply := r } }

/-- A host access is refused with an error (R38, R336): class SECURITY, ACCESS_REFUSED. -/
def refuseAccess (s : State) (a : Nat) : State :=
  logEv (hostAnswer s none) { cls := clsSecurity, cause := 1, loc := BitVec.ofNat 64 a }

/-- A host write to the window: the command rings and the data area take it (R336). -/
def windowWrite (s : State) (a : Nat) (data : Bytes) : State :=
  if inRings a data.length || inDataArea a data.length then hostAnswer (memWrite s a data) (some []) else refuseAccess s a

/-- Core, slot and offset of an address in a sheet slot (R78). -/
def slotPlace (a : Nat) : Option (Nat × Nat × Nat) :=
  match decodeAddr a with
  | .commons c o => if 0x3800000 ≤ o then some (c, (o - 0x3800000) / 0x400000, (o - 0x3800000) % 0x400000) else none
  | _ => none

/-- The byte of a slot's sheet at an address; memory holds what direct writes have changed of it (R168; log 11). -/
def slotMask (s : State) (a : Nat) : Byte :=
  match slotPlace a with
  | none => 0
  | some (c, i, o) =>
    match if i = s.sheets.liveSlot.toNat then s.sheets.live else s.sheets.shadow with
    | some sh => Config.slotByte sh.digest (c * 2 ^ 22 + o)
    | none => 0

/-- `n` bytes of the strata as a direct access reads them: what a unit of the step would read (log 11). -/
def directRead (s : State) (a : Nat) : Nat → Bytes
  | 0 => []
  | n + 1 => (stepByte s a ^^^ slotMask s a) :: directRead s (a + 1) n

/-- Bytes as memory holds them at an address. -/
def slotted (s : State) (a : Nat) : Bytes → Bytes
  | [] => []
  | b :: bs => (b ^^^ slotMask s a) :: slotted s (a + 1) bs

/-- Step copies of bytes that a direct write changes change with them. -/
def overlayOver (t : Tbl (Option Byte)) (a : Nat) : Bytes → Tbl (Option Byte)
  | [] => t
  | b :: bs => overlayOver (if (tget none t a).isSome then tset none t a (some b) else t) (a + 1) bs

/-- A range meets the shadow slot of some core (R78). -/
def meetsShadow (s : State) (a n : Nat) : Bool :=
  (List.range 64).any fun c => meets a n (commonsAddr c + 0x3800000 + 0x400000 * (1 - s.sheets.liveSlot.toNat)) 0x400000

/-- Stores of a unit's log that are still within their contract take the bytes written over them, so that none undoes the write (R421). -/
def overLog (a : Nat) (bs : Bytes) (log : List SlabWrite) : List SlabWrite :=
  log.map fun w => { w with bytes := patchRun w.addr w.bytes a bs }

/-- The same in every engine. -/
def overLogs (s : State) (a : Nat) (bs : Bytes) : State :=
  { s with
    matrix := s.matrix.map fun e => (e.1, { e.2 with slog := overLog a bs e.2.slog })
    vector := s.vector.map fun e => (e.1, { e.2 with slog := overLog a bs e.2.slog }) }

/-- Direct bytes go to the strata at once; a write to the shadow slot clears SHADOW_VALID (R80, R421). -/
def directWrite (s : State) (a : Nat) (bs : Bytes) : State :=
  let s1 := overLogs { memWrite s a (slotted s a bs) with overlay := overlayOver s.overlay a bs } a bs
  if meetsShadow s a bs.length then { s1 with sheets := { s1.sheets with shadowValid := false } } else s1

/-- A write that meets the live sheet slot of a core (R79). -/
def writesLive (s : State) (a n : Nat) : Bool := meetsLive s { addr := a, len := n, write := true }

/-- A host access to a stratum outside the window (R36, R38); a write into the live slot is logged as such whether a plot is open or
not (R79). -/
def stratumAccess (s : State) (write : Bool) (a : Nat) (data : Bytes) (ue : Bool) : State :=
  if s.sec.isOpen then (if write && writesLive s a data.length then refuseLive (refuseAccess s a) else refuseAccess s a)
  else if !backedRange s a data.length then hostAnswer s none
  else if write then
    if writesLive s a data.length then refuseLive (hostAnswer s none) else hostAnswer (directWrite s a data) (some [])
  else if ue && (match decodeAddr a with | .stack .. => true | .dimm .. => true | _ => false) then
    hostAnswer (noteUncorrectable s a 0 0) none
  else hostAnswer s (some (directRead s a data.length))

/-- A host access of `data.length` bytes. -/
def hostAccess (s : State) (write : Bool) (a : Nat) (data : Bytes) (ue : Bool) : State :=
  match decodeAddr a with
  | .control o =>
    if write then hostAnswer (writePacket s o data data.length) (some [])
    else if readsNow o data.length && s.time.relock then
      { s with mbox := { s.mbox with timeReads := s.mbox.timeReads ++ [(o, data.length)] } }
    else hostAnswer (regReadEffect s o data.length) (some (regBytes s o data.length))
  | .unmapped => hostAnswer s none
  | _ =>
    if s.boot.phase ≠ .service then hostAnswer s none
    else if inWindow a then
      if write then windowWrite s a data else hostAnswer s (some (windowRead s a data.length))
    else stratumAccess s write a data ue

/-- The device answers on the host link: in service and in bedrock mode. -/
def linkAnswers (s : State) : Bool := match s.boot.phase with | .service => true | .bedrock _ => true | _ => false

/-- The link carries what the host sends: it is UP (R334); what comes while it is not is discarded whole (R335). -/
def linkCarries (s : State) : Bool := linkAnswers s && s.mbox.link == 2

/-- HOST_ACCESS (R36, R38): a read of, or a write to, `data.length` bytes. -/
def execHostAccess (write : Bool) (addr : DevAddr) (data : Bytes) (uncorrectable : Bool) (s : State) : Out :=
  .next (if linkCarries s then hostAccess s write addr.toNat data uncorrectable else s)

/-- HOST_WRITE_PACKET (R335): applied whole. -/
def execHostWritePacket (addr : DevAddr) (data : Bytes) (s : State) : Out :=
  .next (if linkCarries s then hostAccess s true addr.toNat data false else s)

/-! ### The link (R334, R337, R351) -/

/-- HOST_LINK_DOWN (R337): nothing else is lost or reset; a read that a relock holds back has no link to answer on. -/
def execHostLinkDown (s : State) : Out := .next { s with mbox := { s.mbox with link := 0, width := 0, timeReads := [] } }

/-- HOST_LINK_UP (R334, R345): retrained at a width of R334, or on lane 0 in bedrock mode; waiting seals are written (R351). On a link that
is UP a lower width is that of the lanes left after one has lost lock, a higher one waits for the next retrain (R334). -/
def execHostLinkUp (width : BitVec 4) (s : State) : Out :=
  .next (
    if linkAnswers s = false ∨ [1, 2, 4].contains width.toNat = false then s
    else if s.mbox.link = 2 then
      (if width.toNat < s.mbox.width.toNat then { s with mbox := { s.mbox with width } } else s)
    else
      let s1 := { s with mbox := { s.mbox with
        link := 2, width := if s.boot.phase = .service then width else 1, retrains := s.mbox.retrains + 1
        irq := s.mbox.irq ||| 0x20000 } }
      roomCame (flushSeals s1 s1.mbox.sealHold))

/-- The adapter leads training (R334): at a tick after the link has dropped it has begun; which tick is free (log 10). -/
def adapterTrains (s : State) : State :=
  if s.mbox.link = 0 ∧ linkAnswers s = true then
    let d := drawFree 1 s
    if d.1 = 1 then { d.2 with mbox := { d.2.mbox with link := 1 } } else d.2
  else s

/-- What the block does when no command waits (log 1): one tick of its clock, at which the adapter may begin to train the link. -/
def idle (s : State) : State := adapterTrains (tick s)

/-! ### Data from the host (R337, R344) -/

/-- The read of a ring and SEQ. -/
def readIs (ring : Nat) (seq : BitVec 32) (r : HostRead) : Bool := r.ring == ring && r.seq == seq

/-- A read is no longer awaited. -/
def dropRead (s : State) (ring : Nat) (seq : BitVec 32) : State :=
  { s with mbox := { s.mbox with reads := s.mbox.reads.filter fun r => !readIs ring seq r } }

/-- The data of a waiting command has come. -/
def dataCame (s : State) (r : HostRead) (host : HostView) : State :=
  let s1 := dropRead s r.ring r.seq
  match r.cmd with
  | .openPlot b => openRead s1 r.ring r.seq b host
  | .updateBlock index addr length digest =>
    if noStep s then updateBlockRead s1 r.ring r.seq index addr length digest host
    else { s1 with mbox := { s1.mbox with came := s1.mbox.came ++ [(r, host)] } }
  | .debugGrant addr length => debugGrantRead s1 r.ring r.seq addr length host
  | c => done s1 r.ring r.seq c errBadField

/-- The LOAD_MANIFEST of a ring and SEQ whose manifest is being read. -/
def manifestReading (s : State) (ring : Nat) (seq : BitVec 32) : Option ManifestBody :=
  (s.load.reading.find? fun r => r.1 == ring && r.2.1 == seq).map fun r => r.2.2

/-- The LOAD_BLOCK of a ring and SEQ whose block is being read. -/
def jobReading (s : State) (ring : Nat) (seq : BitVec 32) : Option BlockJob :=
  s.load.jobs.find? fun j => j.reading && j.ring == ring && j.seq == seq

/-- HOST_READ_COMPLETE (R344). -/
def execHostReadComplete (ring : BitVec 4) (seq : BitVec 32) (host : HostView) (s : State) : Out :=
  let r := ring.toNat
  .next (
    if s.mbox.link ≠ 2 ∨ inService s = false then s
    else match s.mbox.reads.find? (readIs r seq) with
      | some x => dataCame s x host
      | none => match manifestReading s r seq with
        | some b => manifestRead s r seq b host
        | none => match jobReading s r seq with
          | some j => blockRead s j host
          | none => s)

/-- The LOAD_SHEET, CHECKPOINT or RESTORE of a ring and SEQ whose transfer has paused too long completes with LINK. -/
def longTimeout (s : State) (ring : Nat) (seq : BitVec 32) : State :=
  let mine (r : Nat) (q : BitVec 32) : Bool := r == ring && q == seq
  if s.sheets.loading.elim false fun l => mine l.ring l.seq then
    complete { s with sheets := { s.sheets with loading := none } } ring seq 0x20 errLink []
  else if (s.mbox.ckpt.elim false fun c => mine c.1 c.2.1 && c.2.2.2.1 == 0) && s.mbox.ckptImage.isSome then ckptEnd s errLink
  else if s.mbox.restore.elim false fun x => mine x.1 x.2.1 && x.2.2.1 == 0 then
    restoreFail s ring seq errLink
  else s

/-- LINK_TIMEOUT (R337): TIMEOUT_MS has passed with the link not up. -/
def execLinkTimeout (ring : BitVec 4) (seq : BitVec 32) (s : State) : Out :=
  let r := ring.toNat
  .next (
    if s.mbox.link = 2 then s
    else match s.mbox.reads.find? (readIs r seq) with
      | some x => done (dropRead s r seq) r seq x.cmd errLink
      | none => match manifestReading s r seq with
        | some b =>
          done { s with load := { s.load with reading := s.load.reading.filter fun x => !(x.1 == r && x.2.1 == seq) } } r seq
            (.loadManifest b) errLink
        | none => match jobReading s r seq with
          | some j => failJob s j errLink []
          | none => longTimeout s r seq)

/-! ### Uncorrectable reads (R330, R450) -/

/-- Ring whose next entry, announced and about to be read, holds an address. -/
def ringReading (s : State) (a : Nat) : Option Nat :=
  (List.range 16).find? fun r =>
    let q := getRing s r
    let e := ringEntryAddr r q.nextSeq.toNat
    decide (e ≤ a) && decide (a < e + 128) && !q.stalled && !ringWaits q && decide (1 ≤ announced q) && decide (announced q ≤ 256)

/-- The LOAD_MANIFEST in progress of which an address is staged data. -/
def stagedAt (s : State) (a : Nat) : Option (ManifestSt × Nat × BitVec 32) :=
  (s.load.manifests.find? fun m => m.waiter.isSome && (stageRanges s m).any fun r => meets a 1 r.1 r.2).bind fun m =>
    m.waiter.map fun w => (m, w.1, w.2)

/-- The command whose data the MP reads at an address completes with MEMORY; where none is under way, the read at which that happens is
still to come (log 24). -/
def commandLost (s : State) (a : Nat) : State :=
  let later := { s with mbox := { s.mbox with badReads := s.mbox.badReads ++ [a] } }
  match s.mbox.restore with
  | some (ring, seq, 1, addr, len, _) =>
    if meets a 1 addr.toNat len.toNat then restoreFail s ring seq errMemory else later
  | _ => match stagedAt s a with
    | some (m, ring, seq) => complete (nackUnsent (dropManifest s m.epoch m.adapter) m.epoch) ring seq 0x10 errMemory []
    | none => if s.mbox.ckptImage.isSome && !inRings a 1 then ckptEnd s errMemory else later

/-- The MP's own read fails. -/
def mpReadFails (s : State) (a : Nat) : State :=
  match ringReading s a with
  | some r => entryLost s r
  | none => commandLost s a

/-- The address lies in stratum 2, or in stratum 3 and is backed. -/
def inMemory (s : State) (a : Nat) : Bool :=
  match decodeAddr a with
  | .stack .. => true
  | .dimm .. => backed s a
  | _ => false

/-- MEMORY_UNCORRECTABLE (R330, R450): the effect of an uncorrectable read by requester. R450 has kinds 0 to 7; a REQUESTER operand of 8
or more stands for the row "corrected, anyone" of R330's table, which has no row of its own among the commands (log 24). -/
def execMemoryUncorrectable (addr : DevAddr) (requester : BitVec 8) (index : BitVec 32) (s : State) : Out :=
  let a := addr.toNat
  let k := requester.toNat
  let noted := noteUncorrectable s a k index.toNat
  .next (
    if !inMemory s a then s
    else if k = 0 then (if s.sec.isOpen then s else hostAnswer noted none)
    else if k = 1 then (if inService s then mpReadFails noted a else s)
    else if k = 2 then (if s.dbg.grant then noted else s)
    else if k = 3 ∨ k = 4 then (if s.step.running && !s.step.voided then failUncorrectable noted else s)
    else if k = 5 then (if isHead s then promptFails noted index.toNat else s)
    else if k = 6 then (if s.step.voided && s.step.reload.isSome then failUncorrectable noted else s)
    else if k = 7 then (if patrolHours s a = 0 then s else noted)
    else readCorrected s a)

end Sys2Proof.Machine
end

