-- ==== Sys2Proof/Machine/Transfer.lean ====
section
/-! DEFINITION. The transfer engine: register sets, XMOV, XREG, XFLIP (R170-R182). -/

namespace Sys2Proof.Machine

def getXfer (s : State) (k : Nat) : XferSt := tget {} s.xfer k

def setXfer (s : State) (k : Nat) (x : XferSt) : State := { s with xfer := tset {} s.xfer k x }

/-- Width of the register of an index, or none (R173). -/
def xregWidth (reg : Nat) : Option Nat :=
  if reg ≥ 64 then none
  else match reg % 8 with | 0 => some 48 | 1 => some 48 | 2 => some 40 | 3 => some 40 | 4 => some 13 | _ => none

/-- REG names no register, or the value is wider than it (R153, R179). -/
def xregBad (reg value : Nat) : Bool := match xregWidth reg with | none => true | some w => decide (value ≥ 2 ^ w)

/-- A register set as a transfer command reads it. -/
structure XSet where
  src : Nat
  dst : Nat
  sstride : Int
  dstride : Int
  skind : Nat
  sport : Nat
  dkind : Nat
  dport : Nat
  swap : Nat

/-- The five registers of set `k` of a copy. -/
def setRegs (t : Tbl (BitVec 64)) (k : Nat) : List (BitVec 64) := (List.range 5).map fun i => tget 0 t (8 * k + i)

/-- The set that five registers make. -/
def xsetOf (rs : List (BitVec 64)) : XSet :=
  let r (i : Nat) : Nat := (rs.getD i 0).toNat
  let m := r 4
  { src := r 0, dst := r 1, sstride := sext 40 (r 2), dstride := sext 40 (r 3), skind := m % 2, sport := bitsOf m 4 1
    dkind := bitsOf m 5 5, dport := bitsOf m 9 6, swap := bitsOf m 12 10 }

/-- One set's shadow registers over its live ones (R174). -/
def flipSet (x : XferSt) (k : Nat) : XferSt :=
  { x with live := (List.range 5).foldl (fun t i => tset 0 t (8 * k + i) (tget 0 x.shadow (8 * k + i))) x.live }

/-- The flips of a mask. -/
def flipMask (x : XferSt) (mask : Nat) : XferSt := (List.range 8).foldl (fun x k => if tb mask k then flipSet x k else x) x

/-! ### Swap modes (R180) -/

/-- Groups of `n` bytes. -/
def chunks {α : Type} (n : Nat) : Nat → List α → List (List α)
  | 0, _ => []
  | m + 1, l => l.take n :: chunks n m (l.drop n)

/-- 16-bit pieces of a unit in reverse order. -/
def revHalves (l : Bytes) : Bytes := (chunks 2 (l.length / 2) l).reverse.flatten

/-- The bytes of a drop reordered. -/
def swapBytes (mode : Nat) (b : Bytes) : Bytes :=
  match mode with
  | 1 => (chunks 2 32 b).flatMap List.reverse
  | 2 => (chunks 4 16 b).flatMap List.reverse
  | 3 => (chunks 4 16 b).flatMap revHalves
  | 4 => (chunks 8 8 b).flatMap List.reverse
  | 5 => (chunks 8 8 b).flatMap revHalves
  | _ => b

/-! ### XMOV (R176-R179, R182) -/

/-- Fields of an XMOV. -/
structure Xmov where
  set : Nat
  flip : Nat
  rows : Nat
  drops : Nat
  soff : Nat
  doff : Nat
  done : Nat
  cport : Nat

def xmovWord (x : Xmov) : CmdWord :=
  mkWord [(8, 0x60), (3, x.set), (1, x.flip), (16, x.rows), (20, x.drops), (32, x.soff), (32, x.doff), (1, x.done), (4, x.cport)]

/-- The fields of a word with opcode 0x60. -/
def xmovOf (w : CmdWord) : Xmov :=
  { set := wf w 10 8, flip := wf w 11 11, rows := wf w 27 12, drops := wf w 47 28, soff := wf w 79 48, doff := wf w 111 80
    done := wf w 112 112, cport := wf w 116 113 }

/-- The registers an XMOV latches at its issue stroke: with FLIP the shadow values, which the flip puts in force first (R177). -/
def xmovLatch (s : State) (k : Nat) (x : Xmov) : List (BitVec 64) :=
  let f := getXfer s k
  setRegs (if x.flip = 1 then f.shadow else f.live) x.set

/-- The set an XMOV reads. -/
def xmovSet (s : State) (k : Nat) (x : Xmov) : XSet := xsetOf (xmovLatch s k x)

/-- Address of row `i` of a side, modulo 2⁴⁸ (R176). -/
def rowAddr (base off : Nat) (stride : Int) (i : Nat) : Nat := ((((base + off * 64 : Nat) : Int) + i * stride) % 2 ^ 48).toNat

/-- Row addresses of a side. -/
def rowAddrs (rows base off : Nat) (stride : Int) : List Nat := (List.range rows).map (rowAddr base off stride)

/-- Lowest and highest byte of the rows of a side. -/
def hull (n : Nat) : List Nat → Nat × Nat
  | [] => (0, 0)
  | a :: as => (as.foldl min a, as.foldl max a + n)

/-- Two hulls share a byte. -/
def hullsMeet (a b : Nat × Nat) : Bool := decide (a.1 < b.2) && decide (b.1 < a.2)

/-- The places a transfer engine owns: its slab, its core's commons, its two pseudo-channels (R170). -/
def xferOwns (c j a : Nat) : Bool :=
  match decodeAddr a with
  | .slab t _ => t == tileIx c j
  | .commons k _ => k == c
  | .stack p _ => p / 2 == c * 4 + (j - 20)
  | _ => false

/-- The skip cause of an XMOV (R178, R179). -/
def xmovCause (s : State) (c j : Nat) (x : Xmov) : Option Nat :=
  let v := xmovSet s (tileKey c j) x
  let sm := v.skind == 0
  let dm := v.dkind == 0
  let n := 64 * x.drops
  let sr := rowAddrs x.rows v.src x.soff v.sstride
  let dr := rowAddrs x.rows v.dst x.doff v.dstride
  let mis := (sm && v.src % 64 != 0) || (dm && v.dst % 64 != 0)
    || (decide (x.rows > 1) && ((sm && v.sstride % 64 != 0) || (dm && v.dstride % 64 != 0)))
  let ranges := (if sm then sr.map fun a => { addr := a, len := n, write := false } else [])
    ++ if dm then dr.map fun a => { addr := a, len := n, write := true } else []
  let owned := ranges.all fun r => r.len == 0 || xferOwns c j r.addr
  let bad := x.rows == 0 || x.drops == 0 || decide (v.swap ≥ 6) || (sm && dm && hullsMeet (hull n sr) (hull n dr))
  checkCause s c j
    { misaligned := mis, inPorts := if sm then [] else [v.sport]
      outPorts := (if dm then [] else [v.dport]) ++ if x.done = 1 then [x.cport] else [], ranges, bad } owned

/-- The drop that number `i` of an XMOV takes or reads, and the state after; none where its channel holds none. `skip` reads no memory. -/
def xmovTake (x : Xmov) (v : XSet) (skip : Bool) (inp : Option Nat) (i : Nat) (s : State) : Option (Drop × State) :=
  match inp with
  | some ch => if (getChan s ch).isEmpty then none else let t := takeDrops s ch 1; some (t.1.headD 0, t.2)
  | none => some (if skip || v.skind = 1 then 0 else wordOf 512 (stepRead s (rowAddr v.src x.soff v.sstride (i / x.drops) + 64 * (i % x.drops)) 64), s)

/-- The drop taken is swapped and given or written; none where its channel has no room. A skipped XMOV gives zeros and writes no memory. -/
def xmovGive (c : Nat) (x : Xmov) (v : XSet) (skip : Bool) (outp : Option Nat) (i : Nat) (d : Drop) (s : State) : Option State :=
  let y := if skip then List.replicate 64 0 else swapBytes v.swap (bytesOf 64 d)
  match outp with
  | some ch => if (getChan s ch).length < chanDepth s ch then some (setChan s ch (getChan s ch ++ [wordOf 512 y])) else none
  | none =>
    if skip || v.dkind = 1 then some s
    else
      let a := rowAddr v.dst x.doff v.dstride (i / x.drops) + 64 * (i % x.drops)
      some (markEmit (unitStore s c a y) a y)

/-- Drops move one by one from number `i` on, each taken and then given (R176): the state, how many have moved, a drop taken and not yet given, and
the channel that stops it. -/
def xmovGo (c : Nat) (x : Xmov) (v : XSet) (skip : Bool) (inp outp : Option Nat) :
    Nat → Nat → Option Drop → State → State × Nat × Option Drop × Option Nat
  | 0, i, h, s => (s, i, h, none)
  | n + 1, i, h, s =>
    match (match h with | some d => some (d, s) | none => xmovTake x v skip inp i s) with
    | none => (s, i, none, inp)
    | some (d, s1) =>
      match xmovGive c x v skip outp i d s1 with
      | none => (s1, i, some d, outp)
      | some s2 => xmovGo c x v skip inp outp n (i + 1) none s2

/-- The done drop of R182. -/
def doneDrop (index n : Nat) : Drop := wordOf 512 (natLe 8 index ++ natLe 8 n)

/-- Drops that an XMOV gives at its last stroke: its done drop, if it gives one. -/
def xmovLast (s : State) (c j : Nat) (x : Xmov) (skip : Bool) (index : Nat) : List (Nat × Drop) :=
  if x.done = 1 then (outChan s c j x.cport).toList.map fun ch => (ch, if skip then 0 else doneDrop index (x.rows * x.drops)) else []

/-- An XMOV goes on with what it latched: a drop at each stroke after the first, its done drop at the last, then retirement (R177). -/
def xmovAdvance (s : State) (c j : Nat) (x : Xmov) (b : Blocked) : State :=
  let k := tileKey c j
  let u := getUnit s k
  let v := xsetOf b.latch
  let total := x.rows * x.drops
  let lim := stopAt s k u (2 + total)
  let inp := if v.skind = 1 then inChan s c j v.sport else none
  let outp := if v.dkind = 1 then outChan s c j v.dport else none
  let held : Option Drop := b.got.head?.bind fun e => e.2.head?
  let g := xmovGo c x v b.cause.isSome inp outp (min total (lim - 1) - b.moved) b.moved held s
  let stop (s : State) (n : Nat) (w : Option WaitOn) : State :=
    pauseUnit s k (u.issued - 1) n w { b with moved := g.2.1, got := g.2.2.1.toList.map fun d => (0, [d]) }
  match g.2.2.2 with
  | some ch => stop g.1 (1 + g.2.1) (some (.channel ch))
  | none =>
    if lim < 2 + total then stop g.1 lim none
    else
      let o := pump g.1 (xmovLast g.1 c j x b.cause.isSome (u.issued - 1))
      match o.2 with
      | [] => retireUnit o.1 k (2 + total)
      | (ch, _) :: _ => stop o.1 (1 + total) (some (.channel ch))

/-- The plan of an XMOV: its cause and strokes; its drops move one by one. -/
def planXmov (s : State) (c j : Nat) (x : Xmov) : Plan := { cause := xmovCause s c j x, strokes := 2 + x.rows * x.drops }

/-- The flip of an XMOV that is not skipped happens at issue (R174, R179). -/
def xmovFlip (s : State) (k : Nat) (x : Xmov) (skip : Bool) : State :=
  if x.flip = 1 && !skip then setXfer s k (flipSet (getXfer s k) x.set) else s

/-- A tile comes to an XMOV. -/
def runXmov (s : State) (c j : Nat) (x : Xmov) : State :=
  let p := planXmov s c j x
  runTileWith s c j (xmovWord x) p fun s1 b =>
    xmovAdvance (xmovFlip s1 (tileKey c j) x p.cause.isSome) c j x { b with latch := xmovLatch s (tileKey c j) x, cause := p.cause }

/-! ### XREG and XFLIP -/

def xregWord (reg value : Nat) : CmdWord := mkWord [(8, 0x61), (8, reg), (64, value)]

def xflipWord (mask : Nat) : CmdWord := mkWord [(8, 0x62), (8, mask)]

/-- XREG: write a shadow register. -/
def planXreg (c j reg value : Nat) : Plan :=
  { cause := if xregBad reg value then some 7 else none, strokes := 1
    effect := fun _ _ s =>
      let k := tileKey c j
      let x := getXfer s k
      (setXfer s k { x with shadow := tset 0 x.shadow reg (BitVec.ofNat 64 value) }, []) }

/-- XFLIP: flip the sets of a mask. -/
def planXflip (c j mask : Nat) : Plan :=
  { cause := if mask = 0 then some 7 else none, strokes := 1
    effect := fun _ _ s => let k := tileKey c j; (setXfer s k (flipMask (getXfer s k) mask), []) }

/-- The plan of any transfer word but an XMOV. -/
def transferPlan (c j : Nat) (w : CmdWord) : Plan :=
  let f := wf w
  let top (n : Nat) (p : Plan) : Plan := if w.toNat / 2 ^ n != 0 then illegalPlan else p
  match f 7 0 with
  | 0x00 => top 24 (planWait (f 23 8))
  | 0x61 => top 80 (planXreg c j (f 15 8) (f 79 16))
  | 0x62 => top 16 (planXflip c j (f 15 8))
  | _ => illegalPlan

/-- The word is an XMOV. -/
def isXmov (w : CmdWord) : Bool := wf w 7 0 == 0x60 && w.toNat / 2 ^ 117 == 0

/-- Transfer tiles of a core (R12). -/
def isTransferTile (j : Nat) : Bool := decide (20 ≤ j) && decide (j < 24)

/-- A transfer tile takes a word of a plan; a row that names another tile cannot occur (log 4). -/
def runTransfer (s : State) (c : BitVec 6) (j : BitVec 5) (w : CmdWord) (p : Plan) : Out :=
  .next (if isTransferTile j.toNat then runTile s c.toNat j.toNat w p else s)

/-- TRANSFER_WAIT (R48). -/
def execTransferWait (c : BitVec 6) (j : BitVec 5) (n : BitVec 16) (s : State) : Out :=
  runTransfer s c j (waitWord n.toNat) (planWait n.toNat)

/-- XMOV (R176). -/
def execXmov (c : BitVec 6) (j : BitVec 5) (set : BitVec 3) (flip : BitVec 1) (rows : BitVec 16) (drops : BitVec 20)
    (soff doff : BitVec 32) (done : BitVec 1) (cport : BitVec 4) (s : State) : Out :=
  .next (if isTransferTile j.toNat then runXmov s c.toNat j.toNat
    { set := set.toNat, flip := flip.toNat, rows := rows.toNat, drops := drops.toNat, soff := soff.toNat, doff := doff.toNat
      done := done.toNat, cport := cport.toNat } else s)

/-- XREG (R175). -/
def execXreg (c : BitVec 6) (j : BitVec 5) (reg : BitVec 8) (value : BitVec 64) (s : State) : Out :=
  runTransfer s c j (xregWord reg.toNat value.toNat) (planXreg c.toNat j.toNat reg.toNat value.toNat)

/-- XFLIP (R175). -/
def execXflip (c : BitVec 6) (j : BitVec 5) (mask : BitVec 8) (s : State) : Out :=
  runTransfer s c j (xflipWord mask.toNat) (planXflip c.toNat j.toNat mask.toNat)

end Sys2Proof.Machine
end

