-- ==== Sys2Proof/Machine/Scribe.lean ====
section
/-! DEFINITION. The scribe: registers through their contracts, and its nineteen instructions (R140-R160). -/

namespace Sys2Proof.Machine

def getScribe (s : State) (c : Nat) : ScribeSt := tget {} s.scribes c

def setScribe (s : State) (c : Nat) (x : ScribeSt) : State := { s with scribes := tset {} s.scribes c x }

/-! ### Registers (R140, R141, R147) -/

/-- A 64-bit register as a read at stroke `t` sees it. -/
def regView (base : Tbl (BitVec 64)) (log : List RegWrite) (t r : Nat) : BitVec 64 :=
  log.foldl (fun v w => if w.reg = r ∧ w.stroke + w.lat ≤ t then w.val else v) (tget 0 base r)

/-- The longest run of writes, oldest first, that every later read sees goes to the registers. -/
def settleRegs (base : Tbl (BitVec 64)) (t : Nat) : List RegWrite → Tbl (BitVec 64) × List RegWrite
  | [] => (base, [])
  | w :: ws => if w.stroke + w.lat ≤ t then settleRegs (tset 0 base w.reg w.val) t ws else (base, w :: ws)

/-- Selector of an observation register (R141). -/
def selO (sel : Nat) : Bool := decide (0x68 ≤ sel) && decide (sel < 0x70)

/-- Reserved selector (R141). -/
def selBad (sel : Nat) : Bool := decide (sel ≥ 0x70)

/-- The value a selector names at stroke `t` (R146). -/
def srcVal (x : ScribeSt) (t sel : Nat) : BitVec 64 :=
  if sel < 0x20 then (if sel = 0 then 0 else regView x.g x.glog t sel)
  else if sel < 0x60 then tget 0 x.p (sel - 0x20)
  else if sel < 0x68 then (tget 0 x.l (sel - 0x60)).setWidth 64
  else regView x.o x.olog t (sel - 0x68)

/-- Write a G register at stroke `t` under a contract; G0 discards it (R140). -/
def putG (s : State) (c t lat gd : Nat) (v : BitVec 64) : State :=
  if gd = 0 then s
  else
    let x := getScribe s c
    setScribe s c { x with glog := x.glog ++ [{ stroke := t, lat, reg := gd, val := v }] }

/-- Contracts of R147. -/
def latAlu : Nat := 1
def latLoad : Nat := 3
def latTime : Nat := 2

/-! ### Issue -/

/-- The unit of the scribe of core `c`. -/
def scribeUnit (s : State) (c : Nat) : UnitSt := getUnit s (scribeKey c)

/-- Stroke at which the scribe's instruction issues. -/
def scribeT (s : State) (c : Nat) : Nat := (scribeUnit s c).strokes.toNat

/-- The instruction retires: strokes, next PC. -/
def retireScribe (s : State) (c n : Nat) (pc : BitVec 24) : State :=
  let s1 := setScribe s c { getScribe s c with pc }
  modUnit s1 (scribeKey c) fun u =>
    { u with
      strokes := u.strokes + BitVec.ofNat 64 n, issued := u.issued + 1, waiting := none, blocked := none, stepped := 0
      passBp := false, oneMore := false, oneStroke := false }

/-- PC of core `c`'s scribe. -/
def scribePc (s : State) (c : Nat) : BitVec 24 := (getScribe s c).pc

/-- The instruction retires and the PC advances by 1. -/
def nextScribe (s : State) (c n : Nat) : State := retireScribe s c n (scribePc s c + 1)

/-- The instruction stops with `x` of its strokes run; `spent` says that only its strokes are left. -/
def pauseScribe (s : State) (c x : Nat) (w : Option WaitOn) (spent : Bool) : State :=
  pauseUnit s (scribeKey c) (scribePc s c).toNat x w { word := 0, got := [], moved := x, out := [], effectDone := spent }

/-- Strokes of its instruction, of `n`, that the scribe may run before it stops; `x` of them have run. -/
def scribeStop (s : State) (c x n : Nat) : Nat := stopAt s (scribeKey c) { scribeUnit s c with stepped := x } n

/-- An instruction whose effect is done and `x` of whose `n` strokes have run retires, or stops on the way. -/
def finishScribe (s : State) (c x n : Nat) : State :=
  let lim := scribeStop s c x n
  if lim = n then nextScribe s c n else pauseScribe s c lim none true

/-- The instruction is skipped: logged, its strokes taken, the PC advanced (R160). -/
def skipScribe (s : State) (c cause n : Nat) : State :=
  finishScribe (noteSkip s c 0x1F cause (scribePc s c).toNat) c 0 n

/-- The instruction's stroke is stretched. -/
def waitScribe (s : State) (c : Nat) (w : WaitOn) (moved : Nat) : State := pauseScribe s c moved (some w) false

/-- Registers whose writes have landed go to the file. -/
def beginScribe (s : State) (c : Nat) : State :=
  let x := getScribe s c
  let t := scribeT s c
  let g := settleRegs x.g t x.glog
  let o := settleRegs x.o t x.olog
  setScribe s c { x with g := g.1, glog := g.2, o := o.1, olog := o.2 }

/-- The scribe comes to the instruction at its PC, if that is `word`: it halts at a breakpoint, or runs `body`. -/
def runScribe (s : State) (c : BitVec 6) (word : BitVec 64) (_n : Nat) (body : State → State) : Out :=
  let k := scribeKey c.toNat
  let u := getUnit s k
  let pc := (scribePc s c.toNat).toNat
  if canIssue s k && (liveCore s c.toNat).code[pc]? == some word then
    .next (match bpNow s 1 k pc u with
      | [] => body (beginScribe s c.toNat)
      | fired => fireAt s k pc fired)
  else .next s

/-- A scribe word from its fields, opcode first. -/
def sWord (fs : List (Nat × Nat)) : BitVec 64 := BitVec.ofNat 64 (fs.foldr (fun f acc => f.2 % 2 ^ f.1 + 2 ^ f.1 * acc) 0)

/-- The checks that come before any on a value: an illegal encoding, then an observation register as a source (R62, R156). -/
def withSources (s : State) (c : Nat) (illegal : Bool) (sels : List Nat) (n : Nat) (k : Unit → State) : State :=
  if illegal || sels.any selBad then skipScribe s c 4 1
  else if sels.any selO then skipScribe s c 7 n
  else k ()

/-! ### Arithmetic, loads, stores, control flow -/

/-- ALU of R144. -/
def aluOp (op : Nat) (a b : BitVec 64) : BitVec 64 :=
  let sh := b.toNat % 64
  match op with
  | 0 => a + b
  | 1 => a - b
  | 2 => a * b
  | 3 => a &&& b
  | 4 => a ||| b
  | 5 => a ^^^ b
  | 6 => a <<< sh
  | 7 => a >>> sh
  | 8 => a.sshiftRight sh
  | 9 => if a.toNat ≤ b.toNat then a else b
  | 10 => if a.toNat ≤ b.toNat then b else a
  | 11 => if a.toNat < b.toNat then 1 else 0
  | 12 => if a.toInt < b.toInt then 1 else 0
  | _ => if a = b then 1 else 0

/-- Condition of R145. -/
def brCond (cond : Nat) (a b : BitVec 64) : Bool :=
  match cond with
  | 0 => a == b
  | 1 => a != b
  | 2 => decide (a.toNat < b.toNat)
  | 3 => decide (b.toNat ≤ a.toNat)
  | 4 => decide (a.toInt < b.toInt)
  | _ => decide (b.toInt ≤ a.toInt)

/-- A source's value at the issue stroke. -/
def srcNow (s : State) (c sel : Nat) : BitVec 64 := srcVal (getScribe s c) (scribeT s c) sel

/-- SCRIBE_WAIT (R48). -/
def execScribeWait (c : BitVec 6) (n : BitVec 16) (s : State) : Out :=
  runScribe s c (sWord [(8, 0), (16, n.toNat)]) n.toNat fun s =>
    if n = 0 then skipScribe s c.toNat 7 0 else finishScribe s c.toNat 0 n.toNat

/-- ALU (R144, R146). -/
def execAlu (c : BitVec 6) (op : BitVec 4) (gd : BitVec 5) (sa sb : BitVec 7) (s : State) : Out :=
  runScribe s c (sWord [(8, 1), (4, op.toNat), (5, gd.toNat), (7, sa.toNat), (7, sb.toNat)]) 1 fun s =>
    withSources s c.toNat (decide (op.toNat ≥ 14)) [sa.toNat, sb.toNat] 1 fun _ =>
      nextScribe (putG s c.toNat (scribeT s c.toNat) latAlu gd.toNat
        (aluOp op.toNat (srcNow s c.toNat sa.toNat) (srcNow s c.toNat sb.toNat))) c.toNat 1

/-- ALUI (R144, R146). -/
def execAlui (c : BitVec 6) (op : BitVec 4) (gd : BitVec 5) (sa : BitVec 7) (imm : BitVec 32) (s : State) : Out :=
  runScribe s c (sWord [(8, 2), (4, op.toNat), (5, gd.toNat), (7, sa.toNat), (32, imm.toNat)]) 1 fun s =>
    withSources s c.toNat (decide (op.toNat ≥ 14)) [sa.toNat] 1 fun _ =>
      nextScribe (putG s c.toNat (scribeT s c.toNat) latAlu gd.toNat
        (aluOp op.toNat (srcNow s c.toNat sa.toNat) (imm.signExtend 64))) c.toNat 1

/-- MOVI (R146). -/
def execMovi (c : BitVec 6) (gd : BitVec 5) (imm : BitVec 48) (s : State) : Out :=
  runScribe s c (sWord [(8, 3), (5, gd.toNat), (48, imm.toNat)]) 1 fun s =>
    nextScribe (putG s c.toNat (scribeT s c.toNat) latAlu gd.toNat (imm.setWidth 64)) c.toNat 1

/-- Base address of LD and ST (R146). -/
def memBase (v : BitVec 64) (off : BitVec 20) : BitVec 64 := v + off.signExtend 64 * 64

/-- The checks of LD and ST (R146, R160): base alignment, and the 8 bytes within a SCRATCH entry of the scribe. -/
def memCause (s : State) (c : Nat) (a : BitVec 64) (w : Nat) (write : Bool) : Option Nat :=
  let x := a.toNat + 8 * w
  let scratch := match entryOf s c x 8 with | some e => e.kind == 0 | none => false
  checkCause s c 0x1F { misaligned := a.toNat % 64 != 0, ranges := [{ addr := x, len := 8, write }] } scratch

/-- LD (R146). -/
def execLd (c : BitVec 6) (gd : BitVec 5) (sa : BitVec 7) (off : BitVec 20) (w : BitVec 3) (s : State) : Out :=
  runScribe s c (sWord [(8, 8), (5, gd.toNat), (7, sa.toNat), (20, off.toNat), (3, w.toNat)]) 1 fun s =>
    withSources s c.toNat false [sa.toNat] 1 fun _ =>
      let a := memBase (srcNow s c.toNat sa.toNat) off
      match memCause s c.toNat a w.toNat false with
      | some cz => skipScribe s c.toNat cz 1
      | none =>
        nextScribe (putG s c.toNat (scribeT s c.toNat) latLoad gd.toNat
          (wordOf 64 (stepRead s (a.toNat + 8 * w.toNat) 8))) c.toNat 1

/-- ST (R146). -/
def execSt (c : BitVec 6) (ss sa : BitVec 7) (off : BitVec 20) (w : BitVec 3) (s : State) : Out :=
  runScribe s c (sWord [(8, 9), (7, ss.toNat), (7, sa.toNat), (20, off.toNat), (3, w.toNat)]) 1 fun s =>
    withSources s c.toNat false [ss.toNat, sa.toNat] 1 fun _ =>
      let a := memBase (srcNow s c.toNat sa.toNat) off
      match memCause s c.toNat a w.toNat true with
      | some cz => skipScribe s c.toNat cz 1
      | none => nextScribe (unitStore s c.toNat (a.toNat + 8 * w.toNat) (bytesOf 8 (srcNow s c.toNat ss.toNat))) c.toNat 1

/-- LDC (R146): an index beyond the pool is out of range (R160). -/
def execLdc (c : BitVec 6) (gd : BitVec 5) (idx : BitVec 16) (s : State) : Out :=
  runScribe s c (sWord [(8, 0x0A), (5, gd.toNat), (16, idx.toNat)]) 1 fun s =>
    match (liveCore s c.toNat).consts[idx.toNat]? with
    | none => skipScribe s c.toNat 7 1
    | some v => nextScribe (putG s c.toNat (scribeT s c.toNat) latLoad gd.toNat v) c.toNat 1

/-- JMP (R146). -/
def execJmp (c : BitVec 6) (target : BitVec 24) (s : State) : Out :=
  runScribe s c (sWord [(8, 0x10), (24, target.toNat)]) 1 fun s => retireScribe s c.toNat 1 target

/-- BR (R145, R146). -/
def execBr (c : BitVec 6) (cond : BitVec 3) (sa sb : BitVec 7) (target : BitVec 24) (s : State) : Out :=
  runScribe s c (sWord [(8, 0x11), (3, cond.toNat), (7, sa.toNat), (7, sb.toNat), (24, target.toNat)]) 1 fun s =>
    withSources s c.toNat (decide (cond.toNat ≥ 6)) [sa.toNat, sb.toNat] 1 fun _ =>
      if brCond cond.toNat (srcNow s c.toNat sa.toNat) (srcNow s c.toNat sb.toNat) then retireScribe s c.toNat 1 target
      else nextScribe s c.toNat 1

/-- A loop counter is written. -/
def putL (s : State) (c lk : Nat) (v : BitVec 32) : State :=
  let x := getScribe s c
  setScribe s c { x with l := tset 0 x.l lk v }

/-- LSET (R146): a count of 2³² or more is out of range. -/
def execLset (c : BitVec 6) (lk : BitVec 3) (sa : BitVec 7) (imm : BitVec 32) (s : State) : Out :=
  runScribe s c (sWord [(8, 0x12), (3, lk.toNat), (7, sa.toNat), (32, imm.toNat)]) 1 fun s =>
    withSources s c.toNat false [sa.toNat] 1 fun _ =>
      let v := srcNow s c.toNat sa.toNat + imm.signExtend 64
      if v.toNat ≥ 2 ^ 32 then skipScribe s c.toNat 7 1 else nextScribe (putL s c.toNat lk.toNat (v.setWidth 32)) c.toNat 1

/-- LEND (R146). -/
def execLend (c : BitVec 6) (lk : BitVec 3) (target : BitVec 24) (s : State) : Out :=
  runScribe s c (sWord [(8, 0x13), (3, lk.toNat), (24, target.toNat)]) 1 fun s =>
    let v := tget 0 (getScribe s c.toNat).l lk.toNat
    if v.toNat > 1 then retireScribe (putL s c.toNat lk.toNat (v - 1)) c.toNat 1 target
    else nextScribe (putL s c.toNat lk.toNat 0) c.toNat 1

/-- END (R146): the context ends. -/
def execEnd (c : BitVec 6) (s : State) : Out :=
  runScribe s c (sWord [(8, 0x1F)]) 1 fun s =>
    modUnit (retireScribe s c.toNat 1 (scribePc s c.toNat)) (scribeKey c.toNat) fun u => { u with ended := true }

/-! ### Pushes (R149-R153) -/

/-- An entry enters a tile's queue, or the scribe waits on it (R46). -/
def enqueueOrWait (s : State) (c j : Nat) (w : CmdWord) : State :=
  let k := tileKey c j
  let u := getUnit s k
  if u.queue.length ≥ 64 then waitScribe s c (.fullQueue j) 0
  else nextScribe (setUnit s k { u with queue := u.queue ++ [w], entered := u.entered + 1 }) c 1

/-- A patch field of a template: LSB and WIDTH (R149). -/
def patchOf (t lo : Nat) : Nat × Nat := (bitsOf t (lo + 6) lo, bitsOf t (lo + 12) (lo + 7))

/-- The word of a template patched from three values, or none when a value is wider than its patch (R150). -/
def patchWord (w : Nat) : List ((Nat × Nat) × Nat) → Option Nat
  | [] => some w
  | ((lsb, width), v) :: ps =>
    if width = 0 then patchWord w ps else if v ≥ 2 ^ width then none else patchWord (w ||| v * 2 ^ lsb) ps

/-- PUSH from its sources on: check 6, then the queue. -/
def doPush (s : State) (c j tpl sa sb sc : Nat) : State :=
  withSources s c ((liveCore s c).templates[tpl]?.isNone) [sa, sb, sc] 1 fun _ =>
    let t := ((liveCore s c).templates.getD tpl 0).toNat
    let ps := [(patchOf t 128, (srcNow s c sa).toNat), (patchOf t 144, (srcNow s c sb).toNat), (patchOf t 160, (srcNow s c sc).toNat)]
    match patchWord (t % 2 ^ 128) ps with
    | none => skipScribe s c 7 1
    | some w => if j > 23 then skipScribe s c 7 1 else enqueueOrWait s c j (BitVec.ofNat 128 w)

/-- PUSH (R150). -/
def execPush (c : BitVec 6) (j : BitVec 5) (tpl : BitVec 14) (sa sb sc : BitVec 7) (s : State) : Out :=
  runScribe s c (sWord [(8, 0x20), (5, j.toNat), (14, tpl.toNat), (7, sa.toNat), (7, sb.toNat), (7, sc.toNat)]) 1 fun s =>
    doPush s c.toNat j.toNat tpl.toNat sa.toNat sb.toNat sc.toNat

/-- PUSHR from its registers on. -/
def doPushr (s : State) (c j ga : Nat) : State :=
  if j > 23 ∨ ga % 2 = 1 then skipScribe s c 7 1
  else enqueueOrWait s c j (BitVec.ofNat 128 ((srcNow s c ga).toNat + 2 ^ 64 * (srcNow s c (ga + 1)).toNat))

/-- PUSHR (R150). -/
def execPushr (c : BitVec 6) (j ga : BitVec 5) (s : State) : Out :=
  runScribe s c (sWord [(8, 0x21), (5, j.toNat), (5, ga.toNat)]) 1 fun s => doPushr s c.toNat j.toNat ga.toNat

/-- XWR from its source on. -/
def doXwr (s : State) (c x reg sa : Nat) : State :=
  withSources s c false [sa] 1 fun _ =>
    let v := (srcNow s c sa).toNat
    if xregBad reg v then skipScribe s c 7 1 else enqueueOrWait s c (20 + x) (xregWord reg v)

/-- XWR (R153). -/
def execXwr (c : BitVec 6) (x : BitVec 2) (reg : BitVec 8) (sa : BitVec 7) (s : State) : Out :=
  runScribe s c (sWord [(8, 0x28), (2, x.toNat), (8, reg.toNat), (7, sa.toNat)]) 1 fun s =>
    doXwr s c.toNat x.toNat reg.toNat sa.toNat

/-! ### Channels (R154) -/

/-- CSEND from its checks on. -/
def doCsend (s : State) (c port ga : Nat) : State :=
  match outChan s c 0x1F port with
  | none => skipScribe s c 5 1
  | some ch =>
    if ga % 8 ≠ 0 then skipScribe s c 7 1
    else if (getChan s ch).length < chanDepth s ch then
      let d : Drop := wordOf 512 ((List.range 8).flatMap fun i => bytesOf 8 (srcNow s c (ga + i)))
      nextScribe (setChan s ch (getChan s ch ++ [d])) c 1
    else waitScribe s c (.channel ch) 0

/-- CSEND (R154). -/
def execCsend (c : BitVec 6) (port : BitVec 4) (ga : BitVec 5) (s : State) : Out :=
  runScribe s c (sWord [(8, 0x30), (4, port.toNat), (5, ga.toNat)]) 1 fun s => doCsend s c.toNat port.toNat ga.toNat

/-- CWAIT from its checks on, `moved` drops being consumed already. -/
def doCwait (s : State) (c port n moved : Nat) : State :=
  match inChan s c 0x1F port with
  | none => skipScribe s c 5 n
  | some ch =>
    if n = 0 then skipScribe s c 7 0
    else
      let lim := scribeStop s c moved n
      let t := takeDrops s ch (lim - moved)
      if moved + t.1.length < lim then waitScribe t.2 c (.channel ch) (moved + t.1.length)
      else if lim < n then pauseScribe t.2 c lim none false
      else nextScribe t.2 c n

/-- CWAIT (R154). -/
def execCwait (c : BitVec 6) (port : BitVec 4) (n : BitVec 16) (s : State) : Out :=
  runScribe s c (sWord [(8, 0x31), (4, port.toNat), (16, n.toNat)]) n.toNat fun s => doCwait s c.toNat port.toNat n.toNat 0

/-! ### Observation (R155, R156) -/

/-- A time value as TREAD and the NOW_SUB register lay it out: nanoseconds in [45:16], fraction in [15:0]. -/
def timeSub (t : TimeVal) : BitVec 64 := BitVec.ofNat 64 (t.acc.toNat / 2 ^ 16)

/-- The value WHAT selects (R155). -/
def treadVal (s : State) (what : Nat) : BitVec 64 :=
  match what with
  | 0 => s.time.now.sec.setWidth 64
  | 1 => timeSub s.time.now
  | 2 => s.step.launchTime.sec.setWidth 64
  | _ => timeSub s.step.launchTime

/-- TREAD's effect; its stroke is stretched while the timebase relocks (R255). -/
def doTread (s : State) (c od what : Nat) : State :=
  if s.time.relock then waitScribe s c .relock 0
  else
    let x := getScribe s c
    nextScribe (setScribe s c { x with
      olog := x.olog ++ [{ stroke := scribeT s c, lat := latTime, reg := od, val := treadVal s what }] }) c 1

/-- TREAD (R155). -/
def execTread (c : BitVec 6) (od : BitVec 3) (what : BitVec 2) (s : State) : Out :=
  runScribe s c (sWord [(8, 0x38), (3, od.toNat), (2, what.toNat)]) 1 fun s => doTread s c.toNat od.toNat what.toNat

/-- NOTE (R156): a TRACE entry, or an entry of the observation area of the step's seals. -/
def execNote (c : BitVec 6) (dest : BitVec 1) (tag : BitVec 16) (sa sb : BitVec 7) (s : State) : Out :=
  runScribe s c (sWord [(8, 0x39), (1, dest.toNat), (16, tag.toNat), (7, sa.toNat), (7, sb.toNat)]) 1 fun s =>
    if selBad sa.toNat || selBad sb.toNat then skipScribe s c.toNat 4 1
    else
      let a := srcNow s c.toNat sa.toNat
      let b := srcNow s c.toNat sb.toNat
      let s1 :=
        if dest = 0 then
          logEv s { cls := clsTrace, cause := 1, loc := skipLocator 0 c.toNat 0x1F (scribePc s c.toNat).toNat, a0 := a, a1 := b
                    die := c.toNat / 16, tag }
        else { s with step := { s.step with notes := s.step.notes ++ [{ tag, emitted := 0, sa := a, sb := b }] } }
      nextScribe s1 c.toNat 1

/-! ### A stretched instruction goes on -/

/-- The scribe's instruction goes on where its stroke was stretched or it stopped between two of them. -/
def resumeScribe (s : State) (c : Nat) : State :=
  match (scribeUnit s c).blocked, (liveCore s c).code[(scribePc s c).toNat]? with
  | some b, some w => goOn s (scribeKey c) (scribePc s c).toNat fun s =>
    let f (hi lo : Nat) : Nat := bitsOf w.toNat hi lo
    if b.effectDone then finishScribe s c b.moved (if f 7 0 = 0x31 then f 27 12 else f 23 8)
    else match f 7 0 with
    | 0x20 => doPush s c (f 12 8) (f 26 13) (f 33 27) (f 40 34) (f 47 41)
    | 0x21 => doPushr s c (f 12 8) (f 17 13)
    | 0x28 => doXwr s c (f 9 8) (f 17 10) (f 24 18)
    | 0x30 => doCsend s c (f 11 8) (f 16 12)
    | 0x31 => doCwait s c (f 11 8) (f 27 12) b.moved
    | 0x38 => doTread s c (f 10 8) (f 12 11)
    | _ => s
  | _, _ => s

end Sys2Proof.Machine
end

