-- ==== Sys2Proof/Machine/Wells.lean ====
section
/-! DEFINITION. Wells: terms, exact addition, raw records and write-out (R88-R98). -/

namespace Sys2Proof.Machine

def flagPosInf : BitVec 4 := 1
def flagNegInf : BitVec 4 := 2
def flagNan : BitVec 4 := 4
def flagSat : BitVec 4 := 8

/-- W plus a term: exact, and open where 160 bits do not hold the sum (R94). -/
def addW (w : BitVec 160) (t : Int) : BitVec 160 :=
  let v := w.toInt + t
  if -(2 ^ 159 : Int) ≤ v ∧ v < 2 ^ 159 then BitVec.ofInt 160 v else Config.wellOver v

/-- COUNT plus a number of terms: open where 32 bits do not hold the sum (R94). -/
def addCount (c : BitVec 32) (n : Nat) : BitVec 32 := if c.toNat + n < 2 ^ 32 then c + BitVec.ofNat 32 n else Config.countOver (c.toNat + n)

/-- Flags that a count above 2³¹ sets (R89). -/
def countFlags (n : Nat) : BitVec 4 := if n > 2 ^ 31 then flagNan ||| flagSat else 0

/-- A product `m * 2 ^ sh` of window units floored and saturated (R93). -/
def windowTerm (m sh : Int) : Int × BitVec 4 :=
  let t := if 0 ≤ sh then m * 2 ^ sh.toNat else m / 2 ^ (-sh).toNat
  if t ≥ 2 ^ 128 then (2 ^ 128 - 1, flagSat) else if t ≤ -(2 ^ 128) then (-(2 ^ 128 - 1), flagSat) else (t, 0)

/-- A signed significand. -/
def signed (neg : Bool) (n : Nat) : Int := if neg then -(n : Int) else n

/-- Whether a number is a zero. -/
def isZero : Num → Bool
  | .fin _ n _ => n == 0
  | _ => false

/-- Sign of a number. -/
def numNeg : Num → Bool
  | .fin b _ _ => b
  | .inf b => b
  | .nan => false

/-- The term of two elements with their scale exponents under a ceiling (R93, R96). -/
def term (ea : Num) (sa : Int) (ew : Num) (sw c : Int) : Int × BitVec 4 :=
  match ea, ew with
  | .fin na ma qa, .fin nw mw qw => windowTerm (signed na ma * signed nw mw) (qa + qw + sa + sw - (c - 127))
  | .nan, _ => (0, flagNan)
  | _, .nan => (0, flagNan)
  | _, _ =>
    if isZero ea || isZero ew then (0, flagNan) else if numNeg ea == numNeg ew then (0, flagPosInf) else (0, flagNegInf)

/-- Terms are added to a well (R94); the second part says that a term or the count set SAT (R95). -/
def accumulate (v : Well) (ts : List (Int × BitVec 4)) : Well × Bool :=
  let sum := ts.foldl (fun a t => a + t.1) 0
  let fl := ts.foldl (fun a t => a ||| t.2) 0 ||| countFlags (v.count.toNat + ts.length)
  ({ v with w := addW v.w sum, flags := v.flags ||| fl, count := addCount v.count ts.length }, fl &&& flagSat != 0)

/-- The raw record of a well (R90). -/
def wellRecord (v : Well) : Bytes :=
  bytesOf 20 v.w ++ bytesOf 2 v.c ++ [BitVec.ofNat 8 v.flags.toNat, 0] ++ bytesOf 4 v.count ++ natLe 4 0

/-- The well that a raw record holds. -/
def recordWell (b : Bytes) : Well :=
  { w := fieldAt 160 b 0 20, c := fieldAt 16 b 20 2, flags := BitVec.ofNat 4 ((fieldAt 8 b 22 1).toNat % 16), count := fieldAt 32 b 24 4 }

/-- Two columns' records as one drop. -/
def recordDrop (a b : Well) : Drop := wordOf 512 (wellRecord a ++ wellRecord b)

/-- A record is imported into a well (MWADD and VWADD, R105): the second part says that SAT was set. -/
def importRecord (v r : Well) : Well × Bool :=
  let mism : BitVec 4 := if r.c = v.c then 0 else flagNan ||| flagSat
  let fl := r.flags ||| mism ||| countFlags (v.count.toNat + r.count.toNat)
  ({ v with
      w := if r.c = v.c then addW v.w r.w.toInt else v.w
      flags := v.flags ||| fl, count := addCount v.count r.count.toNat }, fl &&& flagSat != 0)

/-- The value of a well as write-out takes it (R97): specials by FLAGS, an exact value otherwise. -/
def wellNum (v : Well) : Num :=
  let nan := v.flags &&& flagNan != 0
  let pos := v.flags &&& flagPosInf != 0
  let neg := v.flags &&& flagNegInf != 0
  if nan || (pos && neg) then .nan
  else if pos then .inf false
  else if neg then .inf true
  else .fin (decide (v.w.toInt < 0)) v.w.toInt.natAbs (v.c.toInt - 127)

/-- Write-out to an unscaled format (R97). -/
def writeOut (f : Nat) (v : Well) : Nat := fltEncode (fltOf f) (wellNum v)

end Sys2Proof.Machine
end

