-- ==== Sys2Proof/Machine/Matrix.lean ====
section
/-! DEFINITION. The matrix engine: its seven commands (R102-R108). -/

namespace Sys2Proof.Machine

def getMatrix (s : State) (k : Nat) : MatrixSt := tget {} s.matrix k

def setMatrix (s : State) (k : Nat) (m : MatrixSt) : State := { s with matrix := tset {} s.matrix k m }

/-! ### Wells through their contracts (R53) -/

/-- Contract from a write of a well to an accumulate: 2 from an anchor load, 1 from an accumulate. -/
def accLat (anchor : Bool) : Nat := if anchor then 2 else 1

/-- The well an accumulate sees at stroke `r`. -/
def wellForAcc (m : MatrixSt) (r idx : Nat) : Well :=
  m.wlog.foldl (fun v w => if w.idx = idx ∧ w.stroke + accLat w.anchor ≤ r then w.val else v) (tget {} m.wells idx)

/-- The well a write-out sees at stroke `r`: 6 strokes from either write. -/
def wellForOut (m : MatrixSt) (r idx : Nat) : Well :=
  m.wlog.foldl (fun v w => if w.idx = idx ∧ w.stroke + 6 ≤ r then w.val else v) (tget {} m.wells idx)

/-- Well writes that every later read sees go to the well file. -/
def settleWells (m : MatrixSt) (r : Nat) : MatrixSt :=
  { m with
    wells := m.wlog.foldl (fun t w => if w.stroke + 6 ≤ r then tset {} t w.idx w.val else t) m.wells
    wlog := m.wlog.filter fun w => decide (r < w.stroke + 6) }

/-- Index of the well of row `r`, column `n`. -/
def wellIx (r n : Nat) : Nat := r * 128 + n

/-- The engine at the issue of a command: old writes settled. -/
def beginMatrix (s : State) (c k t : Nat) : State :=
  let m := settleWells (getMatrix s k) t
  let r := settleSlab s c t m.slog
  setMatrix r.1 k { m with slog := r.2 }

/-! ### Operands -/

/-- How bytes of an operand read: at a stroke, from an offset, so many. -/
abbrev Reader := Nat → Nat → Nat → Bytes

/-- Reader of a location: gathered drops for a port, the engine's slab otherwise; and the drop lists left. -/
def operand (s : State) (c j : Nat) (log : List SlabWrite) (loc : LocRef) (got : List (List Drop)) : Reader × List (List Drop) :=
  match loc with
  | .port _ => let bs := bytesOfDrops (got.headD []); (fun _ o n => slice bs o n, got.tail)
  | .slab off => (fun r o n => slabRead s log r (slabAddr (tileIx c j) + off + o) n, got)
  | .bad => (fun _ _ n => List.replicate n 0, got)

/-- Demand of a location as a source of `n` drops. -/
def srcPorts (loc : LocRef) (n : Nat) : List (Nat × Nat) := match loc with | .port p => [(p, n)] | _ => []

/-- Range of a location of `n` drops in the engine's slab. -/
def locRange (c j : Nat) (loc : LocRef) (n : Nat) (write : Bool) : List Range :=
  match loc with | .slab off => [{ addr := slabAddr (tileIx c j) + off, len := 64 * n, write }] | _ => []

/-! ### Weight tiles (R104, R105) -/

/-- Bytes of a weight tile. -/
def tileBytes (f : Nat) : Nat :=
  if f = 12 then Config.fp32TileBytes
  else 128 * (fmtKT f * fmtWidth f / 8) + if fmtScaled f then 128 * (fmtKT f / 32) else 0

/-- L_W: strokes of a weight-tile load. -/
def loadStrokes (f : Nat) : Nat := (tileBytes f + 1023) / 1024

/-- A tile read as a table, 1,024 bytes a stroke from stroke `t`. -/
def readTile (rd : Reader) (t n : Nat) : Tbl Byte :=
  let bs := ((List.range ((n + 1023) / 1024)).flatMap fun k => rd (t + k) (1024 * k) (min 1024 (n - 1024 * k))).take n
  writeRun 0 [] 0 bs

/-- The bank of a number. -/
def getBank (m : MatrixSt) (b : Nat) : Bank := if b = 0 then m.bank0 else m.bank1

def setBank (m : MatrixSt) (b : Nat) (v : Bank) : MatrixSt := if b = 0 then { m with bank0 := v } else { m with bank1 := v }

/-- An element with its block's scale byte: NaN in a block of scale 0xFF (R87). -/
def scaledNum (f x : Nat) (v : Num) : Num := if fmtScaled f && x == 0xFF then .nan else v

/-- Scale exponent of a block. -/
def scaleExp (f x : Nat) : Int := if fmtScaled f then (x : Int) - 127 else 0

/-- Elements with their scale exponents from packed bytes and scale bytes of blocks of 32. -/
def scaledElems (f k : Nat) (bs : Bytes) (scales : List Nat) : List (Num × Int) :=
  (lineElems (fmtWidth f) k bs).zipIdx.map fun e =>
    let x := scales.getD (e.2 / 32) 0
    (scaledNum f x (fmtDecode f e.1), scaleExp f x)

/-- Column `n` of a bank. -/
def bankColumn (b : Bank) (n : Nat) : List (Num × Int) :=
  let f := b.fmt.toNat
  let kt := fmtKT f
  let cb := kt * fmtWidth f / 8
  let scales := (readRun 0 b.bytes (128 * cb + n * (kt / 32)) (kt / 32)).map (·.toNat)
  scaledElems f kt (readRun 0 b.bytes (n * cb) cb) scales

/-! ### MLDW -/

def mldwWord (bank fmtW src : Nat) : CmdWord := mkWord [(8, 0x10), (1, bank), (4, fmtW), (17, src)]

/-- MLDW: load a weight tile and latch its format. -/
def planMldw (s : State) (c j : Nat) (bank fmtW : Nat) (src : BitVec 17) : Plan :=
  let loc := locRef src
  if fmtW ≥ 13 ∨ locBad src then illegalPlan
  else
    let n := tileBytes fmtW
    let d := dropsFor n
    { cause := checkCause s c j { inPorts := (srcPorts loc d).map Prod.fst, ranges := locRange c j loc d false, bad := fmtW == 12 } true
      strokes := loadStrokes fmtW, demand := onInputs s c j (srcPorts loc d), inAt := fun _ d => d / 16
      effect := fun t got s =>
        let k := tileKey c j
        let s1 := beginMatrix s c k t
        let m := getMatrix s1 k
        let rd := (operand s1 c j m.slog loc got).1
        (setMatrix s1 k (setBank m bank { bytes := readTile rd t n, fmt := BitVec.ofNat 4 fmtW }), []) }

/-! ### MANC -/

def mancWord (row0 nr fmtA fmtW q asrc wsrc : Nat) : CmdWord :=
  mkWord [(8, 0x11), (6, row0), (7, nr), (4, fmtA), (4, fmtW), (8, q), (17, asrc), (17, wsrc)]

/-- Rows out of range: NR = 0, NR > 64, or ROW0 + NR > 64 (R107). -/
def rowsBad (row0 nr : Nat) : Bool := nr == 0 || decide (nr > 64) || decide (row0 + nr > 64)

/-- α of an anchor byte in a format (R91). -/
def anchorAlpha (f b : Nat) : Int := if fmtInt f then 0 else (b : Int) - 127

/-- An anchor byte that makes its wells NaN: 0xFF, where the class uses the byte. -/
def anchorNan (f b : Nat) : Bool := !fmtInt f && b == 0xFF

/-- The ceiling of R92. -/
def ceiling (fa a fw w : Nat) : Int := anchorAlpha fa a + fmtH fa + anchorAlpha fw w + fmtH fw

/-- The cleared well of an anchor load. -/
def anchoredWell (fa a fw w : Nat) : Well :=
  { w := 0, c := BitVec.ofInt 16 (ceiling fa a fw w), flags := if anchorNan fa a || anchorNan fw w then flagNan else 0, count := 0 }

/-- Bytewise maximum of `q` drops of 64 bytes, drop `d` read at stroke `t + d`. -/
def mergeAnchors (rd : Reader) (t q : Nat) : List Nat :=
  (List.range q).foldl (fun acc d => List.zipWith max acc ((rd (t + d) (64 * d) 64).map (·.toNat))) (List.replicate 64 0)

/-- MANC: the anchor load. -/
def planManc (s : State) (c j : Nat) (row0 nr fmtA fmtW q : Nat) (asrc wsrc : BitVec 17) : Plan :=
  let la := locRef asrc
  let lw := locRef wsrc
  if fmtA ≥ 13 ∨ fmtW ≥ 13 ∨ locBad asrc ∨ locBad wsrc then illegalPlan
  else
    let dm := srcPorts la q ++ srcPorts lw 2
    let bad := rowsBad row0 nr || q == 0 || fmtA == 12 || fmtW == 12 || fmtClass fmtA != fmtClass fmtW
    { cause := checkCause s c j
        { inPorts := dm.map Prod.fst, ranges := locRange c j la q false ++ locRange c j lw 2 false, bad } true
      strokes := q + 2, demand := onInputs s c j dm
      inAt := fun e d => if e < (onInputs s c j (srcPorts la q)).length then d else q
      effect := fun t got s =>
        let k := tileKey c j
        let s1 := beginMatrix s c k t
        let m := getMatrix s1 k
        let oa := operand s1 c j m.slog la got
        let ow := operand s1 c j m.slog lw oa.2
        let rows := mergeAnchors oa.1 t q
        let wl := (ow.1 (t + q) 0 128).map (·.toNat)
        let new := (List.range nr).flatMap fun i => (List.range 128).map fun n =>
          ({ stroke := t + q + 1, anchor := true, idx := wellIx (row0 + i) n
             val := anchoredWell fmtA (rows.getD i 0) fmtW (wl.getD n 0) } : WellWrite)
        (setMatrix s1 k { m with wlog := m.wlog ++ new }, []) }

/-! ### MACC -/

def maccWord (row0 nr fmtA bank asrc next nfmt nsrc : Nat) : CmdWord :=
  mkWord [(8, 0x12), (6, row0), (7, nr), (4, fmtA), (1, bank), (17, asrc), (1, next), (4, nfmt), (17, nsrc)]

/-- s: strokes a row occupies (R103). -/
def rowStrokes (fmtA fmtW : Nat) : Nat :=
  let ww := fmtWidth fmtW
  if ww ≤ 6 then (if fmtWidth fmtA ≤ 6 then 1 else 2) else if ww = 8 then 1 else 2

/-- The pair rule of R103. -/
def pairOk (fmtA fmtW : Nat) : Bool :=
  fmtClass fmtA == fmtClass fmtW && (fmtClass fmtA != 0 || (decide (fmtA ≥ 10) == decide (fmtW ≥ 10)))

/-- Rows `i` on are accumulated against the bank's columns. -/
def maccRows (rd : Reader) (cols : List (List (Num × Int))) (fmtA kt row0 t sr nr : Nat) (m : MatrixSt) (sat : Bool) :
    List Nat → MatrixSt × Bool
  | [] => (m, sat)
  | i :: is =>
    let line := rd (t + i * sr) (64 * rowDrop fmtA kt i) (64 * lineDrops fmtA kt)
    let sc := if fmtScaled fmtA then rd (t + i / 16 * 16 * sr) (64 * scaleDrop fmtA kt i) 64 else []
    let act := scaledElems fmtA kt line ((slice sc (4 * (i % 16)) 4).map (·.toNat))
    let st := t + i * sr + sr - 1
    let out := cols.zipIdx.map fun col =>
      let v := wellForAcc m st (wellIx (row0 + i) col.2)
      let ts := List.zipWith (fun a w => term a.1 a.2 w.1 w.2 v.c.toInt) act col.1
      let r := accumulate v ts
      (({ stroke := st, anchor := false, idx := wellIx (row0 + i) col.2, val := r.1 } : WellWrite), r.2)
    maccRows rd cols fmtA kt row0 t sr nr { m with wlog := m.wlog ++ out.map Prod.fst } (sat || out.any Prod.snd) is

/-- A SAT set in the step (R95). -/
def noteSat (s : State) (b : Bool) : State := if b then { s with step := { s.step with saturated := true } } else s

/-- MACC: accumulate rows against a bank, and load the other bank when NEXT = 1. -/
def planMacc (s : State) (c j : Nat) (row0 nr fmtA bank : Nat) (asrc : BitVec 17) (next nfmt : Nat) (nsrc : BitVec 17) : Plan :=
  let la := locRef asrc
  let ln := locRef nsrc
  let nx := next == 1
  if fmtA ≥ 13 ∨ locBad asrc ∨ (nx ∧ (nfmt ≥ 13 ∨ locBad nsrc)) then illegalPlan
  else
    let b := getBank (getMatrix s (tileKey c j)) bank
    let fw := b.fmt.toNat
    let kt := fmtKT fw
    let sr := rowStrokes fmtA fw
    let da := runDrops fmtA kt nr
    let nb := if nx then tileBytes nfmt else 0
    let dm := srcPorts la da ++ if nx then srcPorts ln (dropsFor nb) else []
    let bad := rowsBad row0 nr || fmtA == 12 || (nx && nfmt == 12) || !pairOk fmtA fw
    { cause := checkCause s c j
        { inPorts := dm.map Prod.fst
          ranges := locRange c j la da false ++ (if nx then locRange c j ln (dropsFor nb) false else []), bad } true
      strokes := max (nr * sr) (if nx then loadStrokes nfmt else 0), demand := onInputs s c j dm
      inAt := fun e d => if e < (onInputs s c j (srcPorts la da)).length then rowOfDrop fmtA kt d * sr
        else max (d / 16) (if asrc = nsrc then (nr - 1) * sr else 0)
      effect := fun t got s =>
        let k := tileKey c j
        let s1 := beginMatrix s c k t
        let m := getMatrix s1 k
        let oa := operand s1 c j m.slog la got
        let cols := (List.range 128).map (bankColumn (getBank m bank))
        let r := maccRows oa.1 cols fmtA kt row0 t sr nr m false (List.range nr)
        let m2 := if nx then
          let on := operand s1 c j m.slog ln oa.2
          setBank r.1 (1 - bank) { bytes := readTile on.1 t nb, fmt := BitVec.ofNat 4 nfmt } else r.1
        (noteSat (setMatrix s1 k m2) r.2, []) }

/-! ### MWOUT -/

def mwoutWord (row0 nr fmtO cols aen dst adst : Nat) : CmdWord :=
  mkWord [(8, 0x13), (6, row0), (7, nr), (4, fmtO), (2, cols), (1, aen), (17, dst), (17, adst)]

/-- One piece of output: the stroke it is written at, its byte offset in the run, its bytes. -/
structure OutPiece where
  stroke : Nat
  off : Nat
  bytes : Bytes

/-- Row `i` of an unscaled write-out: its line and its anchor byte. -/
def outRow (f : Nat) (wells : List Well) : Bytes × Nat :=
  let ws := wells.map (writeOut f)
  (lineBytes (fmtWidth f) ws, floatAnchor (ws.map (fltDecode (fltOf f))))

/-- Consecutive groups of 32. -/
def blocks32 {α : Type} : Nat → List α → List (List α)
  | 0, _ => []
  | n + 1, l => l.take 32 :: blocks32 n (l.drop 32)

/-- Row of a scaled write-out: scale bytes, line, anchor byte (R99, R100). -/
def outScaledRow (f : Nat) (vals : List Num) : List Nat × Bytes × Nat :=
  let bl := (blocks32 (vals.length / 32) vals).map (blockEncode f)
  (bl.map Prod.fst, lineBytes (fmtWidth f) (bl.flatMap Prod.snd), scaleAnchor (bl.map Prod.fst))

/-- Scale drop of a group: byte `4 i + b` for block `b` of row `i` (R104). -/
def scaleDropBytes (rows : List (List Nat)) : Bytes :=
  slice (rows.flatMap fun r => (slice (r.map (BitVec.ofNat 8)) 0 4)) 0 64

/-- Pieces of an unscaled run with the anchor bytes of its rows. -/
def unscaledPieces (f k t o : Nat) (row : Nat → Nat → List Well) (nr : Nat) : List OutPiece × List Nat :=
  let rs := (List.range nr).map fun i => (i, outRow f (row (t + i * o) i))
  (rs.map fun r => { stroke := t + r.1 * o + o - 1, off := 64 * rowDrop f k r.1, bytes := r.2.1 }, rs.map fun r => r.2.2)

/-- Pieces of a scaled run: each group's scale drop, then its lines (R108). -/
def scaledPieces (f k t : Nat) (row : Nat → Nat → List Num) (nr : Nat) : List OutPiece × List Nat :=
  let gs := (List.range ((nr + 15) / 16)).map fun g =>
    let b := t + 17 * g
    let rs := (List.range (min 16 (nr - 16 * g))).map fun i => (16 * g + i, outScaledRow f (row b (16 * g + i)))
    (({ stroke := b, off := 64 * scaleDrop f k (16 * g), bytes := scaleDropBytes (rs.map fun r => r.2.1) } : OutPiece)
        :: rs.map fun r => { stroke := b + 1 + r.1 % 16, off := 64 * rowDrop f k r.1, bytes := r.2.2.1 },
     rs.map fun r => r.2.2.2)
  (gs.flatMap Prod.fst, gs.flatMap Prod.snd)

/-- Stroke of a scaled write-out that gives drop `d` of its run (R108). -/
def scaledOutAt (f k d : Nat) : Nat :=
  let l := lineDrops f k
  let g := d / (16 * l + 1)
  let r := d % (16 * l + 1)
  17 * g + if r = 0 then 0 else 1 + (r - 1) / l

/-- Drops of a run of bytes on a channel. -/
def toChan (ch : Nat) (bs : Bytes) : List (Nat × Drop) := (dropsOf (dropsFor bs.length) bs).map fun d => (ch, d)

/-- Pieces go to a location: slab writes for the log, or drops. -/
def emit (s : State) (c j : Nat) (loc : LocRef) (ps : List OutPiece) : List SlabWrite × List (Nat × Drop) :=
  match loc with
  | .slab off => (ps.map fun p => { stroke := p.stroke, addr := slabAddr (tileIx c j) + off + p.off, bytes := p.bytes }, [])
  | .port p => match outChan s c j p with
    | some ch => ([], ps.flatMap fun p => toChan ch p.bytes)
    | none => ([], [])
  | .bad => ([], [])

/-- Columns of COLS; 3 counts as 0 (R107). -/
def outCols (cols : Nat) : List Nat :=
  if cols = 1 then List.range 64 else if cols = 2 then (List.range 64).map (· + 64) else List.range 128

/-- Anchor drop: bytes of the rows, the rest 0. -/
def anchorDrop (as : List Nat) : Bytes := slice (as.map (BitVec.ofNat 8)) 0 64

/-- MWOUT: write out rows. -/
def planMwout (s : State) (c j : Nat) (row0 nr fmtO cols aen : Nat) (dst adst : BitVec 17) : Plan :=
  let ld := locRef dst
  let la := locRef adst
  let ae := aen == 1
  if fmtO ≥ 13 ∨ locBad dst ∨ (ae ∧ locBad adst) then illegalPlan
  else
    let cs := outCols cols
    let kk := cs.length
    let dd := runDrops fmtO kk nr
    let o := if fmtO = 12 ∧ kk = 128 then 2 else 1
    let n := nr * o + if fmtScaled fmtO then (nr + 15) / 16 else 0
    let outs := srcPorts ld dd ++ if ae then srcPorts la 1 else []
    let bad := rowsBad row0 nr || fmtInt fmtO || (ae && fmtO == 12) || cols == 3
    { cause := checkCause s c j
        { outPorts := outs.map Prod.fst
          ranges := locRange c j ld dd true ++ (if ae then locRange c j la 1 true else []), bad } true
      strokes := n, nulls := onOutputs s c j outs
      outAt := fun i => if dd ≤ i then n - 1 else if fmtScaled fmtO then scaledOutAt fmtO kk i else rowOfDrop fmtO kk i * o + o - 1
      effect := fun t _ s =>
        let k := tileKey c j
        let s1 := beginMatrix s c k t
        let m := getMatrix s1 k
        let row (r i : Nat) : List Well := cs.map fun n => wellForOut m r (wellIx (row0 + i) n)
        let ps := if fmtScaled fmtO then scaledPieces fmtO kk t (fun r i => (row r i).map wellNum) nr
          else unscaledPieces fmtO kk t o row nr
        let e := emit s1 c j ld ps.1
        let ea := if ae then emit s1 c j la [{ stroke := t + n - 1, off := 0, bytes := anchorDrop ps.2 }] else ([], [])
        (setMatrix s1 k { m with slog := m.slog ++ e.1 ++ ea.1 }, e.2 ++ ea.2) }

/-! ### MWEXP and MWADD -/

def mwexpWord (row0 nr dst : Nat) : CmdWord := mkWord [(8, 0x14), (6, row0), (7, nr), (17, dst)]

def mwaddWord (row0 nr src : Nat) : CmdWord := mkWord [(8, 0x15), (6, row0), (7, nr), (17, src)]

/-- The location is a slab: not allowed where channels only are (R106). -/
def locSlab (v : BitVec 17) : Bool := match locRef v with | .slab _ => true | _ => false

/-- Record drops of 128 wells. -/
def recordDrops (ws : List Well) : List Drop :=
  (List.range (ws.length / 2)).map fun d => recordDrop (ws.getD (2 * d) {}) (ws.getD (2 * d + 1) {})

/-- The wells that record drops carry. -/
def dropRecords (ds : List Drop) : List Well :=
  ds.flatMap fun d => let b := bytesOf 64 d; [recordWell (b.take 32), recordWell (b.drop 32)]

/-- MWEXP: raw records of rows, 64 drops a row. -/
def planMwexp (s : State) (c j : Nat) (row0 nr : Nat) (dst : BitVec 17) : Plan :=
  let ld := locRef dst
  if locBad dst then illegalPlan
  else
    { cause := checkCause s c j { outPorts := (srcPorts ld 1).map Prod.fst, bad := rowsBad row0 nr || locSlab dst } true
      strokes := 16 * nr, nulls := onOutputs s c j (srcPorts ld (64 * nr)), outAt := (· / 4)
      effect := fun t _ s =>
        let k := tileKey c j
        let s1 := beginMatrix s c k t
        let m := getMatrix s1 k
        let ch := match ld with | .port p => (outChan s1 c j p).getD 0 | _ => 0
        (s1, (List.range nr).flatMap fun i =>
          (recordDrops ((List.range 128).map fun n => wellForOut m (t + 16 * i) (wellIx (row0 + i) n))).map fun d => (ch, d)) }

/-- Rows of records are added to their wells, row `i` at stroke `t + 16 i + 15`. -/
def mwaddRows (recs : List Well) (row0 t : Nat) (m : MatrixSt) (sat : Bool) : List Nat → MatrixSt × Bool
  | [] => (m, sat)
  | i :: is =>
    let st := t + 16 * i + 15
    let out := (List.range 128).map fun n =>
      let r := importRecord (wellForAcc m st (wellIx (row0 + i) n)) (recs.getD (128 * i + n) {})
      (({ stroke := st, anchor := false, idx := wellIx (row0 + i) n, val := r.1 } : WellWrite), r.2)
    mwaddRows recs row0 t { m with wlog := m.wlog ++ out.map Prod.fst } (sat || out.any Prod.snd) is

/-- MWADD: raw records are added to rows. -/
def planMwadd (s : State) (c j : Nat) (row0 nr : Nat) (src : BitVec 17) : Plan :=
  let ls := locRef src
  if locBad src then illegalPlan
  else
    { cause := checkCause s c j { inPorts := (srcPorts ls 1).map Prod.fst, bad := rowsBad row0 nr || locSlab src } true
      strokes := 16 * nr, demand := onInputs s c j (srcPorts ls (64 * nr)), inAt := fun _ d => d / 4
      effect := fun t got s =>
        let k := tileKey c j
        let s1 := beginMatrix s c k t
        let r := mwaddRows (dropRecords (got.headD [])) row0 t (getMatrix s1 k) false (List.range nr)
        (noteSat (setMatrix s1 k r.1) r.2, []) }

/-! ### Words (R105) -/

/-- The plan of any matrix word; a nonzero bit above the last field or an unlisted opcode is illegal. -/
def matrixPlan (s : State) (c j : Nat) (w : CmdWord) : Plan :=
  let f := wf w
  let top (n : Nat) : Bool := w.toNat / 2 ^ n != 0
  let loc (lo : Nat) : BitVec 17 := BitVec.ofNat 17 (f (lo + 16) lo)
  match f 7 0 with
  | 0x00 => if top 24 then illegalPlan else planWait (f 23 8)
  | 0x10 => if top 30 then illegalPlan else planMldw s c j (f 8 8) (f 12 9) (loc 13)
  | 0x11 => if top 71 then illegalPlan else planManc s c j (f 13 8) (f 20 14) (f 24 21) (f 28 25) (f 36 29) (loc 37) (loc 54)
  | 0x12 => if top 65 then illegalPlan else planMacc s c j (f 13 8) (f 20 14) (f 24 21) (f 25 25) (loc 26) (f 43 43) (f 47 44) (loc 48)
  | 0x13 => if top 62 then illegalPlan else planMwout s c j (f 13 8) (f 20 14) (f 24 21) (f 26 25) (f 27 27) (loc 28) (loc 45)
  | 0x14 => if top 38 then illegalPlan else planMwexp s c j (f 13 8) (f 20 14) (loc 21)
  | 0x15 => if top 38 then illegalPlan else planMwadd s c j (f 13 8) (f 20 14) (loc 21)
  | _ => illegalPlan

/-- Matrix tiles of a core (R12). -/
def isMatrixTile (j : Nat) : Bool := decide (j < 12)

/-- A matrix tile takes a word of a plan; a row that names another tile cannot occur (log 4). -/
def runMatrix (s : State) (c : BitVec 6) (j : BitVec 5) (w : CmdWord) (p : Plan) : Out :=
  .next (if isMatrixTile j.toNat then runTile s c.toNat j.toNat w p else s)

/-- MATRIX_WAIT (R48). -/
def execMatrixWait (c : BitVec 6) (j : BitVec 5) (n : BitVec 16) (s : State) : Out :=
  runMatrix s c j (waitWord n.toNat) (planWait n.toNat)

/-- MLDW (R105). -/
def execMldw (c : BitVec 6) (j : BitVec 5) (bank : BitVec 1) (fmtW : BitVec 4) (src : BitVec 17) (s : State) : Out :=
  runMatrix s c j (mldwWord bank.toNat fmtW.toNat src.toNat) (planMldw s c.toNat j.toNat bank.toNat fmtW.toNat src)

/-- MANC (R105). -/
def execManc (c : BitVec 6) (j : BitVec 5) (row0 : BitVec 6) (nr : BitVec 7) (fmtA fmtW : BitVec 4) (q : BitVec 8)
    (asrc wsrc : BitVec 17) (s : State) : Out :=
  runMatrix s c j (mancWord row0.toNat nr.toNat fmtA.toNat fmtW.toNat q.toNat asrc.toNat wsrc.toNat)
    (planManc s c.toNat j.toNat row0.toNat nr.toNat fmtA.toNat fmtW.toNat q.toNat asrc wsrc)

/-- MACC (R105). -/
def execMacc (c : BitVec 6) (j : BitVec 5) (row0 : BitVec 6) (nr : BitVec 7) (fmtA : BitVec 4) (bank : BitVec 1) (asrc : BitVec 17)
    (next : BitVec 1) (nfmt : BitVec 4) (nsrc : BitVec 17) (s : State) : Out :=
  runMatrix s c j (maccWord row0.toNat nr.toNat fmtA.toNat bank.toNat asrc.toNat next.toNat nfmt.toNat nsrc.toNat)
    (planMacc s c.toNat j.toNat row0.toNat nr.toNat fmtA.toNat bank.toNat asrc next.toNat nfmt.toNat nsrc)

/-- MWOUT (R105). -/
def execMwout (c : BitVec 6) (j : BitVec 5) (row0 : BitVec 6) (nr : BitVec 7) (fmtO : BitVec 4) (cols : BitVec 2) (aen : BitVec 1)
    (dst adst : BitVec 17) (s : State) : Out :=
  runMatrix s c j (mwoutWord row0.toNat nr.toNat fmtO.toNat cols.toNat aen.toNat dst.toNat adst.toNat)
    (planMwout s c.toNat j.toNat row0.toNat nr.toNat fmtO.toNat cols.toNat aen.toNat dst adst)

/-- MWEXP (R105). -/
def execMwexp (c : BitVec 6) (j : BitVec 5) (row0 : BitVec 6) (nr : BitVec 7) (dst : BitVec 17) (s : State) : Out :=
  runMatrix s c j (mwexpWord row0.toNat nr.toNat dst.toNat) (planMwexp s c.toNat j.toNat row0.toNat nr.toNat dst)

/-- MWADD (R105). -/
def execMwadd (c : BitVec 6) (j : BitVec 5) (row0 : BitVec 6) (nr : BitVec 7) (src : BitVec 17) (s : State) : Out :=
  runMatrix s c j (mwaddWord row0.toNat nr.toNat src.toNat) (planMwadd s c.toNat j.toNat row0.toNat nr.toNat src)

end Sys2Proof.Machine
end

