-- ==== Sys2Proof/Machine/ExactTables.lean ====
section
/-! DEFINITION. The tables of R129, each entry the integer nearest to the stated real number. -/

namespace Sys2Proof.Machine

/-- T of R129: 2^(j/64) in Q60, entries 0 to 15. -/
def tabT0 : List Nat :=
  [0x1000000000000000, 0x102c9a3e778060ee, 0x1059b0d31585743b, 0x10874518759bc809,
   0x10b5586cf9890f63, 0x10e3ec32d3d1a202, 0x111301d0125b50a5, 0x11429aaea92ddfb3,
   0x1172b83c7d517add, 0x11a35beb6fcb753d, 0x11d4873168b9aa78, 0x12063b88628cd63c,
   0x12387a6e75623867, 0x126b4565e27cdd25, 0x129e9df51fdee12c, 0x12d285a6e4030b40]

/-- T of R129: 2^(j/64) in Q60, entries 16 to 31. -/
def tabT1 : List Nat :=
  [0x1306fe0a31b7152e, 0x133c08b26416ff4d, 0x1371a7373aa9caa7, 0x13a7db34e59ff6ea,
   0x13dea64c12342236, 0x14160a21f72e29f8, 0x144e086061892d03, 0x1486a2b5c13cd014,
   0x14bfdad5362a271d, 0x14f9b2769d2ca6ad, 0x15342b569d4f81df, 0x156f4736b527da67,
   0x15ab07dd48542959, 0x15e76f15ad21486f, 0x16247eb03a5584b2, 0x1662388255222491]

/-- T of R129: 2^(j/64) in Q60, entries 32 to 47. -/
def tabT2 : List Nat :=
  [0x16a09e667f3bcc91, 0x16dfb23c651a2ef2, 0x171f75e8ec5f73dd, 0x175feb564267c8bf,
   0x17a11473eb0186d8, 0x17e2f336cf4e6210, 0x182589994cce128b, 0x1868d99b4492ec81,
   0x18ace5422aa0db5c, 0x18f1ae991577362c, 0x193737b0cdc5e4f4, 0x197d829fde4e4f8c,
   0x19c49182a3f0901c, 0x1a0c667b5de564b3, 0x1a5503b23e255c8b, 0x1a9e6b5579fdbf44]

/-- T of R129: 2^(j/64) in Q60, entries 48 to 63. -/
def tabT3 : List Nat :=
  [0x1ae89f995ad3ad5f, 0x1b33a2b84f15faf7, 0x1b7f76f2fb5e46eb, 0x1bcc1e904bc1d224,
   0x1c199bdd85529c22, 0x1c67f12e57d14b4a, 0x1cb720dcef906915, 0x1d072d4a07897b8d,
   0x1d5818dcfba48726, 0x1da9e603db328571, 0x1dfc97337b9b5eb9, 0x1e502ee78b3ff627,
   0x1ea4afa2a490d986, 0x1efa1bee615a2777, 0x1f50765b6e454067, 0x1fa7c1819e90d82f]

/-- T of R129: 2^(j/64) in Q60. -/
def tabT : List Nat :=
  tabT0 ++ tabT1 ++ tabT2 ++ tabT3

/-- G of R129: 2^16 / (1 + j/64), entries 0 to 15. -/
def tabG0 : List Nat :=
  [0x10000, 0xfc10, 0xf83e, 0xf48a,
   0xf0f1, 0xed73, 0xea0f, 0xe6c3,
   0xe38e, 0xe070, 0xdd68, 0xda74,
   0xd794, 0xd4c7, 0xd20d, 0xcf64]

/-- G of R129: 2^16 / (1 + j/64), entries 16 to 31. -/
def tabG1 : List Nat :=
  [0xcccd, 0xca46, 0xc7ce, 0xc566,
   0xc30c, 0xc0c1, 0xbe83, 0xbc52,
   0xba2f, 0xb817, 0xb60b, 0xb40b,
   0xb216, 0xb02c, 0xae4c, 0xac77]

/-- G of R129: 2^16 / (1 + j/64), entries 32 to 47. -/
def tabG2 : List Nat :=
  [0xaaab, 0xa8e8, 0xa72f, 0xa57f,
   0xa3d7, 0xa238, 0xa0a1, 0x9f11,
   0x9d8a, 0x9c0a, 0x9a91, 0x991f,
   0x97b4, 0x9650, 0x94f2, 0x939b]

/-- G of R129: 2^16 / (1 + j/64), entries 48 to 63. -/
def tabG3 : List Nat :=
  [0x9249, 0x90fe, 0x8fb8, 0x8e78,
   0x8d3e, 0x8c09, 0x8ad9, 0x89ae,
   0x8889, 0x8768, 0x864c, 0x8534,
   0x8421, 0x8312, 0x8208, 0x8102]

/-- G of R129: 2^16 / (1 + j/64). -/
def tabG : List Nat :=
  tabG0 ++ tabG1 ++ tabG2 ++ tabG3

/-- L of R129: -ln(G[j] / 2^16) in Q60, entries 0 to 15. -/
def tabL0 : List Int :=
  [0x0, 0x3f7d51627807b2, 0x7e0b6c39e8cc02, 0xbb9b47b358e756,
   0xf8508600931533, 0x1341db961bd9d09, 0x16f06a8afa8b45e, 0x1a92193a589d606,
   0x1e27476e32f2e74, 0x21af3cf9a91cb42, 0x252a65f047ea454, 0x289a66d9977a3cd,
   0x2bfea0e15727a8e, 0x2f57a6044c7a22b, 0x32a4dd39ebcd694, 0x35e8229d29fff4e]

/-- L of R129: -ln(G[j] / 2^16) in Q60, entries 16 to 31. -/
def tabL1 : List Int :=
  [0x391faf8f3d34420, 0x3c4d76dc8305b9f, 0x3f7240dabcfc552, 0x428c4b89d8638b9,
   0x459db2aeb698396, 0x48a4b3ef4bad938, 0x4ba382eb8494c27, 0x4e99b955c937b3f,
   0x51858f08a37af52, 0x546aba1cb7e8b42, 0x57477efd8447361, 0x5a1b7c7a7cdabf0,
   0x5ce7bfdb01401ef, 0x5fabf0ee0b3f0da, 0x62692e1b17096f5, 0x651dac70b8e3d48]

/-- L of R129: -ln(G[j] / 2^16) in Q60, entries 32 to 47. -/
def tabL2 : List Int :=
  [0x67cc0fb31e61252, 0x6a74126a7a212ab, 0x6d13e5ef325d8a3, 0x6facc276b6b5e7f,
   0x723fef1e6ae886b, 0x74cb99f815af510, 0x775110133432712, 0x79d1ad878ea6360,
   0x7c49fd7ec41bb18, 0x7ebcfa3df8ec75b, 0x812a6d2d31a7f5e, 0x83921ee0eac202e,
   0x85f3d7213154171, 0x884f5cf17264b6a, 0x8aa62e97a72f4d5, 0x8cf661a3961345f]

/-- L of R129: -ln(G[j] / 2^16) in Q60, entries 48 to 63. -/
def tabL3 : List Int :=
  [0x8f433af38a06834, 0x91890ebe121a0b5, 0x93cb30945588d8b, 0x9607af6a3674625,
   0x983e599a8a85ec8, 0x9a70d0ed015690c, 0x9c9eee9ab270cd4, 0x9ec88b53a6d7ddf,
   0xa0eb9f4295953a0, 0xa30bbe1114f5ff1, 0xa526e2ede3f59ee, 0xa73ed08dbb5d84f,
   0xa9517932dead578, 0xab60a6adfabcfd5, 0xad6a4261b4f9693, 0xaf701d4920d3ab8]

/-- L of R129: -ln(G[j] / 2^16) in Q60. -/
def tabL : List Int :=
  tabL0 ++ tabL1 ++ tabL2 ++ tabL3

/-- S of R129: 2^16 / sqrt(1 + (2j + 1)/64), entries 0 to 15. -/
def tabS0 : List Nat :=
  [0xfe06, 0xfa34, 0xf68d, 0xf30e,
   0xefb3, 0xec7c, 0xe964, 0xe66b,
   0xe38e, 0xe0cc, 0xde23, 0xdb92,
   0xd916, 0xd6b0, 0xd45e, 0xd21f]

/-- S of R129: 2^16 / sqrt(1 + (2j + 1)/64), entries 16 to 31. -/
def tabS1 : List Nat :=
  [0xcff1, 0xcdd5, 0xcbc9, 0xc9cc,
   0xc7dd, 0xc5fd, 0xc42a, 0xc263,
   0xc0a9, 0xbefa, 0xbd56, 0xbbbd,
   0xba2f, 0xb8a9, 0xb72e, 0xb5bb]

/-- S of R129: 2^16 / sqrt(1 + (2j + 1)/64), entries 32 to 47. -/
def tabS2 : List Nat :=
  [0xb451, 0xb2ef, 0xb196, 0xb044,
   0xaef9, 0xadb6, 0xac79, 0xab43,
   0xaa14, 0xa8eb, 0xa7c7, 0xa6aa,
   0xa592, 0xa480, 0xa373, 0xa26b]

/-- S of R129: 2^16 / sqrt(1 + (2j + 1)/64), entries 48 to 63. -/
def tabS3 : List Nat :=
  [0xa168, 0xa069, 0x9f70, 0x9e7b,
   0x9d8a, 0x9c9d, 0x9bb5, 0x9ad0,
   0x99f0, 0x9913, 0x983a, 0x9764,
   0x9692, 0x95c4, 0x94f8, 0x9430]

/-- S of R129: 2^16 / sqrt(1 + (2j + 1)/64), entries 64 to 79. -/
def tabS4 : List Nat :=
  [0x936b, 0x92a9, 0x91ea, 0x912e,
   0x9074, 0x8fbe, 0x8f0a, 0x8e59,
   0x8daa, 0x8cfd, 0x8c54, 0x8bac,
   0x8b07, 0x8a64, 0x89c3, 0x8925]

/-- S of R129: 2^16 / sqrt(1 + (2j + 1)/64), entries 80 to 95. -/
def tabS5 : List Nat :=
  [0x8889, 0x87ee, 0x8756, 0x86c0,
   0x862b, 0x8599, 0x8508, 0x8479,
   0x83ec, 0x8361, 0x82d8, 0x8250,
   0x81c9, 0x8145, 0x80c2, 0x8040]

/-- S of R129: 2^16 / sqrt(1 + (2j + 1)/64). -/
def tabS : List Nat :=
  tabS0 ++ tabS1 ++ tabS2 ++ tabS3 ++ tabS4 ++ tabS5

/-- E of R129: erf(j/64) in Q60, entries 0 to 15. -/
def tabE0 : List Nat :=
  [0x0, 0x4835dc20fc5e81, 0x9062b22ee929c0, 0xd87d7f789aba26,
   0x1207d480e906585, 0x168591a1e83b5d5, 0x1b0081148a8739f, 0x1f78159ec8bb504,
   0x23ebc346b87712f, 0x285aff85ec92b1d, 0x2cc5417bef513dc, 0x312a021fb7b7fa9,
   0x3588bc6ffc4a4ca, 0x39e0eda246646dd, 0x3e321550aa81c31, 0x427bb5a60ae51eb]

/-- E of R129: erf(j/64) in Q60, entries 16 to 31. -/
def tabE1 : List Nat :=
  [0x46bd5388cb58224, 0x4af676c3de09fbe, 0x4f26aa2e12fb685, 0x534d7bcf94dcb83,
   0x576a7d057fc8fbd, 0x5b7d42a37fddc74, 0x5f856513674f8f3, 0x63828072ad45ac2,
   0x677434adc87ce2f, 0x6b5a25995a6a1a4, 0x6f33fb092156dec, 0x730160e4a9b4b29,
   0x76c20739b8a91e8, 0x7a75a24c6b9940f, 0x7e1beaa50a3e75a, 0x81b49d1b8a8ce23]

/-- E of R129: erf(j/64) in Q60, entries 32 to 47. -/
def tabE2 : List Nat :=
  [0x853f7ae0c76e916, 0x88bc49856d08a67, 0x8c2ad2fe9eea832, 0x8f8ae5a85e26ef7,
   0x92dc5445b6ebfb3, 0x961ef5febeb6072, 0x9952a65c6db3d73, 0x9c7745425f5b898,
   0x9f8cb6e68789a61, 0xa292e3c6eacb2d5, 0xa589b89d69a898f, 0xa8712651afe95dd,
   0xab4921e959d4d99, 0xae11a476626e17d, 0xb0caab03ee8aeb3, 0xb374368189740d6]

/-- E of R129: erf(j/64) in Q60, entries 48 to 63. -/
def tabE3 : List Nat :=
  [0xb60e4bace872fb6, 0xb898f2fa4b52d34, 0xbb14387b90637a2, 0xbd802bc61301b5a,
   0xbfdcdfd76c03c16, 0xc22a6af92bb0679, 0xc468e6a3a51702e, 0xc6986f5fe2b96e7,
   0xc8b924a8dc7e2db, 0xcacb28cc06d18ac, 0xcccea0c952b8a47, 0xcec3b432b6620e6,
   0xd0aa8d0b557578d, 0xd28357a66007a15, 0xd44e4285beaa644, 0xd60b7e38a19318d]

/-- E of R129: erf(j/64) in Q60, entries 64 to 79. -/
def tabE4 : List Nat :=
  [0xd7bb3d3a0844563, 0xd95db3cf568cddc, 0xdaf317e70b04a9c, 0xdc7ba0f7aa7c1c0,
   0xddf787def31105a, 0xdf6706c168d2e01, 0xe0ca58ea4d0c1f5, 0xe221baac106b227,
   0xe36d69414f630f3, 0xe4ada2ae6734e48, 0xe5e2a5a3b1246a3, 0xe70cb160706c5a3,
   0xe82c05967e924aa, 0xe940e24ec0c67d3, 0xea4b87ce7006c6b, 0xeb4c367d3cc738e]

/-- E of R129: erf(j/64) in Q60, entries 80 to 95. -/
def tabE5 : List Nat :=
  [0xec432ecc55f0040, 0xed30b11e5a0f03b, 0xee14fdb038ad7b5, 0xeef0548308d06bb,
   0xefc2f546d8c46c1, 0xf08d1f467a75c22, 0xf14f11544ebb338, 0xf20909b81126602,
   0xf2bb461da51fe0c, 0xf3660384e4506a0, 0xf4097e326d9b4a8, 0xf4a5f1a1733a1c0,
   0xf53b987685ddca6, 0xf5caac735a166e3, 0xf653666b84aa210, 0xf6d5fe3a29f314e]

/-- E of R129: erf(j/64) in Q60, entries 96 to 111. -/
def tabE6 : List Nat :=
  [0xf752aab89bd6fd9, 0xf7c9a1b5e16d530, 0xf83b17ef22f7334, 0xf8a74108f462a55,
   0xf90e4f897833b7a, 0xf97074d35458495, 0xf9cde121721f2c5, 0xfa26c383824885a,
   0xfa7b49db3debb6c, 0xfacba0da5cbe752, 0xfb17f4013920c49, 0xfb606d9e1a320b5,
   0xfba536cd1c1c1b8, 0xfbe67778aeb18a1, 0xfc24565aa274a4a, 0xfc5ef8fdbc1b7d0]

/-- E of R129: erf(j/64) in Q60, entries 112 to 127. -/
def tabE7 : List Nat :=
  [0xfc9683bfc6ab699, 0xfccb19d41c52b57, 0xfcfcdd469e399ba, 0xfd2beeff139bb3d,
   0xfd586ec4e89844a, 0xfd827b43454a1dd, 0xfdaa320d75de451, 0xfdcfafa39c8b830,
   0xfdf30f77a67b523, 0xfe146bf27ce67cf, 0xfe33de796bdc75e, 0xfe517f73b863c8f,
   0xfe6d66505fdb95a, 0xfe87a98bfac1747, 0xfea05eb6bd3c2ac, 0xfeb79a7a9009cd6]

/-- E of R129: erf(j/64) in Q60, entries 128 to 143. -/
def tabE8 : List Nat :=
  [0xfecd70a13caf199, 0xfee1f41aa80598d, 0xfef53703168646a, 0xff074aa975eead5,
   0xff183f95a81e7f4, 0xff28258ecb4b611, 0xff370ba17be7ac6, 0xff4500260cd7330,
   0xff5210c6b2ca4f8, 0xff5e4a859fd3a9a, 0xff69b9c30c87dae, 0xff746a432c2f73f,
   0xff7e673409cb9f9, 0xff87bb334be3acf, 0xff907053dd460f8, 0xff9890237919c82]

/-- E of R129: erf(j/64) in Q60, entries 144 to 159. -/
def tabE9 : List Nat :=
  [0xffa023b018cda1f, 0xffa7338d42a1289, 0xffadc7d937afad0, 0xffb3e842009011b,
   0xffb99c0a57c4611, 0xffbeea0e715a65c, 0xffc3d8c89f4296c, 0xffc86e55d204ae9,
   0xffccb079f59936f, 0xffd0a4a42a4d3a2, 0xffd44ff2d9b12b2, 0xffd7b737a7ae011,
   0xffdadefb3ff3780, 0xffddcb810008803, 0xffe080ca7e5b23d, 0xffe3029aeebfa4d]

/-- E of R129: erf(j/64) in Q60, entries 160 to 175. -/
def tabE10 : List Nat :=
  [0xffe5547a64df536, 0xffe779b8f526b96, 0xffe97571b4d0374, 0xffeb4a8d99b42d2,
   0xffecfbc63a92521, 0xffee8ba8709102a, 0xffeffc96dab7267, 0xfff150cc442be1f,
   0xfff28a5dee0cb79, 0xfff3ab3dbdaf0b9, 0xfff4b53c502545b, 0xfff5aa0af3e21dc,
   0xfff68b3d89560c4, 0xfff75a4c4b636ba, 0xfff818958085aa3, 0xfff8c75f1587073]

/-- E of R129: erf(j/64) in Q60, entries 176 to 191. -/
def tabE11 : List Nat :=
  [0xfff967d8229ecb3, 0xfff9fb1a5bcfcba, 0xfffa822b6d5c5f9, 0xfffafdfe4521c73,
   0xfffb6f7449a9737, 0xfffbd75e7fbaaa6, 0xfffc367e9f32b6d, 0xfffc8d8817e5426,
   0xfffcdd210741a11, 0xfffd25e31f74cee, 0xfffd685c80baa8c, 0xfffda510858b8fb,
   0xfffddc78824e31d, 0xfffe0f04792fa99, 0xfffe3d1bc2be8e7, 0xfffe671dabdff6d]

/-- E of R129: erf(j/64) in Q60, entries 192 to 207. -/
def tabE12 : List Nat :=
  [0xfffe8d6209afcbe, 0xfffeb039c3d838e, 0xfffecfef55e6722, 0xfffeecc7481d8ce,
   0xffff0700a042b75, 0xffff1ed54ad8c2b, 0xffff347a7d3bb81, 0xffff48211108068,
   0xffff59f5d933d8f, 0xffff6a21f13c397, 0xffff78cb06c2e41, 0xffff86139df50cd,
   0xffff921b510edd9, 0xffff9cff0b4b1bc, 0xffffa6d93f8a33c, 0xffffafc21af7dde]

/-- E of R129: erf(j/64) in Q60, entries 208 to 223. -/
def tabE13 : List Nat :=
  [0xffffb7cfb3f2abc, 0xffffbf163575109, 0xffffc5a8073bdef, 0xffffcb95f2e2c6f,
   0xffffd0ef462c130, 0xffffd5c1f2a5be3, 0xffffda1aaadafb8, 0xffffde04fd3e6ad,
   0xffffe18b6cf67cf, 0xffffe4b788b2f07, 0xffffe791ffafdca, 0xffffea22b508670,
   0xffffec70d1790c8, 0xffffee82d3af4d4, 0xfffff05e9f428f9, 0xfffff2098a70305]

/-- E of R129: erf(j/64) in Q60, entries 224 to 239. -/
def tabE14 : List Nat :=
  [0xfffff3886ab2f39, 0xfffff4dfa04c5d6, 0xfffff61320d4ec3, 0xfffff72680e6b37,
   0xfffff81cfcf474c, 0xfffff8f9815e087, 0xfffff9beb1d1af4, 0xfffffa6ef008c3d,
   0xfffffb0c61ed2fc, 0xfffffb98f7340ac, 0xfffffc166e78da1, 0xfffffc8659e4085,
   0xfffffcea23665f2, 0xfffffd431092886, 0xfffffd92461ceb3, 0xfffffdd8cb09901]

/-- E of R129: erf(j/64) in Q60, entries 240 to 255. -/
def tabE15 : List Nat :=
  [0xfffffe178b8f1b1, 0xfffffe4f5bb55d1, 0xfffffe80f9b5745, 0xfffffead1020f9f,
   0xfffffed437d5463, 0xfffffef6f9bf6b9, 0xffffff15d07525b, 0xffffff3129a69de,
   0xffffff49676c946, 0xffffff5ee1762e2, 0xffffff71e61961e, 0xffffff82bb48ba9,
   0xffffff919f70ebb, 0xffffff9eca407a9, 0xffffffaa6d5b8cb, 0xffffffb4b4fdbd8]

/-- E of R129: erf(j/64) in Q60. -/
def tabE : List Nat :=
  tabE0 ++ tabE1 ++ tabE2 ++ tabE3 ++ tabE4 ++ tabE5 ++ tabE6 ++ tabE7 ++ tabE8 ++ tabE9 ++ tabE10 ++ tabE11 ++ tabE12 ++ tabE13 ++ tabE14 ++ tabE15

/-- D of R129: (2/sqrt(pi)) exp(-j^2/4096) in Q60, entries 0 to 15. -/
def tabD0 : List Nat :=
  [0x120dd750429b6d12, 0x120cb67bd452c754, 0x1209546ad13ccea0, 0x1203b261cd005281,
   0x11fbd27cdc72d2b8, 0x11f1b7ae44867ebe, 0x11e565bca400d3a7, 0x11d6e14099944a66,
   0x11c62fa1e869b63a, 0x11b357141d95d4c3, 0x119e5e92b964ab0e, 0x11874ddcdfce245c,
   0x116e2d7093cd8c66, 0x1153068581b780d7, 0x1135e3075d076af1, 0x1116cd8fd6761802]

/-- D of R129: (2/sqrt(pi)) exp(-j^2/4096) in Q60, entries 16 to 31. -/
def tabD1 : List Nat :=
  [0x10f5d1602f7e40d8, 0x10d2fa5a70c16866, 0x10ae54fa4907228c, 0x1087ee4d9ad24756,
   0x105fd3ecbec29784, 0x103613f2812daf78, 0x100abcf3e187a92b, 0xfddddf79a5a5901,
   0xfaf866d78a98982, 0xf7fc62589baed89, 0xf4ead472649a6e6, 0xf1c4c47e23738f9,
   0xee8b3e267ce9529, 0xeb3f50d45a9b40b, 0xe7e20f1b63efc66, 0xe4748e26809b40a]

/-- D of R129: (2/sqrt(pi)) exp(-j^2/4096) in Q60, entries 32 to 47. -/
def tabD2 : List Nat :=
  [0xe0f7e524d2808aa, 0xdd6d2cb792a1afc, 0xd9d57e613a816e5, 0xd631f3f660a088f,
   0xd283a710abb1020, 0xcecbb0843cb2101, 0xcb0b27d7ec6f191, 0xc74322c0b4d7c25,
   0xc374b4a09a5ced9, 0xbfa0ee0964f4474, 0xbbc8dc4373a0171, 0xb7ed88d8f061a07,
   0xb40ff925a5581f9, 0xb0312debae83d6c, 0xac5222ed3e3a621, 0xa873ce8ba4d647b]

/-- D of R129: (2/sqrt(pi)) exp(-j^2/4096) in Q60, entries 48 to 63. -/
def tabD3 : List Nat :=
  [0xa497216bc69624f, 0xa0bd062024fe836, 0x9ce660d89b6ad08, 0x99140f17e8d48dd,
   0x9546e76f1b39d69, 0x917fb93eeb7bd86, 0x8dbf4c7f1310b99, 0x8a06618b9f803bb,
   0x8655b0f8425c991, 0x82adeb699746baa, 0x7f0fb9745492bfb, 0x7b7bbb825654603,
   0x77f289bd6efe1f1, 0x7474b3ffe456504, 0x7102c1ca7b551e4, 0x6d9d323ff18a0b2]

/-- D of R129: (2/sqrt(pi)) exp(-j^2/4096) in Q60, entries 64 to 79. -/
def tabD4 : List Nat :=
  [0x6a447c25bef096f, 0x66f90de9f7a516e, 0x63bb4dae21b64df, 0x608b9956d05f9a1,
   0x5d6a469fd34bb46, 0x5a57a334c619f81, 0x5753f4cdca40529, 0x545f7950338a8d7,
   0x517a66f2ede4558, 0x4ea4ec6661cdaed, 0x4bdf30ff9bd08da, 0x492954e67a88e4a,
   0x46837146a64d332, 0x43ed98831542baf, 0x4167d66bdea416f, 0x3ef230762038b66]

/-- D of R129: (2/sqrt(pi)) exp(-j^2/4096) in Q60, entries 80 to 95. -/
def tabD5 : List Nat :=
  [0x3c8ca5f5b96d63f, 0x3a373058a026e0c, 0x37f1c3639444f20, 0x35bc4d6ff7db29f,
   0x3396b7aa936221d, 0x3180e6530e8ca45, 0x2f7ab8fbe7fd38a, 0x2d840acab7ce3f2,
   0x2b9cb2b88ab6144, 0x29c483d225860aa, 0x27fb4d7802d328b, 0x2640db9ddebf0e1,
   0x2494f709a712e2d, 0x22f76591a82a6a7, 0x2167ea59d18706f, 0x1fe6460fef46807]

/-- D of R129: (2/sqrt(pi)) exp(-j^2/4096) in Q60, entries 96 to 111. -/
def tabD6 : List Nat :=
  [0x1e723726b824a8e, 0x1d0b7a0f921e7c8, 0x1bb1c972f23e507, 0x1a64de673e88373,
   0x192470a61b69657, 0x17f036c01072946, 0x16c7e64e7281cb7, 0x15ab342383d1778,
   0x1499d478bca7351, 0x13937b1b3192599, 0x1297db960e4f62b, 0x11a6a95b1e786f1,
   0x10bf97e95f2a63b, 0xfe25af196b12ca, 0xf0ea678f12284d, 0xe442ef9a28d03b]

/-- D of R129: (2/sqrt(pi)) exp(-j^2/4096) in Q60, entries 112 to 127. -/
def tabD7 : List Nat :=
  [0xd82a98191080ac, 0xcc9cbcf0a7ffed, 0xc194c6b8b90873, 0xb70e2c49e1c057,
   0xad04742d793f04, 0xa37335f00111fe, 0x9a561b56c6d7f0, 0x91a8e17968a245,
   0x896759bffcde1b, 0x818d6ac6ab13ca, 0x7a1711278ddfca, 0x7300602bc02a2b,
   0x6c4582647fdcdb, 0x65e2ba2d57386c, 0x5fd4621843771f, 0x5a16ed44d3bc4e]

/-- D of R129: (2/sqrt(pi)) exp(-j^2/4096) in Q60, entries 128 to 143. -/
def tabD8 : List Nat :=
  [0x54a6e7a33e6879, 0x4f80f6246cdf76, 0x4aa1d6d7fead58, 0x460660f944cf73,
   0x41ab84ec34c952, 0x3d8e4c2b512989, 0x39abd927824863, 0x3601671ad66aeb,
   0x328c49cf1c1f5d, 0x2f49ed5944ad95, 0x2c37d5ca76e56e, 0x29539ed7b47e98,
   0x269afb78edafcb, 0x240bb58057ad73, 0x21a3ad2ad3705a, 0x1f60d8aa2a88f2]

/-- D of R129: (2/sqrt(pi)) exp(-j^2/4096) in Q60, entries 144 to 159. -/
def tabD9 : List Nat :=
  [0x1d4143a9dfe965, 0x1b430ecf4a83a8, 0x19646f35a76624, 0x17a3ade6c8b3e5,
   0x15ff2750fe7820, 0x14754abacdf1dc, 0x130499b503957f, 0x11aba78ba3af89,
   0x106918b6355624, 0xf3ba247db35dd, 0xe22095fa5c785, 0xd1b229982a87f,
   0xc25d180252868, 0xb4108003cad02, 0xa6bc5dd4652ff, 0x9a5182840340f]

/-- D of R129: (2/sqrt(pi)) exp(-j^2/4096) in Q60, entries 160 to 175. -/
def tabD10 : List Nat :=
  [0x8ec18b87dfb7e, 0x83feda6d7f52f, 0x79fc8cb67898c, 0x70ae73dfe24f0,
   0x68090d97ddc6f, 0x60017c235bc7c, 0x588d7ef5e90d1, 0x51a36b7d0202b,
   0x4b3a262024914, 0x45491b7692752, 0x3fc839b3769de, 0x3aafea48e4704,
   0x35f90bc1f05c2, 0x319cebd3edf14, 0x2d9541a6b05fd, 0x29dc28537ef98]

/-- D of R129: (2/sqrt(pi)) exp(-j^2/4096) in Q60, entries 176 to 191. -/
def tabD11 : List Nat :=
  [0x266c199a47b67, 0x233fe8cc75d3c, 0x2052bdecb2309, 0x1da01102b5f85,
   0x1b23a5a23e421, 0x18d986a418728, 0x16be02102b352, 0x14cda5374ea27,
   0x130538fbb77ed, 0x1161be46ad3b5, 0xfe06aaa3867b, 0xe7ea52d6f62e,
   0xd3a03420132b, 0xc1045e19a535, 0xaff56d1bcec6, 0xa05460ca4fbb]

/-- D of R129: (2/sqrt(pi)) exp(-j^2/4096) in Q60, entries 192 to 207. -/
def tabD12 : List Nat :=
  [0x920474dd1994, 0x84eafc0ce4f1, 0x78ef3d0da86a, 0x6dfa518111e7,
   0x63f706cb73df, 0x5ad1c0b5f561, 0x52785dc93d35, 0x4ada1d4c43de,
   0x43e786d374db, 0x3d92534ccb69, 0x37cd5776214b, 0x328c6fab75a0,
   0x2dc46cfb84ff, 0x296b0371a2e2, 0x2576b9845cbb, 0x21ded8990942]

/-- D of R129: (2/sqrt(pi)) exp(-j^2/4096) in Q60, entries 208 to 223. -/
def tabD13 : List Nat :=
  [0x1e9b5e8d00ce, 0x1ba4f035d60e, 0x18f4ccca7fc9, 0x1684c227fcad,
   0x144f21e49055, 0x124eb7254cd0, 0x107ebd2a2d28, 0xedad68593c0,
   0xd5f04f48a26, 0xc07a1cda770, 0xad156fd05a6, 0x9b918842e3f,
   0x8bc1e756145, 0x7d7df6211ca, 0x70a0b34e560, 0x650866ff2d2]

/-- D of R129: (2/sqrt(pi)) exp(-j^2/4096) in Q60, entries 224 to 239. -/
def tabD14 : List Nat :=
  [0x5a965c866a5, 0x512ea1919c2, 0x48b7ca60851, 0x411abaaf3f3,
   0x3a4272fd5b3, 0x341be1e18c5, 0x2e95b91e80d, 0x29a04632519,
   0x252d4e1e828, 0x212fec2ade6, 0x1d9c73698fb, 0x1a6852c6b58,
   0x1789fb715ab, 0x14f8c96f26a, 0x12acee2f5ed, 0x109f5cf4dd3]

/-- D of R129: (2/sqrt(pi)) exp(-j^2/4096) in Q60, entries 240 to 255. -/
def tabD15 : List Nat :=
  [0xec9b8f17fc, 0xd2644f0478, 0xbafd46de42, 0xa61be01ca7,
   0x937cefc28d, 0x82e401f242, 0x741ab5bb38, 0x66f027c44b,
   0x5b386a8ff6, 0x50cc0b3128, 0x4787a15eb7, 0x3f4b69e93a,
   0x37faeaab47, 0x317c9f1ed9, 0x2bb9acd3e6, 0x269d9f1478]

/-- D of R129: (2/sqrt(pi)) exp(-j^2/4096) in Q60. -/
def tabD : List Nat :=
  tabD0 ++ tabD1 ++ tabD2 ++ tabD3 ++ tabD4 ++ tabD5 ++ tabD6 ++ tabD7 ++ tabD8 ++ tabD9 ++ tabD10 ++ tabD11 ++ tabD12 ++ tabD13 ++ tabD14 ++ tabD15

end Sys2Proof.Machine
end

