-- ==== Sys2Proof/Machine/ExactFn.lean ====
section
/-! DEFINITION. The exact functions of R126-R131, in Q60 integers with one final rounding. -/

namespace Sys2Proof.Machine

def oneQ : Int := 0x1000000000000000
def ln2Q : Int := 0x0B17217F7D1CF79B
def log2eQ : Int := 0x171547652B82FE17
def c2Q : Int := 0x0800000000000000
def c3Q : Int := 0x02AAAAAAAAAAAAAB
def c4Q : Int := 0x00AAAAAAAAAAAAAB

/-- D7 to D2 and ONE, the coefficients of LOG (R128). -/
def logCoefs : List Int :=
  [0x02AAAAAAAAAAAAAB, 0x0333333333333333, 0x0400000000000000, 0x0555555555555555, 0x0800000000000000, oneQ]

def d7Q : Int := 0x0249249249249249

/-- A6 to A1 and ONE, the coefficients of RSQRT (R128). -/
def rsqrtCoefs : List Int :=
  [0x039C000000000000, 0x03F0000000000000, 0x0460000000000000, 0x0500000000000000, 0x0600000000000000, 0x0800000000000000, oneQ]

def a7Q : Int := 0x035A000000000000

/-- mul60: floor(a b / 2⁶⁰). -/
def mul60 (a b : Int) : Int := a * b / 2 ^ 60

/-- floor(m * 2 ^ e). -/
def floorDy (m e : Int) : Int := if 0 ≤ e then m * 2 ^ e.toNat else m / 2 ^ (-e).toNat

/-- fin: the exact value `m * 2 ^ e` rounded once to a layout. -/
def finRound (l : Flt) (m e : Int) : Nat := fltEncode l (.fin (decide (m < 0)) m.natAbs e)

def tabAt (t : List Nat) (j : Nat) : Int := (t.getD j 0 : Nat)

/-- exp2_core: Q60 significand and exponent of 2 to the power of `xf` in Q32. -/
def exp2Core (xf : Int) : Int × Int :=
  let n := xf / 2 ^ 32
  let f := (xf % 2 ^ 32).toNat
  let j := f / 2 ^ 26
  let u := ((f % 2 ^ 26 : Nat) : Int) * ln2Q / 2 ^ 32
  let h := c3Q + mul60 u c4Q
  let h := c2Q + mul60 u h
  let h := oneQ + mul60 u h
  let q := oneQ + mul60 u h
  (mul60 (tabAt tabT j) q, n)

/-- split: the significand in [2²³, 2²⁴) and the exponent of a magnitude whose significand has at most 24 bits. -/
def splitMag (n : Nat) (e : Int) : Int × Int :=
  let k := flog2 n e
  (floorDy n (e + 23 - k), k)

/-- Horner steps h = c + mul60(z, h), with the sign of the product. -/
def horner (sg z : Int) : Int → List Int → Int
  | h, [] => h
  | h, c :: cs => horner sg z (c + sg * mul60 z h) cs

/-- Signed significand and exponent of a finite number. -/
def vexp2 (l : Flt) (m e : Int) : Nat :=
  if floorDy m e ≥ 128 then fltInf l false
  else if floorDy (-m) e ≥ 152 then 0
  else let r := exp2Core (floorDy m (e + 32)); finRound l r.1 (r.2 - 60)

def vexp (l : Flt) (m e : Int) : Nat :=
  if floorDy m e ≥ 89 then fltInf l false
  else if floorDy (-m) e ≥ 105 then 0
  else let r := exp2Core (floorDy (m * log2eQ) (e - 28)); finRound l r.1 (r.2 - 60)

def vlog (l : Flt) (n : Nat) (e : Int) : Nat :=
  let r := splitMag n e
  let j := (r.1 / 2 ^ 17 % 64).toNat
  let z := r.1 * tabAt tabG j * 2 ^ 21 - oneQ
  let h := horner (-1) z d7Q logCoefs
  finRound l (r.2 * ln2Q + tabL.getD j 0 + mul60 z h) (-60)

/-- Sign of a negative flag. -/
def sgn (neg : Bool) : Int := if neg then -1 else 1

def vrcp (l : Flt) (neg : Bool) (n : Nat) (e : Int) : Nat :=
  let r := splitMag n e
  let j := (r.1 / 2 ^ 17 % 64).toNat
  let z := r.1 * tabAt tabG j * 2 ^ 21 - oneQ
  let h := horner (-1) z oneQ (List.replicate 7 oneQ)
  finRound l (sgn neg * tabAt tabG j * h) (-76 - r.2)

def vrsqrt (l : Flt) (n : Nat) (e : Int) : Nat :=
  let r := splitMag n e
  let odd := r.2 % 2 = 1
  let mm := if odd then 2 * r.1 else r.1
  let k := if odd then r.2 - 1 else r.2
  let j := ((mm - 2 ^ 23) / 2 ^ 18).toNat
  let z := mm * tabAt tabS j * tabAt tabS j * 2 ^ 5 - oneQ
  let h := horner (-1) z a7Q rsqrtCoefs
  finRound l (tabAt tabS j * h) (-76 - k / 2)

def vtanh (l : Flt) (neg : Bool) (n : Nat) (e : Int) : Nat :=
  if floorDy n (e + 12) < 1 then fltEncode l (.fin neg n e)
  else if floorDy n e ≥ 16 then finRound l (sgn neg) 0
  else
    let r := exp2Core (floorDy (-2 * n * log2eQ) (e - 28))
    let x := r.1 / 2 ^ (-r.2).toNat
    finRound l (sgn neg * ((oneQ - x) * oneQ / (oneQ + x))) (-60)

/-- `n * 2 ^ e > k` for a natural `k`. -/
def magAbove (n : Nat) (e : Int) (k : Int) : Bool := decide (floorDy n e > k) || (decide (floorDy n e = k) && decide (floorDy (-(n : Int)) e < -k))

def vsigmoid (l : Flt) (neg : Bool) (n : Nat) (e : Int) : Nat :=
  if !neg && magAbove n e 32 then finRound l 1 0
  else if neg && magAbove n e 104 then 0
  else
    let r := exp2Core (floorDy (-(n : Int) * log2eQ) (e - 28))
    let d := 2 ^ (60 - r.2).toNat + r.1
    if !neg then finRound l (2 ^ (120 - r.2).toNat / d) (-60)
    else finRound l (r.1 * 2 ^ (120 - r.2).toNat / d) (r.2 - 120)

def erfP2 (j : Int) : Int := -j * 2 ^ 54
def erfP3 (j : Int) : Int := (2 * j * j - 4096) * 2 ^ 48 / 3
def erfP4 (j : Int) : Int := (12288 * j - 2 * j * j * j) * 2 ^ 42 / 6
def erfP5 (j : Int) : Int := (4 * j * j * j * j - 49152 * j * j + 50331648) * 2 ^ 36 / 30

def verf (l : Flt) (neg : Bool) (n : Nat) (e : Int) : Nat :=
  if floorDy n e ≥ 4 then finRound l (sgn neg) 0
  else if floorDy n (e + 16) < 1 then finRound l (sgn neg * n * tabAt tabD 0) (e - 60)
  else
    let j := floorDy n (e + 6)
    let h := floorDy n (e + 60) - j * 2 ^ 54
    let s := mul60 h (horner 1 h (erfP5 j) [erfP4 j, erfP3 j, erfP2 j, oneQ])
    finRound l (sgn neg * (tabAt tabE j.toNat + mul60 (tabAt tabD j.toNat) s)) (-60)

/-- 1 in a layout. -/
def fltOne (l : Flt) : Nat := finRound l 1 0

/-- Function FN on a number, in the destination layout (R126, R127, R130). -/
def exactFn (fn : Nat) (l : Flt) (x : Num) : Nat :=
  let s : Int → Bool → Nat := fun m neg => finRound l (sgn neg * m) 0
  match x with
  | .nan => fltNan l
  | .inf neg => match fn with
    | 0 | 1 => if neg then 0 else fltInf l false
    | 2 => if neg then fltNan l else fltInf l false
    | 3 => fltSign l neg
    | 4 => if neg then fltNan l else 0
    | 6 => if neg then 0 else fltOne l
    | _ => s 1 neg
  | .fin neg n e =>
    if n = 0 then match fn with
      | 0 | 1 => fltOne l
      | 2 => fltInf l true
      | 3 | 4 => fltInf l neg
      | 6 => finRound l 1 (-1)
      | _ => fltSign l neg
    else
      let m : Int := if neg then -(n : Int) else n
      match fn with
      | 0 => vexp l m e
      | 1 => vexp2 l m e
      | 2 => if neg then fltNan l else vlog l n e
      | 3 => vrcp l neg n e
      | 4 => if neg then fltNan l else vrsqrt l n e
      | 5 => vtanh l neg n e
      | 6 => vsigmoid l neg n e
      | _ => verf l neg n e

end Sys2Proof.Machine
end

