-- ==== Sys2Proof/Machine/VecOps.lean ====
section
/-! DEFINITION. Lane arithmetic of the vector engine: IEEE operations, compares, conversions, anchors, ranking, sampling, the counter
generator and dispatch (R110-R115, R122, R125, R132-R138). -/

namespace Sys2Proof.Machine

/-- Layout of a floating TY (R110). -/
def tyFlt (ty : Nat) : Flt := if ty = 1 then fltBF16 else if ty = 2 then fltFP16 else fltFP32

/-- The value of a lane read in a floating TY; a 16-bit type ignores the upper half. -/
def laneNum (ty : Nat) (v : BitVec 32) : Num :=
  fltDecode (tyFlt ty) (if ty = 0 then v.toNat else v.toNat % 2 ^ 16)

def lane (n : Nat) : BitVec 32 := BitVec.ofNat 32 n

/-! ### IEEE arithmetic (R111) -/

/-- Exact sum with the sign rule of a zero sum. -/
def numAdd : Num → Num → Num
  | .fin na a qa, .fin nb b qb =>
    let q := min qa qb
    let x : Int := (if na then -1 else 1) * (a * 2 ^ (qa - q).toNat : Nat)
    let y : Int := (if nb then -1 else 1) * (b * 2 ^ (qb - q).toNat : Nat)
    if x + y = 0 then .fin (na && nb) 0 q else .fin (decide (x + y < 0)) (x + y).natAbs q
  | .inf a, .inf b => if a == b then .inf a else .nan
  | .inf a, .fin .. => .inf a
  | .fin .., .inf b => .inf b
  | _, _ => .nan

/-- Exact product. -/
def numMul : Num → Num → Num
  | .fin na a qa, .fin nb b qb => .fin (na != nb) (a * b) (qa + qb)
  | .inf na, .fin nb b _ => if b = 0 then .nan else .inf (na != nb)
  | .fin na a _, .inf nb => if a = 0 then .nan else .inf (na != nb)
  | .inf na, .inf nb => .inf (na != nb)
  | _, _ => .nan

/-- Negation of a number. -/
def numNegate : Num → Num
  | .fin b n q => .fin (!b) n q
  | .inf b => .inf (!b)
  | .nan => .nan

/-- Magnitude of a number. -/
def numAbs : Num → Num
  | .fin _ n q => .fin false n q
  | .inf _ => .inf false
  | .nan => .nan

/-- Numeric order of two numbers that are no NaN; zeros are equal. -/
def numLt : Num → Num → Bool
  | .fin na a qa, .fin nb b qb =>
    let q := min qa qb
    let x : Int := (if na then -1 else 1) * (a * 2 ^ (qa - q).toNat : Nat)
    let y : Int := (if nb then -1 else 1) * (b * 2 ^ (qb - q).toNat : Nat)
    decide (x < y)
  | .inf a, .inf b => a && !b
  | .inf a, .fin .. => a
  | .fin .., .inf b => !b
  | _, _ => false

/-- Whether a number is a NaN. -/
def isNan : Num → Bool
  | .nan => true
  | _ => false

/-- The sign bit of a number. -/
def signOf : Num → Bool
  | .fin b _ _ => b
  | .inf b => b
  | .nan => false

/-- Order that puts -0 below +0 (R111, R125). -/
def numBelow (a b : Num) : Bool := numLt a b || (!numLt b a && signOf a && !signOf b)

/-- MIN and MAX of R111. -/
def numMin (a b : Num) : Num := if isNan a || isNan b then .nan else if numBelow b a then b else a

def numMax (a b : Num) : Num := if isNan a || isNan b then .nan else if numBelow a b then b else a

/-- A floating VOP on one vector lane (R114). -/
def floatOp (op ty : Nat) (a b c : BitVec 32) : BitVec 32 :=
  let x := laneNum ty a
  let y := laneNum ty b
  let r := match op with
    | 0 => numAdd x y
    | 1 => numAdd x (numNegate y)
    | 2 => numMul x y
    | 3 => numAdd (numMul x y) (laneNum ty c)
    | 4 => numMin x y
    | 5 => numMax x y
    | 6 => numAbs x
    | _ => numNegate x
  lane (fltEncode (tyFlt ty) r)

/-- An integer VOP on one vector lane (R114). -/
def intOp (op : Nat) (a b : BitVec 32) : BitVec 32 :=
  let sh := b.toNat % 32
  match op with
  | 16 => a + b
  | 17 => a - b
  | 18 => a * b
  | 19 => lane (a.toNat * b.toNat / 2 ^ 32)
  | 20 => a &&& b
  | 21 => a ||| b
  | 22 => a ^^^ b
  | 23 => a <<< sh
  | 24 => a >>> sh
  | 25 => a.rotateLeft sh
  | 26 => if a.toNat ≤ b.toNat then a else b
  | 27 => if a.toNat ≤ b.toNat then b else a
  | 28 => if a.toInt ≤ b.toInt then a else b
  | _ => if a.toInt ≤ b.toInt then b else a

/-- OP is listed in R114. -/
def opListed (op : Nat) : Bool := decide (op ≤ 7) || (decide (16 ≤ op) && decide (op ≤ 29))

/-- One vector lane of VOP. -/
def vopLane (op ty : Nat) (a b c : BitVec 32) : BitVec 32 := if op ≤ 7 then floatOp op ty a b c else intOp op a b

/-- One vector lane of VCMP (R115). -/
def cmpLane (cmp ty : Nat) (a b : BitVec 32) : Bool :=
  let r : Bool × Bool × Bool :=        -- less, equal, unordered
    if ty = 3 then (decide (a.toNat < b.toNat), a == b, false)
    else
      let x := laneNum ty a
      let y := laneNum ty b
      let u := isNan x || isNan y
      (numLt x y, !u && !numLt x y && !numLt y x, u)
  match cmp with
  | 0 => r.2.1
  | 1 => !r.2.1
  | 2 => r.1
  | 3 => r.1 || r.2.1
  | 4 => !r.1 && !r.2.1 && !r.2.2
  | 5 => !r.1 && !r.2.2
  | _ => r.2.2

/-- A number rounded to an integer, ties to even, saturated to `[lo, hi]`; NaN gives 0 (R115, R120). -/
def numToInt (lo hi : Int) : Num → Int
  | .nan => 0
  | .inf neg => if neg then lo else hi
  | .fin neg n e => intRound neg n e 0 lo hi

/-- One vector lane of VCVT (R115): 0 FP32, 1 BF16, 2 FP16, 3 U32, 4 I32. -/
def cvtLane (ti tt : Nat) (a : BitVec 32) : BitVec 32 :=
  let hi : Int := if tt = 3 then 2 ^ 32 - 1 else 2 ^ 31 - 1
  let lo : Int := if tt = 3 then 0 else -(2 ^ 31)
  if ti ≤ 2 then
    (if tt ≤ 2 then lane (fltEncode (tyFlt tt) (laneNum ti a)) else BitVec.ofInt 32 (numToInt lo hi (laneNum ti a)))
  else
    let v : Int := if ti = 3 then a.toNat else a.toInt
    if tt ≤ 2 then lane (fltEncode (tyFlt tt) (intNum v 0)) else BitVec.ofInt 32 (max lo (min hi v))

/-- Anchor byte of one value (R91, R122). -/
def numAnchor : Num → Nat
  | .fin _ n e => if n = 0 then 0 else expByte n e
  | _ => 0

/-! ### Ranking (R132, R133) -/

/-- A candidate: value bits and id. -/
abbrev Cand := BitVec 32 × BitVec 32

/-- Class of a candidate: 0 NUMBER, 1 NAN, 2 EMPTY. -/
def candClass (c : Cand) : Nat := if c.2 = 0xFFFFFFFF then 2 else if isNan (fltDecode fltFP32 c.1.toNat) then 1 else 0

/-- The candidate ranks before the other (R132). -/
def ranksBefore (a b : Cand) : Bool :=
  let ka := candClass a
  let kb := candClass b
  if ka != kb then decide (ka < kb)
  else
    let x := fltDecode fltFP32 a.1.toNat
    let y := fltDecode fltFP32 b.1.toNat
    if ka == 0 && numLt y x then true
    else if ka == 0 && numLt x y then false
    else if a.2 != b.2 then decide (a.2.toNat < b.2.toNat)
    else decide (a.1.toNat < b.1.toNat)

/-- Insert a candidate in rank order, once (R133). -/
def candInsert (c : Cand) : List Cand → List Cand
  | [] => [c]
  | d :: ds => if c = d then d :: ds else if ranksBefore c d then c :: d :: ds else d :: candInsert c ds

/-- The empty entry. -/
def emptyCand : Cand := (0x7FC00000, 0xFFFFFFFF)

/-- The first `k` of a set of candidates in rank order, filled to 256 with empty entries (R133). -/
def topK (k : Nat) (cs : List Cand) : List Cand :=
  let r := (cs.foldr candInsert []).take k
  r ++ List.replicate (256 - r.length) emptyCand

/-! ### Sampling (R134) -/

/-- FP32 infinity words. -/
def pInf32 : BitVec 32 := 0x7F800000
def nInf32 : BitVec 32 := 0xFF800000

/-- floor(v 2¹²⁶) of an FP32 result, clamped to 2¹²⁶. -/
def weight126 : Num → Nat
  | .fin neg n e => if neg then 0 else min (floorDy n (e + 126)).toNat (2 ^ 126)
  | .inf neg => if neg then 0 else 2 ^ 126
  | .nan => 0

/-- Weights of the leading NUMBER entries (R134). -/
def sampleWeights (vals : List (BitVec 32)) : List Nat :=
  let m := vals.headD 0
  if m = pInf32 then vals.map fun v => if v = pInf32 then 2 ^ 126 else 0
  else if m = nInf32 then vals.map fun _ => 2 ^ 126
  else vals.map fun v =>
    weight126 (fltDecode fltFP32 (exactFn 0 fltFP32 (fltDecode fltFP32 (floatOp 1 0 v m 0).toNat)))

/-- Number of leading entries whose weight sum first reaches `ok`, counted from `i` with `acc` so far. -/
def prefixWhere (ok : Nat → Bool) : List Nat → Nat → Nat → Nat
  | [], i, _ => i
  | w :: ws, i, acc => if ok (acc + w) then i + 1 else prefixWhere ok ws (i + 1) (acc + w)

/-- A weight sum reaches p times s, exactly. -/
def reaches (p : Num) (s acc : Nat) : Bool :=
  match p with
  | .fin neg n e => neg || (if 0 ≤ e then decide (n * 2 ^ e.toNat * s ≤ acc) else decide (n * s ≤ acc * 2 ^ (-e).toNat))
  | _ => true

/-- VSAMP: token, index and count (R134). -/
def vsamp (list : List Cand) (k : Nat) (p : BitVec 32) (u : Nat) : BitVec 32 × BitVec 32 × BitVec 32 :=
  let lead := (list.take k).takeWhile fun c => candClass c == 0
  let n := lead.length
  if n = 0 then (0xFFFFFFFF, 0xFFFFFFFF, 0)
  else
    let wt := sampleWeights (lead.map Prod.fst)
    let s := wt.foldl (· + ·) 0
    let pn := fltDecode fltFP32 p.toNat
    let one : Num := .fin false 1 0
    let c := if isNan pn || !numLt pn one then n
      else if !numLt (.fin false 0 0) pn then 1
      else prefixWhere (reaches pn s) wt 0 0
    let sc := (wt.take c).foldl (· + ·) 0
    let target := u * sc / 2 ^ 24
    let i := prefixWhere (fun acc => decide (acc > target)) (wt.take c) 0 0 - 1
    ((lead.getD i emptyCand).2, lane i, lane c)

/-! ### The counter generator (R135) -/

def kcgF (v kr : BitVec 32) : BitVec 32 :=
  let t := v + kr
  let t := t + t.rotateLeft 8
  t ^^^ t.rotateLeft 20

/-- Rounds from `r` on. -/
def kcgRounds (k : List (BitVec 32)) : Nat → Nat → BitVec 32 × BitVec 32 → BitVec 32 × BitVec 32
  | 0, _, lh => lh
  | n + 1, r, lh =>
    let kr := k.getD (r % 4) 0 + lane (r * 0x9E3779B9)
    kcgRounds k n (r + 1) (lh.2, lh.1 ^^^ kcgF lh.2 kr)

/-- Words 0 and 1 for a seed, identity words, token index and stream (R135). -/
def kcg (s0 s1 s2 s3 ridLo ridHi tok stream : BitVec 32) : BitVec 32 × BitVec 32 :=
  kcgRounds [s0 ^^^ ridLo, s1 ^^^ ridHi, s2, s3] 6 0 (tok, stream)

/-! ### Dispatch (R138) -/

/-- What dispatch has done so far: slots in order, fill counts, choices dropped. -/
structure Disp where
  slots : List (BitVec 32)
  fill : List Nat
  dropped : Nat

/-- Choices of one token, `done` being those of lower rank. -/
def dispRanks (base cap : List Nat) : List Nat → List Nat → Disp → Disp
  | [], _, d => d
  | e :: es, done, d =>
    let d' :=
      if e ≥ 256 ∨ e ∈ done then { d with slots := d.slots ++ [0xFFFFFFFF] }
      else if d.fill.getD e 0 < cap.getD e 0 then
        { d with slots := d.slots ++ [lane (base.getD e 0 + d.fill.getD e 0)], fill := d.fill.set e (d.fill.getD e 0 + 1) }
      else { d with slots := d.slots ++ [0xFFFFFFFF], dropped := d.dropped + 1 }
    dispRanks base cap es (done ++ [e]) d'

/-- Tokens in order, `nc` choices each. -/
def dispTokens (base cap : List Nat) (nc : Nat) : Nat → List Nat → Disp → Disp
  | 0, _, d => d
  | n + 1, ch, d => dispTokens base cap nc n (ch.drop nc) (dispRanks base cap (ch.take nc) [] d)

/-- Prefix sums from `acc`. -/
def prefixSums : List Nat → Nat → List Nat
  | [], _ => []
  | c :: cs, acc => acc :: prefixSums cs (acc + c)

/-- VDISP on its registers: slots and fill counts of 256 lanes, and the choices dropped. -/
def vdisp (choice cap0 : List (BitVec 32)) (nc nt : Nat) (fill : List Nat) : Disp :=
  let cap := cap0.map fun c => min c.toNat 65535
  let d := dispTokens (prefixSums cap 0) cap nc nt (choice.map (·.toNat)) { slots := [], fill, dropped := 0 }
  { d with slots := d.slots ++ List.replicate (256 - d.slots.length) 0xFFFFFFFF }

end Sys2Proof.Machine
end

