-- ==== Sys2Proof/Machine/Vector.lean ====
section
/-! DEFINITION. The vector engine: its thirty commands (R109-R125, R133, R134, R137-R139). -/

namespace Sys2Proof.Machine

def getVector (s : State) (k : Nat) : VectorSt := tget {} s.vector k

def setVector (s : State) (k : Nat) (v : VectorSt) : State := { s with vector := tset {} s.vector k v }

/-! ### Registers, masks and wells through their contracts (R53, R118) -/

/-- A register that nothing has written in the step. -/
def zeroReg : List (BitVec 32) := List.replicate 256 0

/-- Lanes written over lanes held. -/
def laneApply : List (BitVec 32) → List (Option (BitVec 32)) → List (BitVec 32)
  | [], _ => []
  | l, [] => l
  | a :: as, o :: os => o.getD a :: laneApply as os

/-- Register `r` as a read at stroke `t` sees it. -/
def vreg (v : VectorSt) (t r : Nat) : List (BitVec 32) :=
  v.rlog.foldl (fun ls w => if w.reg = r ∧ w.stroke + w.lat ≤ t then laneApply ls w.lanes else ls) (tget zeroReg v.regs r)

/-- Mask `k` as a read at stroke `t` sees it; K0 reads all ones (R109). -/
def vmask (v : VectorSt) (t k : Nat) : BitVec 256 :=
  if k = 0 then BitVec.ofNat 256 (2 ^ 256 - 1)
  else v.mlog.foldl (fun m w => if w.k = k ∧ w.stroke + w.lat ≤ t then w.bits else m) (tget 0 v.masks k)

/-- A well event takes effect. -/
def vwellApply (w : Well) : VWellOp → Well
  | .clear c f => { w := 0, c, flags := f, count := 0 }
  | .add t f n =>
    { w with w := addW w.w t.toInt, flags := w.flags ||| f ||| countFlags (w.count.toNat + n.toNat), count := addCount w.count n.toNat }

/-- Strokes after which an event of a vector well is seen: 4 for a VWANC, 6 for a reduction (R118). -/
def vwellLat : VWellOp → Nat
  | .clear .. => 4
  | .add .. => 6

/-- The well that a read at stroke `t` sees. -/
def vwell (v : VectorSt) (t i : Nat) : Well :=
  v.wlog.foldl (fun w e => if e.idx = i ∧ e.stroke + vwellLat e.op ≤ t then vwellApply w e.op else w) (tget {} v.wells i)

/-- The ceiling that a term written at stroke `t` is formed against (R118). -/
def vceil (v : VectorSt) (t i : Nat) : BitVec 16 :=
  v.wlog.foldl (fun c e => match e.op with
    | .clear c' _ => if e.idx = i ∧ e.stroke + 4 ≤ t then c' else c
    | .add .. => c) (tget {} v.wells i).c

/-- Terms that have reached a well so far, seen or not. -/
def vcountAll (v : VectorSt) (i : Nat) : Nat :=
  (v.wlog.foldl (fun w e => if e.idx = i then vwellApply w e.op else w) (tget {} v.wells i)).count.toNat

/-- The longest run of writes, oldest first, that every later read sees goes to the registers. -/
def settleLanes (regs : Tbl (List (BitVec 32))) (t : Nat) : List LaneWrite → Tbl (List (BitVec 32)) × List LaneWrite
  | [] => (regs, [])
  | w :: ws =>
    if w.stroke + w.lat ≤ t then settleLanes (tmod zeroReg regs w.reg fun ls => laneApply ls w.lanes) t ws else (regs, w :: ws)

/-- The same for masks. -/
def settleMasks (ms : Tbl (BitVec 256)) (t : Nat) : List MaskWrite → Tbl (BitVec 256) × List MaskWrite
  | [] => (ms, [])
  | w :: ws => if w.stroke + w.lat ≤ t then settleMasks (tset 0 ms w.k w.bits) t ws else (ms, w :: ws)

/-- The same for wells. -/
def settleVWells (wt : Tbl Well) (t : Nat) : List VWellWrite → Tbl Well × List VWellWrite
  | [] => (wt, [])
  | w :: ws =>
    if w.stroke + vwellLat w.op ≤ t then settleVWells (tmod {} wt w.idx fun x => vwellApply x w.op) t ws else (wt, w :: ws)

/-- The engine at the issue of a command: old writes settled. -/
def beginVector (s : State) (c k t : Nat) : State :=
  let v := getVector s k
  let r := settleLanes v.regs t v.rlog
  let m := settleMasks v.masks t v.mlog
  let w := settleVWells v.wells t v.wlog
  let b := settleSlab s c t v.slog
  setVector b.1 k { regs := r.1, rlog := r.2, masks := m.1, mlog := m.2, wells := w.1, wlog := w.2, slog := b.2 }

/-! ### Writing -/

/-- Contracts of the two kinds of register write. -/
def latElem : Nat := 4
def latExact : Nat := 9

/-- Registers written at stroke `w`. -/
def putRegs (s : State) (k lat w : Nat) (rs : List (Nat × List (Option (BitVec 32)))) : State :=
  let v := getVector s k
  setVector s k { v with rlog := v.rlog ++ rs.map fun r => { stroke := w, lat, reg := r.1, lanes := r.2 } }

/-- Two results of one command, every lane written: where both name one register its lanes are free values (R133, R138; log 16). -/
def twoResults (a b : Nat) (la lb : List (BitVec 32)) : List (Nat × List (Option (BitVec 32))) :=
  if a = b then [(a, (List.zipWith Config.bothResults la lb).map some)]
  else [(a, la.map some), (b, lb.map some)]

/-- Every lane written. -/
def allLanes (ls : List (BitVec 32)) : List (Option (BitVec 32)) := ls.map some

/-- Lanes written where a mask bit is 1 (R112). -/
def masked (m : BitVec 256) (ls : List (BitVec 32)) : List (Option (BitVec 32)) :=
  ls.zipIdx.map fun e => if m.getLsbD e.2 then some e.1 else none

/-- A mask register written at stroke `w`. -/
def putMask (s : State) (k w kd : Nat) (bits : BitVec 256) : State :=
  let v := getVector s k
  setVector s k { v with mlog := v.mlog ++ [{ stroke := w, lat := latElem, k := kd, bits }] }

/-- Bits of a list of truth values. -/
def maskOf (bs : List Bool) : BitVec 256 := BitVec.ofNat 256 (packNat 1 (bs.map b2n))

/-- A plan of one stroke on registers only: check 1 and check 6 verdicts, and the effect at the issue stroke. -/
def regPlan (c j : Nat) (strokes : Nat) (illegal bad : Bool) (eff : Nat → State → Nat → VectorSt → State) : Plan :=
  if illegal then illegalPlan
  else
    { cause := if bad then some 7 else none, strokes
      effect := fun t _ s =>
        let k := tileKey c j
        let s1 := beginVector s c k t
        (eff t s1 k (getVector s1 k), []) }

/-! ### Element-wise commands -/

def vopWord (op ty vd va vb vc km : Nat) : CmdWord := mkWord [(8, 0x20), (6, op), (2, ty), (6, vd), (6, va), (6, vb), (6, vc), (3, km)]

/-- VOP (R114): fields an operation does not use must be 0. -/
def planVop (c j op ty vd va vb vc km : Nat) : Plan :=
  let unary := op == 6 || op == 7
  regPlan c j 1 (!opListed op || (unary && vb != 0) || (op != 3 && vc != 0)) (if op ≤ 7 then ty == 3 else ty != 3) fun t s k v =>
    let ls := List.zipWith (fun a bc => vopLane op ty a bc.1 bc.2) (vreg v t va) (List.zip (vreg v t vb) (vreg v t vc))
    putRegs s k latElem t [(vd, masked (vmask v t km) ls)]

def vfnWord (fn ti tt vd va km : Nat) : CmdWord := mkWord [(8, 0x21), (3, fn), (2, ti), (2, tt), (6, vd), (6, va), (3, km)]

/-- VFN (R126). -/
def planVfn (c j fn ti tt vd va km : Nat) : Plan :=
  regPlan c j 1 false (ti == 3 || tt == 3) fun t s k v =>
    let ls := (vreg v t va).map fun a => lane (exactFn fn (tyFlt tt) (laneNum ti a))
    putRegs s k latExact t [(vd, masked (vmask v t km) ls)]

def vcmpWord (cmp ty kd va vb km : Nat) : CmdWord := mkWord [(8, 0x22), (3, cmp), (2, ty), (3, kd), (6, va), (6, vb), (3, km)]

/-- VCMP (R115): an inactive vector lane writes 0. -/
def planVcmp (c j cmp ty kd va vb km : Nat) : Plan :=
  regPlan c j 1 (cmp == 7) (kd == 0) fun t s k v =>
    let bs := List.zipWith (cmpLane cmp ty) (vreg v t va) (vreg v t vb)
    putMask s k t kd (maskOf bs &&& vmask v t km)

def vselWord (vd va vb ks : Nat) : CmdWord := mkWord [(8, 0x23), (6, vd), (6, va), (6, vb), (3, ks)]

/-- VSEL (R115). -/
def planVsel (c j vd va vb ks : Nat) : Plan :=
  regPlan c j 1 false false fun t s k v =>
    let m := vmask v t ks
    let ls := (List.zip (vreg v t va) (vreg v t vb)).zipIdx.map fun e => if m.getLsbD e.2 then e.1.1 else e.1.2
    putRegs s k latElem t [(vd, allLanes ls)]

def vkopWord (kop kd ka kb : Nat) : CmdWord := mkWord [(8, 0x24), (2, kop), (3, kd), (3, ka), (3, kb)]

/-- A mask operation (R115): AND, OR, XOR, ANDN. -/
def maskOp (kop : Nat) (a b : BitVec 256) : BitVec 256 :=
  match kop with | 0 => a &&& b | 1 => a ||| b | 2 => a ^^^ b | _ => a &&& ~~~b

/-- VKOP. -/
def planVkop (c j kop kd ka kb : Nat) : Plan :=
  regPlan c j 1 false (kd == 0) fun t s k v => putMask s k t kd (maskOp kop (vmask v t ka) (vmask v t kb))

def vimmWord (vd imm km : Nat) : CmdWord := mkWord [(8, 0x25), (6, vd), (32, imm), (3, km)]

/-- VIMM. -/
def planVimm (c j vd imm km : Nat) : Plan :=
  regPlan c j 1 false false fun t s k v => putRegs s k latElem t [(vd, masked (vmask v t km) (List.replicate 256 (lane imm)))]

def viotaWord (vd base : Nat) : CmdWord := mkWord [(8, 0x26), (6, vd), (32, base)]

/-- VIOTA. -/
def planViota (c j vd base : Nat) : Plan :=
  regPlan c j 1 false false fun t s k _ => putRegs s k latElem t [(vd, allLanes ((List.range 256).map fun i => lane (base + i)))]

def vcvtWord (ti tt vd va km : Nat) : CmdWord := mkWord [(8, 0x27), (3, ti), (3, tt), (6, vd), (6, va), (3, km)]

/-- VCVT. -/
def planVcvt (c j ti tt vd va km : Nat) : Plan :=
  regPlan c j 1 (decide (ti ≥ 5) || decide (tt ≥ 5)) false fun t s k v =>
    putRegs s k latElem t [(vd, masked (vmask v t km) ((vreg v t va).map (cvtLane ti tt)))]

/-! ### Loads and stores (R119) -/

/-- Bytes of a vector lane in a TY. -/
def tyBytes (ty : Nat) : Nat := if ty = 1 ∨ ty = 2 then 2 else 4

/-- Strokes of VLD and VST. -/
def vldStrokes (ty : Nat) : Nat := if tyBytes ty = 4 then 2 else 1

/-- A plan that reads `drops` drops at a location and then acts on the bytes. -/
def loadPlan (s : State) (c j strokes drops : Nat) (src : BitVec 17) (illegal bad : Bool)
    (eff : Nat → Bytes → State → Nat → VectorSt → State) : Plan :=
  let loc := locRef src
  if illegal || locBad src then illegalPlan
  else
    { cause := checkCause s c j { inPorts := (srcPorts loc drops).map Prod.fst, ranges := locRange c j loc drops false, bad } true
      strokes, demand := onInputs s c j (srcPorts loc drops), inAt := fun _ d => d * strokes / drops
      effect := fun t got s =>
        let k := tileKey c j
        let s1 := beginVector s c k t
        let v := getVector s1 k
        (eff t ((operand s1 c j v.slog loc got).1 t 0 (64 * drops)) s1 k v, []) }

/-- A plan that writes `drops` drops at a location: `eff` gives the pieces and the state. -/
def storePlan (s : State) (c j strokes drops : Nat) (dst : BitVec 17) (illegal bad : Bool)
    (eff : Nat → State → Nat → VectorSt → List OutPiece × State) : Plan :=
  let loc := locRef dst
  if illegal || locBad dst then illegalPlan
  else
    { cause := checkCause s c j { outPorts := (srcPorts loc drops).map Prod.fst, ranges := locRange c j loc drops true, bad } true
      strokes, nulls := onOutputs s c j (srcPorts loc drops)
      effect := fun t _ s =>
        let k := tileKey c j
        let s1 := beginVector s c k t
        let r := eff t s1 k (getVector s1 k)
        let e := emit r.2 c j loc r.1
        let v2 := getVector r.2 k
        (setVector r.2 k { v2 with slog := v2.slog ++ e.1 }, e.2) }

/-- A plan whose drops, in or out, move at strokes of their own. -/
def atStrokes (f : Nat → Nat) (p : Plan) : Plan := { p with inAt := fun _ d => f d, outAt := f }

def vldWord (vd ty src : Nat) : CmdWord := mkWord [(8, 0x30), (6, vd), (2, ty), (17, src)]

/-- Lanes of a run of bytes, `n` bytes a lane. -/
def lanesOf (n count : Nat) (bs : Bytes) : List (BitVec 32) := (unpackNat (8 * n) count (leNat bs)).map lane

/-- VLD. -/
def planVld (s : State) (c j vd ty : Nat) (src : BitVec 17) : Plan :=
  loadPlan s c j (vldStrokes ty) (4 * tyBytes ty) src false false fun t bs s k _ =>
    putRegs s k latElem (t + vldStrokes ty - 1) [(vd, allLanes (lanesOf (tyBytes ty) 256 bs))]

def vstWord (va ty dst km : Nat) : CmdWord := mkWord [(8, 0x31), (6, va), (2, ty), (17, dst), (3, km)]

/-- VST: to a slab only active lanes are stored; to a channel inactive lanes are 0 (R112). -/
def planVst (s : State) (c j va ty : Nat) (dst : BitVec 17) (km : Nat) : Plan :=
  storePlan s c j (vldStrokes ty) (4 * tyBytes ty) dst false false fun t s _ v =>
    let n := tyBytes ty
    let e := t + vldStrokes ty - 1
    let m := vmask v t km
    let ls := vreg v t va
    let whole := m == vmask v t 0
    match locRef dst with
    | .slab _ =>
      if whole then ([{ stroke := e, off := 0, bytes := ls.flatMap (bytesOf n) }], s)
      else ((ls.zipIdx.filter fun l => m.getLsbD l.2).map fun l => { stroke := e, off := n * l.2, bytes := bytesOf n l.1 }, s)
    | _ =>
      ([{ stroke := e, off := 0, bytes := ls.zipIdx.flatMap fun l => if m.getLsbD l.2 then bytesOf n l.1 else natLe n 0 }], s)

def vldxWord (vd vx base limit : Nat) : CmdWord := mkWord [(8, 0x32), (6, vd), (6, vx), (17, base), (16, limit)]

def vstxWord (va vx base limit : Nat) : CmdWord := mkWord [(8, 0x33), (6, va), (6, vx), (17, base), (16, limit)]

/-- The location is a port: not allowed where slabs only are (R116). -/
def locPort (v : BitVec 17) : Bool := match locRef v with | .port _ => true | _ => false

/-- Slab offset of a location in bytes. -/
def locOff (v : BitVec 17) : Nat := match locRef v with | .slab o => o | _ => 0

/-- Names of VLDX and VSTX: the window of LIMIT drops. -/
def indexedNames (c j : Nat) (base : BitVec 17) (limit : Nat) (write : Bool) : Names :=
  let port := match locRef base with | .port p => [p] | _ => []
  { inPorts := if write then [] else port, outPorts := if write then port else [], ranges := locRange c j (locRef base) limit write
    bad := locPort base }

/-- VLDX. -/
def planVldx (s : State) (c j vd vx : Nat) (base : BitVec 17) (limit : Nat) : Plan :=
  if locBad base then illegalPlan
  else
    { cause := checkCause s c j (indexedNames c j base limit false) true, strokes := 2
      effect := fun t _ s =>
        let k := tileKey c j
        let s1 := beginVector s c k t
        let v := getVector s1 k
        let x := vreg v t vx
        let a := slabAddr (tileIx c j) + locOff base
        let ls := (List.range 16).flatMap fun g =>
          let i := (x.getD g 0).toNat
          if i < limit then lanesOf 4 16 (slabRead s1 v.slog t (a + 64 * i) 64) else List.replicate 16 0
        (putRegs s1 k latElem (t + 1) [(vd, allLanes ls)], []) }

/-- VSTX: when two groups name one drop the higher-numbered group's bytes remain. -/
def planVstx (s : State) (c j va vx : Nat) (base : BitVec 17) (limit : Nat) : Plan :=
  if locBad base then illegalPlan
  else
    { cause := checkCause s c j (indexedNames c j base limit true) true, strokes := 2
      effect := fun t _ s =>
        let k := tileKey c j
        let s1 := beginVector s c k t
        let v := getVector s1 k
        let x := vreg v t vx
        let ls := vreg v t va
        let a := slabAddr (tileIx c j) + locOff base
        let ws := ((List.range 16).filter fun g => decide ((x.getD g 0).toNat < limit)).map fun g =>
          ({ stroke := t + 1, addr := a + 64 * (x.getD g 0).toNat
             bytes := ((ls.drop (16 * g)).take 16).flatMap (bytesOf 4) } : SlabWrite)
        (setVector s1 k { v with slog := v.slog ++ ws }, []) }

/-! ### Quantisers (R120, R121) -/

def vldqWord (vd nr kc fmt src : Nat) : CmdWord := mkWord [(8, 0x34), (6, vd), (5, nr), (1, kc), (4, fmt), (17, src)]

def vqntWord (va nr kc fmtO row0 vx dst : Nat) : CmdWord :=
  mkWord [(8, 0x35), (6, va), (5, nr), (1, kc), (4, fmtO), (6, row0), (6, vx), (17, dst)]

/-- K of KC. -/
def kOf (kc : Nat) : Nat := if kc = 0 then 128 else 64

/-- Registers that NR rows of K elements fill. -/
def rowRegs (nr k : Nat) : Nat := (nr * k + 255) / 256

/-- NR out of range, or the rows run past V63 (R117). -/
def quantBad (v nr k : Nat) : Bool := nr == 0 || decide (nr > 16) || decide (v + rowRegs nr k > 64)

/-- Stroke at which a quantiser meets drop `d` of its lines: the scale drop first, then a row a stroke (R120). -/
def quantAt (f k d : Nat) : Nat := if fmtScaled f then (if d = 0 then 0 else 1 + rowOfDrop f k d) else rowOfDrop f k d

/-- VLDQ: decode lines to FP32. -/
def planVldq (s : State) (c j vd nr kc fmt : Nat) (src : BitVec 17) : Plan :=
  let k := kOf kc
  let n := nr + b2n (fmtScaled fmt)
  atStrokes (quantAt fmt k) <| loadPlan s c j n (runDrops fmt k nr) src (decide (fmt ≥ 13)) (quantBad vd nr k || fmt == 12) fun t bs s key _ =>
    let row (i : Nat) : List (BitVec 32) :=
      let sc := if fmtScaled fmt then (slice bs (4 * i) 4).map (·.toNat) else []
      (scaledElems fmt k (slice bs (64 * rowDrop fmt k i) (64 * lineDrops fmt k)) sc).map fun e =>
        match e.1 with
        | .fin neg m q => lane (fltEncode fltFP32 (.fin neg m (q + e.2)))
        | x => lane (fltEncode fltFP32 x)
    let all := (List.range nr).flatMap row
    let regs := (List.range (rowRegs nr k)).map fun r =>
      let l := (all.drop (256 * r)).take 256
      (vd + r, allLanes (l ++ List.replicate (256 - l.length) 0))
    putRegs s key latElem (t + n - 1) regs

/-- A row quantised to an unscaled float or integer format: line and anchor byte. -/
def quantRow (f : Nat) (vals : List Num) : Bytes × Nat :=
  if fmtInt f then
    let hi : Int := if f = 8 then 127 else 7
    (lineBytes (fmtWidth f) (vals.map fun v => (numToInt (-hi - 1) hi v % 2 ^ fmtWidth f).toNat), 0)
  else
    let ws := vals.map (fltEncode (fltOf f))
    (lineBytes (fmtWidth f) ws, floatAnchor (ws.map (fltDecode (fltOf f))))

/-- VQNT: quantise rows and merge their anchor bytes into VX. -/
def planVqnt (s : State) (c j va nr kc fmtO row0 vx : Nat) (dst : BitVec 17) : Plan :=
  let k := kOf kc
  let n := nr + b2n (fmtScaled fmtO)
  atStrokes (quantAt fmtO k) <|
    storePlan s c j n (runDrops fmtO k nr) dst (decide (fmtO ≥ 13)) (quantBad va nr k || decide (row0 + nr > 64) || fmtO == 12)
    fun t s key v =>
      let row (i : Nat) : List Num := (((vreg v t (va + i * k / 256)).drop (i * k % 256)).take k).map (laneNum 0)
      let ps : List OutPiece × List Nat :=
        if fmtScaled fmtO then
          let rs := (List.range nr).map fun i => (i, outScaledRow fmtO (row i))
          (({ stroke := t, off := 0, bytes := scaleDropBytes (rs.map fun r => r.2.1) } : OutPiece)
            :: rs.map fun r => { stroke := t + 1 + r.1, off := 64 * rowDrop fmtO k r.1, bytes := r.2.2.1 }, rs.map fun r => r.2.2.2)
        else
          let rs := (List.range nr).map fun i => (i, quantRow fmtO (row i))
          (rs.map fun r => { stroke := t + r.1, off := 64 * rowDrop fmtO k r.1, bytes := r.2.1 }, rs.map fun r => r.2.2)
      let old := vreg v t vx
      let lanes := List.replicate row0 none ++ ps.2.zipIdx.map fun a => some (lane (max a.1 ((old.getD (row0 + a.2) 0).toNat % 256)))
      (ps.1, putRegs s key latElem (t + n - 1) [(vx, lanes)])

def vldaWord (vd src : Nat) : CmdWord := mkWord [(8, 0x36), (6, vd), (17, src)]

def vstaWord (va dst : Nat) : CmdWord := mkWord [(8, 0x37), (6, va), (17, dst)]

/-- VLDA: an anchor drop to lanes 0 to 63, the rest 0. -/
def planVlda (s : State) (c j vd : Nat) (src : BitVec 17) : Plan :=
  loadPlan s c j 1 1 src false false fun t bs s k _ =>
    putRegs s k latElem t [(vd, allLanes (bs.map (fun b => lane b.toNat) ++ List.replicate 192 0))]

/-- VSTA: bits [7:0] of lanes 0 to 63 as an anchor drop. -/
def planVsta (s : State) (c j va : Nat) (dst : BitVec 17) : Plan :=
  storePlan s c j 1 1 dst false false fun t s _ v =>
    ([{ stroke := t, off := 0, bytes := ((vreg v t va).take 64).map fun l => BitVec.ofNat 8 l.toNat }], s)

/-! ### Wells (R122-R124) -/

def vwancWord (row mode bc vx vy : Nat) : CmdWord := mkWord [(8, 0x40), (3, row), (1, mode), (1, bc), (6, vx), (6, vy)]

/-- VWANC: set the ceilings of a well row and clear it. -/
def planVwanc (c j row mode bc vx vy : Nat) : Plan :=
  regPlan c j 1 false (mode == 0 && vy != 0) fun t s k v =>
    let x := vreg v t vx
    let y := vreg v t vy
    let byte (l : List (BitVec 32)) (i : Nat) : Nat := (l.getD (if bc = 1 then 0 else i) 0).toNat % 256
    let ws := (List.range 256).map fun i =>
      let ax := byte x i
      let ay := byte y i
      let cc : Int := if mode = 0 then (ax : Int) - 127 + 1 else (ax : Int) - 127 + 1 + ((ay : Int) - 127) + 1
      let nan := ax == 0xFF || (mode == 1 && ay == 0xFF)
      ({ stroke := t, idx := 256 * row + i, op := .clear (BitVec.ofInt 16 cc) (if nan then flagNan else 0) } : VWellWrite)
    setVector s k { v with wlog := v.wlog ++ ws }

/-- Terms written at stroke `t`, each to a well by index; a count past 2³¹ or a saturated term is noted (R94, R95). -/
def putTerms (s : State) (k t : Nat) : List (Nat × Int × BitVec 4) → State
  | [] => s
  | (i, w, f) :: ts =>
    let v := getVector s k
    let ovr := vcountAll v i + 1 > 2 ^ 31
    let s1 := setVector s k { v with wlog := v.wlog ++ [{ stroke := t, idx := i, op := .add (BitVec.ofInt 160 w) f 1 }] }
    putTerms (noteSat s1 (ovr || f &&& flagSat != 0)) k t ts

/-- Terms of active lanes with the wells they go to. -/
def laneTerms (v : VectorSt) (t row dir : Nat) (m : BitVec 256) (pairs : List (Num × Num)) : List (Nat × Int × BitVec 4) :=
  (pairs.zipIdx.filter fun e => m.getLsbD e.2).map fun e =>
    let i := 256 * row + if dir = 1 then e.2 else 0
    (i, term e.1.1 0 e.1.2 0 (vceil v t i).toInt)

def vrsumWord (row dir ty va km : Nat) : CmdWord := mkWord [(8, 0x41), (3, row), (1, dir), (2, ty), (6, va), (3, km)]

/-- VRSUM: one term x per active lane. -/
def planVrsum (c j row dir ty va km : Nat) : Plan :=
  regPlan c j 1 false (ty == 3) fun t s k v =>
    putTerms s k t (laneTerms v t row dir (vmask v t km) ((vreg v t va).map fun a => (laneNum ty a, Num.fin false 1 0)))

def vrdotWord (row dir ty va vb km : Nat) : CmdWord := mkWord [(8, 0x42), (3, row), (1, dir), (2, ty), (6, va), (6, vb), (3, km)]

/-- VRDOT: one term a b per active lane. -/
def planVrdot (c j row dir ty va vb km : Nat) : Plan :=
  regPlan c j 1 false (ty == 3) fun t s k v =>
    let ps := List.zipWith (fun a b => (laneNum ty a, laneNum ty b)) (vreg v t va) (vreg v t vb)
    putTerms s k t (laneTerms v t row dir (vmask v t km) ps)

def vwoutWord (vd row ty km : Nat) : CmdWord := mkWord [(8, 0x43), (6, vd), (3, row), (2, ty), (3, km)]

/-- VWOUT: wells written out into active lanes. -/
def planVwout (c j vd row ty km : Nat) : Plan :=
  regPlan c j 1 false (ty == 3) fun t s k v =>
    let ls := (List.range 256).map fun i => lane (fltEncode (tyFlt ty) (wellNum (vwell v t (256 * row + i))))
    putRegs s k latElem t [(vd, masked (vmask v t km) ls)]

def vwexpWord (row dst : Nat) : CmdWord := mkWord [(8, 0x44), (3, row), (17, dst)]

def vwaddWord (row src : Nat) : CmdWord := mkWord [(8, 0x45), (3, row), (17, src)]

/-- VWEXP: the 256 records of a row. -/
def planVwexp (s : State) (c j row : Nat) (dst : BitVec 17) : Plan :=
  let ld := locRef dst
  if locBad dst then illegalPlan
  else
    { cause := checkCause s c j { outPorts := (srcPorts ld 1).map Prod.fst, bad := locSlab dst } true
      strokes := 32, nulls := onOutputs s c j (srcPorts ld 128), outAt := (· / 4)
      effect := fun t _ s =>
        let k := tileKey c j
        let s1 := beginVector s c k t
        let v := getVector s1 k
        let ch := match ld with | .port p => (outChan s1 c j p).getD 0 | _ => 0
        (s1, (recordDrops ((List.range 256).map fun i => vwell v t (256 * row + i))).map fun d => (ch, d)) }

/-- Records are added to the wells of a row at stroke `e` (R124). -/
def vwaddAll (s : State) (k e row : Nat) : List (Well × Nat) → State
  | [] => s
  | (r, n) :: rs =>
    let v := getVector s k
    let i := 256 * row + n
    let mism := r.c != vceil v e i
    let f : BitVec 4 := r.flags ||| if mism then flagNan ||| flagSat else 0
    let ovr := vcountAll v i + r.count.toNat > 2 ^ 31
    let op := VWellOp.add (if mism then 0 else r.w) f r.count
    let s1 := setVector s k { v with wlog := v.wlog ++ [{ stroke := e, idx := i, op }] }
    vwaddAll (noteSat s1 (ovr || f &&& flagSat != 0)) k e row rs

/-- VWADD: 128 drops of records are added. -/
def planVwadd (s : State) (c j row : Nat) (src : BitVec 17) : Plan :=
  let ls := locRef src
  if locBad src then illegalPlan
  else
    { cause := checkCause s c j { inPorts := (srcPorts ls 1).map Prod.fst, bad := locSlab src } true
      strokes := 32, demand := onInputs s c j (srcPorts ls 128), inAt := fun _ d => d / 4
      effect := fun t got s =>
        let k := tileKey c j
        let s1 := beginVector s c k t
        (vwaddAll s1 k (t + 31) row (dropRecords (got.headD [])).zipIdx, []) }

def vanchWord (vd va ty hm mg km : Nat) : CmdWord := mkWord [(8, 0x46), (6, vd), (6, va), (2, ty), (1, hm), (1, mg), (3, km)]

/-- VANCH: anchor bytes of lanes, or their maximum in every lane (R122). -/
def planVanch (c j vd va ty hm mg km : Nat) : Plan :=
  regPlan c j 1 false (ty == 3) fun t s k v =>
    let m := vmask v t km
    let bytes := (vreg v t va).map fun a => numAnchor (laneNum ty a)
    let top := (bytes.zipIdx.filter fun e => m.getLsbD e.2).foldl (fun a e => max a e.1) 0
    let old := vreg v t vd
    let ls := (bytes.zipIdx).map fun e =>
      let b := if hm = 1 then top else e.1
      lane (if mg = 1 then max b ((old.getD e.2 0).toNat % 256) else b)
    putRegs s k latElem t [(vd, if hm = 1 then allLanes ls else masked m ls)]

def vrmaxWord (vd va ty km : Nat) : CmdWord := mkWord [(8, 0x47), (6, vd), (6, va), (2, ty), (3, km)]

/-- The maximum that VRMAX writes (R125). -/
def laneMax (ty : Nat) (active : List Num) : Nat :=
  let nums := active.filter fun x => !isNan x
  match nums with
  | [] => if active.isEmpty then fltInf (tyFlt ty) true else fltNan (tyFlt ty)
  | x :: xs => fltEncode (tyFlt ty) (xs.foldl numMax x)

/-- VRMAX. -/
def planVrmax (c j vd va ty km : Nat) : Plan :=
  regPlan c j 1 false (ty == 3) fun t s k v =>
    let m := vmask v t km
    let act := ((vreg v t va).zipIdx.filter fun e => m.getLsbD e.2).map fun e => laneNum ty e.1
    putRegs s k latElem t [(vd, allLanes (List.replicate 256 (lane (laneMax ty act))))]

/-! ### Sampling, generator, dispatch -/

def vtopkWord (lv li va vi k init km : Nat) : CmdWord :=
  mkWord [(8, 0x50), (6, lv), (6, li), (6, va), (6, vi), (9, k), (1, init), (3, km)]

/-- VTOPK (R133). -/
def planVtopk (c j lv li va vi kk init km : Nat) : Plan :=
  regPlan c j 8 false (kk == 0 || decide (kk > 256)) fun t s k v =>
    let m := vmask v t km
    let new := ((List.zip (vreg v t va) (vreg v t vi)).zipIdx.filter fun e => m.getLsbD e.2).map Prod.fst
    let old := if init = 1 then [] else (List.zip (vreg v t lv) (vreg v t li)).take kk
    let r := topK kk (old ++ new)
    putRegs s k latExact (t + 7) (twoResults lv li (r.map Prod.fst) (r.map Prod.snd))

def vsampWord (vd lv li vp k : Nat) : CmdWord := mkWord [(8, 0x51), (6, vd), (6, lv), (6, li), (6, vp), (9, k)]

/-- VSAMP (R134). -/
def planVsamp (c j vd lv li vp kk : Nat) : Plan :=
  regPlan c j 16 false (kk == 0 || decide (kk > 256)) fun t s k v =>
    let p := vreg v t vp
    let r := vsamp (List.zip (vreg v t lv) (vreg v t li)) kk (p.getD 0 0) ((p.getD 1 0).toNat / 256)
    putRegs s k latExact (t + 15) [(vd, [some r.1, some r.2.1, some r.2.2])]

def vrngWord (vd vt vq vs stream wd : Nat) : CmdWord :=
  mkWord [(8, 0x52), (6, vd), (6, vt), (6, vq), (6, vs), (16, stream), (1, wd)]

/-- VRNG (R137). -/
def planVrng (c j vd vt vq vs stream wd : Nat) : Plan :=
  regPlan c j 1 false (decide (vq + 1 > 63) || decide (vs + 3 > 63)) fun t s k v =>
    let r (n : Nat) : List (BitVec 32) := vreg v t n
    let tok := r vt; let q0 := r vq; let q1 := r (vq + 1)
    let s0 := r vs; let s1 := r (vs + 1); let s2 := r (vs + 2); let s3 := r (vs + 3)
    let ls := (List.range 256).map fun i =>
      let g (l : List (BitVec 32)) : BitVec 32 := l.getD i 0
      let w := kcg (g s0) (g s1) (g s2) (g s3) (g q0) (g q1) (g tok) (lane stream)
      if wd = 0 then w.1 else w.2
    putRegs s k latExact t [(vd, allLanes ls)]

def vdispWord (vs vf ve vcap nc nt cont : Nat) : CmdWord :=
  mkWord [(8, 0x53), (6, vs), (6, vf), (6, ve), (6, vcap), (4, nc), (9, nt), (1, cont)]

/-- Choices dropped by a unit count toward the step's entry, with its lowest-numbered unit (R139). -/
def noteDropped (s : State) (k n : Nat) : State :=
  if n = 0 then s
  else
    { s with step := { s.step with
        dispatchDrops := s.step.dispatchDrops + n
        dispatchUnit := some (match s.step.dispatchUnit with | some u => min u k | none => k) } }

/-- VDISP (R138). -/
def planVdisp (c j vs vf ve vcap nc nt cont : Nat) : Plan :=
  regPlan c j 16 false (nc == 0 || decide (nc > 8) || nt == 0 || decide (nt * nc > 256)) fun t s k v =>
    let fill := if cont = 1 then (vreg v t vf).map (·.toNat) else List.replicate 256 0
    let d := vdisp (vreg v t ve) (vreg v t vcap) nc nt fill
    noteDropped (putRegs s k latExact (t + 15) (twoResults vs vf d.slots (d.fill.map lane))) k d.dropped

/-! ### Words (R113) -/

/-- The plan of any vector word. -/
def vectorPlan (s : State) (c j : Nat) (w : CmdWord) : Plan :=
  let f := wf w
  let top (n : Nat) (p : Plan) : Plan := if w.toNat / 2 ^ n != 0 then illegalPlan else p
  let loc (lo : Nat) : BitVec 17 := BitVec.ofNat 17 (f (lo + 16) lo)
  match f 7 0 with
  | 0x00 => top 24 (planWait (f 23 8))
  | 0x20 => top 43 (planVop c j (f 13 8) (f 15 14) (f 21 16) (f 27 22) (f 33 28) (f 39 34) (f 42 40))
  | 0x21 => top 30 (planVfn c j (f 10 8) (f 12 11) (f 14 13) (f 20 15) (f 26 21) (f 29 27))
  | 0x22 => top 31 (planVcmp c j (f 10 8) (f 12 11) (f 15 13) (f 21 16) (f 27 22) (f 30 28))
  | 0x23 => top 29 (planVsel c j (f 13 8) (f 19 14) (f 25 20) (f 28 26))
  | 0x24 => top 19 (planVkop c j (f 9 8) (f 12 10) (f 15 13) (f 18 16))
  | 0x25 => top 49 (planVimm c j (f 13 8) (f 45 14) (f 48 46))
  | 0x26 => top 46 (planViota c j (f 13 8) (f 45 14))
  | 0x27 => top 29 (planVcvt c j (f 10 8) (f 13 11) (f 19 14) (f 25 20) (f 28 26))
  | 0x30 => top 33 (planVld s c j (f 13 8) (f 15 14) (loc 16))
  | 0x31 => top 36 (planVst s c j (f 13 8) (f 15 14) (loc 16) (f 35 33))
  | 0x32 => top 53 (planVldx s c j (f 13 8) (f 19 14) (loc 20) (f 52 37))
  | 0x33 => top 53 (planVstx s c j (f 13 8) (f 19 14) (loc 20) (f 52 37))
  | 0x34 => top 41 (planVldq s c j (f 13 8) (f 18 14) (f 19 19) (f 23 20) (loc 24))
  | 0x35 => top 53 (planVqnt s c j (f 13 8) (f 18 14) (f 19 19) (f 23 20) (f 29 24) (f 35 30) (loc 36))
  | 0x36 => top 31 (planVlda s c j (f 13 8) (loc 14))
  | 0x37 => top 31 (planVsta s c j (f 13 8) (loc 14))
  | 0x40 => top 25 (planVwanc c j (f 10 8) (f 11 11) (f 12 12) (f 18 13) (f 24 19))
  | 0x41 => top 23 (planVrsum c j (f 10 8) (f 11 11) (f 13 12) (f 19 14) (f 22 20))
  | 0x42 => top 29 (planVrdot c j (f 10 8) (f 11 11) (f 13 12) (f 19 14) (f 25 20) (f 28 26))
  | 0x43 => top 22 (planVwout c j (f 13 8) (f 16 14) (f 18 17) (f 21 19))
  | 0x44 => top 28 (planVwexp s c j (f 10 8) (loc 11))
  | 0x45 => top 28 (planVwadd s c j (f 10 8) (loc 11))
  | 0x46 => top 27 (planVanch c j (f 13 8) (f 19 14) (f 21 20) (f 22 22) (f 23 23) (f 26 24))
  | 0x47 => top 25 (planVrmax c j (f 13 8) (f 19 14) (f 21 20) (f 24 22))
  | 0x50 => top 45 (planVtopk c j (f 13 8) (f 19 14) (f 25 20) (f 31 26) (f 40 32) (f 41 41) (f 44 42))
  | 0x51 => top 41 (planVsamp c j (f 13 8) (f 19 14) (f 25 20) (f 31 26) (f 40 32))
  | 0x52 => top 49 (planVrng c j (f 13 8) (f 19 14) (f 25 20) (f 31 26) (f 47 32) (f 48 48))
  | 0x53 => top 46 (planVdisp c j (f 13 8) (f 19 14) (f 25 20) (f 31 26) (f 35 32) (f 44 36) (f 45 45))
  | _ => illegalPlan

/-- Vector tiles of a core (R12). -/
def isVectorTile (j : Nat) : Bool := decide (12 ≤ j) && decide (j < 20)

/-- A vector tile takes a word of a plan; a row that names another tile cannot occur (log 4). -/
def runVector (s : State) (c : BitVec 6) (j : BitVec 5) (w : CmdWord) (p : Plan) : Out :=
  .next (if isVectorTile j.toNat then runTile s c.toNat j.toNat w p else s)

/-- VECTOR_WAIT (R48). -/
def execVectorWait (c : BitVec 6) (j : BitVec 5) (n : BitVec 16) (s : State) : Out :=
  runVector s c j (waitWord n.toNat) (planWait n.toNat)

/-- VOP (R114). -/
def execVop (c : BitVec 6) (j : BitVec 5) (op : BitVec 6) (ty : BitVec 2) (vd va vb vc : BitVec 6) (km : BitVec 3)
    (s : State) : Out :=
  runVector s c j (vopWord op.toNat ty.toNat vd.toNat va.toNat vb.toNat vc.toNat km.toNat)
    (planVop c.toNat j.toNat op.toNat ty.toNat vd.toNat va.toNat vb.toNat vc.toNat km.toNat)

/-- VFN (R126). -/
def execVfn (c : BitVec 6) (j : BitVec 5) (fn : BitVec 3) (ti tt : BitVec 2) (vd va : BitVec 6) (km : BitVec 3)
    (s : State) : Out :=
  runVector s c j (vfnWord fn.toNat ti.toNat tt.toNat vd.toNat va.toNat km.toNat)
    (planVfn c.toNat j.toNat fn.toNat ti.toNat tt.toNat vd.toNat va.toNat km.toNat)

/-- VCMP (R115). -/
def execVcmp (c : BitVec 6) (j : BitVec 5) (cmp : BitVec 3) (ty : BitVec 2) (kd : BitVec 3) (va vb : BitVec 6)
    (km : BitVec 3) (s : State) : Out :=
  runVector s c j (vcmpWord cmp.toNat ty.toNat kd.toNat va.toNat vb.toNat km.toNat)
    (planVcmp c.toNat j.toNat cmp.toNat ty.toNat kd.toNat va.toNat vb.toNat km.toNat)

/-- VSEL (R115). -/
def execVsel (c : BitVec 6) (j : BitVec 5) (vd va vb : BitVec 6) (ks : BitVec 3) (s : State) : Out :=
  runVector s c j (vselWord vd.toNat va.toNat vb.toNat ks.toNat)
    (planVsel c.toNat j.toNat vd.toNat va.toNat vb.toNat ks.toNat)

/-- VKOP (R115). -/
def execVkop (c : BitVec 6) (j : BitVec 5) (kop : BitVec 2) (kd ka kb : BitVec 3) (s : State) : Out :=
  runVector s c j (vkopWord kop.toNat kd.toNat ka.toNat kb.toNat)
    (planVkop c.toNat j.toNat kop.toNat kd.toNat ka.toNat kb.toNat)

/-- VIMM (R115). -/
def execVimm (c : BitVec 6) (j : BitVec 5) (vd : BitVec 6) (imm : BitVec 32) (km : BitVec 3) (s : State) : Out :=
  runVector s c j (vimmWord vd.toNat imm.toNat km.toNat)
    (planVimm c.toNat j.toNat vd.toNat imm.toNat km.toNat)

/-- VIOTA (R115). -/
def execViota (c : BitVec 6) (j : BitVec 5) (vd : BitVec 6) (base : BitVec 32) (s : State) : Out :=
  runVector s c j (viotaWord vd.toNat base.toNat)
    (planViota c.toNat j.toNat vd.toNat base.toNat)

/-- VCVT (R115). -/
def execVcvt (c : BitVec 6) (j : BitVec 5) (ti tt : BitVec 3) (vd va : BitVec 6) (km : BitVec 3) (s : State) : Out :=
  runVector s c j (vcvtWord ti.toNat tt.toNat vd.toNat va.toNat km.toNat)
    (planVcvt c.toNat j.toNat ti.toNat tt.toNat vd.toNat va.toNat km.toNat)

/-- VLD (R119). -/
def execVld (c : BitVec 6) (j : BitVec 5) (vd : BitVec 6) (ty : BitVec 2) (src : BitVec 17) (s : State) : Out :=
  runVector s c j (vldWord vd.toNat ty.toNat src.toNat)
    (planVld s c.toNat j.toNat vd.toNat ty.toNat src)

/-- VST (R119). -/
def execVst (c : BitVec 6) (j : BitVec 5) (va : BitVec 6) (ty : BitVec 2) (dst : BitVec 17) (km : BitVec 3)
    (s : State) : Out :=
  runVector s c j (vstWord va.toNat ty.toNat dst.toNat km.toNat)
    (planVst s c.toNat j.toNat va.toNat ty.toNat dst km.toNat)

/-- VLDX (R119). -/
def execVldx (c : BitVec 6) (j : BitVec 5) (vd vx : BitVec 6) (base : BitVec 17) (limit : BitVec 16) (s : State) : Out :=
  runVector s c j (vldxWord vd.toNat vx.toNat base.toNat limit.toNat)
    (planVldx s c.toNat j.toNat vd.toNat vx.toNat base limit.toNat)

/-- VSTX (R119). -/
def execVstx (c : BitVec 6) (j : BitVec 5) (va vx : BitVec 6) (base : BitVec 17) (limit : BitVec 16) (s : State) : Out :=
  runVector s c j (vstxWord va.toNat vx.toNat base.toNat limit.toNat)
    (planVstx s c.toNat j.toNat va.toNat vx.toNat base limit.toNat)

/-- VLDQ (R121). -/
def execVldq (c : BitVec 6) (j : BitVec 5) (vd : BitVec 6) (nr : BitVec 5) (kc : BitVec 1) (fmt : BitVec 4)
    (src : BitVec 17) (s : State) : Out :=
  runVector s c j (vldqWord vd.toNat nr.toNat kc.toNat fmt.toNat src.toNat)
    (planVldq s c.toNat j.toNat vd.toNat nr.toNat kc.toNat fmt.toNat src)

/-- VQNT (R120). -/
def execVqnt (c : BitVec 6) (j : BitVec 5) (va : BitVec 6) (nr : BitVec 5) (kc : BitVec 1) (fmtO : BitVec 4)
    (row0 vx : BitVec 6) (dst : BitVec 17) (s : State) : Out :=
  runVector s c j (vqntWord va.toNat nr.toNat kc.toNat fmtO.toNat row0.toNat vx.toNat dst.toNat)
    (planVqnt s c.toNat j.toNat va.toNat nr.toNat kc.toNat fmtO.toNat row0.toNat vx.toNat dst)

/-- VLDA (R120). -/
def execVlda (c : BitVec 6) (j : BitVec 5) (vd : BitVec 6) (src : BitVec 17) (s : State) : Out :=
  runVector s c j (vldaWord vd.toNat src.toNat)
    (planVlda s c.toNat j.toNat vd.toNat src)

/-- VSTA (R120). -/
def execVsta (c : BitVec 6) (j : BitVec 5) (va : BitVec 6) (dst : BitVec 17) (s : State) : Out :=
  runVector s c j (vstaWord va.toNat dst.toNat)
    (planVsta s c.toNat j.toNat va.toNat dst)

/-- VWANC (R122). -/
def execVwanc (c : BitVec 6) (j : BitVec 5) (row : BitVec 3) (mode bc : BitVec 1) (vx vy : BitVec 6) (s : State) : Out :=
  runVector s c j (vwancWord row.toNat mode.toNat bc.toNat vx.toNat vy.toNat)
    (planVwanc c.toNat j.toNat row.toNat mode.toNat bc.toNat vx.toNat vy.toNat)

/-- VRSUM (R123). -/
def execVrsum (c : BitVec 6) (j : BitVec 5) (row : BitVec 3) (dir : BitVec 1) (ty : BitVec 2) (va : BitVec 6)
    (km : BitVec 3) (s : State) : Out :=
  runVector s c j (vrsumWord row.toNat dir.toNat ty.toNat va.toNat km.toNat)
    (planVrsum c.toNat j.toNat row.toNat dir.toNat ty.toNat va.toNat km.toNat)

/-- VRDOT (R123). -/
def execVrdot (c : BitVec 6) (j : BitVec 5) (row : BitVec 3) (dir : BitVec 1) (ty : BitVec 2) (va vb : BitVec 6)
    (km : BitVec 3) (s : State) : Out :=
  runVector s c j (vrdotWord row.toNat dir.toNat ty.toNat va.toNat vb.toNat km.toNat)
    (planVrdot c.toNat j.toNat row.toNat dir.toNat ty.toNat va.toNat vb.toNat km.toNat)

/-- VWOUT (R124). -/
def execVwout (c : BitVec 6) (j : BitVec 5) (vd : BitVec 6) (row : BitVec 3) (ty : BitVec 2) (km : BitVec 3)
    (s : State) : Out :=
  runVector s c j (vwoutWord vd.toNat row.toNat ty.toNat km.toNat)
    (planVwout c.toNat j.toNat vd.toNat row.toNat ty.toNat km.toNat)

/-- VWEXP (R124). -/
def execVwexp (c : BitVec 6) (j : BitVec 5) (row : BitVec 3) (dst : BitVec 17) (s : State) : Out :=
  runVector s c j (vwexpWord row.toNat dst.toNat)
    (planVwexp s c.toNat j.toNat row.toNat dst)

/-- VWADD (R124). -/
def execVwadd (c : BitVec 6) (j : BitVec 5) (row : BitVec 3) (src : BitVec 17) (s : State) : Out :=
  runVector s c j (vwaddWord row.toNat src.toNat)
    (planVwadd s c.toNat j.toNat row.toNat src)

/-- VANCH (R122). -/
def execVanch (c : BitVec 6) (j : BitVec 5) (vd va : BitVec 6) (ty : BitVec 2) (hm mg : BitVec 1) (km : BitVec 3)
    (s : State) : Out :=
  runVector s c j (vanchWord vd.toNat va.toNat ty.toNat hm.toNat mg.toNat km.toNat)
    (planVanch c.toNat j.toNat vd.toNat va.toNat ty.toNat hm.toNat mg.toNat km.toNat)

/-- VRMAX (R125). -/
def execVrmax (c : BitVec 6) (j : BitVec 5) (vd va : BitVec 6) (ty : BitVec 2) (km : BitVec 3) (s : State) : Out :=
  runVector s c j (vrmaxWord vd.toNat va.toNat ty.toNat km.toNat)
    (planVrmax c.toNat j.toNat vd.toNat va.toNat ty.toNat km.toNat)

/-- VTOPK (R133). -/
def execVtopk (c : BitVec 6) (j : BitVec 5) (lv li va vi : BitVec 6) (k : BitVec 9) (init : BitVec 1) (km : BitVec 3)
    (s : State) : Out :=
  runVector s c j (vtopkWord lv.toNat li.toNat va.toNat vi.toNat k.toNat init.toNat km.toNat)
    (planVtopk c.toNat j.toNat lv.toNat li.toNat va.toNat vi.toNat k.toNat init.toNat km.toNat)

/-- VSAMP (R134). -/
def execVsamp (c : BitVec 6) (j : BitVec 5) (vd lv li vp : BitVec 6) (k : BitVec 9) (s : State) : Out :=
  runVector s c j (vsampWord vd.toNat lv.toNat li.toNat vp.toNat k.toNat)
    (planVsamp c.toNat j.toNat vd.toNat lv.toNat li.toNat vp.toNat k.toNat)

/-- VRNG (R137). -/
def execVrng (c : BitVec 6) (j : BitVec 5) (vd vt vq vs : BitVec 6) (stream : BitVec 16) (wd : BitVec 1) (s : State) : Out :=
  runVector s c j (vrngWord vd.toNat vt.toNat vq.toNat vs.toNat stream.toNat wd.toNat)
    (planVrng c.toNat j.toNat vd.toNat vt.toNat vq.toNat vs.toNat stream.toNat wd.toNat)

/-- VDISP (R138). -/
def execVdisp (c : BitVec 6) (j : BitVec 5) (vs vf ve vcap : BitVec 6) (nc : BitVec 4) (nt : BitVec 9)
    (cont : BitVec 1) (s : State) : Out :=
  runVector s c j (vdispWord vs.toNat vf.toNat ve.toNat vcap.toNat nc.toNat nt.toNat cont.toNat)
    (planVdisp c.toNat j.toNat vs.toNat vf.toNat ve.toNat vcap.toNat nc.toNat nt.toNat cont.toNat)

end Sys2Proof.Machine
end

