-- ==== Sys2Proof/Machine/Resume.lean ====
section
/-! DEFINITION. A stretched stroke goes on (R41, R46, R50). -/

namespace Sys2Proof.Machine

/-- The plan of any word on a tile, by the tile's class. -/
def wordPlan (s : State) (c j : Nat) (w : CmdWord) : Plan :=
  if isMatrixTile j then matrixPlan s c j w
  else if isVectorTile j then vectorPlan s c j w
  else if isXmov w then planXmov s c j (xmovOf w)
  else transferPlan c j w

/-- A tile comes to the word at the front of its queue, whatever it is. -/
def runAnyWord (s : State) (c j : Nat) (w : CmdWord) : State :=
  if isTransferTile j && isXmov w then runXmov s c j (xmovOf w) else runTile s c j w (wordPlan s c j w)

/-- A unit whose stroke may go on: a step runs and the unit is not halted, steps, or has a stroke to complete (R424). -/
def mayGoOn (s : State) (k : Nat) : Bool :=
  let u := getUnit s k
  s.step.running && !s.step.voided && !s.step.localEnded && (!u.halted || u.oneMore || u.oneStroke || midStroke u)

/-- A tile goes on: with its stretched command, or with the next word of its queue. -/
def resumeTile (s : State) (c j : Nat) : State :=
  let k := tileKey c j
  let u := getUnit s k
  match u.blocked with
  | some b => goOn s k (u.issued - 1) fun s =>
    if isTransferTile j && isXmov b.word then xmovAdvance s c j (xmovOf b.word) b else advance s k b (wordPlan s c j b.word)
  | none => match u.queue.head? with
    | some w => runAnyWord s c j w
    | none => if canIssue s k then setUnit s k { u with waiting := some .emptyQueue } else s

/-- A die mover goes on with its stretched entry. -/
def resumeMover (s : State) (m : Nat) : State :=
  let u := getUnit s (moverKey m)
  match u.blocked, (moverList s m).entries[u.issued - 1]? with
  | some b, some v => moverAdvance s m (u.issued - 1) (moverEntryOf v) b
  | _, _ => s

/-- WAIT_RESUME (R50): the unit named goes on where it waited, if what it waited for has come. -/
def execWaitResume (u : UnitRef) (s : State) : Out :=
  .next (match u with
    | .scribe c => if mayGoOn s (scribeKey c.toNat) then resumeScribe s c.toNat else s
    | .tile c j => if mayGoOn s (tileKey c.toNat j.toNat) && decide (j.toNat < 24) then resumeTile s c.toNat j.toNat else s
    | .mover m => if mayGoOn s (moverKey m.toNat) then resumeMover s m.toNat else s)

end Sys2Proof.Machine
end

