-- ==== Sys2Proof/Machine/UnitWin.lean ====
section
/-! DEFINITION. The unit window of the debug port: which unit is selected, and what the window shows and takes (R428, R429). -/

namespace Sys2Proof.Machine

/-! ### Selection (R428) -/

/-- Bits of a grant's SCOPE (R423). -/
def scopeRead : Nat := 0
def scopeWrite : Nat := 1
def scopeHalt : Nat := 2
def scopeDiag : Nat := 3

/-- An active grant has a scope bit. -/
def inScope (s : State) (b : Nat) : Bool := s.dbg.grant && tb s.dbg.scope.toNat b

/-- Ruled unit in the folded context of the physical unit that carries ruled unit `j` of core `c` (R19, R161). -/
def foldedOn (s : State) (c j : Nat) : Option (Nat × Nat) :=
  (contextsOf s (unitKey c j)).map fun x => (x.2.1 / 32, x.2.1 % 32)

/-- Ruled core at home on a physical core (R30). -/
def homeOf (s : State) (p : Nat) : Option Nat :=
  (List.range 64).find? fun n =>
    let w := (tget 0 s.boot.coreMap n).toNat
    w % 128 == p && bitsOf w 7 7 == 0

/-- Ruled tile that a physical tile of a core runs (R13, R30). -/
def ruledTile (s : State) (c i : Nat) : Option Nat :=
  let w := (tget 0 s.boot.coreMap c).toNat
  let d0 := bitsOf w 12 8
  let d1 := bitsOf w 17 13
  if i = 0x1F then some i
  else if i = 24 then (if d0 = 0x1F then none else some d0)
  else if i = 25 then (if d1 = 0x1F then none else some d1)
  else if i = d0 ∨ i = d1 then none
  else some i

/-- What UNIT_SEL selects. -/
inductive Selected where
  /-- A ruled unit: core, and tile or 0x1F. -/
  | unit (c j : Nat)
  /-- A physical unit that runs no ruled unit in the context named. -/
  | empty
  /-- Nothing that the grant or the register's fields allow. -/
  | refused
deriving DecidableEq, Repr

/-- Field `[hi:lo]` of UNIT_SEL. -/
def selField (s : State) (hi lo : Nat) : Nat := bitsOf s.dbg.unitSel.toNat hi lo

/-- A ruled unit, in the context that UNIT_SEL names. -/
def inContext (s : State) (c j : Nat) : Selected :=
  if selField s 12 12 = 0 ∨ s.boot.effective ≠ 1 then .unit c j
  else match foldedOn s c j with
    | some u => .unit u.1 u.2
    | none => .empty

/-- PHYSICAL needs scope DIAG and no plot open. -/
def mayPhysical (s : State) : Bool := inScope s scopeDiag && !s.sec.isOpen

/-- The unit that UNIT_SEL selects. -/
def selected (s : State) : Selected :=
  let c := selField s 6 0
  let j := selField s 11 7
  if selField s 13 13 = 0 then (if c < 64 ∧ (j < 24 ∨ j = 0x1F) then inContext s c j else .refused)
  else if mayPhysical s then
    match homeOf s c with
    | none => .empty
    | some n => match ruledTile s n j with
      | none => .empty
      | some t => inContext s n t
  else .refused

/-- Key of a ruled unit. -/
def unitKeyOf (c j : Nat) : Nat := if j = 0x1F then scribeKey c else tileKey c j

/-! ### Reading (R429) -/

/-- A stroke by which every write made so far is seen: the window shows what has been written (log 35). -/
def lateStroke : Nat := 2 ^ 65

/-- STATE of a unit. -/
def unitStateCode (u : UnitSt) : Nat :=
  if u.ended then 3 else if midStroke u || (u.waiting.isSome && !u.halted) then 2 else if u.halted then 1 else 0

/-- PC of a scribe, or INDEX of the command that a tile runs or comes to. -/
def unitPlace (s : State) (c j : Nat) : Nat :=
  let u := getUnit s (unitKeyOf c j)
  if j = 0x1F then (scribePc s c).toNat else if u.blocked.isSome then u.issued - 1 else u.issued

/-- The first row: bytes 0 to 15; the waiting channel of a unit that waits on none is free (log 35). -/
def statusRow (s : State) (c j w : Nat) : BitVec 64 × State :=
  let u := getUnit s (unitKeyOf c j)
  if w = 0 then (BitVec.ofNat 64 ((u.strokes.toNat + u.stepped) % 2 ^ 32 + unitStateCode u * 2 ^ 32), s)
  else
    let r := match u.waiting with
      | some (.channel ch) => (BitVec.ofNat 32 ch, s)
      | _ => drawFree 32 s
    (BitVec.ofNat 64 (unitPlace s c j % 2 ^ 32 + r.1.toNat * 2 ^ 32), r.2)

/-- Half `h` of a 128-bit word. -/
def half128 (v : BitVec 128) (h : Nat) : BitVec 64 := BitVec.ofNat 64 (v.toNat / 2 ^ (64 * h))

/-- 8 bytes of a list of vector lanes, from lane `l`. -/
def lanePair (ls : List (BitVec 32)) (l : Nat) : BitVec 64 := BitVec.ofNat 64 ((ls.getD l 0).toNat + (ls.getD (l + 1) 0).toNat * 2 ^ 32)

/-- Rows of a scribe, from window offset 0x1000. -/
def scribeRow (s : State) (c w : Nat) : BitVec 64 := if w < 112 then srcVal (getScribe s c) lateStroke w else 0

/-- Rows of a transfer engine, from window offset 0x2000: REG at 8 bytes each, five to a set. -/
def xferRow (x : XferSt) (o : Nat) : BitVec 64 :=
  let r := o % 0x200 / 8
  if r < 40 then tget 0 (if o < 0x200 then x.shadow else x.live) (8 * (r / 5) + r % 5) else 0

/-- Rows of a vector engine, from window offset 0x1_0000. -/
def vectorRow (v : VectorSt) (o : Nat) : BitVec 64 :=
  if o < 0x10000 then lanePair (vreg v lateStroke (o / 1024)) (o % 1024 / 4)
  else if o < 0x10100 then BitVec.ofNat 64 ((vmask v lateStroke ((o - 0x10000) / 32)).toNat / 2 ^ (o % 32 * 8))
  else if 0x20000 ≤ o ∧ o < 0x30000 then fieldAt 64 (wellRecord (vwell v lateStroke ((o - 0x20000) / 32))) (o % 32) 8
  else 0

/-- Rows of a matrix engine. -/
def matrixRow (m : MatrixSt) (o : Nat) : BitVec 64 :=
  if 0x4000 ≤ o ∧ o < 0x8000 then wordOf 64 (readRun 0 m.bank0.bytes (o - 0x4000) 8)
  else if 0x8000 ≤ o ∧ o < 0xC000 then wordOf 64 (readRun 0 m.bank1.bytes (o - 0x8000) 8)
  else if 0x40000 ≤ o ∧ o < 0x80000 then fieldAt 64 (wellRecord (wellForOut m lateStroke ((o - 0x40000) / 32))) (o % 32) 8
  else 0

/-- An allocation entry that no sheet has loaded: OWNER 0x1F, every other field 0 (R58). -/
def resetAlloc : BitVec 128 := BitVec.ofNat 128 (0x1F * 2 ^ 109)

/-- The 8 bytes at a window offset of a ruled unit. -/
def windowRow (s : State) (c j o : Nat) : BitVec 64 × State :=
  let k := unitKeyOf c j
  if o < 16 then statusRow s c j (o / 8)
  else if 0x100 ≤ o ∧ o < 0x500 then (half128 ((liveCore s c).alloc.getD ((o - 0x100) / 16) resetAlloc) (o % 16 / 8), s)
  else if j = 0x1F ∧ 0x1000 ≤ o ∧ o < 0x2000 then (scribeRow s c ((o - 0x1000) / 8), s)
  else if isTransferTile j ∧ 0x2000 ≤ o ∧ o < 0x2400 then (xferRow (getXfer s k) (o - 0x2000), s)
  else if j ≠ 0x1F ∧ 0x3000 ≤ o ∧ o < 0x3400 then (half128 ((getUnit s k).queue.getD ((o - 0x3000) / 16) 0) (o % 16 / 8), s)
  else if isVectorTile j ∧ 0x10000 ≤ o ∧ o < 0x40000 then (vectorRow (getVector s k) (o - 0x10000), s)
  else if isMatrixTile j then (matrixRow (getMatrix s k) o, s)
  else (0, s)

/-- A debug read of the window; a selection that runs no ruled unit reads free values (log 35). -/
def windowGet (s : State) (o : Nat) : Option (BitVec 64 × State) :=
  match selected s with
  | .refused => none
  | .empty => some (drawFree 64 s)
  | .unit c j => some (windowRow s c j o)

/-! ### Writing (R429) -/

/-- A scribe's register takes a value; writes under way to it are forgotten. -/
def putScribeRow (s : State) (c w : Nat) (v : BitVec 64) : State :=
  let x := getScribe s c
  let less := fun (r : Nat) (l : List RegWrite) => l.filter fun e => e.reg != r
  if w = 0 ∨ 112 ≤ w then s
  else if w < 32 then setScribe s c { x with g := tset 0 x.g w v, glog := less w x.glog }
  else if w < 96 then setScribe s c { x with p := tset 0 x.p (w - 32) v }
  else if w < 104 then setScribe s c { x with l := tset 0 x.l (w - 96) (v.setWidth 32) }
  else setScribe s c { x with o := tset 0 x.o (w - 104) v, olog := less (w - 104) x.olog }

/-- A shadow register takes a value in its width; the live sets are read-only (R173). -/
def putXferRow (s : State) (k o : Nat) (v : BitVec 64) : State :=
  let x := getXfer s k
  let r := o / 8
  let reg := 8 * (r / 5) + r % 5
  match if r < 40 then xregWidth reg else none with
  | some w => setXfer s k { x with shadow := tset 0 x.shadow reg (BitVec.ofNat 64 (v.toNat % 2 ^ w)) }
  | none => s

/-- Half of a queue entry is replaced; past the queue's end there is no entry to write (log 35). -/
def putQueueRow (s : State) (k i h : Nat) (v : BitVec 64) : State :=
  modUnit s k fun u =>
    { u with queue := u.queue.modify i fun w =>
        if h = 0 then BitVec.ofNat 128 (w.toNat / 2 ^ 64 * 2 ^ 64 + v.toNat) else BitVec.ofNat 128 (w.toNat % 2 ^ 64 + v.toNat * 2 ^ 64) }

/-- A well with 8 bytes of its record replaced. -/
def patchWell (w : Well) (o : Nat) (v : BitVec 64) : Well :=
  let b := wellRecord w
  recordWell (b.take o ++ bytesOf 8 v ++ b.drop (o + 8))

/-- A row of a vector engine takes a value; writes under way to the same register, mask or well are forgotten. -/
def putVectorRow (s : State) (k o : Nat) (v : BitVec 64) : State :=
  let x := getVector s k
  if o < 0x10000 then
    let r := o / 1024
    let l := o % 1024 / 4
    let ls := ((vreg x lateStroke r).set l (v.setWidth 32)).set (l + 1) (BitVec.ofNat 32 (v.toNat / 2 ^ 32))
    setVector s k { x with regs := tset zeroReg x.regs r ls, rlog := x.rlog.filter fun e => e.reg != r }
  else if 0x10020 ≤ o ∧ o < 0x10100 then
    let i := (o - 0x10000) / 32
    let sh := o % 32 * 8
    let old := (vmask x lateStroke i).toNat
    setVector s k { x with
      masks := tset 0 x.masks i (BitVec.ofNat 256 (old - bitsOf old (sh + 63) sh * 2 ^ sh + v.toNat * 2 ^ sh))
      mlog := x.mlog.filter fun e => e.k != i }
  else if 0x20000 ≤ o ∧ o < 0x30000 then
    let i := (o - 0x20000) / 32
    setVector s k { x with
      wells := tset {} x.wells i (patchWell (vwell x lateStroke i) (o % 32) v), wlog := x.wlog.filter fun e => e.idx != i }
  else s

/-- A row of a matrix engine takes a value. -/
def putMatrixRow (s : State) (k o : Nat) (v : BitVec 64) : State :=
  let m := getMatrix s k
  if 0x4000 ≤ o ∧ o < 0x8000 then
    setMatrix s k { m with bank0 := { m.bank0 with bytes := writeRun 0 m.bank0.bytes (o - 0x4000) (bytesOf 8 v) } }
  else if 0x8000 ≤ o ∧ o < 0xC000 then
    setMatrix s k { m with bank1 := { m.bank1 with bytes := writeRun 0 m.bank1.bytes (o - 0x8000) (bytesOf 8 v) } }
  else if 0x40000 ≤ o ∧ o < 0x80000 then
    let i := (o - 0x40000) / 32
    setMatrix s k { m with
      wells := tset {} m.wells i (patchWell (wellForOut m lateStroke i) (o % 32) v), wlog := m.wlog.filter fun e => e.idx != i }
  else s

/-- The 8 bytes at a window offset of a ruled unit take a value. -/
def putWindowRow (s : State) (c j o : Nat) (v : BitVec 64) : State :=
  let k := unitKeyOf c j
  if j = 0x1F then (if 0x1000 ≤ o ∧ o < 0x2000 then putScribeRow s c ((o - 0x1000) / 8) v else s)
  else if isTransferTile j ∧ 0x2000 ≤ o ∧ o < 0x2200 then putXferRow s k (o - 0x2000) v
  else if 0x3000 ≤ o ∧ o < 0x3400 then putQueueRow s k ((o - 0x3000) / 16) (o % 16 / 8) v
  else if isVectorTile j ∧ 0x10000 ≤ o ∧ o < 0x40000 then putVectorRow s k (o - 0x10000) v
  else if isMatrixTile j then putMatrixRow s k o v
  else s

/-- A debug write to the window: the first two rows, and a unit that is not halted or has a stroke to complete, refuse it. -/
def windowPut (s : State) (o : Nat) (v : BitVec 64) : Option State :=
  if o < 0x1000 then none
  else match selected s with
    | .refused => none
    | .empty => some s
    | .unit c j =>
      let u := getUnit s (unitKeyOf c j)
      if u.halted && !midStroke u then some (putWindowRow s c j o v) else none

end Sys2Proof.Machine
end

