-- ==== Sys2Proof/Machine/Debug.lean ====
section
/-! DEFINITION. The debug port: the TAP, XFER frames, the DBG block, halting, resuming and stepping (R420-R431). -/

namespace Sys2Proof.Machine

/-! ### Halting and resuming (R424-R426) -/

/-- Units that a REACH names: one ruled core, or the device. -/
def reachUnits (reach core : Nat) : List Nat := if reach = 0 then coreUnits core else allUnits

/-- Locator of a halt or a resume by command: it acts on no one command, so TILE and INDEX, and for the device CORE, are free (log 35). -/
def runLocator (s : State) (reach core : Nat) : BitVec 64 × State :=
  let c := drawFree 6 s
  let t := drawFree 5 c.2
  let i := drawFree 32 t.2
  (skipLocator 0 (if reach = 0 then core else c.1.toNat) t.1.toNat i.1.toNat, i.2)

/-- HALT. -/
def haltOn (s : State) (reach core : Nat) : State :=
  let l := runLocator s reach core
  haltWith l.2 (reachUnits reach core) l.1 0xFF

/-- Units of a list run on. -/
def resumeUnits (s : State) : List Nat → State
  | [] => s
  | k :: ks => resumeUnits (modUnit s k fun u => { u with halted := false, oneMore := false, oneStroke := false }) ks

/-- RESUME: with no unit of the reach halted nothing happens. -/
def resumeOn (s : State) (reach core : Nat) : State :=
  let ks := reachUnits reach core
  if ks.any fun k => (getUnit s k).halted then
    let l := runLocator s reach core
    afterResume (logEv (resumeUnits l.2 ks) { cls := clsTrace, cause := 3, loc := l.1 })
  else s

/-! ### Stepping (R425) -/

/-- The state after a meaning, `s` where it stops. -/
def outState (o : Out) (s : State) : State := match o with | .next t => t | _ => s

/-- The scribe of core `c` runs the instruction at its PC. -/
def runScribeWord (s : State) (c : BitVec 6) (w : BitVec 64) : State :=
  let f (n hi lo : Nat) : BitVec n := BitVec.ofNat n (bitsOf w.toNat hi lo)
  let o : Out := match bitsOf w.toNat 7 0 with
    | 0x00 => execScribeWait c (f 16 23 8) s
    | 0x01 => execAlu c (f 4 11 8) (f 5 16 12) (f 7 23 17) (f 7 30 24) s
    | 0x02 => execAlui c (f 4 11 8) (f 5 16 12) (f 7 23 17) (f 32 55 24) s
    | 0x03 => execMovi c (f 5 12 8) (f 48 60 13) s
    | 0x08 => execLd c (f 5 12 8) (f 7 19 13) (f 20 39 20) (f 3 42 40) s
    | 0x09 => execSt c (f 7 14 8) (f 7 21 15) (f 20 41 22) (f 3 44 42) s
    | 0x0A => execLdc c (f 5 12 8) (f 16 28 13) s
    | 0x10 => execJmp c (f 24 31 8) s
    | 0x11 => execBr c (f 3 10 8) (f 7 17 11) (f 7 24 18) (f 24 48 25) s
    | 0x12 => execLset c (f 3 10 8) (f 7 17 11) (f 32 49 18) s
    | 0x13 => execLend c (f 3 10 8) (f 24 34 11) s
    | 0x1F => execEnd c s
    | 0x20 => execPush c (f 5 12 8) (f 14 26 13) (f 7 33 27) (f 7 40 34) (f 7 47 41) s
    | 0x21 => execPushr c (f 5 12 8) (f 5 17 13) s
    | 0x28 => execXwr c (f 2 9 8) (f 8 17 10) (f 7 24 18) s
    | 0x30 => execCsend c (f 4 11 8) (f 5 16 12) s
    | 0x31 => execCwait c (f 4 11 8) (f 16 27 12) s
    | 0x38 => execTread c (f 3 10 8) (f 2 12 11) s
    | 0x39 => execNote c (f 1 8 8) (f 16 24 9) (f 7 31 25) (f 7 38 32) s
    | _ => .next s
  outState o s

/-- The unit runs its current command or instruction, as far as its channels let it. -/
def runUnit (s : State) (c j : Nat) : State :=
  if j = 0x1F then
    if (scribeUnit s c).blocked.isSome then resumeScribe s c
    else match (liveCore s c).code[(scribePc s c).toNat]? with
      | some w => runScribeWord s (BitVec.ofNat 6 c) w
      | none => s
  else resumeTile s c j

/-- STEP of one halted unit: KIND 0 one stroke, 1 one command; the step passes the breakpoints where the unit stands. -/
def stepOn (s : State) (c j kind : Nat) : State :=
  let k := unitKeyOf c j
  let s1 := modUnit s k fun u => { u with oneMore := u.oneMore || kind == 1, oneStroke := u.oneStroke || kind == 0, passBp := true }
  if (getUnit s k).halted && mayGoOn s1 k then runUnit s1 c j else s

/-- The debug port may halt, resume and step. -/
def mayRun (s : State) : Bool := inScope s scopeHalt && s.boot.phase == .service

/-- DEBUG_HALT (R425). -/
def execDebugHalt (reach : BitVec 2) (core : BitVec 6) (s : State) : Out :=
  .next (if mayRun s && decide (reach.toNat < 2) then haltOn s reach.toNat core.toNat else s)

/-- DEBUG_RESUME (R425). -/
def execDebugResume (reach : BitVec 2) (core : BitVec 6) (s : State) : Out :=
  .next (if mayRun s && decide (reach.toNat < 2) then resumeOn s reach.toNat core.toNat else s)

/-- A TILE field names a tile or the scribe. -/
def tileOk (j : Nat) : Bool := decide (j < 24) || j == 0x1F

/-- DEBUG_STEP (R425). -/
def execDebugStep (core : BitVec 6) (tile : BitVec 5) (kind : BitVec 1) (s : State) : Out :=
  .next (if mayRun s && tileOk tile.toNat then stepOn s core.toNat tile.toNat kind.toNat else s)

/-- R314 step 1 on every sub-port of a list, and the grains that each lost. -/
def discardAll (s : State) : List Nat → State × List (Nat × Nat)
  | [] => (s, [])
  | k :: ks => let d := blotDiscard s k; let r := discardAll d.1 ks; (r.1, (k, d.2) :: r.2)

/-- R314 step 3 on every sub-port of a list. -/
def downAll (s : State) : List (Nat × Nat) → State
  | [] => s
  | (k, n) :: t => downAll (blotDown s k .down n) t

/-- HALT_DRY_EXPIRY (R426): the halt has outlasted a finite DRY_MS; every sub-port of the plot blots. -/
def execHaltDryExpiry (s : State) : Out :=
  .next (
    if s.sec.isOpen && s.dbg.holdSent && anyHalted s && !s.sec.debug then
      let d := discardAll { s with dbg := { s.dbg with haltBlotted := true } } ((subKeys s).filter (carries s))
      downAll (endHaltHold (failHere d.1 4) 1) d.2
    else s)

/-! ### The DBG block (R428) -/

/-- RUN_CTL: REACH 2 and 3, and a TILE that names no unit of a STEP, are refused (R451). -/
def writeRunCtl (s : State) (v : Nat) : State :=
  let op := v % 4
  let reach := bitsOf v 3 2
  let core := bitsOf v 9 4
  if (op = 1 ∨ op = 2) ∧ 2 ≤ reach ∨ op = 3 ∧ tileOk (bitsOf v 14 10) = false then refuseRange s offRunCtl v
  else
    match op with
    | 1 => haltOn s reach core
    | 2 => resumeOn s reach core
    | 3 => stepOn s core (bitsOf v 14 10) (bitsOf v 15 15)
    | _ => s

/-- A breakpoint's CTL: HIT clears where 1 is written; KIND 5 to 7 and TILE 24 to 30 name nothing. -/
def writeBpCtl (s : State) (i v : Nat) : State :=
  if 5 ≤ v % 8 ∨ tileOk (bitsOf v 14 10) = false then refuseRange s (offBpCtl i) v
  else
    let hit := if tb v 19 then 0 else bpField (getBp s i) 19 19
    let ctl := BitVec.ofNat 64 (v % 2 ^ 19 + hit * 2 ^ 19 + bitsOf v 63 32 * 2 ^ 32)
    { s with dbg := { s.dbg with bps := tmod {} s.dbg.bps i fun b => { b with ctl } } }

/-- UNIT_SEL's fields name a unit that the grant may select. -/
def unitSelOk (s : State) (v : Nat) : Bool :=
  let c := v % 128
  let j := bitsOf v 11 7
  if tb v 13 then mayPhysical s && decide (c < 72) && (decide (j < 26) || j == 0x1F) else decide (c < 64) && tileOk j

/-- A debug write to the DBG block; none where the grant's scope does not cover it (R423, R428; log 35). -/
def writeDbg (s : State) (o : Nat) (v : BitVec 64) : Option State :=
  let off := offDbg + o
  if o = 0x40 then (if inScope s scopeHalt then some (writeRunCtl s v.toNat) else none)
  else if inArr o 0x100 16 16 ∧ o % 8 = 0 then
    if inScope s scopeHalt then
      some (if o % 16 = 0 then writeBpCtl s ((o - 0x100) / 16) v.toNat
        else { s with dbg := { s.dbg with bps := tmod {} s.dbg.bps ((o - 0x100) / 16) fun b => { b with step := v } } })
    else none
  else if !inScope s scopeWrite then none
  else if o = 0x200 then
    some (if unitSelOk s v.toNat then { s with dbg := { s.dbg with unitSel := BitVec.ofNat 14 v.toNat } } else refuseRange s off v.toNat)
  else if 0x80000 ≤ o then windowPut s (o - 0x80000) v
  else if o = 0 ∨ (o % 8 = 0 ∧ (0x10 ≤ o ∧ o < 0x40)) ∨ o = 0x48 then some s
  else some (dropWrite s off v.toNat)

/-! ### XFER (R421) -/

/-- The TAP holds XFER; the access has a result and data. -/
def xferDone (s : State) (result : BitVec 2) (data : BitVec 64) : State :=
  let s1 := tapSelect s 0x20
  { s1 with dbg := { s1.dbg with xferResult := result, xferData := data } }

/-- An access that no grant covers: logged as refused to the debug port (R38, R384; log 35). -/
def xferRefused (s : State) (a : Nat) : State :=
  logEv (xferDone s 1 0) { cls := clsSecurity, cause := 1, loc := BitVec.ofNat 64 a, a0 := 2 }

/-- A debug read of 8 bytes of control space. -/
def controlGet (s : State) (o : Nat) : Option (BitVec 64 × State) :=
  if offDbg + 0x80000 ≤ o ∧ o < offSec then windowGet s (o - offDbg - 0x80000)
  else some (wordOf 64 (regBytes s o 8), regReadEffect s o 8)

/-- XFER_READ (R421, R429). -/
def execXferRead (addr : DevAddr) (s : State) : Out :=
  let a := addr.toNat
  .next (
    if !inScope s scopeRead then xferRefused s a
    else if a % 8 ≠ 0 ∨ s.boot.phase ≠ .service then xferDone s 1 0
    else match decodeAddr a with
      | .control o => match controlGet s o with
        | some (v, s1) => xferDone s1 0 v
        | none => xferDone s 1 0
      | _ => if backedRange s a 8 then xferDone s 0 (wordOf 64 (directRead s a 8)) else xferDone s 1 0)

/-- A debug write has landed (R421, R428): TRACE, DEBUG_WRITE. -/
def debugWrote (s : State) (a : Nat) (v : BitVec 64) : State :=
  let s1 := logEv s { cls := clsTrace, cause := 4, loc := BitVec.ofNat 64 a, a0 := v }
  xferDone { s1 with dbg := { s1.dbg with debugWrite := true } } 0 0

/-- A debug write to control space. -/
def controlPut (s : State) (o : Nat) (v : BitVec 64) : Option State :=
  if offDbg ≤ o ∧ o < offSec then writeDbg s (o - offDbg) v
  else if !inScope s scopeWrite then none
  else
    match doorbellAt o with
    | some r => some (doorbellOn s r (BitVec.ofNat 32 v.toNat) none)
    | none =>
      let b := (regSpan o).1
      if isBedrockReg o then some (dropWrite s o v.toNat)
      else some (regWriteCore s b (leNat (patch (keptBytes s b) (o - b) (bytesOf 8 v))) false)

/-- XFER_WRITE (R421). -/
def execXferWrite (addr : DevAddr) (value : BitVec 64) (s : State) : Out :=
  let a := addr.toNat
  .next (
    if !s.dbg.grant then xferRefused s a
    else if a % 8 ≠ 0 ∨ s.boot.phase ≠ .service then xferDone s 1 0
    else match decodeAddr a with
      | .control o => match controlPut s o value with
        | some s1 => debugWrote s1 a value
        | none => xferDone s 1 0
      | _ =>
        if !inScope s scopeWrite then xferRefused s a
        else if !backedRange s a 8 then xferDone s 1 0
        else if writesLive s a 8 then xferDone (refuseLive s) 1 0
        else debugWrote (directWrite s a (bytesOf 8 value)) a value)

/-! ### Boundary scan (R420) -/

/-- EXTEST (R420): acts with scope HALT and no plot open, otherwise as BYPASS. -/
def execExtest (pins : List Bool) (s : State) : Out :=
  let s1 := tapSelect s 0
  .next (if inScope s scopeHalt && !s.sec.isOpen then 
      { s1 with dbg := { s1.dbg with tapData := .scan pins }, boot := { s1.boot with scan := some pins } } else s1)

/-- TAP_RESET (R420): TRST_N resets the TAP controller only. -/
def execTapReset (s : State) : Out := .next (tapSelect s 0x02)

end Sys2Proof.Machine
end

