-- ==== Sys2Proof/Machine/Mgmt.lean ====
section
/-! DEFINITION. Coalescing windows, the telemetry flush timer, and the management endpoint (R389, R393, R397, R398). -/

namespace Sys2Proof.Machine

/-! ### Coalescing (R389) -/

/-- The entry that a window writes at its close: the last occurrence with COALESCED and the window's count. -/
def coalesced (w : AlarmWindow) : BlotEntry := { w.last with flags := w.last.flags ||| 3, count := w.count }

/-- COALESCE_WINDOW_CLOSE (R389). -/
def execCoalesceWindowClose (cls : BitVec 3) (cause : BitVec 8) (locator : BitVec 64) (s : State) : Out :=
  .next (match s.blot.windows.find? (windowIs cls cause locator) with
    | none => s
    | some w =>
      if w.count = 0 then
        { s with blot := { s.blot with windows := s.blot.windows.filter fun x => !windowIs cls cause locator x } }
      else
        let again := fun x => if windowIs cls cause locator x then { x with count := 0 } else x
        blotWrite { s with blot := { s.blot with windows := s.blot.windows.map again } } (coalesced w))

/-- TELEMETRY_FLUSH_TIMER (R393): 1 ms has passed since the first entry of the grain that the device holds. -/
def execTelemetryFlushTimer (s : State) : Out := .next (telemetrySend s)

/-! ### The endpoint (R397)

The rows are messages that have reached the endpoint. In service the MP answers; in bedrock mode the ROM does (R372), and the vendor-defined
operations it then serves are the rows BEDROCK_BEGIN to BEDROCK_RESTART. Answers carry the fields of DSP0236 from the completion code on
(PRESUMED, log 34). -/

/-- The endpoint's answer goes out. -/
def mctpAnswer (s : State) (bs : Bytes) : State := { s with blot := { s.blot with mctpOut := some bs } }

/-- A message is served by the endpoint: of a device in service, or by the ROM. -/
def mctpServe (s : State) (f : State → State) : Out := .next (if inService s || (bedrockCause s).isSome then f s else s)

/-- A vendor-defined operation of R398 is served by the MP. -/
def mpServe (s : State) (f : State → State) : Out := .next (if inService s then f s else s)

/-- The endpoint ID: OOB_CFG.EID until Set Endpoint ID (R399). -/
def endpointId (s : State) : Byte := s.blot.eid.getD (BitVec.ofNat 8 (cfg s offOobCfg 15 8))

/-- SETDASA (R397): the target whose static address it names takes the dynamic address. -/
def execSetdasa (static dynamic : BitVec 7) (s : State) : Out :=
  mctpServe s fun s =>
    if static.toNat = cfg s offOobCfg 6 0 then { s with blot := { s.blot with dynAddr := some dynamic } } else s

/-- SET_ENDPOINT_ID (R397): 0x00 and 0xFF are no endpoint IDs (log 34). -/
def execSetEndpointId (eid : BitVec 8) (s : State) : Out :=
  mctpServe s fun s =>
    if eid = 0 ∨ eid = 0xFF then mctpAnswer s [2]
    else mctpAnswer { s with blot := { s.blot with eid := some eid } } [0, 0, eid, 0]

/-- GET_ENDPOINT_ID (R397); the endpoint type is free (log 34). -/
def execGetEndpointId (s : State) : Out :=
  mctpServe s fun s =>
    let f := freeBytes 1 s
    mctpAnswer f.2 ([0, endpointId s] ++ f.1 ++ [0])

/-- GET_MCTP_VERSION_SUPPORT (R397): control (0x00), base (0xFF) and Vendor Defined – IANA (0x7F); the version is free (log 34). -/
def execGetMctpVersionSupport (msgType : BitVec 8) (s : State) : Out :=
  mctpServe s fun s =>
    if msgType = 0 ∨ msgType = 0x7F ∨ msgType = 0xFF then
      let f := freeBytes 4 s
      mctpAnswer f.2 ([0, 1] ++ f.1)
    else mctpAnswer s [0x80]

/-- GET_MESSAGE_TYPE_SUPPORT (R397): beside control messages, Vendor Defined – IANA. -/
def execGetMessageTypeSupport (s : State) : Out := mctpServe s fun s => mctpAnswer s [0, 1, 0x7F]

/-- GET_VENDOR_DEFINED_MESSAGE_SUPPORT (R397): one set, IANA format; its number and version are free (log 34). -/
def execGetVendorDefinedMessageSupport (selector : BitVec 8) (s : State) : Out :=
  mctpServe s fun s =>
    if selector = 0 then
      let f := freeBytes 6 s
      mctpAnswer f.2 ([0, 0xFF, 1] ++ f.1)
    else mctpAnswer s [2]

/-! ### Vendor-defined operations (R398) -/

/-- MCTP_READ (R398). -/
def execMctpRead (s : State) : Out :=
  mpServe s fun s =>
    let b := s.blot
    let es := b.oobQueue.take 16
    mctpAnswer
      { s with blot := { b with oobQueue := b.oobQueue.drop 16, oobThrottledRead := b.oobThrottled, ibi := false } }
      (natLe 2 es.length ++ natLe 2 0 ++ bytesOf 4 (b.oobThrottled - b.oobThrottledRead) ++ es.flatMap entryBytes)

/-- MCTP_COUNTS (R398): BLOT.COUNT of one class. -/
def execMctpCounts (cls : BitVec 3) (s : State) : Out :=
  mpServe s fun s => mctpAnswer s ((List.range 256).flatMap fun k => natLe 4 (countOf s cls.toNat k))

/-- MCTP_STATUS (R398): BLOT.ALARM, BLOT.SUSPECT and the eight BLOT.CLASS[c].STATUS, each as its 8 bytes. -/
def execMctpStatus (s : State) : Out :=
  mpServe s fun s =>
    mctpAnswer s (natLe 8 s.blot.alarm.toNat ++ natLe 8 s.blot.suspect.toNat
      ++ (List.range 8).flatMap fun c => natLe 8 (classStatus s c))

end Sys2Proof.Machine
end

