-- ==== Sys2Proof/Machine/Ptp.lean ====
section
/-! DEFINITION. The PTP ports: every span sub-port is one (R256-R260). Times here are integers in units of 2⁻¹⁶ ns. -/

namespace Sys2Proof.Machine

def getPtp (s : State) (k : Nat) : PtpSt := tget {} s.ptp k

def modPtp (s : State) (k : Nat) (f : PtpSt → PtpSt) : State := { s with ptp := tmod {} s.ptp k f }

/-- Field of PTP_PORT.CFG of a sub-port. -/
def ptpCfg (s : State) (n u hi lo : Nat) : Nat := cfg s (offPtpPort n u) hi lo

/-- Data that best master selection works on: the device's own priority1 and priority2 and the announced data of every port (R256; log
13). -/
def announceData (s : State) : Bytes :=
  [BitVec.ofNat 8 (cfg s offPtpCfg 23 16), BitVec.ofNat 8 (cfg s offPtpCfg 31 24)] ++ s.ptp.flatMap fun e => match e.2.announce with
    | none => []
    | some a => natLe 2 e.1 ++ [a.priority1] ++ bytesOf 4 a.quality ++ [a.priority2] ++ bytesOf 8 a.gm ++ bytesOf 2 a.stepsRemoved

/-- Role of a port: 0 disabled, 1 master, 2 slave, 3 passive (R256, R257). -/
def ptpRole (s : State) (n u : Nat) : Nat :=
  if cfg s offPtpCfg 8 8 = 1 then ptpCfg s n u 5 4
  else (Config.bmcaRole s.boot.deviceId (announceData s) (subKey n u)).toNat

/-- The sub-port's link carries frames. -/
def linkLive (b : SubSt) : Bool := b.linkUp && match b.state with | .up | .plot | .miswired | .fenced => true | _ => false

/-- A PTP message that comes now is discarded: the sub-port trains, narrows or replays (R258). -/
def ptpBusy (b : SubSt) : Bool := b.state == .training || b.training || b.narrowing || b.replaying

/-- A frame as the port's CFG expects it: its transport, and one 802.1Q tag with its VLAN_ID or none (R256, R257). -/
def ptpExpected (s : State) (n u : Nat) (h : PtpHdr) : Bool :=
  h.transport.toNat == ptpCfg s n u 2 1 && h.vlan.map BitVec.toNat == (if ptpCfg s n u 18 18 = 1 then some (ptpCfg s n u 30 19) else none)

/-- delayAsymmetry of a port (R257). -/
def ptpAsym (s : State) (n u : Nat) : Int :=
  (BitVec.ofNat 32 (cfg s (offPtpPort n u + 8) 31 0)).toInt * 65536 / 1000

/-- Egress and ingress corrections of a sub-port (R258), in 2⁻⁴ ns, by its width in lanes and FEC setting. -/
def ptpCorr (s : State) (n u : Nat) : Nat × Nat :=
  let by_ (k : Nat) := if bitsOf (getSub s (subKey n u)).cfgIn.toNat 3 3 = 1 then k - 188 else k
  match (getSub s (subKey n u)).width.toNat with
  | 8 => (350, by_ 1380)
  | 4 => (370, by_ 1480)
  | 2 => (410, by_ 1670)
  | _ => (480, by_ 2100)

/-- The time now with the MAC's resolution of 2⁻⁴ ns (R258). -/
def macTime (s : State) : Int := (s.time.now.sec.toNat * 1000000000 * 65536 + s.time.now.acc.toNat / 2 ^ 28 * 4096 : Nat)

def egressTime (s : State) (n u : Nat) : Int := macTime s + (ptpCorr s n u).1 * 4096

def ingressTime (s : State) (n u : Nat) : Int := macTime s - (ptpCorr s n u).2 * 4096

/-- A PTP time in units of 2⁻¹⁶ ns. -/
def ptpTime16 (t : PtpTime) : Int := ((t.sec.toNat * 1000000000 + t.ns.toNat) * 65536 : Nat)

/-- The correctionField of a header. -/
def ptpCorrField (h : PtpHdr) : Int := h.correction.toInt

/-- Whether a message counts, is discarded, or meets no PTP port (R255, R256, R258); `event` for event messages. -/
def ptpTake (s : State) (n u : Nat) (h : PtpHdr) (event : Bool) : Option Bool :=
  let b := getSub s (subKey n u)
  if ptpCfg s n u 0 0 = 0 || !(linkLive b || b.state == .training || b.training) then none
  else some (!ptpBusy b && !(event && s.time.relock) && ptpExpected s n u h && h.domain.toNat == cfg s offPtpCfg 7 0 && ptpRole s n u != 0)

/-- A message is discarded (R257). -/
def ptpDiscard (s : State) (n u : Nat) : State := modPtp s (subKey n u) fun p => { p with discarded := p.discarded + 1 }

/-- An event message is counted (R257). -/
def ptpCountEvent (s : State) (n u : Nat) : State := modPtp s (subKey n u) fun p => { p with rxEvent := p.rxEvent + 1 }

/-- A received message: an event message is counted whatever becomes of it (R257); it is discarded, or taken with its effect. -/
def ptpReceive (s : State) (n u : Nat) (h : PtpHdr) (event : Bool) (f : State → State) : State :=
  let c := if event then ptpCountEvent s n u else s
  match ptpTake s n u h event with
  | none => s
  | some false => ptpDiscard c n u
  | some true => f c

/-! ### The MP's servo (R250; log 13) -/

/-- The next increment the servo writes: free within R248's range. -/
def freeIncr (s : State) : BitVec 36 := BitVec.ofNat 36 (2 ^ 32 - 2 ^ 22 + Config.servoIncr s.free % (2 ^ 23 + 1))

/-- Least bound of R259 at the device's depth, in ns, rounded up. -/
def depthBound (p : PtpSt) : Nat :=
  let h := match p.announce with | some a => a.stepsRemoved.toNat + 1 | none => 1
  (4 * h + 16 + 9) / 10

/-- The MP's servo acts on one Sync: increment, state and bound are its own choice, and a phase step while ACQUIRING (R249, R250). -/
def servoRun (s : State) (k : Nat) : State :=
  if hostOwnsServo s then s
  else
    let t0 := { s.time with incr := freeIncr s }
    let s0 := { s with time := t0, free := s.free + 1 }
    let stepIt := drawFree 1 s0
    let amount := drawFree 47 stepIt.2
    let wide := drawFree 32 amount.2
    let next := drawFree 1 wide.2
    let s1 := next.2
    let t1 := if stepIt.1 = 1 ∧ s.time.servo = 1 ∧ offsetOk s amount.1 then
      { s1.time with offsetAmount := amount.1, offsetPending := true } else s1.time
    let bound := BitVec.ofNat 32 (max wide.1.toNat (depthBound (getPtp s k)))
    { s1 with time := { t1 with
        bound := if boundOk s bound then bound else t1.bound
        servo := if s.time.holdover then 3 else if next.1 = 1 then 2 else 1 } }

/-! ### Received messages -/

/-- A Sync's offset is known: ingress time less corrected origin time; the servo uses it. -/
def syncDone (s : State) (n u : Nat) (d : Int) : State :=
  servoRun (modPtp s (subKey n u) fun p => { p with lastSync := some d, syncPending := none }) (subKey n u)

/-- PTP_SYNC (R256). -/
def execPtpSync (port : BitVec 6) (sub : BitVec 3) (h : PtpHdr) (origin : PtpTime) (s : State) : Out :=
  let n := port.toNat
  let u := sub.toNat
  .next (ptpReceive s n u h true fun s =>
    if ptpRole s n u ≠ 2 then s
    else
      let t2 := ingressTime s n u - ptpCorrField h - ptpAsym s n u
      if h.twoStep then modPtp s (subKey n u) fun p => { p with syncPending := some (h.seq, t2) }
      else syncDone s n u (t2 - ptpTime16 origin))

/-- PTP_FOLLOW_UP (R256). -/
def execPtpFollowUp (port : BitVec 6) (sub : BitVec 3) (h : PtpHdr) (origin : PtpTime) (s : State) : Out :=
  let n := port.toNat
  let u := sub.toNat
  .next (ptpReceive s n u h false fun s =>
    match (getPtp s (subKey n u)).syncPending with
    | some (q, t2) => if q = h.seq then syncDone s n u (t2 - ptpCorrField h - ptpTime16 origin) else s
    | none => s)

/-- The clock port number of a sub-port (R256). -/
def portNumber (n u : Nat) : Nat := 8 * n + u + 1

/-- Destination of a message (R256): MAC, IPv4 or IPv6 address; peer delay messages have their own. -/
def ptpDest (transport kind : Nat) : BitVec 128 :=
  let peer := decide (kind = 3) || decide (kind = 4)
  match transport with
  | 0 => if peer then 0x0180C200000E else 0x011B19000000
  | 1 => if peer then 0xE000006B else 0xE0000181
  | _ => if peer then 0xFF02000000000000000000000000006B else 0xFF0E0000000000000000000000000181

/-- A message in the frame of its port: transport, addresses, UDP port 319 for event messages and 320 for the others, tag, and what keeps
the UDP checksum right, the checksum over IPv4 and two octets appended over IPv6 (R256, R258); the device's own IP address, which the
checksum covers, is not given (log 13). -/
def ptpFramed (s : State) (n u : Nat) (m : PtpOut) : PtpOut :=
  let t := ptpCfg s n u 2 1
  let body := natLe 2 m.portNumber ++ [BitVec.ofNat 8 m.kind] ++ bytesOf 2 m.seq ++ bytesOf 6 m.sec ++ bytesOf 4 m.ns ++ bytesOf 8 m.correction
    ++ bytesOf 8 m.reqClock ++ bytesOf 2 m.reqPort
  { m with
    transport := BitVec.ofNat 2 t, dest := ptpDest t m.kind, udpPort := if t = 0 then 0 else if m.kind ≤ 4 then 319 else 320
    vlan := if ptpCfg s n u 18 18 = 1 then some (BitVec.ofNat 12 (ptpCfg s n u 30 19)) else none
    udpSum := if t = 1 then some (Config.udpChecksum s.boot.deviceId body) else none
    octets := if t = 2 then some (Config.udpOctets s.boot.deviceId body) else none }

/-- A message leaves a port; `t` is the time it carries, whose fraction goes to the correction with the sign given (R258). -/
def ptpSend (s : State) (n u kind : Nat) (seq : BitVec 16) (t corr : Int) (clock : BitVec 64) (rport : BitVec 16) : State :=
  let ns := t / 65536
  { s with ptpOut := some <| ptpFramed s n u {
      kind, portNumber := portNumber n u, seq, sec := BitVec.ofInt 48 (ns / 1000000000), ns := BitVec.ofInt 32 (ns % 1000000000)
      correction := BitVec.ofInt 64 corr, reqClock := clock, reqPort := rport, announce := none, traceable := !s.time.holdover } }

/-- PTP_DELAY_REQ (R256): a master answers with Delay_Resp. -/
def execPtpDelayReq (port : BitVec 6) (sub : BitVec 3) (h : PtpHdr) (s : State) : Out :=
  let n := port.toNat
  let u := sub.toNat
  .next (ptpReceive s n u h true fun s =>
    if ptpRole s n u = 1 ∧ ptpCfg s n u 3 3 = 0 then
      let t4 := ingressTime s n u
      ptpSend s n u 6 h.seq t4 (ptpCorrField h - t4 % 65536) h.sourceClock h.sourcePort
    else s)

/-- A delay is measured: MEAN_PS (R257). -/
def setMean (s : State) (k : Nat) (d : Int) : State :=
  modPtp s k fun p => { p with meanPs := BitVec.ofInt 32 (d * 1000 / 65536) }

/-- The answer names this port's request. -/
def ptpOurs (s : State) (n u : Nat) (clock : BitVec 64) (rport : BitVec 16) : Bool :=
  clock == s.boot.deviceId && rport.toNat == portNumber n u

/-- PTP_DELAY_RESP (R256). -/
def execPtpDelayResp (port : BitVec 6) (sub : BitVec 3) (h : PtpHdr) (receive : PtpTime) (reqClock : BitVec 64)
    (reqPort : BitVec 16) (s : State) : Out :=
  let n := port.toNat
  let u := sub.toNat
  .next (ptpReceive s n u h false fun s =>
    match (getPtp s (subKey n u)).reqSent, (getPtp s (subKey n u)).lastSync with
    | some (q, t3), some d =>
      if q = h.seq ∧ ptpOurs s n u reqClock reqPort ∧ ptpCfg s n u 3 3 = 0 then
        setMean (modPtp s (subKey n u) fun p => { p with reqSent := none }) (subKey n u)
          ((d + (ptpTime16 receive - ptpCorrField h - t3)) / 2)
      else s
    | _, _ => s)

/-- PTP_PDELAY_REQ (R258): answered one-step, with the turnaround in correctionField and zero in requestReceiptTimestamp. -/
def execPtpPdelayReq (port : BitVec 6) (sub : BitVec 3) (h : PtpHdr) (s : State) : Out :=
  let n := port.toNat
  let u := sub.toNat
  .next (ptpReceive s n u h true fun s =>
    if ptpCfg s n u 3 3 = 1 then
      ptpSend s n u 4 h.seq 0 (ptpCorrField h + (egressTime s n u - ingressTime s n u)) h.sourceClock h.sourcePort
    else s)

/-- PTP_PDELAY_RESP (R256): one-step it completes a measurement; two-step it waits for its follow-up. -/
def execPtpPdelayResp (port : BitVec 6) (sub : BitVec 3) (h : PtpHdr) (receipt : PtpTime) (reqClock : BitVec 64)
    (reqPort : BitVec 16) (s : State) : Out :=
  let n := port.toNat
  let u := sub.toNat
  .next (ptpReceive s n u h true fun s =>
    match (getPtp s (subKey n u)).reqSent with
    | some (q, t1) =>
      if q = h.seq ∧ ptpOurs s n u reqClock reqPort ∧ ptpCfg s n u 3 3 = 1 then
        let trip := ingressTime s n u - t1 - ptpCorrField h - ptpAsym s n u
        let s1 := modPtp s (subKey n u) fun p => { p with reqSent := none }
        if h.twoStep then modPtp s1 (subKey n u) fun p => { p with pdelayPending := some (h.seq, trip + ptpTime16 receipt) }
        else setMean s1 (subKey n u) (trip / 2)
      else s
    | none => s)

/-- PTP_PDELAY_RESP_FOLLOW_UP (R256). -/
def execPtpPdelayRespFollowUp (port : BitVec 6) (sub : BitVec 3) (h : PtpHdr) (origin : PtpTime) (reqClock : BitVec 64)
    (reqPort : BitVec 16) (s : State) : Out :=
  let n := port.toNat
  let u := sub.toNat
  .next (ptpReceive s n u h false fun s =>
    match (getPtp s (subKey n u)).pdelayPending with
    | some (q, d) =>
      if q = h.seq ∧ ptpOurs s n u reqClock reqPort then
        setMean (modPtp s (subKey n u) fun p => { p with pdelayPending := none }) (subKey n u)
          ((d - ptpTime16 origin - ptpCorrField h) / 2)
      else s
    | none => s)

/-- PTP_ANNOUNCE (R256): kept for selection unless stepsRemoved is 16 or more. -/
def execPtpAnnounce (port : BitVec 6) (sub : BitVec 3) (h : PtpHdr) (b : PtpAnnounceBody) (s : State) : Out :=
  .next (ptpReceive s port.toNat sub.toNat h false fun s =>
    if b.stepsRemoved.toNat ≥ 16 then s
    else modPtp s (subKey port.toNat sub.toNat) fun p => { p with announce := some b })

/-- PTP_UNSUPPORTED (R256). -/
def execPtpUnsupported (port : BitVec 6) (sub : BitVec 3) (s : State) : Out :=
  .next (if ptpCfg s port.toNat sub.toNat 0 0 = 1 then ptpDiscard s port.toNat sub.toNat else s)

/-! ### Timers -/

/-- A port may send a message of its role; event messages stop while the timebase relocks (R255). -/
def ptpMaySend (s : State) (n u : Nat) (event : Bool) : Bool :=
  let b := getSub s (subKey n u)
  ptpCfg s n u 0 0 == 1 && linkLive b && !ptpBusy b && !(event && s.time.relock)

/-- PTP_SYNC_TIMER (R256, R258): a master sends a one-step Sync. -/
def execPtpSyncTimer (port : BitVec 6) (sub : BitVec 3) (s : State) : Out :=
  let n := port.toNat
  let u := sub.toNat
  .next (
    if ptpMaySend s n u true ∧ ptpRole s n u = 1 then
      let t := egressTime s n u
      let s1 := ptpSend s n u 1 (getPtp s (subKey n u)).syncSeq t (t % 65536) 0 0
      modPtp s1 (subKey n u) fun p => { p with syncSeq := p.syncSeq + 1 }
    else s)

/-- PTP_DELAY_REQ_TIMER (R256): Delay_Req from a slave, or Pdelay_Req under peer delay. -/
def execPtpDelayReqTimer (port : BitVec 6) (sub : BitVec 3) (s : State) : Out :=
  let n := port.toNat
  let u := sub.toNat
  let peer := ptpCfg s n u 3 3 == 1
  .next (
    if ptpMaySend s n u true && (if peer then ptpRole s n u != 0 else ptpRole s n u == 2) then
      let q := (getPtp s (subKey n u)).delaySeq
      let s1 := ptpSend s n u (if peer then 3 else 2) q 0 (-(ptpAsym s n u)) 0 0
      modPtp s1 (subKey n u) fun p => { p with delaySeq := q + 1, reqSent := some (q, egressTime s n u) }
    else s)

/-- The data set of a slave port, if any: the parent's announced data. -/
def parentData (s : State) : Option PtpAnnounceBody :=
  (s.ptp.find? fun e => ptpRole s (e.1 / 8) (e.1 % 8) == 2 && e.2.announce.isSome).bind fun e => e.2.announce

/-- What this device announces: the parent's grandmaster one step on, or itself, whose clockQuality the manual does not give. -/
def ownAnnounce (s : State) : PtpAnnounceBody × State :=
  match parentData s with
  | some a => ({ a with stepsRemoved := a.stepsRemoved + 1 }, s)
  | none =>
    let q := drawFree 32 s
    let f := drawFree 16 q.2
    ({ priority1 := BitVec.ofNat 8 (cfg s offPtpCfg 23 16), quality := q.1, priority2 := BitVec.ofNat 8 (cfg s offPtpCfg 31 24)
       gm := s.boot.deviceId, stepsRemoved := 0, flags := f.1 }, f.2)

/-- PTP_ANNOUNCE_TIMER (R256, R252). -/
def execPtpAnnounceTimer (port : BitVec 6) (sub : BitVec 3) (s : State) : Out :=
  let n := port.toNat
  let u := sub.toNat
  .next (
    if ptpMaySend s n u false ∧ ptpRole s n u = 1 then
      let a := ownAnnounce s
      let out : PtpOut := {
        kind := 5, portNumber := portNumber n u, seq := (getPtp s (subKey n u)).announceSeq, sec := 0, ns := 0, correction := 0
        reqClock := 0, reqPort := 0, announce := some a.1, traceable := !s.time.holdover }
      modPtp { a.2 with ptpOut := some (ptpFramed s n u out) } (subKey n u) fun p => { p with announceSeq := p.announceSeq + 1 }
    else s)

end Sys2Proof.Machine
end

