-- ==== Sys2Proof/Machine/Dispatch.lean ====
section
/-! DEFINITION. The meaning of each command, by one arm per constructor. -/

namespace Sys2Proof.Machine

/-- The effect of a command on everything but the queue of commands. -/
def exec (i : Instr) (s : State) : Host.Outcome State Fault Refusal :=
  match i with
  | .matrixWait c j n => Sys2Proof.Machine.execMatrixWait c j n s
  | .mldw c j bank fmtW src => Sys2Proof.Machine.execMldw c j bank fmtW src s
  | .manc c j row0 nr fmtA fmtW q asrc wsrc => Sys2Proof.Machine.execManc c j row0 nr fmtA fmtW q asrc wsrc s
  | .macc c j row0 nr fmtA bank asrc next nfmt nsrc => Sys2Proof.Machine.execMacc c j row0 nr fmtA bank asrc next nfmt nsrc s
  | .mwout c j row0 nr fmtO cols aen dst adst => Sys2Proof.Machine.execMwout c j row0 nr fmtO cols aen dst adst s
  | .mwexp c j row0 nr dst => Sys2Proof.Machine.execMwexp c j row0 nr dst s
  | .mwadd c j row0 nr src => Sys2Proof.Machine.execMwadd c j row0 nr src s
  | .vectorWait c j n => Sys2Proof.Machine.execVectorWait c j n s
  | .vop c j op ty vd va vb vc km => Sys2Proof.Machine.execVop c j op ty vd va vb vc km s
  | .vfn c j fn ti tt vd va km => Sys2Proof.Machine.execVfn c j fn ti tt vd va km s
  | .vcmp c j cmp ty kd va vb km => Sys2Proof.Machine.execVcmp c j cmp ty kd va vb km s
  | .vsel c j vd va vb ks => Sys2Proof.Machine.execVsel c j vd va vb ks s
  | .vkop c j kop kd ka kb => Sys2Proof.Machine.execVkop c j kop kd ka kb s
  | .vimm c j vd imm km => Sys2Proof.Machine.execVimm c j vd imm km s
  | .viota c j vd base => Sys2Proof.Machine.execViota c j vd base s
  | .vcvt c j ti tt vd va km => Sys2Proof.Machine.execVcvt c j ti tt vd va km s
  | .vld c j vd ty src => Sys2Proof.Machine.execVld c j vd ty src s
  | .vst c j va ty dst km => Sys2Proof.Machine.execVst c j va ty dst km s
  | .vldx c j vd vx base limit => Sys2Proof.Machine.execVldx c j vd vx base limit s
  | .vstx c j va vx base limit => Sys2Proof.Machine.execVstx c j va vx base limit s
  | .vldq c j vd nr kc fmt src => Sys2Proof.Machine.execVldq c j vd nr kc fmt src s
  | .vqnt c j va nr kc fmtO row0 vx dst => Sys2Proof.Machine.execVqnt c j va nr kc fmtO row0 vx dst s
  | .vlda c j vd src => Sys2Proof.Machine.execVlda c j vd src s
  | .vsta c j va dst => Sys2Proof.Machine.execVsta c j va dst s
  | .vwanc c j row mode bc vx vy => Sys2Proof.Machine.execVwanc c j row mode bc vx vy s
  | .vrsum c j row dir ty va km => Sys2Proof.Machine.execVrsum c j row dir ty va km s
  | .vrdot c j row dir ty va vb km => Sys2Proof.Machine.execVrdot c j row dir ty va vb km s
  | .vwout c j vd row ty km => Sys2Proof.Machine.execVwout c j vd row ty km s
  | .vwexp c j row dst => Sys2Proof.Machine.execVwexp c j row dst s
  | .vwadd c j row src => Sys2Proof.Machine.execVwadd c j row src s
  | .vanch c j vd va ty hm mg km => Sys2Proof.Machine.execVanch c j vd va ty hm mg km s
  | .vrmax c j vd va ty km => Sys2Proof.Machine.execVrmax c j vd va ty km s
  | .vtopk c j lv li va vi k init km => Sys2Proof.Machine.execVtopk c j lv li va vi k init km s
  | .vsamp c j vd lv li vp k => Sys2Proof.Machine.execVsamp c j vd lv li vp k s
  | .vrng c j vd vt vq vs stream wd => Sys2Proof.Machine.execVrng c j vd vt vq vs stream wd s
  | .vdisp c j vs vf ve vcap nc nt cont => Sys2Proof.Machine.execVdisp c j vs vf ve vcap nc nt cont s
  | .transferWait c j n => Sys2Proof.Machine.execTransferWait c j n s
  | .xmov c j set flip rows drops soff doff done cport => Sys2Proof.Machine.execXmov c j set flip rows drops soff doff done cport s
  | .xreg c j reg value => Sys2Proof.Machine.execXreg c j reg value s
  | .xflip c j mask => Sys2Proof.Machine.execXflip c j mask s
  | .moverRead m => Sys2Proof.Machine.execMoverRead m s
  | .moverWrite m => Sys2Proof.Machine.execMoverWrite m s
  | .scribeWait c n => Sys2Proof.Machine.execScribeWait c n s
  | .alu c op gd sa sb => Sys2Proof.Machine.execAlu c op gd sa sb s
  | .alui c op gd sa imm => Sys2Proof.Machine.execAlui c op gd sa imm s
  | .movi c gd imm => Sys2Proof.Machine.execMovi c gd imm s
  | .ld c gd sa off w => Sys2Proof.Machine.execLd c gd sa off w s
  | .st c ss sa off w => Sys2Proof.Machine.execSt c ss sa off w s
  | .ldc c gd idx => Sys2Proof.Machine.execLdc c gd idx s
  | .jmp c target => Sys2Proof.Machine.execJmp c target s
  | .br c cond sa sb target => Sys2Proof.Machine.execBr c cond sa sb target s
  | .lset c lk sa imm => Sys2Proof.Machine.execLset c lk sa imm s
  | .lend c lk target => Sys2Proof.Machine.execLend c lk target s
  | .endOp c => Sys2Proof.Machine.execEnd c s
  | .push c j tpl sa sb sc => Sys2Proof.Machine.execPush c j tpl sa sb sc s
  | .pushr c j ga => Sys2Proof.Machine.execPushr c j ga s
  | .xwr c x reg sa => Sys2Proof.Machine.execXwr c x reg sa s
  | .csend c port ga => Sys2Proof.Machine.execCsend c port ga s
  | .cwait c port n => Sys2Proof.Machine.execCwait c port n s
  | .tread c od what => Sys2Proof.Machine.execTread c od what s
  | .note c dest tag sa sb => Sys2Proof.Machine.execNote c dest tag sa sb s
  | .waitResume u => Sys2Proof.Machine.execWaitResume u s
  | .launchTick => Sys2Proof.Machine.execLaunchTick s
  | .localEnd => Sys2Proof.Machine.execLocalEnd s
  | .stepCommit => Sys2Proof.Machine.execStepCommit s
  | .stepBoundary host => Sys2Proof.Machine.execStepBoundary host s
  | .epochReloadDone => Sys2Proof.Machine.execEpochReloadDone s
  | .stepVoid addr => Sys2Proof.Machine.execStepVoid addr s
  | .stepReexecute => Sys2Proof.Machine.execStepReexecute s
  | .memoryUncorrectable addr requester index => Sys2Proof.Machine.execMemoryUncorrectable addr requester index s
  | .watchdogExpiry => Sys2Proof.Machine.execWatchdogExpiry s
  | .census port sub h tag armed refused reasons firstRefused maxBound => Sys2Proof.Machine.execCensus port sub h tag armed refused reasons firstRefused maxBound s
  | .censusWaitExpiry tree => Sys2Proof.Machine.execCensusWaitExpiry tree s
  | .digest port sub h d => Sys2Proof.Machine.execDigest port sub h d s
  | .commitMessage port sub h tag sec ns => Sys2Proof.Machine.execCommitMessage port sub h tag sec ns s
  | .endNotice port sub h count status => Sys2Proof.Machine.execEndNotice port sub h count status s
  | .hold port sub h hport hsub dryMs => Sys2Proof.Machine.execHold port sub h hport hsub dryMs s
  | .holdEnd port sub h hport hsub dryMs outcome => Sys2Proof.Machine.execHoldEnd port sub h hport hsub dryMs outcome s
  | .holdLapse origin step hport hsub => Sys2Proof.Machine.execHoldLapse origin step hport hsub s
  | .staged port sub h epoch adapter => Sys2Proof.Machine.execStaged port sub h epoch adapter s
  | .armExpiry => Sys2Proof.Machine.execArmExpiry s
  | .timeSetLoad => Sys2Proof.Machine.execTimeSetLoad s
  | .phaseStepApply => Sys2Proof.Machine.execPhaseStepApply s
  | .tbaseNowRead => Sys2Proof.Machine.execTbaseNowRead s
  | .refFail ref => Sys2Proof.Machine.execRefFail ref s
  | .refPass ref => Sys2Proof.Machine.execRefPass ref s
  | .holdoverBoundTick => Sys2Proof.Machine.execHoldoverBoundTick s
  | .regionStopEnd region ns => Sys2Proof.Machine.execRegionStopEnd region ns s
  | .ppsInEdge => Sys2Proof.Machine.execPpsInEdge s
  | .ppsStuck => Sys2Proof.Machine.execPpsStuck s
  | .ppsOutSecond => Sys2Proof.Machine.execPpsOutSecond s
  | .ppsOutFall => Sys2Proof.Machine.execPpsOutFall s
  | .ptpSync port sub h origin => Sys2Proof.Machine.execPtpSync port sub h origin s
  | .ptpFollowUp port sub h origin => Sys2Proof.Machine.execPtpFollowUp port sub h origin s
  | .ptpDelayReq port sub h => Sys2Proof.Machine.execPtpDelayReq port sub h s
  | .ptpDelayResp port sub h receive reqClock reqPort => Sys2Proof.Machine.execPtpDelayResp port sub h receive reqClock reqPort s
  | .ptpPdelayReq port sub h => Sys2Proof.Machine.execPtpPdelayReq port sub h s
  | .ptpPdelayResp port sub h receipt reqClock reqPort => Sys2Proof.Machine.execPtpPdelayResp port sub h receipt reqClock reqPort s
  | .ptpPdelayRespFollowUp port sub h origin reqClock reqPort => Sys2Proof.Machine.execPtpPdelayRespFollowUp port sub h origin reqClock reqPort s
  | .ptpAnnounce port sub h b => Sys2Proof.Machine.execPtpAnnounce port sub h b s
  | .ptpUnsupported port sub => Sys2Proof.Machine.execPtpUnsupported port sub s
  | .ptpSyncTimer port sub => Sys2Proof.Machine.execPtpSyncTimer port sub s
  | .ptpDelayReqTimer port sub => Sys2Proof.Machine.execPtpDelayReqTimer port sub s
  | .ptpAnnounceTimer port sub => Sys2Proof.Machine.execPtpAnnounceTimer port sub s
  | .paceFreeUpdate => Sys2Proof.Machine.execPaceFreeUpdate s
  | .avsReadback answers powerW tjC => Sys2Proof.Machine.execAvsReadback answers powerW tjC s
  | .trainingComplete port sub ok reversed termFault inverted => Sys2Proof.Machine.execTrainingComplete port sub ok reversed termFault inverted s
  | .penHolderWaitExpiry port sub => Sys2Proof.Machine.execPenHolderWaitExpiry port sub s
  | .handshake port sub m => Sys2Proof.Machine.execHandshake port sub m s
  | .handshakeTimer port sub => Sys2Proof.Machine.execHandshakeTimer port sub s
  | .laneFault port sub lanes => Sys2Proof.Machine.execLaneFault port sub lanes s
  | .narrowReq port sub lanes => Sys2Proof.Machine.execNarrowReq port sub lanes s
  | .narrow port sub lanes width opNum => Sys2Proof.Machine.execNarrow port sub lanes width opNum s
  | .narrowDone port sub opNum rxExpect => Sys2Proof.Machine.execNarrowDone port sub opNum rxExpect s
  | .linkRetrain port sub => Sys2Proof.Machine.execLinkRetrain port sub s
  | .widenReq port sub lanes => Sys2Proof.Machine.execWidenReq port sub lanes s
  | .linkOpRepeatTimer port sub => Sys2Proof.Machine.execLinkOpRepeatTimer port sub s
  | .realignDone port sub ok => Sys2Proof.Machine.execRealignDone port sub ok s
  | .retrain port sub => Sys2Proof.Machine.execRetrain port sub s
  | .widen port sub => Sys2Proof.Machine.execWiden port sub s
  | .spanFrame port sub f => Sys2Proof.Machine.execSpanFrame port sub f s
  | .data port sub chan drops => Sys2Proof.Machine.execData port sub chan drops s
  | .commitGrain port sub chan step count rec report => Sys2Proof.Machine.execCommitGrain port sub chan step count rec report s
  | .void port sub chan step attempt => Sys2Proof.Machine.execVoid port sub chan step attempt s
  | .credit port sub entries => Sys2Proof.Machine.execCredit port sub entries s
  | .launch port sub payload => Sys2Proof.Machine.execLaunch port sub payload s
  | .telemetry port sub payload => Sys2Proof.Machine.execTelemetry port sub payload s
  | .bulkStart port sub epoch block length => Sys2Proof.Machine.execBulkStart port sub epoch block length s
  | .bulkData port sub payload => Sys2Proof.Machine.execBulkData port sub payload s
  | .bulkAck port sub epoch block => Sys2Proof.Machine.execBulkAck port sub epoch block s
  | .bulkNack port sub epoch block position => Sys2Proof.Machine.execBulkNack port sub epoch block position s
  | .frameSend port sub => Sys2Proof.Machine.execFrameSend port sub s
  | .ackTimer port sub => Sys2Proof.Machine.execAckTimer port sub s
  | .replayTimer port sub => Sys2Proof.Machine.execReplayTimer port sub s
  | .replayCaughtUp port sub => Sys2Proof.Machine.execReplayCaughtUp port sub s
  | .flushTimer port sub chan => Sys2Proof.Machine.execFlushTimer port sub chan s
  | .keepaliveTimer port sub => Sys2Proof.Machine.execKeepaliveTimer port sub s
  | .keepaliveExpiry port sub => Sys2Proof.Machine.execKeepaliveExpiry port sub s
  | .linkDown port sub => Sys2Proof.Machine.execLinkDown port sub s
  | .linkUp port sub => Sys2Proof.Machine.execLinkUp port sub s
  | .dryTimeExpiry port sub => Sys2Proof.Machine.execDryTimeExpiry port sub s
  | .fencePort ring port sub => Sys2Proof.Machine.execFencePort ring port sub s
  | .unfencePort ring port sub => Sys2Proof.Machine.execUnfencePort ring port sub s
  | .stackStepDown stack tempC => Sys2Proof.Machine.execStackStepDown stack tempC s
  | .stackStepUp stack tempC => Sys2Proof.Machine.execStackStepUp stack tempC s
  | .ddrThermal m => Sys2Proof.Machine.execDdrThermal m s
  | .ddrRetrain m ok => Sys2Proof.Machine.execDdrRetrain m ok s
  | .patrolRead addr outcome => Sys2Proof.Machine.execPatrolRead addr outcome s
  | .rateReq m rate => Sys2Proof.Machine.execRateReq m rate s
  | .hostLinkDown => Sys2Proof.Machine.execHostLinkDown s
  | .hostLinkUp width => Sys2Proof.Machine.execHostLinkUp width s
  | .linkTimeout ring seq => Sys2Proof.Machine.execLinkTimeout ring seq s
  | .hostWritePacket addr data => Sys2Proof.Machine.execHostWritePacket addr data s
  | .hostAccess write addr data uncorrectable => Sys2Proof.Machine.execHostAccess write addr data uncorrectable s
  | .doorbell ring tail host => Sys2Proof.Machine.execDoorbell ring tail host s
  | .ringWaitResume ring host => Sys2Proof.Machine.execRingWaitResume ring host s
  | .irqClear mask => Sys2Proof.Machine.execIrqClear mask s
  | .openPlot ring b host => Sys2Proof.Machine.execOpenPlot ring b host s
  | .closePlot ring flags => Sys2Proof.Machine.execClosePlot ring flags s
  | .scrub ring => Sys2Proof.Machine.execScrub ring s
  | .scrubComplete ms badChannel => Sys2Proof.Machine.execScrubComplete ms badChannel s
  | .loadSheet ring host length digest => Sys2Proof.Machine.execLoadSheet ring host length digest s
  | .loadSheetComplete host => Sys2Proof.Machine.execLoadSheetComplete host s
  | .flipSheet ring => Sys2Proof.Machine.execFlipSheet ring s
  | .arm ring digest rec => Sys2Proof.Machine.execArm ring digest rec s
  | .commit ring sec ns => Sys2Proof.Machine.execCommit ring sec ns s
  | .admitReq ring b => Sys2Proof.Machine.execAdmit ring b s
  | .cancel ring slot rid => Sys2Proof.Machine.execCancel ring slot rid s
  | .pause ring slot rid => Sys2Proof.Machine.execPause ring slot rid s
  | .resume ring slot rid => Sys2Proof.Machine.execResume ring slot rid s
  | .setDeadline ring slot rid sec ns => Sys2Proof.Machine.execSetDeadline ring slot rid sec ns s
  | .evictTimer slot => Sys2Proof.Machine.execEvictTimer slot s
  | .drainLimitExpiry => Sys2Proof.Machine.execDrainLimitExpiry s
  | .sealSigned slot => Sys2Proof.Machine.execSealSigned slot s
  | .checkpoint ring step kind addr len => Sys2Proof.Machine.execCheckpoint ring step kind addr len s
  | .checkpointWritten => Sys2Proof.Machine.execCheckpointWritten s
  | .restore ring kind addr len digest => Sys2Proof.Machine.execRestore ring kind addr len digest s
  | .timeSet ring sec ns frac => Sys2Proof.Machine.execTimeSet ring sec ns frac s
  | .timeAdjust ring valid incr offset boundNs servo => Sys2Proof.Machine.execTimeAdjust ring valid incr offset boundNs servo s
  | .query ring what index count dest len => Sys2Proof.Machine.execQuery ring what index count dest len s
  | .blotterDrain ring classes dest len => Sys2Proof.Machine.execBlotterDrain ring classes dest len s
  | .loadManifest ring b => Sys2Proof.Machine.execLoadManifest ring b s
  | .manifestTimeout epoch adapter => Sys2Proof.Machine.execManifestTimeout epoch adapter s
  | .loadBlock ring epoch block host length => Sys2Proof.Machine.execLoadBlock ring epoch block host length s
  | .activateEpoch ring epoch mode => Sys2Proof.Machine.execActivateEpoch ring epoch mode s
  | .updateBegin ring target version length blocks digest => Sys2Proof.Machine.execUpdateBegin ring target version length blocks digest s
  | .updateBlock ring index host length digest => Sys2Proof.Machine.execUpdateBlock ring index host length digest s
  | .updateActivate ring target => Sys2Proof.Machine.execUpdateActivate ring target s
  | .updateConfirm ring => Sys2Proof.Machine.execUpdateConfirm ring s
  | .firmwareReady target => Sys2Proof.Machine.execFirmwareReady target s
  | .trialReadyTimeout target => Sys2Proof.Machine.execTrialReadyTimeout target s
  | .attestQuote ring nonce dest len => Sys2Proof.Machine.execAttestQuote ring nonce dest len s
  | .debugGrant ring addr length host => Sys2Proof.Machine.execDebugGrant ring addr length host s
  | .grantExpiry => Sys2Proof.Machine.execGrantExpiry s
  | .saltWrite tenant salt => Sys2Proof.Machine.execSaltWrite tenant salt s
  | .bedrockBegin item => Sys2Proof.Machine.execBedrockBegin item s
  | .bedrockChunk item => Sys2Proof.Machine.execBedrockChunk item s
  | .bedrockEnd item => Sys2Proof.Machine.execBedrockEnd item s
  | .bedrockRestart => Sys2Proof.Machine.execBedrockRestart s
  | .coalesceWindowClose cls cause locator => Sys2Proof.Machine.execCoalesceWindowClose cls cause locator s
  | .alarmClear mask => Sys2Proof.Machine.execAlarmClear mask s
  | .clearCounts => Sys2Proof.Machine.execClearCounts s
  | .telemetryFlushTimer => Sys2Proof.Machine.execTelemetryFlushTimer s
  | .setdasa static dynamic => Sys2Proof.Machine.execSetdasa static dynamic s
  | .setEndpointId eid => Sys2Proof.Machine.execSetEndpointId eid s
  | .getEndpointId => Sys2Proof.Machine.execGetEndpointId s
  | .getMctpVersionSupport msgType => Sys2Proof.Machine.execGetMctpVersionSupport msgType s
  | .getMessageTypeSupport => Sys2Proof.Machine.execGetMessageTypeSupport s
  | .getVendorDefinedMessageSupport selector => Sys2Proof.Machine.execGetVendorDefinedMessageSupport selector s
  | .mctpRead => Sys2Proof.Machine.execMctpRead s
  | .mctpCounts cls => Sys2Proof.Machine.execMctpCounts cls s
  | .mctpStatus => Sys2Proof.Machine.execMctpStatus s
  | .tapGrant grant => Sys2Proof.Machine.execTapGrant grant s
  | .xferRead addr => Sys2Proof.Machine.execXferRead addr s
  | .xferWrite addr value => Sys2Proof.Machine.execXferWrite addr value s
  | .extest pins => Sys2Proof.Machine.execExtest pins s
  | .tapReset => Sys2Proof.Machine.execTapReset s
  | .debugHalt reach core => Sys2Proof.Machine.execDebugHalt reach core s
  | .debugResume reach core => Sys2Proof.Machine.execDebugResume reach core s
  | .debugStep core tile kind => Sys2Proof.Machine.execDebugStep core tile kind s
  | .haltDryExpiry => Sys2Proof.Machine.execHaltDryExpiry s
  | .registerWrite offset value => Sys2Proof.Machine.execRegisterWrite offset value s
  | .powerUp => Sys2Proof.Machine.execPowerUp s
  | .pwrgoodAssert => Sys2Proof.Machine.execPwrgoodAssert s
  | .resetNRelease v => Sys2Proof.Machine.execResetNRelease v s
  | .referenceWaitAlert => Sys2Proof.Machine.execReferenceWaitAlert s
  | .warmReset => Sys2Proof.Machine.execWarmReset s
  | .pwrgoodFall => Sys2Proof.Machine.execPwrgoodFall s
  | .railFault rail => Sys2Proof.Machine.execRailFault rail s
  | .thermalTrip sensor tempC => Sys2Proof.Machine.execThermalTrip sensor tempC s
  | .openPlotWaitExpiry => Sys2Proof.Machine.execOpenPlotWaitExpiry s
  | .restoreComplete host => Sys2Proof.Machine.execRestoreComplete host s
  | .hostReadComplete ring seq host => Sys2Proof.Machine.execHostReadComplete ring seq host s
  | .controllerLost target die => Sys2Proof.Machine.execControllerLost target die s
  | .selfTest failing => Sys2Proof.Machine.execSelfTest failing s

end Sys2Proof.Machine
end

