-- ==== Sys2Proof/WellFormed.lean ====
section
/-! DEFINITION. Which commands the hardware can be given: the operand ranges that the widths of the fields do not already impose. -/

namespace Sys2Proof

/-- A matrix tile of a core (R12). -/
def matrixTile (j : BitVec 5) : Bool := decide (j.toNat < 12)

/-- A vector tile of a core (R12). -/
def vectorTile (j : BitVec 5) : Bool := decide (12 ≤ j.toNat) && decide (j.toNat < 20)

/-- A transfer tile of a core (R12). -/
def transferTile (j : BitVec 5) : Bool := decide (20 ≤ j.toNat) && decide (j.toNat < 24)

/-- An engine tile of a core (R12). -/
def engineTile (j : BitVec 5) : Bool := decide (j.toNat < 24)

/-- A unit of the device. -/
def unitOk : UnitRef → Bool
  | .scribe _ => true
  | .tile _ j => engineTile j
  | .mover _ => true

/-- A span port of the device (R26). -/
def spanPort (p : BitVec 6) : Bool := decide (p.toNat < 50)

/-- The drops of a DATA grain (R297). -/
def grainLoad (ds : List Drop) : Bool := decide (1 ≤ ds.length) && decide (ds.length ≤ 4)

/-- A command whose operands name parts that the hardware has. -/
def wellFormed (i : Instr) : Bool :=
  match i with
  | .matrixWait _ j _ => matrixTile j
  | .mldw _ j _ _ _ => matrixTile j
  | .manc _ j _ _ _ _ _ _ _ => matrixTile j
  | .macc _ j _ _ _ _ _ _ _ _ => matrixTile j
  | .mwout _ j _ _ _ _ _ _ _ => matrixTile j
  | .mwexp _ j _ _ _ => matrixTile j
  | .mwadd _ j _ _ _ => matrixTile j
  | .vectorWait _ j _ => vectorTile j
  | .vop _ j _ _ _ _ _ _ _ => vectorTile j
  | .vfn _ j _ _ _ _ _ _ => vectorTile j
  | .vcmp _ j _ _ _ _ _ _ => vectorTile j
  | .vsel _ j _ _ _ _ => vectorTile j
  | .vkop _ j _ _ _ _ => vectorTile j
  | .vimm _ j _ _ _ => vectorTile j
  | .viota _ j _ _ => vectorTile j
  | .vcvt _ j _ _ _ _ _ => vectorTile j
  | .vld _ j _ _ _ => vectorTile j
  | .vst _ j _ _ _ _ => vectorTile j
  | .vldx _ j _ _ _ _ => vectorTile j
  | .vstx _ j _ _ _ _ => vectorTile j
  | .vldq _ j _ _ _ _ _ => vectorTile j
  | .vqnt _ j _ _ _ _ _ _ _ => vectorTile j
  | .vlda _ j _ _ => vectorTile j
  | .vsta _ j _ _ => vectorTile j
  | .vwanc _ j _ _ _ _ _ => vectorTile j
  | .vrsum _ j _ _ _ _ _ => vectorTile j
  | .vrdot _ j _ _ _ _ _ _ => vectorTile j
  | .vwout _ j _ _ _ _ => vectorTile j
  | .vwexp _ j _ _ => vectorTile j
  | .vwadd _ j _ _ => vectorTile j
  | .vanch _ j _ _ _ _ _ _ => vectorTile j
  | .vrmax _ j _ _ _ _ => vectorTile j
  | .vtopk _ j _ _ _ _ _ _ _ => vectorTile j
  | .vsamp _ j _ _ _ _ _ => vectorTile j
  | .vrng _ j _ _ _ _ _ _ => vectorTile j
  | .vdisp _ j _ _ _ _ _ _ _ => vectorTile j
  | .transferWait _ j _ => transferTile j
  | .xmov _ j _ _ _ _ _ _ _ _ => transferTile j
  | .xreg _ j _ _ => transferTile j
  | .xflip _ j _ => transferTile j
  | .moverRead _ => true
  | .moverWrite _ => true
  | .scribeWait _ _ => true
  | .alu _ _ _ _ _ => true
  | .alui _ _ _ _ _ => true
  | .movi _ _ _ => true
  | .ld _ _ _ _ _ => true
  | .st _ _ _ _ _ => true
  | .ldc _ _ _ => true
  | .jmp _ _ => true
  | .br _ _ _ _ _ => true
  | .lset _ _ _ _ => true
  | .lend _ _ _ => true
  | .endOp _ => true
  | .push _ j _ _ _ _ => engineTile j
  | .pushr _ j _ => engineTile j
  | .xwr _ _ _ _ => true
  | .csend _ _ _ => true
  | .cwait _ _ _ => true
  | .tread _ _ _ => true
  | .note _ _ _ _ _ => true
  | .waitResume u => unitOk u
  | .launchTick => true
  | .localEnd => true
  | .stepCommit => true
  | .stepBoundary _ => true
  | .epochReloadDone => true
  | .stepVoid _ => true
  | .stepReexecute => true
  | .memoryUncorrectable _ _ _ => true
  | .watchdogExpiry => true
  | .census port _ _ _ _ _ _ _ _ => spanPort port
  | .censusWaitExpiry _ => true
  | .digest port _ _ _ => spanPort port
  | .commitMessage port _ _ _ _ _ => spanPort port
  | .endNotice port _ _ _ _ => spanPort port
  | .hold port _ _ _ _ _ => spanPort port
  | .holdEnd port _ _ _ _ _ _ => spanPort port
  | .holdLapse _ _ _ _ => true
  | .staged port _ _ _ _ => spanPort port
  | .armExpiry => true
  | .timeSetLoad => true
  | .phaseStepApply => true
  | .tbaseNowRead => true
  | .refFail _ => true
  | .refPass _ => true
  | .holdoverBoundTick => true
  | .regionStopEnd _ _ => true
  | .ppsInEdge => true
  | .ppsStuck => true
  | .ppsOutSecond => true
  | .ppsOutFall => true
  | .ptpSync port _ _ _ => spanPort port
  | .ptpFollowUp port _ _ _ => spanPort port
  | .ptpDelayReq port _ _ => spanPort port
  | .ptpDelayResp port _ _ _ _ _ => spanPort port
  | .ptpPdelayReq port _ _ => spanPort port
  | .ptpPdelayResp port _ _ _ _ _ => spanPort port
  | .ptpPdelayRespFollowUp port _ _ _ _ _ => spanPort port
  | .ptpAnnounce port _ _ _ => spanPort port
  | .ptpUnsupported port _ => spanPort port
  | .ptpSyncTimer port _ => spanPort port
  | .ptpDelayReqTimer port _ => spanPort port
  | .ptpAnnounceTimer port _ => spanPort port
  | .paceFreeUpdate => true
  | .avsReadback _ _ _ => true
  | .trainingComplete port _ _ _ _ _ => spanPort port
  | .penHolderWaitExpiry port _ => spanPort port
  | .handshake port _ _ => spanPort port
  | .handshakeTimer port _ => spanPort port
  | .laneFault port _ _ => spanPort port
  | .narrowReq port _ _ => spanPort port
  | .narrow port _ _ _ _ => spanPort port
  | .narrowDone port _ _ _ => spanPort port
  | .linkRetrain port _ => spanPort port
  | .widenReq port _ _ => spanPort port
  | .linkOpRepeatTimer port _ => spanPort port
  | .realignDone port _ _ => spanPort port
  | .retrain port _ => spanPort port
  | .widen port _ => spanPort port
  | .spanFrame port _ f => spanPort port && decide (f.body.length = f.grains.toNat)
  | .data port _ _ drops => spanPort port && grainLoad drops
  | .commitGrain port _ _ _ _ _ _ => spanPort port
  | .void port _ _ _ _ => spanPort port
  | .credit port _ entries => spanPort port && decide (entries.length ≤ 64)
  | .launch port _ _ => spanPort port
  | .telemetry port _ _ => spanPort port
  | .bulkStart port _ _ _ _ => spanPort port
  | .bulkData port _ _ => spanPort port
  | .bulkAck port _ _ _ => spanPort port
  | .bulkNack port _ _ _ _ => spanPort port
  | .frameSend port _ => spanPort port
  | .ackTimer port _ => spanPort port
  | .replayTimer port _ => spanPort port
  | .replayCaughtUp port _ => spanPort port
  | .flushTimer port _ _ => spanPort port
  | .keepaliveTimer port _ => spanPort port
  | .keepaliveExpiry port _ => spanPort port
  | .linkDown port _ => spanPort port
  | .linkUp port _ => spanPort port
  | .dryTimeExpiry port _ => spanPort port
  | .fencePort _ _ _ => true
  | .unfencePort _ _ _ => true
  | .stackStepDown _ _ => true
  | .stackStepUp _ _ => true
  | .ddrThermal _ => true
  | .ddrRetrain _ _ => true
  | .patrolRead _ _ => true
  | .rateReq _ _ => true
  | .hostLinkDown => true
  | .hostLinkUp _ => true
  | .linkTimeout _ _ => true
  | .hostWritePacket _ _ => true
  | .hostAccess _ _ _ _ => true
  | .doorbell _ _ _ => true
  | .ringWaitResume _ _ => true
  | .irqClear _ => true
  | .openPlot _ _ _ => true
  | .closePlot _ _ => true
  | .scrub _ => true
  | .scrubComplete _ _ => true
  | .loadSheet _ _ _ _ => true
  | .loadSheetComplete _ => true
  | .flipSheet _ => true
  | .arm _ _ _ => true
  | .commit _ _ _ => true
  | .admitReq _ _ => true
  | .cancel _ _ _ => true
  | .pause _ _ _ => true
  | .resume _ _ _ => true
  | .setDeadline _ _ _ _ _ => true
  | .evictTimer _ => true
  | .drainLimitExpiry => true
  | .sealSigned _ => true
  | .checkpoint _ _ _ _ _ => true
  | .checkpointWritten => true
  | .restore _ _ _ _ _ => true
  | .timeSet _ _ _ _ => true
  | .timeAdjust _ _ _ _ _ _ => true
  | .query _ _ _ _ _ _ => true
  | .blotterDrain _ _ _ _ => true
  | .loadManifest _ _ => true
  | .manifestTimeout _ _ => true
  | .loadBlock _ _ _ _ _ => true
  | .activateEpoch _ _ _ => true
  | .updateBegin _ _ _ _ _ _ => true
  | .updateBlock _ _ _ _ _ => true
  | .updateActivate _ _ => true
  | .updateConfirm _ => true
  | .firmwareReady _ => true
  | .trialReadyTimeout _ => true
  | .attestQuote _ _ _ _ => true
  | .debugGrant _ _ _ _ => true
  | .grantExpiry => true
  | .saltWrite _ _ => true
  | .bedrockBegin _ => true
  | .bedrockChunk _ => true
  | .bedrockEnd _ => true
  | .bedrockRestart => true
  | .coalesceWindowClose _ _ _ => true
  | .alarmClear _ => true
  | .clearCounts => true
  | .telemetryFlushTimer => true
  | .setdasa _ _ => true
  | .setEndpointId _ => true
  | .getEndpointId => true
  | .getMctpVersionSupport _ => true
  | .getMessageTypeSupport => true
  | .getVendorDefinedMessageSupport _ => true
  | .mctpRead => true
  | .mctpCounts _ => true
  | .mctpStatus => true
  | .tapGrant _ => true
  | .xferRead _ => true
  | .xferWrite _ _ => true
  | .extest _ => true
  | .tapReset => true
  | .debugHalt _ _ => true
  | .debugResume _ _ => true
  | .debugStep _ _ _ => true
  | .haltDryExpiry => true
  | .registerWrite _ _ => true
  | .powerUp => true
  | .pwrgoodAssert => true
  | .resetNRelease _ => true
  | .referenceWaitAlert => true
  | .warmReset => true
  | .pwrgoodFall => true
  | .railFault _ => true
  | .thermalTrip _ _ => true
  | .openPlotWaitExpiry => true
  | .restoreComplete _ => true
  | .hostReadComplete _ _ _ => true
  | .controllerLost _ _ => true
  | .selfTest _ => true

end Sys2Proof
end

