-- ==== Sys2Proof/Safety.lean ====
section
/-! DEFINITION. What counts as a state in good order, and as a run of commands that the device can be given. -/

namespace Sys2Proof.Machine

/-- Memory is in its one form: addresses strictly rising, no byte listed that reads 0x00 unlisted (R405; log 3). -/
def Memory.wf (s : State) : Bool := twf 0 s.mem

/-- Every table of the state is in its one form: the four strata, host memory, flash and the step copies list no byte that reads so
unlisted, and the keys of every table of parts rise strictly. -/
def tidy (s : State) : Bool :=
  Memory.wf s && twf 0 s.host && twf 0xFF s.flash && twf none s.overlay && keysRise 0 s.regs && keysRise 0 s.stackTbl
    && keysRise 0 s.ddrs && keysRise 0 s.units && keysRise 0 s.scribes && keysRise 0 s.matrix && keysRise 0 s.vector
    && keysRise 0 s.xfer && keysRise 0 s.chans && keysRise 0 s.ptp && keysRise 0 s.ports && keysRise 0 s.subs && keysRise 0 s.mbox.rings

/-- Every class ring holds at most 64 pinned and 64 recent positions (R387). -/
def ringsFit (s : State) : Bool :=
  s.blot.rings.all fun e => decide (positions e.2.pinned ≤ 64) && decide (positions e.2.recent ≤ 64)

/-- The commands waiting name parts that the hardware has. -/
def queueOk (s : State) : Bool := s.pending.all wellFormed

/-- `k` steps of the device, with no new command. -/
def runs : Nat → State → Host.Outcome State Fault Refusal := Host.Core.run core

/-- An answer that is a next state of which `P` holds. -/
def answers (o : Out) (P : State → Prop) : Prop := ∃ t, o = .next t ∧ P t

/-! ### Words of the claims about engine tiles -/

/-- Nothing stops unit `k` before or inside a command of `n` strokes that it comes to at place `idx`: no breakpoint, and no halt that lets it run one
stroke only (R425, R427). -/
abbrev runsThrough (s : State) (kind k idx n : Nat) : Prop :=
  bpNow s kind k idx (getUnit s k) = [] ∧ stopAt s k { getUnit s k with stepped := 0, waiting := none } n = n

/-- The tile comes to the command `w` of `n` strokes: it may begin one, `w` is at the front of its queue, and nothing stops it (R46, R427). -/
def tileAt (s : State) (c : BitVec 6) (j : BitVec 5) (w : CmdWord) (n : Nat) : Prop :=
  let u := getUnit s (tileKey c.toNat j.toNat)
  canIssue s (tileKey c.toNat j.toNat) = true ∧ u.queue.head? = some w ∧ runsThrough s 2 (tileKey c.toNat j.toNat) u.issued n

/-- The tile has taken the command at the front of its queue (R46, R151). -/
def issued (s : State) (c : BitVec 6) (j : BitVec 5) : State :=
  modUnit s (tileKey c.toNat j.toNat) fun u =>
    { u with queue := u.queue.tail, issued := u.issued + 1, waiting := none, stepped := 0, passBp := false }

/-- The tile's command has retired after `n` strokes (R41, R47). -/
def retired (s : State) (c : BitVec 6) (j : BitVec 5) (n : Nat) : State := retireUnit s (tileKey c.toNat j.toNat) n

/-- Stroke at which the tile's next command issues. -/
def strokeOf (s : State) (c : BitVec 6) (j : BitVec 5) : Nat := (getUnit s (tileKey c.toNat j.toNat)).strokes.toNat

/-- The drops that a list of source locations asks for are taken off their channels, in order (R50, R106). -/
def drain (s : State) (c : BitVec 6) (j : BitVec 5) : List (LocRef × Nat) → State × List (List Drop)
  | [] => (s, [])
  | (.port p, n) :: ls =>
    match inChan s c.toNat j.toNat p with
    | some ch => let t := takeDrops s ch n; let r := drain t.2 c j ls; (r.1, t.1 :: r.2)
    | none => drain s c j ls
  | _ :: ls => drain s c j ls

/-- The channels hold the drops that the source locations ask for. -/
def fed (s : State) (c : BitVec 6) (j : BitVec 5) : List (LocRef × Nat) → Prop
  | [] => True
  | (.port p, n) :: ls =>
    match inChan s c.toNat j.toNat p with
    | some ch => n ≤ (getChan s ch).length ∧ fed (takeDrops s ch n).2 c j ls
    | none => fed s c j ls
  | _ :: ls => fed s c j ls

/-- The channels have room for the drops a command gives (R50). -/
def room (s : State) (out : List (Nat × Drop)) : Prop := (pump s out).2 = []

/-- The matrix engine of the tile once its inputs `ls` are in and its earlier writes have landed. -/
def matrixAt (s : State) (c : BitVec 6) (j : BitVec 5) (ls : List (LocRef × Nat)) : State :=
  beginMatrix (drain (issued s c j) c j ls).1 c.toNat (tileKey c.toNat j.toNat) (strokeOf s c j)

/-- The vector engine of the tile once its inputs `ls` are in and its earlier writes have landed. -/
def vectorAt (s : State) (c : BitVec 6) (j : BitVec 5) (ls : List (LocRef × Nat)) : State :=
  beginVector (drain (issued s c j) c j ls).1 c.toNat (tileKey c.toNat j.toNat) (strokeOf s c j)

/-- A register command of the vector engine done in `n` strokes: `eff` from the issue stroke, the state and the engine it meets. -/
def vecDone (s : State) (c : BitVec 6) (j : BitVec 5) (n : Nat) (eff : Nat → State → Nat → VectorSt → State) : Out :=
  let b := vectorAt s c j []
  let k := tileKey c.toNat j.toNat
  .next (retired (eff (strokeOf s c j) b k (getVector b k)) c j n)

/-- A load done in `n` strokes: `eff` also meets the bytes of the `d` drops at the location. -/
def vecLoaded (s : State) (c : BitVec 6) (j : BitVec 5) (n d : Nat) (src : BitVec 17)
    (eff : Nat → Bytes → State → Nat → State) : Out :=
  let b := vectorAt s c j [(locRef src, d)]
  let k := tileKey c.toNat j.toNat
  let t := strokeOf s c j
  let rd := (operand b c.toNat j.toNat (getVector b k).slog (locRef src) (drain (issued s c j) c j [(locRef src, d)]).2).1
  .next (retired (eff t (rd t 0 (64 * d)) b k) c j n)

/-- What a store gives: the pieces at their location, as slab writes in the engine's log or as drops. -/
def vecEmit (s : State) (c : BitVec 6) (j : BitVec 5) (dst : BitVec 17) (ps : List OutPiece) : State × List (Nat × Drop) :=
  let k := tileKey c.toNat j.toNat
  let e := emit s c.toNat j.toNat (locRef dst) ps
  let v := getVector s k
  (setVector s k { v with slog := v.slog ++ e.1 }, e.2)

/-- A store done in `n` strokes. -/
def vecStored (c : BitVec 6) (j : BitVec 5) (n : Nat) (r : State × List (Nat × Drop)) : Out :=
  .next (retired (pump r.1 r.2).1 c j n)

/-! ### Words of the claims about scribes -/

/-- The scribe of core `c` comes to the instruction `w` of `n` strokes: it may begin one, `w` is at its PC, and nothing stops it (R143, R427). -/
def scribeAt (s : State) (c : BitVec 6) (w : BitVec 64) (n : Nat) : Prop :=
  let pc := (scribePc s c.toNat).toNat
  canIssue s (scribeKey c.toNat) = true ∧ (liveCore s c.toNat).code[pc]? = some w ∧ runsThrough s 1 (scribeKey c.toNat) pc n

/-- A selector that names a readable source other than an observation register (R141). -/
def plainSel (sel : BitVec 7) : Prop := sel.toNat < 0x68

/-- The scribe once its earlier register writes have landed (R147). -/
def scribeNow (s : State) (c : BitVec 6) : State := beginScribe s c.toNat

/-- The value a selector names as the instruction issues. -/
def scribeSrc (s : State) (c : BitVec 6) (sel : Nat) : BitVec 64 := srcNow (scribeNow s c) c.toNat sel

/-- A G register is written under a contract of `lat` strokes; G0 discards what is written to it (R140, R147). -/
def wroteG (s : State) (c : BitVec 6) (lat : Nat) (gd : BitVec 5) (v : BitVec 64) : State :=
  let b := scribeNow s c
  if gd = 0 then b
  else
    let x := getScribe b c.toNat
    setScribe b c.toNat { x with glog := x.glog ++ [{ stroke := scribeT b c.toNat, lat, reg := gd.toNat, val := v }] }

/-- The instruction has retired after `n` strokes with the PC at `pc` (R41, R47, R143). -/
def scribeDone (s : State) (c : BitVec 6) (n : Nat) (pc : BitVec 24) : Out := .next (retireScribe s c.toNat n pc)

/-! ### Words of the claims about mailbox commands -/

/-- SEQ that a ring expects next. -/
def seqDue (s : State) (ring : BitVec 4) : BitVec 32 := (getRing s ring.toNat).nextSeq

/-- The MP reads command `c` from the ring and serves it at once: it serves, the ring does not wait, and the command is one of the doorbell
in this state (R342, R343). -/
def servedNow (s : State) (ring : BitVec 4) (c : MboxCmd) : Prop :=
  inService s = true ∧ ringWaits (getRing s ring.toNat) = false ∧ atDoorbell s c = true

/-- The state once the entry has been read (R342). -/
def entryRead (s : State) (ring : BitVec 4) : State := takeEntry (modRing s ring.toNat announce) ring.toNat

/-- The command completes in a state with an error code and result bytes (R341). -/
def completes (s : State) (ring : BitVec 4) (c : MboxCmd) (err : Nat) (res : Bytes) (t : State) : Out :=
  .next (done t ring.toNat (seqDue s ring) c err res)

/-- The bytes of an entry that holds a command, with the SEQ given and IF 1 (R340). -/
def entryBytesOf (seq : BitVec 32) (c : MboxCmd) : Bytes :=
  bytesOf 4 seq ++ [BitVec.ofNat 8 (cmdCode c), 1] ++ List.replicate 10 0 ++ cmdBody c ++ List.replicate (112 - (cmdBody c).length) 0

/-- A command that a CODE of R7 names. -/
def isCommand : MboxCmd → Bool
  | .badCode _ => false
  | .badField _ => false
  | _ => true

/-! ### Words of the claims about whole families -/

/-- The rows of the engines, the scribes and the die movers: what the units of a core or die do. -/
def isUnitCmd : Instr → Bool
  | .matrixWait .. | .mldw .. | .manc .. | .macc .. | .mwout .. | .mwexp .. | .mwadd .. => true
  | .vectorWait .. | .vop .. | .vfn .. | .vcmp .. | .vsel .. | .vkop .. | .vimm .. | .viota .. | .vcvt .. => true
  | .vld .. | .vst .. | .vldx .. | .vstx .. | .vldq .. | .vqnt .. | .vlda .. | .vsta .. | .vwanc .. => true
  | .vrsum .. | .vrdot .. | .vwout .. | .vwexp .. | .vwadd .. | .vanch .. | .vrmax .. | .vtopk .. | .vsamp .. => true
  | .vrng .. | .vdisp .. | .transferWait .. | .xmov .. | .xreg .. | .xflip .. | .moverRead .. | .moverWrite .. => true
  | .scribeWait .. | .alu .. | .alui .. | .movi .. | .ld .. | .st .. | .ldc .. | .jmp .. | .br .. | .lset .. | .lend .. => true
  | .endOp .. | .push .. | .pushr .. | .xwr .. | .csend .. | .cwait .. | .tread .. | .note .. | .waitResume .. => true
  | _ => false

end Sys2Proof.Machine
end

