-- ==== Sys2Proof/Certificates/Slice0/Obligations.lean ====
section
/-! DEFINITION. What the provers are asked to show: statements about the commands and the machine, each from the rules it names. -/

section

open Sys2Proof Sys2Proof.Machine

/-! ### The queue of commands -/

/-- A step with a command at the front of the queue is that command's effect on the state with the queue's rest; with no command waiting it is
one tick of the clock, at which the adapter may begin to train a link that is down (the model's choices, logs 1 and 10). -/
def Obligations.StepRunsFrontCommand : Prop :=
  (∀ (i : Instr) (rest : List Instr) (s : State),
    step { s with pending := i :: rest } = exec i { s with pending := rest }) ∧
  ∀ s : State, s.pending = [] → step s = .next (idle s)

/-! ### Engines (R41-R64, R102-R125) -/

/-- WAIT of the three engine classes takes N strokes and does nothing else (R48). -/
def Obligations.WaitTakesNStrokes : Prop :=
  ∀ (s : State) (c : BitVec 6) (j : BitVec 5) (n : BitVec 16), n ≠ 0 → tileAt s c j (waitWord n.toNat) n.toNat →
    (matrixTile j = true → exec (.matrixWait c j n) s = .next (retired (issued s c j) c j n.toNat)) ∧
    (vectorTile j = true → exec (.vectorWait c j n) s = .next (retired (issued s c j) c j n.toNat)) ∧
    (transferTile j = true → exec (.transferWait c j n) s = .next (retired (issued s c j) c j n.toNat))

/-- The commands of the matrix engine that load: the bank and its format, the ceilings and cleared wells, and the wells that MACC and
MWADD reach, each after the strokes of R105, with the drops of channel operands taken. -/
def Obligations.MatrixLoadsAndAccumulates : Prop :=
  ∀ (s : State) (c : BitVec 6) (j : BitVec 5), matrixTile j = true →
    let k := tileKey c.toNat j.toNat
    let t := strokeOf s c j
    (∀ (bank : BitVec 1) (fmtW : BitVec 4) (src : BitVec 17),
      (planMldw s c.toNat j.toNat bank.toNat fmtW.toNat src).cause = none →
      tileAt s c j (mldwWord bank.toNat fmtW.toNat src.toNat) (loadStrokes fmtW.toNat) →
      let d := dropsFor (tileBytes fmtW.toNat)
      fed (issued s c j) c j [(locRef src, d)] →
      let b := matrixAt s c j [(locRef src, d)]
      let rd := (operand b c.toNat j.toNat (getMatrix b k).slog (locRef src) (drain (issued s c j) c j [(locRef src, d)]).2).1
      exec (.mldw c j bank fmtW src) s =
        .next (retired (setMatrix b k (setBank (getMatrix b k) bank.toNat
          { bytes := readTile rd t (tileBytes fmtW.toNat), fmt := fmtW })) c j (loadStrokes fmtW.toNat))) ∧
    (∀ (row0 : BitVec 6) (nr : BitVec 7) (fmtA fmtW : BitVec 4) (q : BitVec 8) (asrc wsrc : BitVec 17),
      (planManc s c.toNat j.toNat row0.toNat nr.toNat fmtA.toNat fmtW.toNat q.toNat asrc wsrc).cause = none →
      tileAt s c j (mancWord row0.toNat nr.toNat fmtA.toNat fmtW.toNat q.toNat asrc.toNat wsrc.toNat) (q.toNat + 2) →
      let ls := [(locRef asrc, q.toNat), (locRef wsrc, 2)]
      fed (issued s c j) c j ls →
      let b := matrixAt s c j ls
      let oa := operand b c.toNat j.toNat (getMatrix b k).slog (locRef asrc) (drain (issued s c j) c j ls).2
      let ow := operand b c.toNat j.toNat (getMatrix b k).slog (locRef wsrc) oa.2
      let rows := mergeAnchors oa.1 t q.toNat
      let cols := (ow.1 (t + q.toNat) 0 128).map (·.toNat)
      exec (.manc c j row0 nr fmtA fmtW q asrc wsrc) s =
        .next (retired (setMatrix b k { getMatrix b k with
          wlog := (getMatrix b k).wlog ++ (List.range nr.toNat).flatMap fun i => (List.range 128).map fun n =>
            { stroke := t + q.toNat + 1, anchor := true, idx := wellIx (row0.toNat + i) n
              val := anchoredWell fmtA.toNat (rows.getD i 0) fmtW.toNat (cols.getD n 0) } }) c j (q.toNat + 2))) ∧
    (∀ (row0 : BitVec 6) (nr : BitVec 7) (fmtA : BitVec 4) (bank : BitVec 1) (asrc : BitVec 17) (nfmt : BitVec 4) (nsrc : BitVec 17),
      (planMacc s c.toNat j.toNat row0.toNat nr.toNat fmtA.toNat bank.toNat asrc 0 nfmt.toNat nsrc).cause = none →
      let fw := (getBank (getMatrix s k) bank.toNat).fmt.toNat
      let kt := fmtKT fw
      let sr := rowStrokes fmtA.toNat fw
      tileAt s c j (maccWord row0.toNat nr.toNat fmtA.toNat bank.toNat asrc.toNat 0 nfmt.toNat nsrc.toNat) (nr.toNat * sr) →
      let ls := [(locRef asrc, runDrops fmtA.toNat kt nr.toNat)]
      fed (issued s c j) c j ls →
      let b := matrixAt s c j ls
      let oa := operand b c.toNat j.toNat (getMatrix b k).slog (locRef asrc) (drain (issued s c j) c j ls).2
      let r := maccRows oa.1 ((List.range 128).map (bankColumn (getBank (getMatrix b k) bank.toNat))) fmtA.toNat kt row0.toNat t sr
        nr.toNat (getMatrix b k) false (List.range nr.toNat)
      exec (.macc c j row0 nr fmtA bank asrc 0 nfmt nsrc) s =
        .next (retired (noteSat (setMatrix b k r.1) r.2) c j (nr.toNat * sr))) ∧
    (∀ (row0 : BitVec 6) (nr : BitVec 7) (fmtA : BitVec 4) (bank : BitVec 1) (asrc : BitVec 17) (nfmt : BitVec 4) (nsrc : BitVec 17),
      (planMacc s c.toNat j.toNat row0.toNat nr.toNat fmtA.toNat bank.toNat asrc 1 nfmt.toNat nsrc).cause = none →
      let fw := (getBank (getMatrix s k) bank.toNat).fmt.toNat
      let kt := fmtKT fw
      let sr := rowStrokes fmtA.toNat fw
      let n := max (nr.toNat * sr) (loadStrokes nfmt.toNat)
      tileAt s c j (maccWord row0.toNat nr.toNat fmtA.toNat bank.toNat asrc.toNat 1 nfmt.toNat nsrc.toNat) n →
      let ls := [(locRef asrc, runDrops fmtA.toNat kt nr.toNat), (locRef nsrc, dropsFor (tileBytes nfmt.toNat))]
      fed (issued s c j) c j ls →
      let b := matrixAt s c j ls
      let oa := operand b c.toNat j.toNat (getMatrix b k).slog (locRef asrc) (drain (issued s c j) c j ls).2
      let on := operand b c.toNat j.toNat (getMatrix b k).slog (locRef nsrc) oa.2
      let r := maccRows oa.1 ((List.range 128).map (bankColumn (getBank (getMatrix b k) bank.toNat))) fmtA.toNat kt row0.toNat t sr
        nr.toNat (getMatrix b k) false (List.range nr.toNat)
      exec (.macc c j row0 nr fmtA bank asrc 1 nfmt nsrc) s =
        .next (retired (noteSat (setMatrix b k (setBank r.1 (1 - bank.toNat)
          { bytes := readTile on.1 t (tileBytes nfmt.toNat), fmt := nfmt })) r.2) c j n)) ∧
    (∀ (row0 : BitVec 6) (nr : BitVec 7) (src : BitVec 17),
      (planMwadd s c.toNat j.toNat row0.toNat nr.toNat src).cause = none →
      tileAt s c j (mwaddWord row0.toNat nr.toNat src.toNat) (16 * nr.toNat) →
      let ls := [(locRef src, 64 * nr.toNat)]
      fed (issued s c j) c j ls →
      let b := matrixAt s c j ls
      let r := mwaddRows (dropRecords ((drain (issued s c j) c j ls).2.headD [])) row0.toNat t (getMatrix b k) false (List.range nr.toNat)
      exec (.mwadd c j row0 nr src) s = .next (retired (noteSat (setMatrix b k r.1) r.2) c j (16 * nr.toNat)))

/-- The commands of the matrix engine that write out: MWOUT gives the lines of its rows, with scale drops and the anchor drop where
asked, and MWEXP the 64 record drops of each row, after the strokes of R105. -/
def Obligations.MatrixWriteOuts : Prop :=
  ∀ (s : State) (c : BitVec 6) (j : BitVec 5), matrixTile j = true →
    let k := tileKey c.toNat j.toNat
    let t := strokeOf s c j
    let b := matrixAt s c j []
    let m := getMatrix b k
    (∀ (row0 : BitVec 6) (nr : BitVec 7) (fmtO : BitVec 4) (cols : BitVec 2) (aen : BitVec 1) (dst adst : BitVec 17),
      (planMwout s c.toNat j.toNat row0.toNat nr.toNat fmtO.toNat cols.toNat aen.toNat dst adst).cause = none →
      let cs := outCols cols.toNat
      let o := if fmtO = 12 ∧ cols = 0 then 2 else 1
      let n := nr.toNat * o + if fmtScaled fmtO.toNat then (nr.toNat + 15) / 16 else 0
      tileAt s c j (mwoutWord row0.toNat nr.toNat fmtO.toNat cols.toNat aen.toNat dst.toNat adst.toNat) n →
      let row (r i : Nat) : List Well := cs.map fun x => wellForOut m r (wellIx (row0.toNat + i) x)
      let ps := if fmtScaled fmtO.toNat then scaledPieces fmtO.toNat cs.length t (fun r i => (row r i).map wellNum) nr.toNat
        else unscaledPieces fmtO.toNat cs.length t o row nr.toNat
      let e := emit b c.toNat j.toNat (locRef dst) ps.1
      let ea := if aen = 1 then emit b c.toNat j.toNat (locRef adst) [{ stroke := t + n - 1, off := 0, bytes := anchorDrop ps.2 }]
        else ([], [])
      let b' := setMatrix b k { m with slog := m.slog ++ e.1 ++ ea.1 }
      room b' (e.2 ++ ea.2) →
      exec (.mwout c j row0 nr fmtO cols aen dst adst) s = .next (retired (pump b' (e.2 ++ ea.2)).1 c j n)) ∧
    (∀ (row0 : BitVec 6) (nr : BitVec 7) (p : BitVec 4),
      let dst : BitVec 17 := 0x10000 + p.setWidth 17
      (planMwexp s c.toNat j.toNat row0.toNat nr.toNat dst).cause = none →
      tileAt s c j (mwexpWord row0.toNat nr.toNat dst.toNat) (16 * nr.toNat) →
      let out := (List.range nr.toNat).flatMap fun i =>
        (recordDrops ((List.range 128).map fun x => wellForOut m (t + 16 * i) (wellIx (row0.toNat + i) x))).map fun d =>
          ((outChan b c.toNat j.toNat p.toNat).getD 0, d)
      room b out →
      exec (.mwexp c j row0 nr dst) s = .next (retired (pump b out).1 c j (16 * nr.toNat)))

/-- Lane by lane commands of the vector engine: each writes its register, masked where R112 says so, visible after 4 strokes, or 9 for an
exact function (R113-R115, R118). -/
def Obligations.VectorLaneCommands : Prop :=
  ∀ (s : State) (c : BitVec 6) (j : BitVec 5), vectorTile j = true →
    (∀ (op : BitVec 6) (ty : BitVec 2) (vd va vb vc : BitVec 6) (km : BitVec 3),
      (planVop c.toNat j.toNat op.toNat ty.toNat vd.toNat va.toNat vb.toNat vc.toNat km.toNat).cause = none →
      tileAt s c j (vopWord op.toNat ty.toNat vd.toNat va.toNat vb.toNat vc.toNat km.toNat) 1 →
      exec (.vop c j op ty vd va vb vc km) s = vecDone s c j 1 fun t b k v =>
        putRegs b k 4 t [(vd.toNat, masked (vmask v t km.toNat)
          (List.zipWith (fun x yz => vopLane op.toNat ty.toNat x yz.1 yz.2) (vreg v t va.toNat)
            (List.zip (vreg v t vb.toNat) (vreg v t vc.toNat))))]) ∧
    (∀ (fn : BitVec 3) (ti tt : BitVec 2) (vd va : BitVec 6) (km : BitVec 3), ti ≠ 3 → tt ≠ 3 →
      tileAt s c j (vfnWord fn.toNat ti.toNat tt.toNat vd.toNat va.toNat km.toNat) 1 →
      exec (.vfn c j fn ti tt vd va km) s = vecDone s c j 1 fun t b k v =>
        putRegs b k 9 t [(vd.toNat, masked (vmask v t km.toNat)
          ((vreg v t va.toNat).map fun x => lane (exactFn fn.toNat (tyFlt tt.toNat) (laneNum ti.toNat x))))]) ∧
    (∀ (ti tt : BitVec 3) (vd va : BitVec 6) (km : BitVec 3), ti.toNat < 5 → tt.toNat < 5 →
      tileAt s c j (vcvtWord ti.toNat tt.toNat vd.toNat va.toNat km.toNat) 1 →
      exec (.vcvt c j ti tt vd va km) s = vecDone s c j 1 fun t b k v =>
        putRegs b k 4 t [(vd.toNat, masked (vmask v t km.toNat) ((vreg v t va.toNat).map (cvtLane ti.toNat tt.toNat)))]) ∧
    (∀ (vd va vb : BitVec 6) (ks : BitVec 3), tileAt s c j (vselWord vd.toNat va.toNat vb.toNat ks.toNat) 1 →
      exec (.vsel c j vd va vb ks) s = vecDone s c j 1 fun t b k v =>
        putRegs b k 4 t [(vd.toNat, allLanes ((List.zip (vreg v t va.toNat) (vreg v t vb.toNat)).zipIdx.map fun e =>
          if (vmask v t ks.toNat).getLsbD e.2 then e.1.1 else e.1.2))]) ∧
    (∀ (vd : BitVec 6) (imm : BitVec 32) (km : BitVec 3), tileAt s c j (vimmWord vd.toNat imm.toNat km.toNat) 1 →
      exec (.vimm c j vd imm km) s = vecDone s c j 1 fun t b k v =>
        putRegs b k 4 t [(vd.toNat, masked (vmask v t km.toNat) (List.replicate 256 imm))]) ∧
    (∀ (vd : BitVec 6) (base : BitVec 32), tileAt s c j (viotaWord vd.toNat base.toNat) 1 →
      exec (.viota c j vd base) s = vecDone s c j 1 fun t b k _ =>
        putRegs b k 4 t [(vd.toNat, allLanes ((List.range 256).map fun i => base + BitVec.ofNat 32 i))])

/-- VCMP and VKOP write a mask register other than K0; VCMP clears the bits of inactive lanes (R109, R115). -/
def Obligations.VectorMaskCommands : Prop :=
  ∀ (s : State) (c : BitVec 6) (j : BitVec 5), vectorTile j = true →
    (∀ (cmp : BitVec 3) (ty : BitVec 2) (kd : BitVec 3) (va vb : BitVec 6) (km : BitVec 3), cmp ≠ 7 → kd ≠ 0 →
      tileAt s c j (vcmpWord cmp.toNat ty.toNat kd.toNat va.toNat vb.toNat km.toNat) 1 →
      exec (.vcmp c j cmp ty kd va vb km) s = vecDone s c j 1 fun t b k v =>
        putMask b k t kd.toNat (maskOf (List.zipWith (cmpLane cmp.toNat ty.toNat) (vreg v t va.toNat) (vreg v t vb.toNat))
          &&& vmask v t km.toNat)) ∧
    (∀ (kop : BitVec 2) (kd ka kb : BitVec 3), kd ≠ 0 → tileAt s c j (vkopWord kop.toNat kd.toNat ka.toNat kb.toNat) 1 →
      exec (.vkop c j kop kd ka kb) s = vecDone s c j 1 fun t b k v =>
        let x := vmask v t ka.toNat
        let y := vmask v t kb.toNat
        putMask b k t kd.toNat (if kop = 0 then x &&& y else if kop = 1 then x ||| y else if kop = 2 then x ^^^ y else x &&& ~~~y))

/-- Loads of the vector engine: the lanes a register gets from the bytes at the location, and the strokes they take (R113, R119,
R120). -/
def Obligations.VectorLoads : Prop :=
  ∀ (s : State) (c : BitVec 6) (j : BitVec 5), vectorTile j = true →
    (∀ (vd : BitVec 6) (ty : BitVec 2) (src : BitVec 17),
      let n := if ty = 0 ∨ ty = 3 then 2 else 1
      (planVld s c.toNat j.toNat vd.toNat ty.toNat src).cause = none →
      tileAt s c j (vldWord vd.toNat ty.toNat src.toNat) n → fed (issued s c j) c j [(locRef src, 8 * n)] →
      exec (.vld c j vd ty src) s = vecLoaded s c j n (8 * n) src fun t bs b k =>
        putRegs b k 4 (t + n - 1) [(vd.toNat, allLanes (lanesOf (2 * n) 256 bs))]) ∧
    (∀ (vd vx : BitVec 6) (base : BitVec 17) (limit : BitVec 16),
      (planVldx s c.toNat j.toNat vd.toNat vx.toNat base limit.toNat).cause = none →
      tileAt s c j (vldxWord vd.toNat vx.toNat base.toNat limit.toNat) 2 →
      exec (.vldx c j vd vx base limit) s = vecDone s c j 2 fun t b k v =>
        putRegs b k 4 (t + 1) [(vd.toNat, allLanes ((List.range 16).flatMap fun g =>
          let i := ((vreg v t vx.toNat).getD g 0).toNat
          if i < limit.toNat then lanesOf 4 16 (slabRead b v.slog t (slabAddr (tileIx c.toNat j.toNat) + locOff base + 64 * i) 64)
          else List.replicate 16 0))]) ∧
    (∀ (vd : BitVec 6) (nr : BitVec 5) (kc : BitVec 1) (fmt : BitVec 4) (src : BitVec 17),
      (planVldq s c.toNat j.toNat vd.toNat nr.toNat kc.toNat fmt.toNat src).cause = none →
      let kk := kOf kc.toNat
      let n := nr.toNat + b2n (fmtScaled fmt.toNat)
      let d := runDrops fmt.toNat kk nr.toNat
      tileAt s c j (vldqWord vd.toNat nr.toNat kc.toNat fmt.toNat src.toNat) n → fed (issued s c j) c j [(locRef src, d)] →
      exec (.vldq c j vd nr kc fmt src) s = vecLoaded s c j n d src fun t bs b k =>
        let row (i : Nat) : List (BitVec 32) :=
          let sc := if fmtScaled fmt.toNat then (slice bs (4 * i) 4).map (·.toNat) else []
          (scaledElems fmt.toNat kk (slice bs (64 * rowDrop fmt.toNat kk i) (64 * lineDrops fmt.toNat kk)) sc).map fun e =>
            match e.1 with
            | .fin neg m q => lane (fltEncode fltFP32 (.fin neg m (q + e.2)))
            | x => lane (fltEncode fltFP32 x)
        let all := (List.range nr.toNat).flatMap row
        putRegs b k 4 (t + n - 1) ((List.range (rowRegs nr.toNat kk)).map fun r =>
          let l := (all.drop (256 * r)).take 256
          (vd.toNat + r, allLanes (l ++ List.replicate (256 - l.length) 0)))) ∧
    (∀ (vd : BitVec 6) (src : BitVec 17),
      (planVlda s c.toNat j.toNat vd.toNat src).cause = none →
      tileAt s c j (vldaWord vd.toNat src.toNat) 1 → fed (issued s c j) c j [(locRef src, 1)] →
      exec (.vlda c j vd src) s = vecLoaded s c j 1 1 src fun t bs b k =>
        putRegs b k 4 t [(vd.toNat, allLanes (bs.map (fun x => lane x.toNat) ++ List.replicate 192 0))]) ∧
    (∀ (row : BitVec 3) (src : BitVec 17),
      (planVwadd s c.toNat j.toNat row.toNat src).cause = none →
      tileAt s c j (vwaddWord row.toNat src.toNat) 32 → fed (issued s c j) c j [(locRef src, 128)] →
      let g := drain (issued s c j) c j [(locRef src, 128)]
      exec (.vwadd c j row src) s =
        .next (retired (vwaddAll (vectorAt s c j [(locRef src, 128)]) (tileKey c.toNat j.toNat) (strokeOf s c j + 31) row.toNat
          (dropRecords (g.2.headD [])).zipIdx) c j 32))

/-- Stores of the vector engine: the bytes they give, as slab writes or as drops, and the strokes they take (R112, R113, R119, R121). -/
def Obligations.VectorStores : Prop :=
  ∀ (s : State) (c : BitVec 6) (j : BitVec 5), vectorTile j = true →
    let k := tileKey c.toNat j.toNat
    let t := strokeOf s c j
    let b := vectorAt s c j []
    let v := getVector b k
    (∀ (va : BitVec 6) (ty : BitVec 2) (dst : BitVec 17) (km : BitVec 3),
      (planVst s c.toNat j.toNat va.toNat ty.toNat dst km.toNat).cause = none →
      let n := if ty = 0 ∨ ty = 3 then 2 else 1
      tileAt s c j (vstWord va.toNat ty.toNat dst.toNat km.toNat) n →
      let ls := vreg v t va.toNat
      let m := vmask v t km.toNat
      let ps : List OutPiece := match locRef dst with
        | .slab _ =>
          if m = vmask v t 0 then [{ stroke := t + n - 1, off := 0, bytes := ls.flatMap (bytesOf (2 * n)) }]
          else (ls.zipIdx.filter fun l => m.getLsbD l.2).map fun l =>
            { stroke := t + n - 1, off := 2 * n * l.2, bytes := bytesOf (2 * n) l.1 }
        | _ =>
          [{ stroke := t + n - 1, off := 0
             bytes := ls.zipIdx.flatMap fun l => if m.getLsbD l.2 then bytesOf (2 * n) l.1 else natLe (2 * n) 0 }]
      room (vecEmit b c j dst ps).1 (vecEmit b c j dst ps).2 →
      exec (.vst c j va ty dst km) s = vecStored c j n (vecEmit b c j dst ps)) ∧
    (∀ (va vx : BitVec 6) (base : BitVec 17) (limit : BitVec 16),
      (planVstx s c.toNat j.toNat va.toNat vx.toNat base limit.toNat).cause = none →
      tileAt s c j (vstxWord va.toNat vx.toNat base.toNat limit.toNat) 2 →
      let x := vreg v t vx.toNat
      let a := slabAddr (tileIx c.toNat j.toNat) + locOff base
      exec (.vstx c j va vx base limit) s = .next (retired (setVector b k { v with
        slog := v.slog ++ ((List.range 16).filter fun g => decide ((x.getD g 0).toNat < limit.toNat)).map fun g =>
          { stroke := t + 1, addr := a + 64 * (x.getD g 0).toNat
            bytes := (((vreg v t va.toNat).drop (16 * g)).take 16).flatMap (bytesOf 4) } }) c j 2)) ∧
    (∀ (va : BitVec 6) (nr : BitVec 5) (kc : BitVec 1) (fmtO : BitVec 4) (row0 vx : BitVec 6) (dst : BitVec 17),
      (planVqnt s c.toNat j.toNat va.toNat nr.toNat kc.toNat fmtO.toNat row0.toNat vx.toNat dst).cause = none →
      let kk := kOf kc.toNat
      let n := nr.toNat + b2n (fmtScaled fmtO.toNat)
      tileAt s c j (vqntWord va.toNat nr.toNat kc.toNat fmtO.toNat row0.toNat vx.toNat dst.toNat) n →
      let row (i : Nat) : List Sys2Proof.Machine.Num := (((vreg v t (va.toNat + i * kk / 256)).drop (i * kk % 256)).take kk).map (laneNum 0)
      let ps : List OutPiece × List Nat :=
        if fmtScaled fmtO.toNat then
          let rs := (List.range nr.toNat).map fun i => (i, outScaledRow fmtO.toNat (row i))
          (({ stroke := t, off := 0, bytes := scaleDropBytes (rs.map fun r => r.2.1) } : OutPiece)
            :: rs.map fun r => { stroke := t + 1 + r.1, off := 64 * rowDrop fmtO.toNat kk r.1, bytes := r.2.2.1 },
           rs.map fun r => r.2.2.2)
        else
          let rs := (List.range nr.toNat).map fun i => (i, quantRow fmtO.toNat (row i))
          (rs.map fun r => { stroke := t + r.1, off := 64 * rowDrop fmtO.toNat kk r.1, bytes := r.2.1 }, rs.map fun r => r.2.2)
      let merged := List.replicate row0.toNat none ++ ps.2.zipIdx.map fun a =>
        some (lane (max a.1 (((vreg v t vx.toNat).getD (row0.toNat + a.2) 0).toNat % 256)))
      let b' := putRegs b k 4 (t + n - 1) [(vx.toNat, merged)]
      room (vecEmit b' c j dst ps.1).1 (vecEmit b' c j dst ps.1).2 →
      exec (.vqnt c j va nr kc fmtO row0 vx dst) s = vecStored c j n (vecEmit b' c j dst ps.1)) ∧
    (∀ (va : BitVec 6) (dst : BitVec 17),
      (planVsta s c.toNat j.toNat va.toNat dst).cause = none →
      tileAt s c j (vstaWord va.toNat dst.toNat) 1 →
      let ps : List OutPiece :=
        [{ stroke := t, off := 0, bytes := ((vreg v t va.toNat).take 64).map fun l => BitVec.ofNat 8 l.toNat }]
      room (vecEmit b c j dst ps).1 (vecEmit b c j dst ps).2 →
      exec (.vsta c j va dst) s = vecStored c j 1 (vecEmit b c j dst ps)) ∧
    (∀ (row : BitVec 3) (p : BitVec 4),
      let dst : BitVec 17 := 0x10000 + p.setWidth 17
      (planVwexp s c.toNat j.toNat row.toNat dst).cause = none →
      tileAt s c j (vwexpWord row.toNat dst.toNat) 32 →
      let out := (recordDrops ((List.range 256).map fun i => vwell v t (256 * row.toNat + i))).map fun d =>
        ((outChan b c.toNat j.toNat p.toNat).getD 0, d)
      room b out →
      exec (.vwexp c j row dst) s = vecStored c j 32 (b, out))

/-- Wells and lane maxima of the vector engine: ceilings set and wells cleared, terms of active lanes added, wells written out, anchor
bytes and maxima (R122-R125). -/
def Obligations.VectorWellsAndMaxima : Prop :=
  ∀ (s : State) (c : BitVec 6) (j : BitVec 5), vectorTile j = true →
    (∀ (row : BitVec 3) (mode bc : BitVec 1) (vx vy : BitVec 6), (mode = 0 → vy = 0) →
      tileAt s c j (vwancWord row.toNat mode.toNat bc.toNat vx.toNat vy.toNat) 1 →
      exec (.vwanc c j row mode bc vx vy) s = vecDone s c j 1 fun t b k v =>
        setVector b k { v with wlog := v.wlog ++ (List.range 256).map fun i =>
          let byte (r : BitVec 6) : Nat := ((vreg v t r.toNat).getD (if bc = 1 then 0 else i) 0).toNat % 256
          { stroke := t, idx := 256 * row.toNat + i
            op := .clear (BitVec.ofInt 16 (if mode = 0 then (byte vx : Int) - 126 else (byte vx : Int) - 126 + (byte vy - 126)))
              (if byte vx = 255 ∨ (mode = 1 ∧ byte vy = 255) then flagNan else 0) } }) ∧
    (∀ (row : BitVec 3) (dir : BitVec 1) (ty : BitVec 2) (va : BitVec 6) (km : BitVec 3), ty ≠ 3 →
      tileAt s c j (vrsumWord row.toNat dir.toNat ty.toNat va.toNat km.toNat) 1 →
      exec (.vrsum c j row dir ty va km) s = vecDone s c j 1 fun t b k v =>
        putTerms b k t (laneTerms v t row.toNat dir.toNat (vmask v t km.toNat)
          ((vreg v t va.toNat).map fun a => (laneNum ty.toNat a, Sys2Proof.Machine.Num.fin false 1 0)))) ∧
    (∀ (row : BitVec 3) (dir : BitVec 1) (ty : BitVec 2) (va vb : BitVec 6) (km : BitVec 3), ty ≠ 3 →
      tileAt s c j (vrdotWord row.toNat dir.toNat ty.toNat va.toNat vb.toNat km.toNat) 1 →
      exec (.vrdot c j row dir ty va vb km) s = vecDone s c j 1 fun t b k v =>
        putTerms b k t (laneTerms v t row.toNat dir.toNat (vmask v t km.toNat)
          (List.zipWith (fun x y => (laneNum ty.toNat x, laneNum ty.toNat y)) (vreg v t va.toNat) (vreg v t vb.toNat)))) ∧
    (∀ (vd : BitVec 6) (row : BitVec 3) (ty : BitVec 2) (km : BitVec 3), ty ≠ 3 →
      tileAt s c j (vwoutWord vd.toNat row.toNat ty.toNat km.toNat) 1 →
      exec (.vwout c j vd row ty km) s = vecDone s c j 1 fun t b k v =>
        putRegs b k 4 t [(vd.toNat, masked (vmask v t km.toNat)
          ((List.range 256).map fun i => lane (fltEncode (tyFlt ty.toNat) (wellNum (vwell v t (256 * row.toNat + i))))))]) ∧
    (∀ (vd va : BitVec 6) (ty : BitVec 2) (hm mg : BitVec 1) (km : BitVec 3), ty ≠ 3 →
      tileAt s c j (vanchWord vd.toNat va.toNat ty.toNat hm.toNat mg.toNat km.toNat) 1 →
      exec (.vanch c j vd va ty hm mg km) s = vecDone s c j 1 fun t b k v =>
        let m := vmask v t km.toNat
        let bytes := (vreg v t va.toNat).map fun a => numAnchor (laneNum ty.toNat a)
        let top := (bytes.zipIdx.filter fun e => m.getLsbD e.2).foldl (fun a e => max a e.1) 0
        let ls := bytes.zipIdx.map fun e =>
          let x := if hm = 1 then top else e.1
          lane (if mg = 1 then max x (((vreg v t vd.toNat).getD e.2 0).toNat % 256) else x)
        putRegs b k 4 t [(vd.toNat, if hm = 1 then allLanes ls else masked m ls)]) ∧
    (∀ (vd va : BitVec 6) (ty : BitVec 2) (km : BitVec 3), ty ≠ 3 →
      tileAt s c j (vrmaxWord vd.toNat va.toNat ty.toNat km.toNat) 1 →
      exec (.vrmax c j vd va ty km) s = vecDone s c j 1 fun t b k v =>
        let act := ((vreg v t va.toNat).zipIdx.filter fun e => (vmask v t km.toNat).getLsbD e.2).map fun e => laneNum ty.toNat e.1
        putRegs b k 4 t [(vd.toNat, allLanes (List.replicate 256 (lane (laneMax ty.toNat act))))])

/-- Selection, sampling, the generator and dispatch: registers they write and the strokes they take (R133, R134, R137, R138);
where VTOPK or VDISP names one register for both results its lanes are free values, the model's choice (log 16). -/
def Obligations.VectorSelectAndSample : Prop :=
  ∀ (s : State) (c : BitVec 6) (j : BitVec 5), vectorTile j = true →
    (∀ (lv li va vi : BitVec 6) (kk : BitVec 9) (init : BitVec 1) (km : BitVec 3), kk ≠ 0 → kk.toNat ≤ 256 →
      tileAt s c j (vtopkWord lv.toNat li.toNat va.toNat vi.toNat kk.toNat init.toNat km.toNat) 8 →
      exec (.vtopk c j lv li va vi kk init km) s = vecDone s c j 8 fun t b k v =>
        let new := ((List.zip (vreg v t va.toNat) (vreg v t vi.toNat)).zipIdx.filter fun e =>
          (vmask v t km.toNat).getLsbD e.2).map Prod.fst
        let old := if init = 1 then [] else (List.zip (vreg v t lv.toNat) (vreg v t li.toNat)).take kk.toNat
        let r := topK kk.toNat (old ++ new)
        putRegs b k 9 (t + 7) (if lv = li then [(lv.toNat, allLanes (List.zipWith Config.bothResults (r.map Prod.fst) (r.map Prod.snd)))]
          else [(lv.toNat, allLanes (r.map Prod.fst)), (li.toNat, allLanes (r.map Prod.snd))])) ∧
    (∀ (vd lv li vp : BitVec 6) (kk : BitVec 9), kk ≠ 0 → kk.toNat ≤ 256 →
      tileAt s c j (vsampWord vd.toNat lv.toNat li.toNat vp.toNat kk.toNat) 16 →
      exec (.vsamp c j vd lv li vp kk) s = vecDone s c j 16 fun t b k v =>
        let p := vreg v t vp.toNat
        let r := vsamp (List.zip (vreg v t lv.toNat) (vreg v t li.toNat)) kk.toNat (p.getD 0 0) ((p.getD 1 0).toNat / 256)
        putRegs b k 9 (t + 15) [(vd.toNat, [some r.1, some r.2.1, some r.2.2])]) ∧
    (∀ (vd vt vq vs : BitVec 6) (stream : BitVec 16) (wd : BitVec 1), vq.toNat + 1 ≤ 63 → vs.toNat + 3 ≤ 63 →
      tileAt s c j (vrngWord vd.toNat vt.toNat vq.toNat vs.toNat stream.toNat wd.toNat) 1 →
      exec (.vrng c j vd vt vq vs stream wd) s = vecDone s c j 1 fun t b k v =>
        let g (r i : Nat) : BitVec 32 := (vreg v t r).getD i 0
        putRegs b k 9 t [(vd.toNat, allLanes ((List.range 256).map fun i =>
          let w := kcg (g vs.toNat i) (g (vs.toNat + 1) i) (g (vs.toNat + 2) i) (g (vs.toNat + 3) i) (g vq.toNat i)
            (g (vq.toNat + 1) i) (g vt.toNat i) (stream.setWidth 32)
          if wd = 0 then w.1 else w.2))]) ∧
    (∀ (vs vf ve vcap : BitVec 6) (nc : BitVec 4) (nt : BitVec 9) (cont : BitVec 1),
      nc ≠ 0 → nc.toNat ≤ 8 → nt ≠ 0 → nt.toNat * nc.toNat ≤ 256 →
      tileAt s c j (vdispWord vs.toNat vf.toNat ve.toNat vcap.toNat nc.toNat nt.toNat cont.toNat) 16 →
      exec (.vdisp c j vs vf ve vcap nc nt cont) s = vecDone s c j 16 fun t b k v =>
        let fill := if cont = 1 then (vreg v t vf.toNat).map (·.toNat) else List.replicate 256 0
        let d := vdisp (vreg v t ve.toNat) (vreg v t vcap.toNat) nc.toNat nt.toNat fill
        noteDropped (putRegs b k 9 (t + 15) (if vs = vf then [(vs.toNat, allLanes (List.zipWith Config.bothResults d.slots (d.fill.map lane)))]
          else [(vs.toNat, allLanes d.slots), (vf.toNat, allLanes (d.fill.map lane))])) k d.dropped)

/-! ### Scribes (R140-R160) -/

/-- Arithmetic, constants and waiting: the register that is written, when its value can be read, one stroke and the PC advanced by 1
(R144, R146, R147). -/
def Obligations.ScribeArithmetic : Prop :=
  ∀ (s : State) (c : BitVec 6), tidy s = true →
    let pc := scribePc s c.toNat + 1
    (∀ n : BitVec 16, n ≠ 0 → scribeAt s c (sWord [(8, 0), (16, n.toNat)]) n.toNat →
      exec (.scribeWait c n) s = scribeDone (scribeNow s c) c n.toNat pc) ∧
    (∀ (op : BitVec 4) (gd : BitVec 5) (sa sb : BitVec 7), op.toNat < 14 → plainSel sa → plainSel sb →
      scribeAt s c (sWord [(8, 1), (4, op.toNat), (5, gd.toNat), (7, sa.toNat), (7, sb.toNat)]) 1 →
      exec (.alu c op gd sa sb) s =
        scribeDone (wroteG s c 1 gd (aluOp op.toNat (scribeSrc s c sa.toNat) (scribeSrc s c sb.toNat))) c 1 pc) ∧
    (∀ (op : BitVec 4) (gd : BitVec 5) (sa : BitVec 7) (imm : BitVec 32), op.toNat < 14 → plainSel sa →
      scribeAt s c (sWord [(8, 2), (4, op.toNat), (5, gd.toNat), (7, sa.toNat), (32, imm.toNat)]) 1 →
      exec (.alui c op gd sa imm) s =
        scribeDone (wroteG s c 1 gd (aluOp op.toNat (scribeSrc s c sa.toNat) (imm.signExtend 64))) c 1 pc) ∧
    (∀ (gd : BitVec 5) (imm : BitVec 48), scribeAt s c (sWord [(8, 3), (5, gd.toNat), (48, imm.toNat)]) 1 →
      exec (.movi c gd imm) s = scribeDone (wroteG s c 1 gd (imm.setWidth 64)) c 1 pc) ∧
    (∀ (gd : BitVec 5) (idx : BitVec 16) (v : BitVec 64), (liveCore s c.toNat).consts[idx.toNat]? = some v →
      scribeAt s c (sWord [(8, 0x0A), (5, gd.toNat), (16, idx.toNat)]) 1 →
      exec (.ldc c gd idx) s = scribeDone (wroteG s c 3 gd v) c 1 pc)

/-- LD and ST of a scribe: eight bytes at base + 64 × offset + 8 × word, little-endian, where R142 and R62 let the scribe reach them
(R146, R147). -/
def Obligations.ScribeMemory : Prop :=
  ∀ (s : State) (c : BitVec 6) (sa : BitVec 7) (off : BitVec 20) (w : BitVec 3), tidy s = true → plainSel sa →
    let b := scribeNow s c
    let base := scribeSrc s c sa.toNat + off.signExtend 64 * 64
    let a := base.toNat + 8 * w.toNat
    let pc := scribePc s c.toNat + 1
    (∀ gd : BitVec 5, memCause b c.toNat base w.toNat false = none →
      scribeAt s c (sWord [(8, 8), (5, gd.toNat), (7, sa.toNat), (20, off.toNat), (3, w.toNat)]) 1 →
      exec (.ld c gd sa off w) s = scribeDone (wroteG s c 3 gd (wordOf 64 (stepRead b a 8))) c 1 pc) ∧
    (∀ ss : BitVec 7, plainSel ss → memCause b c.toNat base w.toNat true = none →
      scribeAt s c (sWord [(8, 9), (7, ss.toNat), (7, sa.toNat), (20, off.toNat), (3, w.toNat)]) 1 →
      exec (.st c ss sa off w) s =
        scribeDone (unitStore b c.toNat a (bytesOf 8 (scribeSrc s c ss.toNat))) c 1 pc)

/-- Control flow of a scribe: where the PC goes, what a loop counter becomes, and that END ends the context (R145, R146). -/
def Obligations.ScribeControlFlow : Prop :=
  ∀ (s : State) (c : BitVec 6), tidy s = true →
    let b := scribeNow s c
    let pc := scribePc s c.toNat
    (∀ target : BitVec 24, scribeAt s c (sWord [(8, 0x10), (24, target.toNat)]) 1 →
      exec (.jmp c target) s = scribeDone b c 1 target) ∧
    (∀ (lk : BitVec 3) (sa : BitVec 7) (imm : BitVec 32), plainSel sa →
      let v := scribeSrc s c sa.toNat + imm.signExtend 64
      v.toNat < 2 ^ 32 → scribeAt s c (sWord [(8, 0x12), (3, lk.toNat), (7, sa.toNat), (32, imm.toNat)]) 1 →
      exec (.lset c lk sa imm) s = scribeDone (putL b c.toNat lk.toNat (v.setWidth 32)) c 1 (pc + 1)) ∧
    (∀ (lk : BitVec 3) (target : BitVec 24), scribeAt s c (sWord [(8, 0x13), (3, lk.toNat), (24, target.toNat)]) 1 →
      let n := tget 0 (getScribe b c.toNat).l lk.toNat
      exec (.lend c lk target) s =
        if n.toNat > 1 then scribeDone (putL b c.toNat lk.toNat (n - 1)) c 1 target
        else scribeDone (putL b c.toNat lk.toNat 0) c 1 (pc + 1)) ∧
    (scribeAt s c (sWord [(8, 0x1F)]) 1 →
      exec (.endOp c) s = .next (modUnit (retireScribe b c.toNat 1 pc) (scribeKey c.toNat) fun u => { u with ended := true }))

/-- BR goes to its target when the condition that COND names holds of its two sources, and to the next instruction when it does not; a COND of
6 or 7 is an illegal encoding, so the instruction is skipped with that cause (R145). -/
def Obligations.BranchConditions : Prop :=
  ∀ (s : State) (c : BitVec 6) (cond : BitVec 3) (sa sb : BitVec 7) (target : BitVec 24), tidy s = true →
    scribeAt s c (sWord [(8, 0x11), (3, cond.toNat), (7, sa.toNat), (7, sb.toNat), (24, target.toNat)]) 1 →
    let x := scribeSrc s c sa.toNat
    let y := scribeSrc s c sb.toNat
    let goes (p : Prop) : Prop :=
      (p → exec (.br c cond sa sb target) s = scribeDone (scribeNow s c) c 1 target) ∧
      (¬p → exec (.br c cond sa sb target) s = scribeDone (scribeNow s c) c 1 (scribePc s c.toNat + 1))
    (plainSel sa → plainSel sb →
      (cond = 0 → goes (x = y)) ∧ (cond = 1 → goes (x ≠ y)) ∧ (cond = 2 → goes (x < y)) ∧ (cond = 3 → goes (y ≤ x)) ∧
      (cond = 4 → goes (x.toInt < y.toInt)) ∧ (cond = 5 → goes (y.toInt ≤ x.toInt))) ∧
    (6 ≤ cond.toNat → exec (.br c cond sa sb target) s = .next (skipScribe (scribeNow s c) c.toNat 4 1))

/-- PUSH, PUSHR and XWR place one command at the back of a tile's queue of fewer than 64 (R46, R150, R153). -/
def Obligations.ScribePushes : Prop :=
  ∀ (s : State) (c : BitVec 6), tidy s = true →
    let b := scribeNow s c
    let pc := scribePc s c.toNat + 1
    let put (j : Nat) (w : CmdWord) : State :=
      let u := getUnit b (tileKey c.toNat j)
      setUnit b (tileKey c.toNat j) { u with queue := u.queue ++ [w], entered := u.entered + 1 }
    let space (j : Nat) : Prop := (getUnit b (tileKey c.toNat j)).queue.length < 64
    (∀ (j : BitVec 5) (tpl : BitVec 14) (sa sb sc : BitVec 7) (t : BitVec 256) (w : Nat),
      engineTile j = true → plainSel sa → plainSel sb → plainSel sc → (liveCore s c.toNat).templates[tpl.toNat]? = some t →
      patchWord (t.toNat % 2 ^ 128)
        [(patchOf t.toNat 128, (scribeSrc s c sa.toNat).toNat), (patchOf t.toNat 144, (scribeSrc s c sb.toNat).toNat),
         (patchOf t.toNat 160, (scribeSrc s c sc.toNat).toNat)] = some w →
      space j.toNat →
      scribeAt s c (sWord [(8, 0x20), (5, j.toNat), (14, tpl.toNat), (7, sa.toNat), (7, sb.toNat), (7, sc.toNat)]) 1 →
      exec (.push c j tpl sa sb sc) s = scribeDone (put j.toNat (BitVec.ofNat 128 w)) c 1 pc) ∧
    (∀ (j ga : BitVec 5), engineTile j = true → ga.toNat % 2 = 0 → space j.toNat →
      scribeAt s c (sWord [(8, 0x21), (5, j.toNat), (5, ga.toNat)]) 1 →
      exec (.pushr c j ga) s =
        scribeDone (put j.toNat (scribeSrc s c (ga.toNat + 1) ++ scribeSrc s c ga.toNat)) c 1 pc) ∧
    (∀ (x : BitVec 2) (reg : BitVec 8) (sa : BitVec 7), plainSel sa → xregBad reg.toNat (scribeSrc s c sa.toNat).toNat = false →
      space (20 + x.toNat) → scribeAt s c (sWord [(8, 0x28), (2, x.toNat), (8, reg.toNat), (7, sa.toNat)]) 1 →
      exec (.xwr c x reg sa) s = scribeDone (put (20 + x.toNat) (xregWord reg.toNat (scribeSrc s c sa.toNat).toNat)) c 1 pc)

/-- CSEND gives one drop of eight registers, CWAIT takes N drops in N strokes, TREAD writes an observation register, and NOTE logs a
TRACE entry or adds to the step's seal notes (R154-R156). -/
def Obligations.ScribeChannelsAndObservation : Prop :=
  ∀ (s : State) (c : BitVec 6), tidy s = true →
    let b := scribeNow s c
    let pc := scribePc s c.toNat
    (∀ (port : BitVec 4) (ga : BitVec 5) (ch : Nat), outChan s c.toNat 0x1F port.toNat = some ch → ga.toNat % 8 = 0 →
      (getChan s ch).length < chanDepth s ch → scribeAt s c (sWord [(8, 0x30), (4, port.toNat), (5, ga.toNat)]) 1 →
      exec (.csend c port ga) s =
        scribeDone (setChan b ch (getChan s ch ++
          [wordOf 512 ((List.range 8).flatMap fun i => bytesOf 8 (scribeSrc s c (ga.toNat + i)))])) c 1 (pc + 1)) ∧
    (∀ (port : BitVec 4) (n : BitVec 16) (ch : Nat), inChan s c.toNat 0x1F port.toNat = some ch → n ≠ 0 →
      n.toNat ≤ (getChan s ch).length → scribeAt s c (sWord [(8, 0x31), (4, port.toNat), (16, n.toNat)]) n.toNat →
      exec (.cwait c port n) s = scribeDone (takeDrops b ch n.toNat).2 c n.toNat (pc + 1)) ∧
    (∀ (od : BitVec 3) (what : BitVec 2), scribeAt s c (sWord [(8, 0x38), (3, od.toNat), (2, what.toNat)]) 1 →
      let x := getScribe b c.toNat
      let v : BitVec 64 := if what = 0 then s.time.now.sec.setWidth 64 else if what = 1 then timeSub s.time.now
        else if what = 2 then s.step.launchTime.sec.setWidth 64 else timeSub s.step.launchTime
      (s.time.relock = true → exec (.tread c od what) s = .next (waitScribe b c.toNat .relock 0)) ∧
      (s.time.relock = false → exec (.tread c od what) s =
        scribeDone (setScribe b c.toNat { x with
          olog := x.olog ++ [{ stroke := scribeT b c.toNat, lat := 2, reg := od.toNat, val := v }] }) c 1 (pc + 1))) ∧
    (∀ (tag : BitVec 16) (sa sb : BitVec 7), sa.toNat < 0x70 → sb.toNat < 0x70 →
      scribeAt s c (sWord [(8, 0x39), (1, 0), (16, tag.toNat), (7, sa.toNat), (7, sb.toNat)]) 1 →
      exec (.note c 0 tag sa sb) s =
        scribeDone (logEv b { cls := 7, cause := 1, loc := skipLocator 0 c.toNat 0x1F pc.toNat, a0 := scribeSrc s c sa.toNat
                              a1 := scribeSrc s c sb.toNat, die := c.toNat / 16, tag }) c 1 (pc + 1)) ∧
    (∀ (tag : BitVec 16) (sa sb : BitVec 7), sa.toNat < 0x70 → sb.toNat < 0x70 →
      scribeAt s c (sWord [(8, 0x39), (1, 1), (16, tag.toNat), (7, sa.toNat), (7, sb.toNat)]) 1 →
      exec (.note c 1 tag sa sb) s =
        scribeDone { b with step := { b.step with
          notes := b.step.notes ++ [{ tag, emitted := 0, sa := scribeSrc s c sa.toNat, sb := scribeSrc s c sb.toNat }] } } c 1 (pc + 1))

/-! ### Transfer engines and die movers (R170-R186), waiting (R50) -/

/-- XREG writes a shadow register, XFLIP puts the shadow sets of its mask in force, each in 1 stroke; XMOV moves ROWS × DROPS drops one by
one, gives its done drop, and takes 2 strokes more than it moves drops (R173-R176, R182). -/
def Obligations.TransferCommands : Prop :=
  ∀ (s : State) (c : BitVec 6) (j : BitVec 5), transferTile j = true →
    let k := tileKey c.toNat j.toNat
    let i := issued s c j
    (∀ (reg : BitVec 8) (value : BitVec 64), xregBad reg.toNat value.toNat = false →
      tileAt s c j (xregWord reg.toNat value.toNat) 1 →
      exec (.xreg c j reg value) s =
        .next (retired (setXfer i k { getXfer s k with shadow := tset 0 (getXfer s k).shadow reg.toNat value }) c j 1)) ∧
    (∀ mask : BitVec 8, mask ≠ 0 → tileAt s c j (xflipWord mask.toNat) 1 →
      exec (.xflip c j mask) s = .next (retired (setXfer i k (flipMask (getXfer s k) mask.toNat)) c j 1)) ∧
    (∀ (set : BitVec 3) (flip : BitVec 1) (rows : BitVec 16) (drops : BitVec 20) (soff doff : BitVec 32) (done : BitVec 1)
      (cport : BitVec 4),
      let x : Xmov := { set := set.toNat, flip := flip.toNat, rows := rows.toNat, drops := drops.toNat, soff := soff.toNat
                        doff := doff.toNat, done := done.toNat, cport := cport.toNat }
      let total := rows.toNat * drops.toNat
      xmovCause s c.toNat j.toNat x = none → tileAt s c j (xmovWord x) (2 + total) →
      let v := xmovSet s k x
      let f := if flip = 1 then setXfer i k (flipSet (getXfer s k) set.toNat) else i
      let inp := if v.skind = 1 then inChan s c.toNat j.toNat v.sport else none
      let outp := if v.dkind = 1 then outChan s c.toNat j.toNat v.dport else none
      let g := xmovGo c.toNat x v false inp outp total 0 none f
      let last : List (Nat × Drop) := if done = 1 then
        (outChan s c.toNat j.toNat cport.toNat).toList.map fun ch => (ch, doneDrop (getUnit s k).issued total) else []
      g.2.2.2 = none → room g.1 last → tidy s = true →
      exec (.xmov c j set flip rows drops soff doff done cport) s = .next (retired (pump g.1 last).1 c j (2 + total)))

/-- A die mover's entry moves its drops one by one, gives its done drop and takes 2 strokes more than it moves drops; with AMODE 1 its
address has a descriptor drop added (R183, R185). -/
def Obligations.DieMoverEntries : Prop :=
  ∀ (s : State) (m : BitVec 3) (v : BitVec 256), tidy s = true →
    let k := moverKey m.toNat
    let u := getUnit s k
    let e := moverEntryOf v
    let i := setUnit s k { u with issued := u.issued + 1, waiting := none }
    canIssue s k = true → (moverList s m.toNat).entries[u.issued]? = some v →
    ∀ (a : Nat) (i' : State),
      ((e.amode ≠ 1 ∧ a = e.addr ∧ i' = i) ∨
       (e.amode = 1 ∧ ∃ (ch : Nat) (d : Drop) (ds : List Drop), moverIn s m.toNat e.dportIn = some ch ∧ getChan s ch = d :: ds ∧
          a = (e.addr + d.toNat % 2 ^ 64) % 2 ^ 64 ∧ i' = (takeDrops i ch 1).2)) →
      moverCause s m.toNat e a = none →
      let ch := if e.op = 2 then moverIn s m.toNat e.dataPort else moverOut s m.toNat e.dataPort
      let g := moverGo m.toNat e a false ch e.drops 0 i'
      let last := moverDone s m.toNat u.issued e false
      g.2.2 = none → room g.1 last →
      let t := modUnit (pump g.1 last).1 k fun u =>
        { u with strokes := u.strokes + BitVec.ofNat 64 (2 + e.drops), waiting := none, blocked := none }
      (e.op = 1 → exec (.moverRead m) s = .next t) ∧ (e.op = 2 → exec (.moverWrite m) s = .next t)

/-- A tile goes on where its stroke was stretched: once its inputs are in and there is room for what it has left to give, the command retires; a
tile whose queue is empty, and whose turn it is, waits (R46, R50, R162). -/
def Obligations.WaitingTileGoesOn : Prop :=
  ∀ (s : State) (c : BitVec 6) (j : BitVec 5), engineTile j = true →
    let k := tileKey c.toNat j.toNat
    let u := getUnit s k
    mayGoOn s k = true →
    (∀ b : Blocked, u.blocked = some b → midStroke u = true → isXmov b.word = false →
      let p := wordPlan s c.toNat j.toNat b.word
      let g := gather s p.demand b.got
      let e := planEffect p u.strokes.toNat g.2.1 (asIssued g.1 k u)
      stopAt s k u p.strokes = p.strokes → g.2.2 = none → room e.1 (e.2.drop b.moved) →
      exec (.waitResume (.tile c j)) s = .next (retired (pump e.1 (e.2.drop b.moved)).1 c j p.strokes)) ∧
    (u.blocked = none → u.queue = [] → canIssue s k = true →
      exec (.waitResume (.tile c j)) s = .next (setUnit s k { u with waiting := some .emptyQueue }))

/-! ### The step (R65-R77, R159) -/

/-- LAUNCH_TICK launches the next step once its tick has come and the device is ready: the step runs as attempt 1 with every unit at
0 strokes and empty queues (R67 events 1 to 3, R276). -/
def Obligations.LaunchTickStartsStep : Prop :=
  ∀ (s : State) (r : TimeVal), s.sec.isOpen = true → s.step.running = false → s.time.relock = false → anyHalted s = false →
    (s.launch.state = .committed ∨ s.launch.state = .running) → endFor s s.launch.nextStep = none → s.launch.ready = some r →
    tickReached s s.launch.nextStep = true → s.launch.reloading = false → (isHead s = true → tokenRoom s = true ∧ sealRoom s = true) →
    blottedPort s = false →
    answers (exec .launchTick s) fun t =>
      t.step.running = true ∧ t.step.number = s.launch.nextStep ∧ t.step.attempts = 1 ∧ t.step.conds = 0 ∧
      t.step.launchTime = s.time.now ∧ t.launch.nextStep = s.launch.nextStep + 1 ∧ t.launch.state = .running ∧
      (∀ k, (getUnit t k).strokes = 0 ∧ (getUnit t k).issued = 0 ∧ (getUnit t k).queue = []) ∧
      t.matrix = [] ∧ t.vector = [] ∧ t.xfer = [] ∧ t.mem = s.mem

/-- LOCAL_END takes the stroke total of the step once every unit has retired (R23, R67 events 6 and 7); STEP_COMMIT then makes the
step copies current, ends the step and keeps its record with the conditions that arose (R65, R67 event 9, R70). -/
def Obligations.StepEndsAndCommits : Prop :=
  ∀ s : State,
    (s.step.running = true → s.step.voided = false → s.step.localEnded = false → allRetired s = true →
      answers (exec .localEnd s) fun t =>
        t.step.running = true ∧ t.step.localEnded = true ∧
        t.step.strokes = strokeLength (flushUnits s (s.matrix.map Prod.fst ++ s.vector.map Prod.fst))) ∧
    (s.step.running = true → s.step.localEnded = true → commitsComplete s = true → residue s = false → s.sec.serving = false →
      s.mbox.ckpt = none →
      answers (exec .stepCommit s) fun t =>
        t.step.running = false ∧ t.step.lastEnded = s.step.number ∧ t.step.lastMask = s.step.conds ||| s.step.kept ∧
        t.step.lastStrokes = s.step.strokes ∧ t.mem = overlayMerge s.mem s.overlay ∧ t.overlay = [] ∧ t.chans = [])

/-- STEP_VOID voids the step the first time and fails it with PARITY the second; STEP_REEXECUTE runs a voided step again as the next
attempt with no condition standing and every unit as at a launch (R71, R172). -/
def Obligations.StepVoidAndReexecution : Prop :=
  ∀ (s : State) (addr : DevAddr),
    (s.step.running = true → s.step.voided = false → s.step.localEnded = false →
      (s.step.ownVoids = 0 →
        answers (exec (.stepVoid addr) s) fun t =>
          t.step.running = true ∧ t.step.voided = true ∧ t.step.ownVoids = 1 ∧ t.step.kept = s.step.kept ||| 4 ∧ t.overlay = [] ∧
          t.matrix = [] ∧ t.vector = [] ∧ t.xfer = [] ∧ t.chans = [] ∧ t.mem = s.mem) ∧
      (1 ≤ s.step.ownVoids → s.sec.serving = false → s.mbox.ckpt = none →
        answers (exec (.stepVoid addr) s) fun t =>
          t.step.running = false ∧ t.step.lastEnded = s.step.number ∧ t.step.lastMask = s.step.conds ||| 8 ∧ t.overlay = [] ∧
          t.mem = s.mem)) ∧
    (s.step.running = true → s.step.voided = true → s.step.reload = none →
      exec .stepReexecute s = .next (refill { resetUnits s with step := { s.step with
        voided := false, conds := 0, attempts := s.step.attempts + 1, skips := 0, firstSkip := 0, defective := false
        saturated := false, localEnded := false, strokes := 0, consumed := [], dispatchDrops := 0, dispatchUnit := none, notes := [] } }
        s.step.retained))

/-- WATCHDOG_EXPIRY and a unit's uncorrectable read fail the running step with their conditions and leave memory as it was (R75, R76,
R330); EPOCH_RELOAD_DONE lets the marker step launch (R221); a boundary with no plot puts a pending flip in force (R81, R159). -/
def Obligations.StepFailuresAndBoundary : Prop :=
  ∀ s : State,
    (s.step.running = true → dryHold s = false → anyHalted s = false → s.sec.serving = false → s.mbox.ckpt = none →
      answers (exec .watchdogExpiry s) fun t =>
        t.step.running = false ∧ t.step.lastEnded = s.step.number ∧ t.step.lastMask = s.step.conds ||| 64 ∧ t.mem = s.mem) ∧
    (∀ (addr : DevAddr) (index : BitVec 32), inMemory s addr.toNat = true → s.step.running = true → s.step.voided = false →
      s.sec.serving = false → s.mbox.ckpt = none →
      answers (exec (.memoryUncorrectable addr 3 index) s) fun t =>
        t.step.running = false ∧ t.step.lastEnded = s.step.number ∧ t.step.lastMask = s.step.conds ||| 256 ∧ t.mem = s.mem) ∧
    (s.launch.reloading = true → s.load.liveManifest = none →
      exec .epochReloadDone s = .next { s with launch := { s.launch with
        reloading := false
        ready := if s.launch.boundaryDone && launching s && hasRoom s then some s.time.now else none
        short := if s.launch.boundaryDone && launching s then !hasRoom s else s.launch.short } }) ∧
    (∀ host : HostView, inService s = true → s.step.running = false → launching s = false → s.sheets.flipPending = true →
      s.ddrs = [] → s.mbox.rings = [] → s.mbox.came = [] →
      exec (.stepBoundary host) s = .next { s with sheets := { s.sheets with
        live := s.sheets.shadow, shadow := s.sheets.live, liveSlot := s.sheets.liveSlot + 1, shadowValid := false, flipPending := false } })

/-! ### Launch messages (R261-R274, R357) -/

/-- HOLD, HOLD_END, STAGED and END notices seen for the first time on a sub-port that carries the plot: what each adds to or takes from
the launch and serving state; memory, units and registers stay (R271, R272, R357). -/
def Obligations.FloodedNotices : Prop :=
  ∀ (s : State) (port : BitVec 6) (sub : BitVec 3) (h : LaunchHdr), s.sec.isOpen = true →
    (getSub s (subKey port.toNat sub.toNat)).state = .plot → h.tree.toNat ≤ 1 →
    let fresh (b : LaunchBody) : Prop := s.launch.seen.contains (floodId { hdr := h, body := b }) = false
    let still (t : State) : Prop := t.mem = s.mem ∧ t.units = s.units ∧ t.regs = s.regs ∧ t.step = s.step ∧ t.sheets = s.sheets
    (∀ (hp hu : BitVec 8) (dry : BitVec 32), fresh (.hold hp hu dry) →
      answers (exec (.hold port sub h hp hu dry) s) fun t =>
        t.launch.holds = s.launch.holds ++ [{ origin := h.origin, step := h.step, port := hp, sub := hu, dryMs := dry }] ∧
        dryHold t = true ∧ still t) ∧
    (∀ (hp hu : BitVec 8) (dry : BitVec 32) (o : BitVec 8), fresh (.holdEnd hp hu dry o) →
      answers (exec (.holdEnd port sub h hp hu dry o) s) fun t =>
        t.launch.holds = s.launch.holds.filter (fun x => !holdIs h.origin hp hu x) ∧ still t) ∧
    (∀ e a : BitVec 32, fresh (.staged e a) →
      answers (exec (.staged port sub h e a) s) fun t =>
        t.serv.stagedMsgs = (h.origin, e, a) :: s.serv.stagedMsgs ∧ still t) ∧
    (∀ (n : BitVec 32) (st : BitVec 8), fresh (.endN n st) → st.toNat < 16 → tb failMask.toNat st.toNat = true →
      s.step.running = false →
      answers (exec (.endNotice port sub h n st) s) fun t => t.launch.ends = s.launch.ends ++ [(h.step, n, st)] ∧ still t) ∧
    (∀ (o : BitVec 32) (st : BitVec 64) (hp hu : BitVec 8),
      exec (.holdLapse o st hp hu) s = .next { s with launch := { s.launch with holds := s.launch.holds.filter fun x =>
        !(holdIs o hp hu x && x.step == st && x.dryMs != 0xFFFFFFFF && o != s.sec.position) } })

/-- CENSUS, its wait's expiry, DIGEST, the COMMIT message and ARM_EXPIRY on a device of the plot (R267-R270). -/
def Obligations.CensusAndCommitMessages : Prop :=
  ∀ (s : State) (port : BitVec 6) (sub : BitVec 3) (h : LaunchHdr), s.sec.isOpen = true →
    let k := subKey port.toNat sub.toNat
    (getSub s k).state = .plot → h.tree.toNat ≤ 1 →
    (∀ (tag : BitVec 64) (a r q f m : BitVec 32),
      let c := censusOf s h.tree.toNat
      (treeChildren s h.tree.toNat).contains k = true → c.heard.contains k = false → c.sent = false → c.own = false →
      answers (exec (.census port sub h tag a r q f m) s) fun t =>
        (censusOf t h.tree.toNat).heard = k :: c.heard ∧
        (censusOf t h.tree.toNat).msgs = c.msgs ++
          [{ origin := h.origin, tag, armed := a, refused := r, reasons := q, firstRefused := f, maxBound := m }]) ∧
    (∀ tree : BitVec 1, (censusOf s tree.toNat).sent = false → (censusOf s tree.toNat).own = true → s.launch.armWaiter = none →
      answers (exec (.censusWaitExpiry tree) s) fun t => (censusOf t tree.toNat).sent = true ∧ t.mem = s.mem) ∧
    (∀ d : Digest, s.sec.position = 0 → (s.launch.digests.find? fun e => e.1 == h.origin.toNat) = none →
      answers (exec (.digest port sub h d) s) fun t => tget (0, 0) t.launch.digests h.origin.toNat = (h.step, d)) ∧
    (∀ (tag sec : BitVec 64) (ns : BitVec 32),
      h.job = s.launch.armRec.job → h.step = s.launch.armRec.firstStep → tag = armTagOf s.launch.armRec →
      s.launch.state = .armed → nowNs s < sec.toNat * 1000000000 + ns.toNat → sec.toNat < 2 ^ 48 →
      answers (exec (.commitMessage port sub h tag sec ns) s) fun t =>
        t.launch.state = .committed ∧ t.launch.startS = sec.setWidth 48 ∧ t.launch.startNs = ns ∧
        t.launch.nextStep = s.launch.armRec.firstStep ∧ t.mem = s.mem) ∧
    (∀ (tag sec : BitVec 64) (ns : BitVec 32), 2 ^ 48 ≤ sec.toNat →
      exec (.commitMessage port sub h tag sec ns) s = .next (freeBuffer (discardLaunch s k 3 h.origin) k 0)) ∧
    (s.launch.state = .armed →
      answers (exec .armExpiry s) fun t => t.launch.state = s.launch.before ∧ t.launch.censusOk = false ∧ t.mem = s.mem)

/-! ### The timebase, its references, PPS and PTP (R247-R258) -/

/-- A pending SET is loaded by its tick and makes the time valid, a pending phase step is added with the increment by its tick, and a
read of NOW_S latches NOW_SUB (R247, R248). -/
def Obligations.TimebaseCommands : Prop :=
  ∀ s : State, s.time.relock = false →
    (s.time.setGo = true →
      exec .timeSetLoad s = .next (tickWatch { s with time := { s.time with
        now := { sec := s.time.setSec, acc := BitVec.ofNat 62 (s.time.setSub.toNat * 2 ^ 16) }, setGo := false, timeValid := true } })) ∧
    (s.time.offsetPending = true → s.time.setGo = false →
      ∀ (sec : Nat) (a : Nat), a < 1000000000 * 2 ^ 32 → sec < 2 ^ 48 →
        ((s.time.now.sec.toNat : Int) * (1000000000 * 2 ^ 32) + s.time.now.acc.toNat + s.time.incr.toNat
          + s.time.offsetAmount.toInt * 2 ^ 16 = (sec : Int) * (1000000000 * 2 ^ 32) + a) →
        exec .phaseStepApply s = .next (tickWatch { s with time := { s.time with
          now := { sec := BitVec.ofNat 48 sec, acc := BitVec.ofNat 62 a }, offsetPending := false } })) ∧
    exec .tbaseNowRead s = .next { s with time := { s.time with latched := BitVec.ofNat 46 (s.time.now.acc.toNat / 2 ^ 16) } }

/-- References, holdover and region stops: a failed reference in use hands over to the other or begins holdover, a passing one ends
holdover by a relock, every millisecond of holdover adds 20 ns to BOUND, and a region stop ends with its entry in class TIME (R251, R252,
R255). -/
def Obligations.ReferencesAndRegionStops : Prop :=
  ∀ s : State,
    (∀ r : BitVec 1, s.time.refSel = r → s.time.holdover = false →
      (refOk s.time (1 - r) = true →
        exec (.refFail r) s = .next (logEv { s with time := { setRef s.time r false with refSel := 1 - r } }
          { cls := clsTime, cause := 1, a0 := BitVec.ofNat 64 (1 - r).toNat })) ∧
      (refOk s.time (1 - r) = false →
        exec (.refFail r) s = .next (logEv { s with time := { setRef s.time r false with holdover := true, holdMs := 0 } }
          { cls := clsTime, cause := 2, a0 := BitVec.ofNat 64 s.time.bound.toNat }))) ∧
    (∀ r : BitVec 1, s.time.holdover = true → s.time.relock = false →
      exec (.refPass r) s = .next { s with
        time := { setRef s.time r true with refSel := r, relock := true }, boot := { s.boot with ppsOut := false } }) ∧
    (s.time.holdover = true →
      exec .holdoverBoundTick s = .next { s with time := { s.time with
        bound := BitVec.ofNat 32 (min (s.time.bound.toNat + 20) (2 ^ 32 - 1))
        holdMs := BitVec.ofNat 32 (min (s.time.holdMs.toNat + 1) (2 ^ 32 - 1)) } }) ∧
    (∀ ns : BitVec 32, s.time.relock = true → refOk s.time s.time.refSel = true →
      exec (.regionStopEnd 16 ns) s = .next (answerTimeReads (logEv (logEv { s with
        time := { s.time with relock := false, holdover := false } }
        { cls := clsTime, cause := 5, loc := 16, a0 := BitVec.ofNat 64 ns.toNat })
        { cls := clsTime, cause := 3, a0 := BitVec.ofNat 64 s.time.holdMs.toNat }))) ∧
    (∀ (g : BitVec 5) (ns : BitVec 32), g.toNat < 8 → (tget {} s.stackTbl g.toNat).stopping = true →
      exec (.regionStopEnd g ns) s =
        .next (logEv { s with stackTbl := tmod {} s.stackTbl g.toNat fun k => { k with stopping := false } }
          { cls := clsTime, cause := 5, loc := BitVec.ofNat 64 g.toNat, a0 := BitVec.ofNat 64 ns.toNat, die := g.toNat / 2 })) ∧
    (∀ (g : BitVec 5) (ns : BitVec 32), 8 ≤ g.toNat → g.toNat < 16 → (getDdr s (g.toNat - 8)).stopping = true →
      exec (.regionStopEnd g ns) s =
        .next (logEv { s with ddrs := tmod {} s.ddrs (g.toNat - 8) fun k => { k with stopping := false } }
          { cls := clsTime, cause := 5, loc := BitVec.ofNat 64 g.toNat, a0 := BitVec.ofNat 64 ns.toNat, die := (g.toNat - 8) / 2 }))

/-- PPS: in state OK an edge near a whole second (any edge while time is not valid) is accepted with its timestamp, another is rejected
and counted; 2 s without one is STUCK; PPS_OUT rises on its second and falls (R253, R254). -/
def Obligations.PpsCommands : Prop :=
  ∀ s : State,
    (cfg s offTbaseCtl 3 3 = 1 → s.time.ppsState = 1 →
      (∀ e, s.time.ppsLastEdge = some e → timeUnits e + nsUnits 2000000 ≤ nowUnits s) → s.time.ppsRejTimes.length < 4 →
      ((s.time.timeValid = false ∨ tvUnits s.time.now ≤ nsUnits 1000000 ∨ nsUnits 999000000 ≤ tvUnits s.time.now) →
        exec .ppsInEdge s = .next { s with time := { s.time with
          ppsLastEdge := some s.time.now, ppsTs := s.time.now, ppsAccepted := s.time.ppsAccepted + 1 } }) ∧
      (s.time.timeValid = true → nsUnits 1000000 < tvUnits s.time.now → tvUnits s.time.now < nsUnits 999000000 →
        answers (exec .ppsInEdge s) fun t =>
          t.time.ppsRejected = s.time.ppsRejected + 1 ∧ t.time.ppsTs = s.time.ppsTs ∧ t.time.ppsAccepted = s.time.ppsAccepted ∧
          t.time.ppsState = 1)) ∧
    (cfg s offTbaseCtl 3 3 = 1 → s.time.ppsState = 1 →
      exec .ppsStuck s = .next (logEv { s with time := { s.time with ppsState := 2, ppsGood := 0, ppsSecond := none } }
        { cls := clsTime, cause := 4, a0 := 2 })) ∧
    (cfg s offTbaseCtl 4 4 = 1 → s.time.relock = false →
      (tvUnits s.time.now ≤ nsUnits 1 ∨ nsUnits 999999999 ≤ tvUnits s.time.now) →
      exec .ppsOutSecond s = .next { s with boot := { s.boot with ppsOut := true }, time := { s.time with ppsOutAt := s.time.now } }) ∧
    (timeUnits s.time.ppsOutAt + nsUnits (1000000 * cfg s offTbaseCtl 14 5) ≤ nowUnits s →
      exec .ppsOutFall s = .next { s with boot := { s.boot with ppsOut := false } })

/-- Messages that a PTP port takes: what each of the eight kinds does, and an unsupported one counted as discarded. The servo's own choices
are free and nothing is said of them (R256-R258, log 13). -/
def Obligations.PtpMessages : Prop :=
  ∀ (s : State) (port : BitVec 6) (sub : BitVec 3) (h : PtpHdr),
    let n := port.toNat
    let u := sub.toNat
    let k := subKey n u
    let c := ptpCountEvent s n u
    let p := getPtp s k
    (ptpTake s n u h true = some true →
      (∀ origin : PtpTime, ptpRole c n u = 2 → h.twoStep = true →
        exec (.ptpSync port sub h origin) s =
          .next (modPtp c k fun p => { p with syncPending := some (h.seq, ingressTime c n u - h.correction.toInt - ptpAsym c n u) })) ∧
      (∀ origin : PtpTime, ptpRole c n u = 2 → h.twoStep = false → hostOwnsServo s = true →
        exec (.ptpSync port sub h origin) s =
          .next (modPtp c k fun p => { p with
            lastSync := some (ingressTime c n u - h.correction.toInt - ptpAsym c n u - ptpTime16 origin), syncPending := none })) ∧
      (ptpRole c n u = 1 → ptpCfg s n u 3 3 = 0 →
        answers (exec (.ptpDelayReq port sub h) s) fun t =>
          ∃ o, t.ptpOut = some o ∧ o.kind = 6 ∧ o.seq = h.seq ∧ o.reqClock = h.sourceClock ∧ o.reqPort = h.sourcePort ∧
            o.portNumber = 8 * n + u + 1) ∧
      (ptpCfg s n u 3 3 = 1 →
        answers (exec (.ptpPdelayReq port sub h) s) fun t =>
          ∃ o, t.ptpOut = some o ∧ o.kind = 4 ∧ o.seq = h.seq ∧ o.reqClock = h.sourceClock ∧ o.reqPort = h.sourcePort ∧
            o.sec = 0 ∧ o.ns = 0 ∧
            o.correction = BitVec.ofInt 64 (h.correction.toInt + (egressTime c n u - ingressTime c n u))) ∧
      (∀ (t1 : Int) (receipt : PtpTime), p.reqSent = some (h.seq, t1) → ptpCfg s n u 3 3 = 1 →
        let trip := ingressTime c n u - t1 - h.correction.toInt - ptpAsym c n u
        let answer := exec (.ptpPdelayResp port sub h receipt s.boot.deviceId (BitVec.ofNat 16 (portNumber n u))) s
        (h.twoStep = false → answer = .next (modPtp (modPtp c k fun p => { p with reqSent := none }) k fun p =>
          { p with meanPs := BitVec.ofInt 32 (trip / 2 * 1000 / 65536) })) ∧
        (h.twoStep = true → answer = .next (modPtp (modPtp c k fun p => { p with reqSent := none }) k fun p =>
          { p with pdelayPending := some (h.seq, trip + ptpTime16 receipt) })))) ∧
    (ptpTake s n u h false = some true →
      (∀ (t2 : Int) (origin : PtpTime), p.syncPending = some (h.seq, t2) → hostOwnsServo s = true →
        exec (.ptpFollowUp port sub h origin) s =
          .next (modPtp s k fun p => { p with
            lastSync := some (t2 - h.correction.toInt - ptpTime16 origin), syncPending := none })) ∧
      (∀ (t3 d : Int) (receive : PtpTime), p.reqSent = some (h.seq, t3) → p.lastSync = some d → ptpCfg s n u 3 3 = 0 →
        exec (.ptpDelayResp port sub h receive s.boot.deviceId (BitVec.ofNat 16 (portNumber n u))) s =
          .next (modPtp (modPtp s k fun p => { p with reqSent := none }) k fun p =>
            { p with meanPs := BitVec.ofInt 32 ((d + (ptpTime16 receive - h.correction.toInt - t3)) / 2 * 1000 / 65536) })) ∧
      (∀ (d : Int) (origin : PtpTime), p.pdelayPending = some (h.seq, d) →
        exec (.ptpPdelayRespFollowUp port sub h origin s.boot.deviceId (BitVec.ofNat 16 (portNumber n u))) s =
          .next (modPtp (modPtp s k fun p => { p with pdelayPending := none }) k fun p =>
            { p with meanPs := BitVec.ofInt 32 ((d - ptpTime16 origin - h.correction.toInt) / 2 * 1000 / 65536) })) ∧
      (∀ b : PtpAnnounceBody,
        exec (.ptpAnnounce port sub h b) s =
          .next (if b.stepsRemoved.toNat < 16 then modPtp s k fun p => { p with announce := some b } else s))) ∧
    (ptpCfg s n u 0 0 = 1 →
      exec (.ptpUnsupported port sub) s = .next (modPtp s k fun p => { p with discarded := p.discarded + 1 }))

/-- A PTP port's timers send the message of its role with its own sequence number (R256, R258). -/
def Obligations.PtpTimers : Prop :=
  ∀ (s : State) (port : BitVec 6) (sub : BitVec 3),
    let n := port.toNat
    let u := sub.toNat
    let k := subKey n u
    let p := getPtp s k
    (ptpMaySend s n u true = true →
      (ptpRole s n u = 1 →
        answers (exec (.ptpSyncTimer port sub) s) fun t =>
          (∃ o, t.ptpOut = some o ∧ o.kind = 1 ∧ o.seq = p.syncSeq ∧ o.portNumber = 8 * n + u + 1) ∧
          t.ptp = tmod {} s.ptp k fun p => { p with syncSeq := p.syncSeq + 1 }) ∧
      (ptpCfg s n u 3 3 ≠ 1 → ptpRole s n u = 2 →
        answers (exec (.ptpDelayReqTimer port sub) s) fun t =>
          (∃ o, t.ptpOut = some o ∧ o.kind = 2 ∧ o.seq = p.delaySeq) ∧
          t.ptp = tmod {} s.ptp k fun p => { p with delaySeq := p.delaySeq + 1, reqSent := some (p.delaySeq, egressTime s n u) }) ∧
      (ptpCfg s n u 3 3 = 1 → ptpRole s n u ≠ 0 →
        answers (exec (.ptpDelayReqTimer port sub) s) fun t =>
          (∃ o, t.ptpOut = some o ∧ o.kind = 3 ∧ o.seq = p.delaySeq) ∧
          t.ptp = tmod {} s.ptp k fun p => { p with delaySeq := p.delaySeq + 1, reqSent := some (p.delaySeq, egressTime s n u) })) ∧
    (ptpMaySend s n u false = true → ptpRole s n u = 1 →
      answers (exec (.ptpAnnounceTimer port sub) s) fun t =>
        (∃ o, t.ptpOut = some o ∧ o.kind = 5 ∧ o.seq = p.announceSeq ∧ o.traceable = !s.time.holdover) ∧
        t.ptp = tmod {} s.ptp k fun p => { p with announceSeq := p.announceSeq + 1 })

/-! ### The pace controller (R279-R282) -/

/-- In free mode the rail moves toward FREE_MV by at most 5 mV within VMIN and VMAX and its new targets are commanded; a rail that does not
answer sets the fault, and readings are taken (R279-R281). -/
def Obligations.PaceAndRails : Prop :=
  ∀ s : State, s.pace.avsFault = false →
    let hotter (c : BitVec 8) : BitVec 8 := if s.pace.tjMax.toNat < c.toNat then c else s.pace.tjMax
    (s.launch.paced = false → paceDue s = true → overPower s = false → overTemp s = false →
      let rail := s.pace.railMv.toNat
      let free := cfg s offPaceRate 41 32
      let v := if rail < free then min (rail + 5) free else if free < rail then max (rail - 5) free else rail
      let c := min (max v (cfg s offPaceLimits 9 0)) (cfg s offPaceLimits 19 10)
      (rail ≠ free → c ≠ rail →
        exec .paceFreeUpdate s = .next { s with pace := { s.pace with
          railMv := BitVec.ofNat 10 c, lastChange := some s.time.now, avsOut := some (railTargets s c)
          powerLimited := false, thermalLimited := false } }) ∧
      (rail = free → exec .paceFreeUpdate s = .next s)) ∧
    (∀ (w : BitVec 16) (c : BitVec 8),
      exec (.avsReadback 15 w c) s = .next { s with pace := { s.pace with tjC := c, powerW := w, tjMax := hotter c } }) ∧
    (∀ (a : BitVec 4) (w : BitVec 16) (c : BitVec 8), a ≠ 15 →
      exec (.avsReadback a w c) s = .next (((List.range 4).filter fun d => !tb a.toNat d).foldl
        (fun x d => logEv x { cls := clsTime, cause := 10, loc := BitVec.ofNat 64 d, suspect := some 1 })
        { s with pace := { s.pace with tjC := c, avsFault := true, tjMax := hotter c } }))

/-! ### Span ports (R283-R316) -/

/-- Training, link down and the end of the dry time: lanes and width that training found, what training that failed leaves, the states
that a lost link takes in and out of a plot, and the blot (R286, R287, R311-R314). -/
def Obligations.SpanTrainingAndLinkDown : Prop :=
  ∀ (s : State) (port : BitVec 6) (sub : BitVec 3),
    let n := port.toNat
    let k := subKey n sub.toNat
    let b := getSub s k
    let downed := { b with
      linkUp := false, training := false, shaking := false, narrowing := false, linkOp := 0, replaying := false, realigned := false
      partnerDone := false, qLink := [], retrains := b.retrains + 1 }
    let mayTrain := subThere s n sub.toNat = true ∧ b.linkUp = false ∧ b.training = false
    let trains (t : State) : Prop :=
      (getSub t k).training = true ∧ (getSub t k).linkUp = false ∧ (getSub t k).shaking = false ∧
      (getSub t k).cfgIn = BitVec.ofNat 64 (cfg s (offSpanCfg n) 63 0) ∧
      (getSub t k).state = heldState b .training ∧ t.mem = s.mem ∧ t.regs = s.regs
    (∀ (ok reversed : Bool) (termFault inverted : BitVec 8), b.training = true →
      let mine := ownLanes (shareOf b) sub.toNat
      let good := mine &&& ~~~termFault
      let w := widthFor 8 (laneCount good)
      (ok = true → w ≠ 0 → (isDirect b = true ∨ good = mine) →
        answers (exec (.trainingComplete port sub ok reversed termFault inverted) s) fun t =>
          (getSub t k).training = false ∧ (getSub t k).linkUp = true ∧ (getSub t k).width = BitVec.ofNat 4 w ∧
          (getSub t k).lanes = lowLanes good w ∧ (getSub t k).shaking = true ∧
          (getSub t k).state = heldState b .training ∧
          t.ports = (noteLanes s n mine termFault inverted reversed).ports) ∧
      ((ok = false ∨ w = 0) →
        exec (.trainingComplete port sub ok reversed termFault inverted) s =
          .next (logEv (setSub (noteLanes s n mine termFault inverted reversed) k
            { b with training := false, state := heldState b .off, width := 0, lanes := 0 })
            (spanEv s 1 k (BitVec.ofNat 64 (tget {} (noteLanes s n mine termFault inverted reversed).ports n).termFault.toNat))))) ∧
    (mayTrain → isDirect b = true → b.rolesKnown = true → b.pen = false → (b.state = .down ∨ b.state = .holding ∨ b.state = .fenced) →
      answers (exec (.penHolderWaitExpiry port sub) s) trains) ∧
    (mayTrain → answers (exec (.linkUp port sub) s) trains) ∧
    (mayTrain → b.state = .off → s.step.running = false → answers (exec (.retrain port sub) s) trains) ∧
    (b.linkUp = true → b.state ≠ .plot →
      let st := if b.fenced then LinkState.fenced else if b.holding then .holding
        else if cfg s (offSpanCfg (k / 8)) 4 4 = 1 then .down else .off
      let down (reason : Nat) : Out := .next (logEv (setSub s k { downed with state := st }) (spanEv s 5 k (BitVec.ofNat 64 reason)))
      exec (.linkDown port sub) s = down 1 ∧ exec (.linkRetrain port sub) s = down 2 ∧ exec (.keepaliveExpiry port sub) s = down 3) ∧
    (b.linkUp = true → b.state = .plot →
      let dry := (tget {} s.ports (k / 8)).dryMs
      let hold (reason : Nat) : Out :=
        .next (beginHold (logEv (logEv (setSub s k { downed with state := .holding, holding := true, holdStart := s.time.now })
          (spanEv s 5 k (BitVec.ofNat 64 reason))) (spanEv s 6 k (BitVec.ofNat 64 dry.toNat))) (k / 8) (k % 8) (if dry = 0 then 0xFFFFFFFF else dry))
      exec (.linkDown port sub) s = hold 1 ∧ exec (.linkRetrain port sub) s = hold 2 ∧ exec (.keepaliveExpiry port sub) s = hold 3) ∧
    (b.holding = true → (tget {} s.ports n).dryMs ≠ 0 →
      exec (.dryTimeExpiry port sub) s =
        .next (blot (modSub s k fun b => { b with linkUp := false, training := false, shaking := false }) k
          (if b.fenced then .fenced else if cfg s (offSpanCfg (k / 8)) 4 4 = 1 then .down else .off)))

/-- HANDSHAKE: an exchange completes with the partner's fields kept, the pen with the lower device id, and both sequences started afresh or
going on; where the partner matches the open plot's manifest the sub-port enters PLOT and replays what the partner has not acknowledged; a MODE that differs is logged and answered with nothing; an
open handshake is resent by its timer (R290, R291). -/
def Obligations.SpanHandshakes : Prop :=
  ∀ (s : State) (port : BitVec 6) (sub : BitVec 3) (m : HandshakeMsg),
    let k := subKey port.toNat sub.toNat
    let b := getSub s k
    (b.linkUp = true → m.mode.toNat ≠ subCfg b 1 0 →
      exec (.handshake port sub m) s = .next (logEv s (spanEv s 2 k (BitVec.ofNat 64 m.mode.toNat)))) ∧
    (b.linkUp = true → b.shaking = true → m.mode.toNat = subCfg b 1 0 → tb m.flags.toNat 1 = true → b.fenced = false →
      s.sec.isOpen = false → tb m.flags.toNat 0 = b.needReset → b.partnerReset = false →
      answers (exec (.handshake port sub m) s) fun t =>
        let c := getSub t k
        c.state = .up ∧ c.shaking = false ∧ c.rolesKnown = true ∧ c.needReset = false ∧
        c.pen = decide (s.boot.deviceId.toNat < m.deviceId.toNat) ∧ c.partnerId = m.deviceId ∧ c.partnerPlot = m.plot ∧
        (b.needReset = true → c.txNext = b.txStart ∧ c.rxExpect = m.txStart ∧ c.replay = []) ∧
        (b.needReset = false → c.txNext = b.txNext ∧ c.rxExpect = b.rxExpect ∧ c.replay = b.replay ∧ c.txAcked = b.txAcked)) ∧
    (b.linkUp = true → b.shaking = true → m.mode.toNat = subCfg b 1 0 → tb m.flags.toNat 1 = true → b.fenced = false →
      s.sec.isOpen = true → tb m.flags.toNat 0 = false → b.needReset = false →
      ∀ e : TopoEnt, topoFor s k = some e → b.partnerReset = false →
        e.peerId = m.deviceId → e.peerPort.toNat = m.port.toNat % 64 → e.peerSub.toNat = m.sub.toNat % 8 → s.sec.plot = m.plot →
        s.mbox.opener = none → b.holding = false → b.blotted = false → seqDist b.txAcked m.rxExpect ≤ b.replay.length →
        answers (exec (.handshake port sub m) s) fun t =>
          let c := getSub t k
          c.state = .plot ∧ c.shaking = false ∧ c.txNext = b.txNext ∧ c.rxExpect = b.rxExpect ∧
          c.replay = b.replay.drop (seqDist b.txAcked m.rxExpect) ∧ c.replaying = !c.replay.isEmpty ∧ c.txAcked = m.rxExpect) ∧
    (b.shaking = true → b.linkUp = true →
      answers (exec (.handshakeTimer port sub) s) fun t =>
        ∃ f, (getSub t k).lastTx = some f ∧ f.flags = 1 ∧ f.body = [linkGrain 7 (ownHandshake s k)])

/-- Narrowing and widening of a direct link: what each command does at the pen-holder and at its follower, with lanes good at both ends
(R288, R289, R316). -/
def Obligations.SpanLaneOperations : Prop :=
  ∀ (s : State) (port : BitVec 6) (sub : BitVec 3), tidy s = true →
    let k := subKey port.toNat sub.toNat
    let b := getSub s k
    canNarrow b = true →
    let narrows (t : State) (lanes : BitVec 8) (w : Nat) (op : BitVec 32) : Prop :=
      (getSub t k).narrowing = true ∧ (getSub t k).lanes = lanes ∧ (getSub t k).width = BitVec.ofNat 4 w ∧ (getSub t k).opNum = op ∧
      (getSub t k).realigned = false
    (∀ lanes : BitVec 8, (lanes &&& b.lanes) ≠ 0 → shareOf b ≠ 8 → b.narrowing = false →
      (b.pen = true →
        let g := laneCount (goodBoth { b with badLanes := b.badLanes ||| lanes })
        let w := widthFor (b.width.toNat - 1) g
        w ≠ 0 → answers (exec (.laneFault port sub lanes) s) fun t =>
          narrows t (lowLanes (goodBoth { b with badLanes := b.badLanes ||| lanes }) w) w (b.opNum + 1) ∧
          (getSub t k).badLanes = b.badLanes ||| lanes) ∧
      (b.pen = false → exec (.laneFault port sub lanes) s =
        .next (setSub s k { b with
          badLanes := b.badLanes ||| lanes, linkOp := 1
          qLink := b.qLink ++ [linkGrain 8 ([1, b.badLanes ||| lanes, 0, 0] ++ bytesOf 4 (0 : BitVec 32) ++ bytesOf 4 (0 : BitVec 32))] })) ∧
      (b.pen = true →
        let g := laneCount (goodBoth { b with partnerBad := b.partnerBad ||| lanes })
        let w := widthFor (b.width.toNat - 1) g
        w ≠ 0 → answers (exec (.narrowReq port sub lanes) s) fun t =>
          narrows t (lowLanes (goodBoth { b with partnerBad := b.partnerBad ||| lanes }) w) w (b.opNum + 1) ∧
          (getSub t k).partnerBad = b.partnerBad ||| lanes)) ∧
    (∀ (lanes width : BitVec 8) (op : BitVec 32), b.pen = false → op ≠ b.opNum →
      answers (exec (.narrow port sub lanes width op) s) fun t => narrows t lanes width.toNat op) ∧
    (∀ rx : BitVec 32, b.narrowing = true →
      (b.realigned = false → exec (.narrowDone port sub b.opNum rx) s =
        .next (setSub s k { b with partnerDone := true, partnerRx := rx, linkOp := if b.linkOp = 2 then 0 else b.linkOp })) ∧
      (b.realigned = true → b.pen = false → b.state = .plot → seqDist b.txAcked rx ≤ b.replay.length →
        answers (exec (.narrowDone port sub b.opNum rx) s) fun t =>
          (getSub t k).narrowing = false ∧ (getSub t k).txAcked = rx ∧ (getSub t k).replayPos = 0 ∧
          (getSub t k).replay = b.replay.drop (seqDist b.txAcked rx) ∧
          (getSub t k).replaying = !(b.replay.drop (seqDist b.txAcked rx)).isEmpty)) ∧
    (b.narrowing = true → b.realigned = false →
      (b.partnerDone = false → exec (.realignDone port sub true) s =
        .next (setSub s k { b with
          realigned := true
          qLink := b.qLink ++ [linkGrain 8 ([3, b.lanes, BitVec.ofNat 8 b.width.toNat, 0] ++ bytesOf 4 b.opNum ++ bytesOf 4 b.rxExpect)] })) ∧
      exec (.realignDone port sub false) s = exec (.linkDown port sub) s) ∧
    (∀ lanes : BitVec 8, b.narrowing = false → b.pen = true →
      let c := { b with badLanes := 0, partnerBad := lanes }
      let w := widthFor 8 (laneCount (goodBoth c))
      w ≠ 0 → answers (exec (.widenReq port sub lanes) s) fun t => narrows t (lowLanes (goodBoth c) w) w (b.opNum + 1)) ∧
    (s.step.running = false → b.narrowing = false →
      (b.pen = true → exec (.widen port sub) s = exec (.widenReq port sub 0) s) ∧
      (b.pen = false → exec (.widen port sub) s = .next (setSub s k { b with
        badLanes := 0
        qLink := b.qLink ++ [linkGrain 8 ([5, 0, 0, 0] ++ bytesOf 4 (0 : BitVec 32) ++ bytesOf 4 (0 : BitVec 32))] }))) ∧
    (s.step.running = true →
      let refused (v : BitVec 64) : Ev := {
        cls := clsSpan, cause := 10, loc := BitVec.ofNat 64 (offSubCtl port.toNat sub.toNat), a0 := v, die := portDie s port.toNat }
      exec (.widen port sub) s = .next (logEv s (refused 2)) ∧ exec (.retrain port sub) s = .next (logEv s (refused 1))) ∧
    (b.linkOp = 1 → exec (.linkOpRepeatTimer port sub) s = .next (setSub s k { b with
      qLink := b.qLink ++ [linkGrain 8 ([1, b.badLanes, 0, 0] ++ bytesOf 4 (0 : BitVec 32) ++ bytesOf 4 (0 : BitVec 32))] })) ∧
    (b.linkOp = 2 → exec (.linkOpRepeatTimer port sub) s = .next (setSub s k { b with
      qLink := b.qLink ++ [linkGrain 8 ([2, b.lanes, BitVec.ofNat 8 b.width.toNat, 0] ++ bytesOf 4 b.opNum ++ bytesOf 4 (0 : BitVec 32))] }))

/-- Data, commit, void and credit grains of a plot's span channel: drops of the running step enter their channel and its RETAIN copy, those
of a later step wait in the pool, a COMMIT grain is kept for its step, a VOID grain takes back what came, and channel credits add up
(R73, R195, R235, R303-R305). -/
def Obligations.SpanChannelGrains : Prop :=
  ∀ (s : State) (port : BitVec 6) (sub : BitVec 3) (sc : BitVec 12) (ch : Nat), tidy s = true →
    let k := subKey port.toNat sub.toNat
    carriesPlot s k = true → inSpanChan s k sc.toNat = some ch →
    (∀ ds : List Drop, ds.length ≤ 4 →
      let r := senderStep s k sc.toNat + BitVec.ofNat 64 (lagOf s k sc.toNat)
      (s.step.running = true → r = s.step.number → s.step.voided = false →
        answers (exec (.data port sub sc ds) s) fun t =>
          getChan t ch = getChan s ch ++ ds ∧ (∀ c, c ≠ ch → getChan t c = getChan s c) ∧
          t.step.retained = tmod [] s.step.retained ch (· ++ ds) ∧
          (getSub t k).freed = (getSub s k).freed.modify 1 (fun x => (x + 1) % 65536) ∧ t.mem = s.mem) ∧
      (s.step.running = false → s.launch.nextStep.toNat ≤ r.toNat →
        exec (.data port sub sc ds) s = .next (modSub s k fun b => { b with waitPool := b.waitPool ++ [(sc.toNat, r, ds)] }))) ∧
    (∀ (step count : BitVec 64) (rec : Option Descriptor) (report : Option PassReport),
      s.step.running = true → (isHead s = false ∨ report = none) → s.mbox.ckptParts = none →
      answers (exec (.commitGrain port sub sc step count rec report) s) fun t =>
        hasCommit t k sc.toNat step = true ∧ t.mem = s.mem ∧ t.chans = s.chans ∧
        t.serv = (if isHead s = false ∧ isFollower s = true ∧ (rec.isSome = true ∨ report.isSome = true)
          then (pass s step rec report).serv else s.serv)) ∧
    (∀ (step : BitVec 64) (attempt : BitVec 8),
      s.step.running = true → step + BitVec.ofNat 64 (lagOf s k sc.toNat) = s.step.number →
      s.step.consumed.contains (spanKey k sc.toNat) = false →
      answers (exec (.void port sub sc step attempt) s) fun t =>
        getChan t ch = [] ∧ t.step = { s.step with
          retained := tset [] s.step.retained ch [], carried := s.step.carried.filter (· != spanKey k sc.toNat) } ∧ t.mem = s.mem) ∧
    (∀ e : BitVec 32, e ≠ 0 →
      let c := bitsOf e.toNat 11 0
      answers (exec (.credit port sub [e]) s) fun t =>
        (getSub t k).credits = tmod 0 (getSub s k).credits c (· + (BitVec.ofNat 20 (bitsOf e.toNat 31 12)).toInt) ∧
        (getSub t k).freed = (getSub s k).freed.modify 0 (fun x => (x + 1) % 65536))

/-- LAUNCH, TELEMETRY and BULK grains of a plot's sub-port (R263, R354, R355, R394). -/
def Obligations.SpanMessageGrains : Prop :=
  ∀ (s : State) (port : BitVec 6) (sub : BitVec 3) (payload : BitVec 2048),
    let k := subKey port.toNat sub.toNat
    carriesPlot s k = true →
    (∀ m : LaunchMsg, launchParse payload = some m →
      exec (.launch port sub payload) s = .next (freeBuffer (launchOn s k m) k 0)) ∧
    (launchParse payload = none →
      exec (.launch port sub payload) s = .next (freeBuffer (logEv s {
        cls := clsTime, cause := 7, loc := portLoc (k / 8) (k % 8), a0 := BitVec.ofNat 64 (bitsOf payload.toNat 7 0)
        a1 := BitVec.ofNat 64 (bitsOf payload.toNat 63 32), die := portDie s (k / 8) }) k 0)) ∧
    (let len := cfg s offSinkPtr 23 0
     let head := cfg s offSinkPtr 63 32
     cfg s offInbandCfg 10 10 = 1 → len ≠ 0 → (s.blot.sinkTail - BitVec.ofNat 32 head).toNat ≠ len →
      exec (.telemetry port sub payload) s = .next (freeBuffer { s with
        host := writeRun 0 s.host (cfg s offSinkAddr 63 0 + 256 * (s.blot.sinkTail.toNat % len)) (bytesOf 256 payload)
        blot := { s.blot with sinkTail := s.blot.sinkTail + 1 } } k 2)) ∧
    (∀ up : Nat, cfg s offInbandCfg 10 10 ≠ 1 → cfg s offInbandCfg 11 11 = 1 → uplink s = some up →
      exec (.telemetry port sub payload) s = .next (freeBuffer
        (modSub s up fun b => { b with q2 := b.q2 ++ [mkGrain (grainHeader 0 2 5 0 s.sec.plot.toNat) payload] }) k 2)) ∧
    (cfg s offInbandCfg 10 10 ≠ 1 → uplink s = none →
      exec (.telemetry port sub payload) s = .next (freeBuffer { s with blot := { s.blot with noRoute := s.blot.noRoute + 1 } } k 2)) ∧
    (∀ up : Nat, cfg s offInbandCfg 10 10 ≠ 1 → cfg s offInbandCfg 11 11 ≠ 1 → uplink s = some up →
      exec (.telemetry port sub payload) s = .next (freeBuffer s k 2)) ∧
    (∀ (e b len : BitVec 32) (m : ManifestSt), loadPrev s = some k → loadOf s e = some m → b.toNat < m.blocks.length →
      exec (.bulkStart port sub e b len) s =
        .next (freeBuffer { s with load := { s.load with rx := some { epoch := e, block := b, length := len, bytes := [] } } } k 3)) ∧
    (∀ r : BlockRx, s.load.rx = some r → loadPrev s = some k → r.bytes.length + 256 < r.length.toNat →
      exec (.bulkData port sub payload) s =
        .next (freeBuffer { s with load := { s.load with rx := some { r with bytes := r.bytes ++ bytesOf 256 payload } } } k 3)) ∧
    (∀ (r : BlockRx) (m : ManifestSt) (b : BlockEnt), s.load.rx = some r → loadPrev s = some k →
      r.length.toNat ≤ r.bytes.length + 256 → loadOf s r.epoch = some m → m.blocks[r.block.toNat]? = some b → b.length = r.length →
      let bytes := (r.bytes ++ bytesOf 256 payload).take r.length.toNat
      let s1 := { s with load := { s.load with rx := none } }
      (sm3 bytes = b.digest → exec (.bulkData port sub payload) s = .next (freeBuffer (takeBlock s1 m r.block b bytes) k 3)) ∧
      (sm3 bytes ≠ b.digest →
        exec (.bulkData port sub payload) s = .next (freeBuffer (sendBulk s1 k (bulkOp 3 r.epoch r.block s.sec.position)) k 3))) ∧
    (∀ e b : BitVec 32, loadNext s = some k → (s.load.tx.any fun t => t.epoch == e && t.block == b) = true →
      let s1 := ackUp { s with load := { s.load with tx := s.load.tx.eraseP fun t => t.epoch == e && t.block == b } } e b
      exec (.bulkAck port sub e b) s = .next (freeBuffer (pumpTx s1 s1.load.tx) k 3)) ∧
    (∀ (e b pos : BitVec 32) (x : BlockTx), loadNext s = some k →
      (s.load.tx.find? fun t => t.epoch == e && t.block == b) = some x →
      (x.failures < 2 → pos = s.sec.position + 1 →
        exec (.bulkNack port sub e b pos) s = .next (freeBuffer (sendBlock { s with load := { s.load with tx := s.load.tx.map fun t =>
          if t.epoch = e ∧ t.block = b then { t with failures := t.failures + 1 } else t } } x) k 3)) ∧
      ((2 ≤ x.failures ∨ pos ≠ s.sec.position + 1) →
        exec (.bulkNack port sub e b pos) s = .next (freeBuffer (nackUp { s with load := { s.load with
          tx := s.load.tx.eraseP fun t => t.epoch == e && t.block == b } } e b pos) k 3)))

/-- Frames and their timers: a frame that fails its check is discarded whole, one with no grains acknowledges and frees; a replay sends the
unacknowledged grains unchanged in order, and the timers send, replay and flush what is due (R295-R304, R311). -/
def Obligations.SpanFramesAndTimers : Prop :=
  ∀ (s : State) (port : BitVec 6) (sub : BitVec 3), tidy s = true →
    let k := subKey port.toNat sub.toNat
    let b := getSub s k
    (∀ f : SpanFrame, (f.fcsOk = false ∨ f.version ≠ 1 ∨ f.etherType.toNat ≠ subCfg b 31 16 ∨ f.vlan ≠ vlanOf b) →
      exec (.spanFrame port sub f) s = .next s) ∧
    (∀ f : SpanFrame, b.linkUp = true → b.shaking = false → f.fcsOk = true → f.version = 1 →
      f.etherType.toNat = subCfg b 31 16 → f.vlan = vlanOf b → b.holding = false → b.state ≠ .miswired →
      let c := freedOn (ackTo b f.ack) f.freed
      (f.body = [] → exec (.spanFrame port sub f) s = .next (setSub s k c)) ∧
      (∀ g : Grain, f.body = [g] → 1 ≤ f.grains.toNat → tb f.flags.toNat 0 = false →
        (g.crc ≠ grainCrc c.rxExpect g →
          exec (.spanFrame port sub f) s = .next (setSub s k { c with crcDrops := c.crcDrops + 1 })) ∧
        (g.crc = grainCrc c.rxExpect g →
          exec (.spanFrame port sub f) s = .next (grainOn (setSub s k { c with rxExpect := seqNext c.rxExpect, ackOwed := true }) k g)))) ∧
    (b.linkUp = true → b.shaking = false → b.narrowing = false → b.replaying = true → b.qLink = [] → b.replayPos < b.replay.length →
      1 ≤ grainsMax b →
      answers (exec (.frameSend port sub) s) fun t =>
        ∃ f, (getSub t k).lastTx = some f ∧ f.body = ((b.replay.drop b.replayPos).take (grainsMax b)).map Prod.snd ∧
          f.ack = b.rxExpect ∧ (getSub t k).replay = b.replay ∧ (getSub t k).replayPos = b.replayPos + f.body.length) ∧
    (mayTransmit b = true → b.state = .plot →
      (b.ackOwed = true → exec (.ackTimer port sub) s = exec (.keepaliveTimer port sub) s) ∧
      (answers (exec (.keepaliveTimer port sub) s) fun t =>
        (getSub t k).ackOwed = false ∧ ∃ f, (getSub t k).lastTx = some f ∧ f.body = [] ∧ f.ack = b.rxExpect) ∧
      (b.replay ≠ [] → exec (.replayTimer port sub) s =
        .next (setSub s k { b with replaying := true, replayPos := 0, replays := b.replays + 1 }))) ∧
    (b.replaying = true → b.replay.length ≤ b.replayPos →
      exec (.replayCaughtUp port sub) s = .next (setSub s k { b with replaying := false, replayPos := 0 })) ∧
    (∀ (sc : BitVec 12) (ch : Nat), outSpanChan s k sc.toNat = some ch → getChan s ch ≠ [] →
      exec (.flushTimer port sub sc) s = .next (modSub (setChan s ch []) k fun b => { b with
        q1 := b.q1 ++ dataGrains s.sec.plot.toNat sc.toNat (getChan s ch).length (getChan s ch)
        sent := tmod 0 b.sent sc.toNat (· + (getChan s ch).length) }))

/-! ### Memory controllers (R320-R331) -/

/-- Step-down and step-up of a stack, thermal and retrain faults of a DDR channel, rate requests and patrol reads (R320, R325, R327, R330,
R331). -/
def Obligations.MemoryControllers : Prop :=
  ∀ s : State,
    (∀ (k : BitVec 3) (c : BitVec 8), 95 ≤ c.toNat → (getStack s k.toNat).steppedDown = false →
      exec (.stackStepDown k c) s = .next (logEv (modStack s k.toNat fun x =>
        { x with tempC := c, steppedDown := true, rateMbps := 8000, stopping := true })
        { cls := clsMemory, cause := 5, loc := BitVec.ofNat 64 k.toNat, a0 := 1, die := k.toNat / 2 })) ∧
    (∀ (k : BitVec 3) (c : BitVec 8), c.toNat ≤ 85 → (getStack s k.toNat).steppedDown = true →
      exec (.stackStepUp k c) s = .next (logEv (modStack s k.toNat fun x =>
        { x with tempC := c, steppedDown := false, rateMbps := 10000, stopping := true })
        { cls := clsMemory, cause := 5, loc := BitVec.ofNat 64 k.toNat, a0 := 0, die := k.toNat / 2 })) ∧
    (∀ m : BitVec 3, exec (.ddrThermal m) s = .next (disableSoon s m.toNat causeThermal)) ∧
    (∀ m : BitVec 3, exec (.ddrRetrain m true) s = .next s) ∧
    (∀ m : BitVec 3, (getDdr s m.toNat).state = 2 → s.step.running = false →
      exec (.ddrRetrain m false) s = .next (disableDdr s m.toNat causeRetrain)) ∧
    (∀ (m : BitVec 3) (r : BitVec 2),
      let d := getDdr s m.toNat
      let mts := if r = 0 then 8800 else if r = 1 then 8000 else 7200
      (r = 3 ∨ tb d.trains.toNat r.toNat = false →
        exec (.rateReq m r) s = .next (logEv s {
          cls := clsMemory, cause := 7, loc := BitVec.ofNat 64 m.toNat, a0 := BitVec.ofNat 64 r.toNat
          die := m.toNat / 2 })) ∧
      (r ≠ 3 → tb d.trains.toNat r.toNat = true → d.state = 2 → d.rateMts ≠ BitVec.ofNat 14 mts →
        exec (.rateReq m r) s = .next (modDdr (putField s (offDdrCtl m.toNat) 33 32 r.toNat) m.toNat fun k =>
          { k with rateMts := BitVec.ofNat 14 mts, stopping := true }))) ∧
    (∀ a : DevAddr, patrolHours s a.toNat ≠ 0 →
      exec (.patrolRead a .clean) s = .next s ∧
      exec (.patrolRead a .corrected) s = .next (correctedRow (countError s a.toNat false) a.toNat) ∧
      exec (.patrolRead a .uncorrectable) s = .next (noteUncorrectable s a.toNat 7 0))

/-! ### The host link and the mailbox rings (R33-R38, R334-R346, R451) -/

/-- The host link: going down it loses nothing but the reads it was answering, coming up it counts a retrain, with a lane lost it narrows, a
transfer paused too long ends its command with LINK; over a link that is up a packet or an access to the mailbox window, to a stratum or to a
register has its effect, and while it is down none reaches the device (R334-R338, R345, R451). -/
def Obligations.HostLinkCommands : Prop :=
  ∀ s : State,
    exec .hostLinkDown s = .next { s with mbox := { s.mbox with link := 0, width := 0, timeReads := [] } } ∧
    (∀ w : BitVec 4, (w = 1 ∨ w = 2 ∨ w = 4) → s.boot.phase = .service →
      (s.mbox.link ≠ 2 → s.mbox.sealHold = [] → s.launch.short = false →
        exec (.hostLinkUp w) s = .next { s with mbox := { s.mbox with
          link := 2, width := w, retrains := s.mbox.retrains + 1, irq := s.mbox.irq ||| 0x20000 } }) ∧
      (s.mbox.link = 2 → w.toNat < s.mbox.width.toNat →
        exec (.hostLinkUp w) s = .next { s with mbox := { s.mbox with width := w } })) ∧
    (∀ (ring : BitVec 4) (seq : BitVec 32) (r : HostRead), s.mbox.link ≠ 2 → s.mbox.reads.find? (readIs ring.toNat seq) = some r →
      exec (.linkTimeout ring seq) s = .next (done { s with mbox := { s.mbox with
        reads := s.mbox.reads.filter fun x => !(x.ring == ring.toNat && x.seq == seq) } } ring.toNat seq r.cmd 0x0F)) ∧
    (s.boot.phase = .service → ∀ v : BitVec 256,
      exec (.registerWrite (BitVec.ofNat 26 offAlarm) v) s =
        .next { s with blot := { s.blot with alarm := s.blot.alarm &&& ~~~ BitVec.setWidth 8 v } }) ∧
    (s.mbox.link ≠ 2 → ∀ (write ue : Bool) (a : DevAddr) (data : Bytes),
      exec (.hostWritePacket a data) s = .next s ∧ exec (.hostAccess write a data ue) s = .next s) ∧
    (s.boot.phase = .service → s.mbox.link = 2 →
      (∀ (a : DevAddr) (data : Bytes), data ≠ [] → inDataArea a.toNat data.length = true →
        exec (.hostWritePacket a data) s = .next { memWrite s a.toNat data with mbox := { s.mbox with hostReply := some [] } } ∧
        exec (.hostAccess true a data false) s = .next { memWrite s a.toNat data with mbox := { s.mbox with hostReply := some [] } } ∧
        exec (.hostAccess false a data false) s = .next { s with
          mbox := { s.mbox with hostReply := some (memRead s a.toNat data.length) } }) ∧
      (∀ (write ue : Bool) (i off : Nat) (a : DevAddr) (data : Bytes),
        (decodeAddr a.toNat = .stack i off ∨ decodeAddr a.toNat = .commons i off) → inWindow a.toNat = false →
        let refused := logEv { s with mbox := { s.mbox with hostReply := none } } { cls := clsSecurity, cause := 1, loc := BitVec.ofNat 64 a.toNat }
        s.sec.isOpen = true →
        (write = false ∨ writesLive s a.toNat data.length = false → exec (.hostAccess write a data ue) s = .next refused) ∧
        (write = true → writesLive s a.toNat data.length = true → exec (.hostAccess write a data ue) s = .next (refuseLive refused))) ∧
      (∀ (pc off : Nat) (a : DevAddr) (data : Bytes), decodeAddr a.toNat = .stack pc off → inWindow a.toNat = false →
        s.sec.isOpen = false → backedRange s a.toNat data.length = true →
        (writesLive s a.toNat data.length = false →
          exec (.hostWritePacket a data) s = .next (let t := directWrite s a.toNat data
            { t with mbox := { t.mbox with hostReply := some [] } }) ∧
          exec (.hostAccess true a data false) s = .next (let t := directWrite s a.toNat data
            { t with mbox := { t.mbox with hostReply := some [] } })) ∧
        exec (.hostAccess false a data false) s =
          .next { s with mbox := { s.mbox with hostReply := some (directRead s a.toNat data.length) } }))

/-- A doorbell write over a link that is up: a repeat does nothing, one beyond 256 is logged, and one entry announced is read from memory and
served as its command, or stops the ring when its SEQ is not the one expected; a ring that waited reads on, and IRQ bits clear where 1 is
written (R342, R346). What the link carries while it is down, and what its coming and going leave, is stated beside them (R334, R335, R337). -/
def Obligations.DoorbellsAndRings : Prop :=
  ∀ (s : State) (ring : BitVec 4) (host : HostView),
    let q := getRing s ring.toNat
    let x := ringEntryAddr ring.toNat q.nextSeq.toNat
    let e := memRead s x 128
    let heard := modRing s ring.toNat fun q => { q with tail := q.nextSeq + 1, stalled := false, waiting := false }
    (exec (.doorbell ring q.nextSeq host) s = .next s) ∧
    (∀ tail : BitVec 32, s.mbox.link ≠ 2 → exec (.doorbell ring tail host) s = .next s) ∧
    (∀ tail : BitVec 32, s.mbox.link = 2 → s.boot.phase = .service → 256 < (tail - q.nextSeq).toNat → (tail - q.nextSeq).toNat < 2 ^ 31 →
      exec (.doorbell ring tail host) s = .next (logEv s
        { cls := clsSecurity, cause := 4, loc := BitVec.ofNat 64 ring.toNat, a0 := BitVec.ofNat 64 tail.toNat })) ∧
    (s.mbox.link = 2 → inService s = true → ringWaits q = false → badRead s x 128 = none → fieldAt 32 e 0 4 ≠ q.nextSeq →
      exec (.doorbell ring (q.nextSeq + 1) host) s = .next (logEv (modRing heard ring.toNat fun q => { q with stalled := true })
        { cls := clsSecurity, cause := 4, loc := BitVec.ofNat 64 ring.toNat, a0 := BitVec.ofNat 64 (fieldAt 32 e 0 4).toNat })) ∧
    (∀ c : MboxCmd, s.mbox.link = 2 → inService s = true → ringWaits q = false → badRead s x 128 = none → ifServed s 1 = true →
      isCommand c = true → e = entryBytesOf q.nextSeq c →
      exec (.doorbell ring (q.nextSeq + 1) host) s =
        .next (submit (takeEntry heard ring.toNat) ring.toNat q.nextSeq c (some host))) ∧
    (inService s = true → q.stalled = false → ringWaits q = false → 1 ≤ announced q → announced q ≤ 256 →
      exec (.ringWaitResume ring host) s =
        .next (readOn (modRing s ring.toNat fun q => { q with waiting := false }) ring.toNat (some host) 256)) ∧
    (∀ mask : BitVec 32, exec (.irqClear mask) s = .next { s with mbox := { s.mbox with
      irq := s.mbox.irq &&& ~~~ BitVec.setWidth 18 mask } }) ∧
    (answers (exec .hostLinkDown s) fun t =>
      t.mbox.link = 0 ∧ t.mbox.rings = s.mbox.rings ∧ t.mbox.reads = s.mbox.reads ∧ t.mem = s.mem ∧ t.step = s.step ∧ t.units = s.units) ∧
    (s.boot.phase = .service → s.mbox.link ≠ 2 → s.mbox.sealHold = [] → s.launch.short = false →
      answers (exec (.hostLinkUp 4) s) fun t =>
        t.mbox.link = 2 ∧ t.mbox.width = 4 ∧ t.mbox.rings = s.mbox.rings ∧ t.mem = s.mem ∧ t.step = s.step ∧ t.units = s.units) ∧
    (∀ (seq : BitVec 32), s.mbox.link = 2 → exec (.linkTimeout ring seq) s = .next s) ∧
    (s.boot.phase = .service → s.mbox.link = 2 → ∀ data : Bytes, data.length = 128 → ∀ n : BitVec 8,
      let a : DevAddr := BitVec.ofNat 48 (ringEntryAddr ring.toNat n.toNat)
      exec (.hostWritePacket a data) s = .next { memWrite s a.toNat data with mbox := { s.mbox with hostReply := some [] } } ∧
      exec (.hostAccess true a data false) s = .next { memWrite s a.toNat data with mbox := { s.mbox with hostReply := some [] } }) ∧
    (s.boot.phase = .service → ∀ v : BitVec 256, exec (.registerWrite (BitVec.ofNat 26 offAlarm) v) s =
      .next { s with blot := { s.blot with alarm := s.blot.alarm &&& ~~~ BitVec.setWidth 8 v } })

/-- A completion is the 64 bytes of R341 at entry SEQ mod 256 of the completion ring with the same index, with the ring's interrupt status
bit set and the SEQ no longer open; it changes no other byte of memory. -/
def Obligations.CompletionIsWritten : Prop :=
  ∀ (s : State) (ring : BitVec 4) (seq : BitVec 32) (c : MboxCmd) (err : Nat) (res : Bytes), tidy s = true → res.length ≤ 48 →
    let t := done s ring.toNat seq c err res
    let a := 0xFFFC180000 + 0x4000 * ring.toNat + 64 * (seq.toNat % 256)
    memRead t a 64 = bytesOf 4 seq ++ [BitVec.ofNat 8 (cmdCode c), BitVec.ofNat 8 err, 0, 0] ++ res ++ List.replicate (48 - res.length) 0
      ++ bytesOf 4 (s.step.lastEnded.setWidth 32) ++ bytesOf 4 (seq ^^^ 0xFFFFFFFF) ∧
    (∀ x, (x < a ∨ a + 64 ≤ x) → memByte t x = memByte s x) ∧
    t.mbox.irq.getLsbD ring.toNat = true ∧ seq ∉ (getRing t ring.toNat).open_

/-! ### Mailbox commands (R347-R353) -/

/-- OPEN_PLOT, CLOSE_PLOT and SCRUB, the completion of SCRUB, and the end of an OPEN_PLOT's wait (R347, R401, R405, R406). -/
def Obligations.PlotCommands : Prop :=
  ∀ (s : State) (ring : BitVec 4),
    (∀ (b : OpenPlotBody) (host : HostView),
      let v := hostView host b.topo.toNat b.topoLen.toNat
      let es := topoEnts v
      servedNow s ring (.openPlot b) → openError s b = none → s.mbox.link = 2 → sm3 v = b.topoDigest → topoHeaderOk s b v = true →
      es.all (topoEntOk s) = true → topoObeys b.position es = true → es.filter (barred s) = [] →
      answers (exec (.openPlot ring b host) s) fun t =>
        t.sec.isOpen = true ∧ t.sec.plot = b.plot ∧ t.sec.position = b.position ∧ t.sec.devices = b.devices ∧ t.sec.topo = es ∧
        t.sec.debug = tb b.flags.toNat 0 ∧ t.sec.stepSeals = tb b.flags.toNat 1 ∧ t.sec.serving = tb b.flags.toNat 2 ∧
        t.launch.state = .idle ∧ t.launch.late = s.launch.late ∧ t.serv.hits = 0 ∧ t.serv.slots = s.serv.slots) ∧
    (∀ flags : BitVec 8, servedNow s ring (.closePlot flags) → s.sec.isOpen = true → flags.toNat ≤ 1 →
      answers (exec (.closePlot ring flags) s) fun t =>
        t.sec.isOpen = false ∧ t.sec.plot = 0 ∧ t.sec.scrubbed = false ∧ t.sec.topo = [] ∧ t.sec.serving = false ∧
        t.launch.state = .idle ∧ t.serv.switching = false) ∧
    (servedNow s ring .scrub → s.sec.isOpen = false → s.sec.scrubState ≠ 1 → s.mbox.sealHold = [] →
      answers (exec (.scrub ring) s) fun t =>
        t.sec.scrubState = 1 ∧ t.sec.scrubbed = false ∧ t.mbox.scrubber = some (ring.toNat, seqDue s ring) ∧ t.mem = s.mem) ∧
    (∀ (ms : BitVec 32) (r : Nat) (seq : BitVec 32), s.mbox.scrubber = some (r, seq) → r < 16 → tidy s = true →
      answers (exec (.scrubComplete ms none) s) fun t =>
        t.sec.scrubState = 2 ∧ t.sec.scrubbed = true ∧ t.sec.scrubMs = ms ∧ t.mbox.scrubber = none ∧ t.overlay = [] ∧
        t.serv.slots = [] ∧ t.serv.salts = [] ∧ t.sheets.live = none ∧ t.sheets.shadow = none ∧ t.scribes = [] ∧
        ∀ a, scrubKeeps s a = false → memByte t a = 0) ∧
    (∀ (r : Nat) (seq : BitVec 32) (e : TopoEnt), s.mbox.opener = some (r, seq) → e ∈ s.sec.topo → (getSub s (topoKey e)).state ≠ .plot →
      answers (exec .openPlotWaitExpiry s) fun t => t.sec.isOpen = false ∧ t.sec.plot = 0 ∧ t.mbox.opener = none)

/-- LOAD_SHEET and its end, FLIP_SHEET, ARM and COMMIT (R61, R80, R81, R166, R264-R269, R343, R347). -/
def Obligations.SheetAndLaunchCommands : Prop :=
  ∀ (s : State) (ring : BitVec 4),
    (∀ (host : BitVec 64) (length : BitVec 32) (digest : Digest), servedNow s ring (.loadSheet host length digest) →
      s.sheets.loading = none → s.sec.scrubState ≠ 1 →
      exec (.loadSheet ring host length digest) s = .next { entryRead s ring with sheets := { s.sheets with
        loading := some { ring := ring.toNat, seq := seqDue s ring, host, length, digest }
        shadowValid := s.sheets.flipPending && s.sheets.shadowValid } }) ∧
    (∀ (host : HostView) (l : SheetLoad), s.sheets.loading = some l → s.sheets.flipPending = false → s.mbox.link = 2 →
      let s1 := { s with sheets := { s.sheets with loading := none, shadowValid := false } }
      let c := MboxCmd.loadSheet l.host l.length l.digest
      match checkImage s1 (hostView host l.host.toNat l.length.toNat) l.digest with
      | .inl (0, _) => exec (.loadSheetComplete host) s = .next (done s1 l.ring l.seq c 0x03 [])
      | .inl (cause, unit) => exec (.loadSheetComplete host) s =
          .next (done s1 l.ring l.seq c 0x11 ([BitVec.ofNat 8 cause, 0, 0, 0] ++ natLe 4 unit))
      | .inr sh => answers (exec (.loadSheetComplete host) s) fun t =>
          t.sheets.shadow = some sh ∧ t.sheets.shadowValid = true ∧ t.sheets.live = s.sheets.live ∧ t.sheets.loading = none) ∧
    (servedNow s ring .flipSheet → s.sheets.shadowValid = true → noStep s = true → s.launch.state ≠ .armed → s.launch.state ≠ .committed →
      exec (.flipSheet ring) s = completes s ring .flipSheet 0 (bytesOf 8 (upcoming s)) { entryRead s ring with sheets := { s.sheets with
        live := s.sheets.shadow, shadow := s.sheets.live, liveSlot := s.sheets.liveSlot + 1, shadowValid := false, flipPending := false } }) ∧
    (∀ (digest : Digest) (r : ArmRecord), servedNow s ring (.arm digest r) → s.sec.isOpen = true →
      (r.mode = 0 ∨ (r.mode = 1 ∧ 1000 ≤ r.periodNs.toNat ∧ r.periodNs.toNat ≤ 4000000000)) → armReasons s digest r = 0 →
      s.launch.armWaiter = none →
      answers (exec (.arm ring digest r) s) fun t =>
        t.launch.state = .armed ∧ t.launch.armRec = r ∧ t.launch.taken = false ∧ t.launch.nextStep = r.firstStep ∧
        t.launch.paced = (r.mode == 1) ∧ t.launch.refusedWith = 0 ∧ t.step = s.step) ∧
    (∀ (sec : BitVec 64) (ns : BitVec 32), servedNow s ring (.commit sec ns) → s.sec.isOpen = true → s.sec.position = 0 →
      s.launch.censusOk = true → s.launch.state = .armed → sec.toNat < 2 ^ 48 → ns.toNat < 1000000000 →
      nowUnits s + nsUnits (cfg s offLead 31 0 * 1000) ≤ nsUnits (sec.toNat * 1000000000 + ns.toNat) →
      nsUnits (sec.toNat * 1000000000 + ns.toNat) ≤ nowUnits s + nsUnits 10000000000 → nowNs s < sec.toNat * 1000000000 + ns.toNat →
      answers (exec (.commit ring sec ns) s) fun t =>
        t.launch.state = .committed ∧ t.launch.startS = sec.setWidth 48 ∧ t.launch.startNs = ns ∧
        t.launch.nextStep = s.launch.armRec.firstStep ∧ t.step = s.step)

/-- ADMIT, CANCEL, PAUSE, RESUME, SET_DEADLINE and ACTIVATE_EPOCH at the serving head, a salt written, and the head's timers (R190, R201,
R204, R211-R219, R349, R351). -/
def Obligations.ServingCommands : Prop :=
  ∀ (s : State) (ring : BitVec 4),
    (∀ (b : AdmitBody) (i base : Nat), servedNow s ring (.admitReq b) → isHead s = true → freeSlotFrom s 0 8192 = some i →
      b.epoch = s.serv.admission → adapterReady s b.epoch b.adapter = true → admitFieldsOk b = true →
      let v := newSlot s b (promptTokens s b.promptAddr.toNat b.prompt.toNat)
      let l := sieveLookup s v v.promptToks
      let h := consecutive l.folios
      findRun s (runLength s v) (hitAlign s { v with hitBase := BitVec.ofNat 32 (l.folios.headD 0), hitLen := BitVec.ofNat 32 h })
        (if h = 0 then [] else [(l.folios.headD 0, h)]) [] = some base →
      answers (exec (.admitReq ring b) s) fun t =>
        let x := getSlot t i
        x.state = .queued ∧ x.rid = b.rid ∧ x.epoch = b.epoch ∧ x.prompt = b.prompt ∧ x.hasRun = true ∧ x.base = BitVec.ofNat 32 base ∧
        x.run = BitVec.ofNat 32 (runLength s v) ∧ x.hitLen = BitVec.ofNat 32 h ∧
        t.serv.hits = s.serv.hits + BitVec.ofNat 64 h ∧ t.serv.misses = s.serv.misses + BitVec.ofNat 64 l.misses) ∧
    (∀ (slot : BitVec 16) (rid : BitVec 64),
      let v := getSlot s slot.toNat
      let r := entryRead s ring
      slotError s slot rid = none → v.decided = false →
      (servedNow s ring (.cancel slot rid) →
        let code := if cfg s offServCfg 4 4 = 0 ∧ v.emitMark = true ∧ s.step.running = true then endTooLate else endCancelled
        exec (.cancel ring slot rid) s =
          completes s ring (.cancel slot rid) 0 [BitVec.ofNat 8 code] (recordCancel r slot.toNat code)) ∧
      (servedNow s ring (.pause slot rid) → v.state ≠ .ending → noStep s = true →
        exec (.pause ring slot rid) s = completes s ring (.pause slot rid) 0 []
          (setSlot r slot.toNat (holdSlot r { v with hostHold := true, pauseReq := true }))) ∧
      (servedNow s ring (.resume slot rid) → v.state ≠ .ending → v.hostHold = true →
        exec (.resume ring slot rid) s = completes s ring (.resume slot rid) 0 [] (setSlot r slot.toNat
          { v with hostHold := false, pauseReq := false, state := if v.state = .held then .paused else v.state })) ∧
      (∀ (sec : BitVec 64) (ns : BitVec 32), servedNow s ring (.setDeadline slot rid sec ns) → v.state ≠ .ending →
        (sec.toNat < 2 ^ 48 → ns.toNat < 1000000000 →
          exec (.setDeadline ring slot rid sec ns) s = completes s ring (.setDeadline slot rid sec ns) 0 []
            (setSlot r slot.toNat { v with deadlineS := sec, deadlineNs := ns })) ∧
        ((2 ^ 48 ≤ sec.toNat ∨ 1000000000 ≤ ns.toNat) →
          exec (.setDeadline ring slot rid sec ns) s = completes s ring (.setDeadline slot rid sec ns) 2 [] r))) ∧
    (∀ (epoch : BitVec 32) (mode : BitVec 8) (m : ManifestSt), servedNow s ring (.activateEpoch epoch mode) → mode.toNat ≤ 1 →
      noStep s = true → (s.load.manifests.find? fun m => m.epoch == epoch && m.adapter == 0 && m.complete) = some m →
      answers (exec (.activateEpoch ring epoch mode) s) fun t =>
        t.serv.live = epoch ∧ t.serv.admission = epoch ∧ t.serv.stagedE = 0xFFFFFFFF ∧ t.serv.switching = false) ∧
    (∀ slot : BitVec 13, isHead s = true → cfg s offPolicy 63 40 ≠ 0 →
      let v := getSlot s slot.toNat
      v.decided = false → (v.state = .paused ∨ v.state = .held ∨ v.state = .spilled) →
      timeUnits v.since + nsUnits (cfg s offPolicy 63 40 * 1000000) < nowUnits s →
      answers (exec (.evictTimer slot) s) fun t =>
        (getSlot t slot.toNat).decided = true ∧ (getSlot t slot.toNat).state = .ending ∧
        (getSlot t slot.toNat).endCode = BitVec.ofNat 4 endEvicted ∧ t.mem = s.mem) ∧
    (isHead s = true → s.serv.switching = true → s.serv.switchMode = 0 → cfg s offEpochCtl 47 16 ≠ 0 →
      cfg s offEpochCtl 47 16 ≤ s.serv.drainSteps → s.serv.live ≠ s.serv.admission →
      exec .drainLimitExpiry s = .next (retireOld s s.serv.admission)) ∧
    (∀ (slot : BitVec 13) (j : SealJob), (s.serv.seals.find? fun j => j.slot == slot.toNat) = some j →
      (s.mbox.link = 2 → answers (exec (.sealSigned slot) s) fun t =>
        t.host = writeRun 0 s.host j.addr.toNat (sealBytes s j) ∧ t.mbox.tokTail = s.mbox.tokTail + 1 ∧
        t.serv.seals = s.serv.seals.erase j) ∧
      (s.mbox.link ≠ 2 → answers (exec (.sealSigned slot) s) fun t =>
        t.host = s.host ∧ t.mbox.sealHold.length = s.mbox.sealHold.length + 1 ∧ t.serv.seals = s.serv.seals.erase j)) ∧
    (∀ (tenant : BitVec 12) (salt : BitVec 256),
      answers (exec (.saltWrite tenant salt) s) fun t => t.serv.salts = tset 0 s.serv.salts tenant.toNat salt ∧ t.mem = s.mem)

/-- CHECKPOINT and RESTORE with their ends, LOAD_MANIFEST and LOAD_BLOCK, their data from the host, and a manifest's timeout (R237-R240,
R337, R344, R353-R355). -/
def Obligations.CheckpointAndLoadCommands : Prop :=
  ∀ (s : State) (ring : BitVec 4),
    let r := entryRead s ring
    let q := seqDue s ring
    (∀ (step addr len : BitVec 64) (kind : BitVec 8), servedNow s ring (.checkpoint step kind addr len) → s.sec.isOpen = true →
      s.sheets.flipPending = false → (upcoming s).toNat ≤ step.toNat → s.mbox.ckpt = none →
      (kind = 0 ∨ (kind = 1 ∧ freeDimm s addr.toNat len.toNat = true)) →
      exec (.checkpoint ring step kind addr len) s =
        .next { r with mbox := { r.mbox with ckpt := some (ring.toNat, q, step, kind, addr, len), ckptParts := none, ckptImage := none } }) ∧
    (∀ (g : Nat) (seq : BitVec 32) (step addr len : BitVec 64) (img : Bytes), s.mbox.ckptImage = some img →
      let s1 := { s with mbox := { s.mbox with ckpt := none, ckptImage := none } }
      (s.mbox.ckpt = some (g, seq, step, 0, addr, len) → s.mbox.link = 2 →
        exec .checkpointWritten s =
          .next (complete { s1 with host := writeRun 0 s.host addr.toNat img } g seq 0x50 0 (sm3Bytes img ++ natLe 8 img.length))) ∧
      (s.mbox.ckpt = some (g, seq, step, 1, addr, len) → backedRange s addr.toNat img.length = true →
        exec .checkpointWritten s =
          .next (complete (memWrite s1 addr.toNat img) g seq 0x50 0 (sm3Bytes img ++ natLe 8 img.length)))) ∧
    (∀ (kind : BitVec 8) (addr len : BitVec 64) (d : Digest), servedNow s ring (.restore kind addr len d) → s.sec.isOpen = true →
      s.step.launchedSinceOpen = false → (kind = 0 ∨ (kind = 1 ∧ backedRange s addr.toNat len.toNat = true)) → 160 ≤ len.toNat →
      s.mbox.restore = none →
      exec (.restore ring kind addr len d) s = .next { r with mbox := { r.mbox with restore := some (ring.toNat, q, kind, addr, len, d) } }) ∧
    (∀ (host : HostView) (g : Nat) (seq : BitVec 32) (addr len : BitVec 64) (d : Digest),
      s.mbox.restore = some (g, seq, 0, addr, len, d) → s.mbox.link = 2 →
      let s1 := { s with mbox := { s.mbox with restore := none } }
      let img := hostView host addr.toNat len.toNat
      match imageError s img d with
      | some e => exec (.restoreComplete host) s = .next (complete (noState s1) g seq 0x51 e [])
      | none => answers (exec (.restoreComplete host) s) fun t =>
          t.sec.restored = true ∧ t.step.lastEnded = fieldAt 64 img 20 8 ∧ t.serv.live = fieldAt 32 (sectionOf img 7) 0 4 ∧
          t.mbox.restore = none) ∧
    (∀ b : ManifestBody, servedNow s ring (.loadManifest b) → s.sec.isOpen = true → b.epoch ≠ s.serv.live →
      192 ≤ b.length.toNat → b.length.toNat ≤ 2 ^ 24 → 1 ≤ b.timeoutS.toNat → b.timeoutS.toNat ≤ 86400 →
      (b.retainLen = 0 ∨ inStack b.retain.toNat b.retainLen.toNat = true) →
      (s.load.manifests.any fun m => m.epoch == b.epoch && m.waiter.isSome) = false →
      (s.load.reading.any fun x => x.2.2.epoch == b.epoch) = false →
      exec (.loadManifest ring b) s = .next { r with load := { s.load with reading := s.load.reading ++ [(ring.toNat, q, b)] } }) ∧
    (∀ (epoch block length : BitVec 32) (host : BitVec 64) (m : ManifestSt) (e : BlockEnt), servedNow s ring (.loadBlock epoch block host length) →
      s.sec.isOpen = true → loadPrev s = none → loadOf s epoch = some m → m.blocks[block.toNat]? = some e → e.length = length →
      s.load.jobs.length < 64 →
      exec (.loadBlock ring epoch block host length) s = .next { r with load := { s.load with
        jobs := s.load.jobs ++ [{ ring := ring.toNat, seq := q, epoch, block, host, length, reads := 0, reading := true }] } }) ∧
    (∀ (seq : BitVec 32) (host : HostView) (b : ManifestBody) (e : Nat), s.mbox.link = 2 → inService s = true →
      s.mbox.reads.find? (readIs ring.toNat seq) = none → manifestReading s ring.toNat seq = some b →
      let s1 := { s with load := { s.load with reading := s.load.reading.filter fun r => !(r.1 == ring.toNat && r.2.1 == seq) } }
      manifestCheck s1 b (hostView host b.host.toNat b.length.toNat) = .inl e →
      exec (.hostReadComplete ring seq host) s = .next (done s1 ring.toNat seq (.loadManifest b) e)) ∧
    (∀ (seq : BitVec 32) (host : HostView) (x : HostRead), s.mbox.link = 2 → inService s = true →
      s.mbox.reads.find? (readIs ring.toNat seq) = some x → exec (.hostReadComplete ring seq host) s = .next (dataCame s x host)) ∧
    (∀ (epoch adapter : BitVec 32) (m : ManifestSt) (g : Nat) (seq : BitVec 32),
      (s.load.reading.find? fun r => r.2.2.epoch == epoch && r.2.2.adapter == adapter) = none →
      (s.load.manifests.find? fun m => m.epoch == epoch && m.adapter == adapter) = some m → m.waiter = some (g, seq) →
      exec (.manifestTimeout epoch adapter) s =
        .next (complete (nackUnsent (dropManifest s epoch adapter) epoch) g seq 0x10 0x0A (natLe 4 (lowestMissing s m)))) ∧
    (∀ (epoch adapter : BitVec 32) (g : Nat) (seq : BitVec 32) (b : ManifestBody),
      (s.load.reading.find? fun r => r.2.2.epoch == epoch && r.2.2.adapter == adapter) = some (g, seq, b) →
      let s1 := { s with load := { s.load with reading := s.load.reading.filter fun r => !(r.1 == g && r.2.1 == seq) } }
      exec (.manifestTimeout epoch adapter) s =
        .next (complete (nackUnsent (dropManifest s1 epoch adapter) epoch) g seq 0x10 0x0A [0, 0, 0, 0]))

/-- TIME_SET, TIME_ADJUST, QUERY, BLOTTER_DRAIN, ATTEST_QUOTE, FENCE_PORT and UNFENCE_PORT (R250, R292, R349, R391, R404, R416). -/
def Obligations.TimeQueryAndPortCommands : Prop :=
  ∀ (s : State) (ring : BitVec 4),
    let r := entryRead s ring
    (∀ (sec : BitVec 64) (ns : BitVec 32) (frac : BitVec 16), servedNow s ring (.timeSet sec ns frac) →
      (hostOwnsServo s = false → exec (.timeSet ring sec ns frac) s = completes s ring (.timeSet sec ns frac) 7 [] r) ∧
      (hostOwnsServo s = true → setOk s = true → sec.toNat < 2 ^ 48 → ns.toNat < 1000000000 →
        exec (.timeSet ring sec ns frac) s = completes s ring (.timeSet sec ns frac) 0 [] { r with time := { s.time with
          setSec := sec.setWidth 48, setSub := BitVec.ofNat 46 (ns.toNat * 2 ^ 16 + frac.toNat), setGo := true } })) ∧
    (∀ (valid servo : BitVec 8) (incr offset : BitVec 64) (bound : BitVec 32), servedNow s ring (.timeAdjust valid incr offset bound servo) →
      hostOwnsServo s = true → adjustOk s valid.toNat incr offset bound servo = true →
      (tb valid.toNat 1 = true → offsetOk s (offset.setWidth 47) = true) →
      exec (.timeAdjust ring valid incr offset bound servo) s =
        completes s ring (.timeAdjust valid incr offset bound servo) 0 [] { r with time := { s.time with
          incr := if tb valid.toNat 0 then incr.setWidth 36 else s.time.incr
          offsetAmount := if tb valid.toNat 1 then offset.setWidth 47 else s.time.offsetAmount
          offsetPending := s.time.offsetPending || tb valid.toNat 1
          bound := if tb valid.toNat 2 then bound else s.time.bound
          servo := if tb valid.toNat 3 then servo.setWidth 2 else s.time.servo } }) ∧
    (∀ (what : BitVec 16) (index dest : BitVec 64) (count len : BitVec 32), servedNow s ring (.query what index count dest len) →
      inDataArea dest.toNat len.toNat = true →
      (what.toNat < 7 → queryLost r = none →
        let rs := thatFit len.toNat (queryList r what.toNat index.toNat count.toNat len.toNat)
        exec (.query ring what index count dest len) s =
          completes s ring (.query what index count dest len) 0 (natLe 4 rs.length) (memWrite r dest.toNat rs.flatten)) ∧
      (what = 7 → index = 0 → count = 0 → (chainBytes s).length ≤ len.toNat →
        exec (.query ring what index count dest len) s =
          completes s ring (.query what index count dest len) 0 (natLe 4 (chainCount s)) (memWrite r dest.toNat (chainBytes s))) ∧
      (what = 7 → index = 0 → count = 0 → len.toNat < (chainBytes s).length →
        exec (.query ring what index count dest len) s = completes s ring (.query what index count dest len) 0x0B [] r)) ∧
    (∀ (classes : BitVec 8) (dest : BitVec 64) (len : BitVec 32), servedNow s ring (.blotterDrain classes dest len) →
      inDataArea dest.toNat len.toNat = true →
      let d := ((List.range 8).filter (tb classes.toNat)).foldl (drainClass len.toNat)
        { bytes := [], entries := 0, lost := 0, rings := s.blot.rings, stopped := false }
      exec (.blotterDrain ring classes dest len) s =
        completes s ring (.blotterDrain classes dest len) 0 (natLe 4 d.entries ++ natLe 4 d.lost)
          (memWrite { r with blot := { s.blot with rings := d.rings } } dest.toNat d.bytes)) ∧
    (∀ (nonce : Digest) (dest : BitVec 64) (len : BitVec 32), servedNow s ring (.attestQuote nonce dest len) →
      (len.toNat < 640 → exec (.attestQuote ring nonce dest len) s = completes s ring (.attestQuote nonce dest len) 0x0B [] r) ∧
      (640 ≤ len.toNat → inDataArea dest.toNat 640 = true →
        let s1 := memWrite r dest.toNat (quoteBytes r nonce)
        exec (.attestQuote ring nonce dest len) s = completes s ring (.attestQuote nonce dest len) 0 (natLe 4 640)
          (logEv { s1 with sec := { s.sec with quotes := s.sec.quotes + 1 } }
            { cls := clsSecurity, cause := 9, a0 := fieldAt 64 (bytesOf 32 nonce) 0 8 }))) ∧
    (∀ port sub : BitVec 8, port.toNat < 50 → sub.toNat < subsOf s port.toNat →
      let k := subKey port.toNat sub.toNat
      let b := getSub s k
      (servedNow s ring (.fencePort port sub) →
        (b.state ≠ .plot → s.mbox.opener = none → tidy s = true →
          exec (.fencePort ring port sub) s = completes s ring (.fencePort port sub) 0 []
            (setSub r k { b with fenced := true, state := if (tget {} s.ports port.toNat).group = 0x3F then .off else .fenced })) ∧
        (b.state = .plot →
          exec (.fencePort ring port sub) s = completes s ring (.fencePort port sub) 0 []
            (checkOpen (blot (setSub r k { b with fenced := true }) k .fenced)))) ∧
      (servedNow s ring (.unfencePort port sub) →
        (b.fenced = false → exec (.unfencePort ring port sub) s = completes s ring (.unfencePort port sub) 4 [] r) ∧
        (b.fenced = true → b.linkUp = false → b.training = false → b.holding = false → subThere s port.toNat sub.toNat = true →
          exec (.unfencePort ring port sub) s = completes s ring (.unfencePort port sub) 0 []
            (setSub r k { b with fenced := false, needReset := true, state := .down }))))

/-- Updates and grants by the mailbox: UPDATE_BEGIN, UPDATE_BLOCK, UPDATE_ACTIVATE, UPDATE_CONFIRM, the report of an image or its timeout,
and DEBUG_GRANT with its end (R370, R375-R377, R423). -/
def Obligations.UpdateAndGrantCommands : Prop :=
  ∀ (s : State) (ring : BitVec 4),
    let r := entryRead s ring
    (∀ (target : BitVec 8) (version length blocks : BitVec 32) (d : Digest), servedNow s ring (.updateBegin target version length blocks d) →
      s.boot.update = none → anyTrial s = false → target.toNat ≤ 4 → 2 ≤ blocks.toNat → blocks.toNat ≤ 65536 →
      length.toNat ≤ updateMax target.toNat → (target = 4 → blocks = 2) →
      answers (exec (.updateBegin ring target version length blocks d) s) fun t =>
        t.boot.update = some { target, version, length, blocks, digest := d, applied := [], held := [] } ∧
        (target = 4 → t.flash = s.flash)) ∧
    (∀ (index length : BitVec 32) (host : BitVec 64) (d : Digest) (u : UpdateSt), servedNow s ring (.updateBlock index host length d) →
      s.boot.update = some u → index.toNat < u.blocks.toNat → blockLengthOk u index.toNat length.toNat = true →
      (u.applied.contains index.toNat = true →
        exec (.updateBlock ring index host length d) s = completes s ring (.updateBlock index host length d) 0 [] r) ∧
      (u.applied.contains index.toNat = false →
        exec (.updateBlock ring index host length d) s = .next { r with mbox := { r.mbox with
          reads := s.mbox.reads ++ [{ ring := ring.toNat, seq := seqDue s ring, cmd := .updateBlock index host length d }] } })) ∧
    (∀ (target : BitVec 8) (u : UpdateSt), servedNow s ring (.updateActivate target) → s.boot.update = some u → s.sec.isOpen = false →
      u.target = target → u.blocks.toNat ≤ u.applied.length →
      (target.toNat ≤ 3 →
        match resultError r u with
        | some e => exec (.updateActivate ring target) s =
            completes s ring (.updateActivate target) e [] { r with boot := { s.boot with update := none } }
        | none => answers (exec (.updateActivate ring target) s) fun t =>
            t.boot.update = none ∧ t.boot.hdrTrial = BitVec.ofNat 8 (2 ^ target.toNat) ∧
            (target = 3 → t.boot.hdrBank = s.boot.hdrBank ^^^ 8 ∧ t.boot.hdrTries = 0) ∧
            (target ≠ 3 → t.boot.activating = some (ring.toNat, seqDue s ring, target) ∧ t.boot.hdrTries = 1 ∧
              (getFw t target.toNat).starting = true)) ∧
      (target = 4 → frozen s = false → (sm3 u.held ≠ u.digest ∨ loamOk u.held (mpLoamFormat s) = false) →
        exec (.updateActivate ring target) s = completes s ring (.updateActivate target) 8 [] { r with boot := { s.boot with update := none } })) ∧
    (servedNow s ring .updateConfirm → anyTrial s = true → (inTrial s 3 = false ∨ s.boot.hdrTries ≠ 0) →
      answers (exec (.updateConfirm ring) s) fun t =>
        t.boot.hdrTrial = 0 ∧ t.boot.hdrTries = 0 ∧ t.boot.hdrBank = s.boot.hdrBank ∧ t.boot.update = s.boot.update) ∧
    (∀ g : BitVec 2, (getFw s g.toNat).starting = true → s.boot.activating = none →
      exec (.firmwareReady g) s = .next { s with boot := { s.boot with
        fw := tset {} s.boot.fw g.toNat { getFw s g.toNat with starting := false, ready := true } } }) ∧
    (∀ g : BitVec 2, (getFw s g.toNat).starting = true → inTrial s g.toNat = true →
      exec (.trialReadyTimeout g) s = .next (fallBack s g.toNat)) ∧
    (∀ (addr : BitVec 64) (host : HostView), servedNow s ring (.debugGrant addr 192) → s.mbox.link = 2 →
      let v := hostView host addr.toNat 192
      match grantError s v with
      | some e => exec (.debugGrant ring addr 192 host) s =
          completes s ring (.debugGrant addr 192) e [] (logEv r { cls := clsSecurity, cause := 11, a0 := BitVec.ofNat 64 e })
      | none => answers (exec (.debugGrant ring addr 192 host) s) fun t =>
          t.dbg.grant = true ∧ t.dbg.scope = grantScope v ∧ t.dbg.holder = grantHolder v ∧ t.dbg.notAfter = grantAfter v) ∧
    (s.dbg.grant = true → s.dbg.notAfter ≠ 0 → nsUnits (s.dbg.notAfter.toNat * 1000000000) < nowUnits s →
      answers (exec .grantExpiry s) fun t => t.dbg.grant = false ∧ t.dbg.scope = 0 ∧ t.dbg.holder = 0 ∧ t.mem = s.mem)

/-! ### Blotter and the management endpoint (R383-R398) -/

/-- A coalescing window's close, the clearing of alarms and counts, and the flush of the grain that telemetry fills (R389, R390, R393). -/
def Obligations.BlotterCommands : Prop :=
  ∀ s : State,
    (∀ (cls : BitVec 3) (cause : BitVec 8) (loc : BitVec 64) (w : AlarmWindow),
      s.blot.windows.find? (windowIs cls cause loc) = some w →
      (w.count = 0 → exec (.coalesceWindowClose cls cause loc) s = .next { s with blot := { s.blot with
        windows := s.blot.windows.filter fun x => !windowIs cls cause loc x } }) ∧
      (w.count ≠ 0 → exec (.coalesceWindowClose cls cause loc) s =
        .next (blotWrite { s with blot := { s.blot with
          windows := s.blot.windows.map fun x => if windowIs cls cause loc x then { x with count := 0 } else x } }
          { w.last with flags := w.last.flags ||| 3, count := w.count }))) ∧
    (∀ mask : BitVec 8, exec (.alarmClear mask) s = .next { s with blot := { s.blot with alarm := s.blot.alarm &&& ~~~mask } }) ∧
    exec .clearCounts s = .next { s with blot := { s.blot with counts := [] } } ∧
    (s.blot.fill ≠ [] → answers (exec .telemetryFlushTimer s) fun t => t.blot.fill = [] ∧ t.mem = s.mem) ∧
    (s.blot.fill ≠ [] → cfg s offInbandCfg 10 10 ≠ 1 →
      ((uplink s).isSome = true → answers (exec .telemetryFlushTimer s) fun t =>
        t.blot.streamSeq = s.blot.streamSeq + 1 ∧ t.blot.inSent = s.blot.inSent + 1 ∧ t.blot.noRoute = s.blot.noRoute) ∧
      (uplink s = none → answers (exec .telemetryFlushTimer s) fun t =>
        t.blot.streamSeq = s.blot.streamSeq ∧ t.blot.inSent = s.blot.inSent ∧ t.blot.noRoute = s.blot.noRoute + 1))

/-- The management endpoint's answers, in service. Fields that the manual does not give are free: only their lengths are stated, and the
layout of the standard's messages is presumed (R397, R398, log 34). -/
def Obligations.ManagementCommands : Prop :=
  ∀ s : State, inService s = true →
    (∀ dyn : BitVec 7, exec (.setdasa (BitVec.ofNat 7 (cfg s offOobCfg 6 0)) dyn) s =
      .next { s with blot := { s.blot with dynAddr := some dyn } }) ∧
    (∀ e : BitVec 8, e ≠ 0 → e ≠ 0xFF →
      exec (.setEndpointId e) s = .next { s with blot := { s.blot with eid := some e, mctpOut := some [0, 0, e, 0] } }) ∧
    (answers (exec .getEndpointId s) fun t => ∃ x, t.blot.mctpOut = some [0, endpointId s, x, 0]) ∧
    (∀ ty : BitVec 8, (ty = 0 ∨ ty = 0x7F ∨ ty = 0xFF) →
      answers (exec (.getMctpVersionSupport ty) s) fun t => ∃ bs, bs.length = 4 ∧ t.blot.mctpOut = some ([0, 1] ++ bs)) ∧
    exec .getMessageTypeSupport s = .next { s with blot := { s.blot with mctpOut := some [0, 1, 0x7F] } } ∧
    (answers (exec (.getVendorDefinedMessageSupport 0) s) fun t => ∃ bs, bs.length = 6 ∧ t.blot.mctpOut = some ([0, 0xFF, 1] ++ bs)) ∧
    (let es := s.blot.oobQueue.take 16
     exec .mctpRead s = .next { s with blot := { s.blot with
       oobQueue := s.blot.oobQueue.drop 16, oobThrottledRead := s.blot.oobThrottled, ibi := false
       mctpOut := some (natLe 2 es.length ++ [0, 0] ++ bytesOf 4 (s.blot.oobThrottled - s.blot.oobThrottledRead) ++ es.flatMap entryBytes) } }) ∧
    (∀ c : BitVec 3, exec (.mctpCounts c) s = .next { s with blot := { s.blot with
      mctpOut := some ((List.range 256).flatMap fun k => natLe 4 (countOf s c.toNat k)) } }) ∧
    (answers (exec .mctpStatus s) fun t => ∃ rest, rest.length = 64 ∧
      t.blot.mctpOut = some (natLe 8 s.blot.alarm.toNat ++ natLe 8 s.blot.suspect.toNat ++ rest))

/-! ### The debug port (R420-R431) -/

/-- TAP_GRANT, XFER reads and writes of the strata with and without a grant that covers them, EXTEST and the TAP's reset (R420, R421, R423,
R430). -/
def Obligations.DebugPortCommands : Prop :=
  ∀ s : State,
    let taken (ir : BitVec 8) (d : TapData) : State := { s with dbg := { s.dbg with tapIr := ir, tapData := d }, boot := { s.boot with scan := none } }
    let done (t : State) (result : BitVec 2) (data : BitVec 64) : State :=
      { t with
        dbg := { t.dbg with tapIr := 0x20, tapData := .xfer (xferFrame t), xferResult := result, xferData := data }
        boot := { t.boot with scan := none } }
    (∀ g : Bytes,
      (s.dbg.tapGrantOk = false → exec (.tapGrant g) s = .next (taken 0x11 .grant)) ∧
      (s.dbg.tapGrantOk = true →
        match grantError s (slice g 0 192) with
        | some e => exec (.tapGrant g) s = .next (logEv (taken 0x11 .grant) { cls := clsSecurity, cause := 11, a0 := BitVec.ofNat 64 e })
        | none => answers (exec (.tapGrant g) s) fun t =>
            t.dbg.grant = true ∧ t.dbg.scope = grantScope (slice g 0 192) ∧ t.dbg.holder = grantHolder (slice g 0 192) ∧ t.dbg.tapIr = 0x11)) ∧
    (∀ (a : DevAddr) (pc off : Nat), decodeAddr a.toNat = .stack pc off →
      (inScope s scopeRead = true → a.toNat % 8 = 0 → s.boot.phase = .service → backedRange s a.toNat 8 = true →
        exec (.xferRead a) s = .next (done s 0 (wordOf 64 (directRead s a.toNat 8)))) ∧
      (inScope s scopeRead = false → exec (.xferRead a) s = .next (logEv (done s 1 0)
        { cls := clsSecurity, cause := 1, loc := BitVec.ofNat 64 a.toNat, a0 := 2 })) ∧
      (∀ v : BitVec 64, s.dbg.grant = true → a.toNat % 8 = 0 → s.boot.phase = .service → inScope s scopeWrite = true →
        backedRange s a.toNat 8 = true → writesLive s a.toNat 8 = false →
        answers (exec (.xferWrite a v) s) fun t =>
          t.mem = (directWrite s a.toNat (bytesOf 8 v)).mem ∧ t.dbg.debugWrite = true ∧ t.dbg.xferResult = 0) ∧
      (∀ v : BitVec 64, s.dbg.grant = false → exec (.xferWrite a v) s = .next (logEv (done s 1 0)
        { cls := clsSecurity, cause := 1, loc := BitVec.ofNat 64 a.toNat, a0 := 2 }))) ∧
    (∀ pins : List Bool, inScope s scopeHalt = true → s.sec.isOpen = false →
      exec (.extest pins) s = .next
        { s with dbg := { s.dbg with tapIr := 0, tapData := .scan pins }, boot := { s.boot with scan := some pins } }) ∧
    (∀ pins : List Bool, inScope s scopeHalt = false ∨ s.sec.isOpen = true → exec (.extest pins) s = .next (taken 0 .bypass)) ∧
    exec .tapReset s = .next (taken 0x02 (.idcode (BitVec.ofNat 32 (Config.stepping.toNat % 16 * 2 ^ 28 + 0x4816 * 2 ^ 12 + 0x2D3 * 2 + 1))))

/-- HALT, RESUME and STEP with a grant of scope HALT: units of the reach halt and go on, one command or one stroke of a halted unit runs, and a
halt that outlasts a finite dry time blots the plot's sub-ports (R424-R426). -/
def Obligations.DebugRunControl : Prop :=
  ∀ s : State,
    (mayRun s = true →
      (∀ (reach : BitVec 2) (core : BitVec 6), reach.toNat < 2 →
        (answers (exec (.debugHalt reach core) s) fun t =>
          (∀ k, k ∈ reachUnits reach.toNat core.toNat → (getUnit t k).halted = true) ∧ t.mem = s.mem ∧ t.step = s.step) ∧
        (tidy s = true → s.dbg.bps = [] → (∃ k, k ∈ reachUnits reach.toNat core.toNat ∧ (getUnit s k).halted = true) →
          answers (exec (.debugResume reach core) s) fun t =>
            (∀ k, k ∈ reachUnits reach.toNat core.toNat → (getUnit t k).halted = false) ∧ t.mem = s.mem ∧ t.step = s.step)) ∧
      (∀ (core : BitVec 6) (tile : BitVec 5), tileOk tile.toNat = true →
        let k := unitKeyOf core.toNat tile.toNat
        let u := getUnit s k
        u.halted = true → s.step.running = true → s.step.voided = false → s.step.localEnded = false → u.oneMore = false → u.oneStroke = false →
        exec (.debugStep core tile 1) s =
          .next (runUnit (modUnit s k fun u => { u with oneMore := true, passBp := true }) core.toNat tile.toNat) ∧
        exec (.debugStep core tile 0) s =
          .next (runUnit (modUnit s k fun u => { u with oneStroke := true, passBp := true }) core.toNat tile.toNat) ∧
        (∀ (j : BitVec 5) (n : BitVec 16), tile = j → transferTile j = true → u.queue.head? = some (waitWord n.toNat) → u.blocked = none →
          u.ended = false → turnOk s k = true → s.dbg.bps = [] → 1 < n.toNat → tidy s = true →
          answers (exec (.debugStep core tile 0) s) fun t =>
            (getUnit t k).stepped = 1 ∧ (getUnit t k).strokes = u.strokes ∧ (getUnit t k).halted = true ∧ (getUnit t k).oneStroke = false ∧
            (getUnit t k).issued = u.issued + 1))) ∧
    (s.sec.isOpen = true → s.dbg.holdSent = true → anyHalted s = true → s.sec.debug = false → tidy s = true →
      answers (exec .haltDryExpiry s) fun t =>
        t.dbg.haltBlotted = true ∧ ∀ e, e ∈ s.subs → carries s e.1 = true →
          (getSub t e.1).state = .down ∧ (getSub t e.1).blotted = true ∧ (getSub t e.1).waitPool = [] ∧ (getSub t e.1).replay = [])

/-! ### Power, reset, boot and bedrock mode (R225, R359-R374, R384, R437-R445) -/

/-- Power and reset: what each keeps, where the boot goes without a reference, without an SFDP table and without a header, and the boot that
reaches service (R369, R370, R372, R437-R440). -/
def Obligations.PowerAndBoot : Prop :=
  ∀ s : State,
    let cleared (t : State) : Prop :=
      t.regs = [] ∧ t.units = [] ∧ t.scribes = [] ∧ t.subs = [] ∧ t.stackTbl = [] ∧ t.ddrs = [] ∧ t.overlay = [] ∧ t.chans = [] ∧
      t.sec.isOpen = false ∧ t.launch.state = .idle ∧ t.step.running = false ∧ t.dbg.grant = false ∧ t.flash = s.flash ∧
      t.pending = s.pending
    (answers (exec .powerUp s) fun t => cleared t ∧ t.mem = [] ∧ t.boot.phase = .off ∧ t.boot.pwrgood = false ∧ t.dbg.tapIr = 2) ∧
    (s.boot.pwrgood = false → exec .pwrgoodAssert s = .next { s with boot := { s.boot with pwrgood := true, phase := .reset } }) ∧
    (answers (exec .pwrgoodFall s) fun t => cleared t ∧ t.mem = s.mem ∧ t.boot.phase = .off ∧ t.boot.pwrgood = false) ∧
    (s.boot.pwrgood = true → s.dbg.grant = false →
      (answers (exec .warmReset s) fun t => cleared t ∧ t.mem = s.mem ∧ t.boot.pwrgood = true ∧
        t.boot.thermtripN = s.boot.thermtripN ∧ t.boot.phase = if s.boot.phase = .tripped then .tripped else .reset) ∧
      (answers (exec .warmReset s) fun t => t.blot.counts = []) ∧
      (∀ rail, answers (exec (.railFault rail) s) fun t => cleared t ∧ t.mem = s.mem ∧ t.boot.pwrgood = true ∧ t.blot.counts = s.blot.counts ∧
        t.boot.thermtripN = s.boot.thermtripN ∧ t.boot.phase = if s.boot.phase = .tripped then .tripped else .reset)) ∧
    (∀ v : BootView, (s.boot.phase = .reset ∨ s.boot.phase = .waitRef) →
      (v.refA = false → v.refB = false →
        exec (.resetNRelease v) s = .next { s with boot := { s.boot with phase := .waitRef } }) ∧
      ((v.refA = true ∨ v.refB = true) →
        (fastestMode v.sfdpModes = none → answers (exec (.resetNRelease v) s) fun t => t.boot.phase = .bedrock 1) ∧
        (fastestMode v.sfdpModes ≠ none → pickHdr s = none → answers (exec (.resetNRelease v) s) fun t => t.boot.phase = .bedrock 2) ∧
        (∀ (m : BitVec 2) (c : Nat) (h : Hdr), fastestMode v.sfdpModes = some m → pickHdr s = some (c, h) →
          let s0 := { s with
            time := { s.time with refAok := v.refA, refBok := v.refB, refSel := if v.refA then 0 else 1 }
            boot := { s.boot with alertN := false, flashMode := m } }
          let s1 := setHdr s0 c h
          (rebuiltKey s1 = none → answers (exec (.resetNRelease v) s) fun t => t.boot.phase = .bedrock 3 ∧ t.boot.idOk = s.boot.idOk) ∧
          (∀ k : Digest, rebuiltKey s1 = some k →
            let s2 := takeIdentity s1 k
            let s3 := { s2 with sec := { s2.sec with meas := tset 0 s2.sec.meas 7 (sm3 (chainBytes s2)) } }
            let s4 := { s3 with sec := { s3.sec with meas := tset 0 s3.sec.meas 5 (sm3 (gradeMap s3)) } }
            let s5 := bootTargets (namedImages s4) [0, 1, 2, 3]
            answers (exec (.resetNRelease v) s) fun t =>
              if (chainReaches (chainRegion s2) && chainOwn s2) = false then t.boot.phase = .bedrock 4
              else if gradeOk s3 = false then t.boot.phase = .bedrock 5
              else if s5.2 = false then t.boot.phase = .bedrock 6 ∧ t.boot.hdrSeq = s5.1.boot.hdrSeq ∧ t.flash = s5.1.flash
              else t.boot.phase = .service ∧ t.boot.bootMs = v.bootMs)))) ∧
    (s.boot.phase = .waitRef → exec .referenceWaitAlert s = .next { s with boot := { s.boot with alertN := true } })

/-- A thermal trip, a lost controller, and self-test on a device with no open plot (R225, R366, R384, R444). -/
def Obligations.TripLossAndSelfTest : Prop :=
  ∀ s : State,
    (∀ sensor temp : BitVec 8, s.boot.phase = .service → tripTemp sensor ≤ temp.toNat →
      answers (exec (.thermalTrip sensor temp) s) fun t =>
        t.boot.phase = .tripped ∧ t.boot.thermtripN = true ∧ t.step.running = false ∧ t.mbox.link = 0 ∧ t.launch.state = .idle ∧
        (∀ k, (getSub t k).linkUp = false) ∧ t.mem = s.mem) ∧
    (∀ target die : BitVec 2, target ≠ 0 → s.boot.phase = .service →
      exec (.controllerLost target die) s =
        .next (logEv s { cls := clsFatal, cause := 3, loc := Config.controllerLocator target.toNat die.toNat, die := die.toNat })) ∧
    (inService s = true → s.sec.isOpen = false →
      exec (.selfTest []) s = .next s ∧
      (∀ f : FailingUnit, selfTestKind f = true → ((retirements s).any (sameUnit (failingEntry f)) = false →
        exec (.selfTest [f]) s = .next (retire s (failingEntry f))) ∧
        ((retirements s).any (sameUnit (failingEntry f)) = true → exec (.selfTest [f]) s = .next s)))

/-- Operations of bedrock mode: an item begins with its region erased, a chunk whose digest matches is written, an item is accepted or refused at
its end, and RESTART resets the device (R373, R374). -/
def Obligations.BedrockOperations : Prop :=
  ∀ s : State, inBedrock s = true →
    (∀ item : BitVec 4, item.toNat ≤ 7 → bedLength s ≤ (itemRegion item.toNat).2 →
      exec (.bedrockBegin item) s = .next { s with
        flash := clearRun s.flash (itemRegion item.toNat).1 (itemRegion item.toNat).2
        boot := { s.boot with bedItem := some (item, BitVec.ofNat 32 (bedLength s)), bedError := 0 } }) ∧
    (∀ (item : BitVec 4) (n : BitVec 32), s.boot.bedItem = some (item, n) → bedLength s ≤ 0x80000 → bedOffset s + bedLength s ≤ n.toNat →
      let b := readRun 0 s.boot.bedBuf 0 (bedLength s)
      (sm3 b = bedDigest s →
        answers (exec (.bedrockChunk item) s) fun t =>
          t.flash = (flashWrite s ((itemRegion item.toNat).1 + bedOffset s) b).flash ∧ t.boot.bedError = 0 ∧ t.boot.bedItem = s.boot.bedItem) ∧
      (sm3 b ≠ bedDigest s → exec (.bedrockChunk item) s = .next { s with boot := { s.boot with bedError := 8 } })) ∧
    (∀ (item : BitVec 4) (n : BitVec 32), s.boot.bedItem = some (item, n) →
      (∀ e, bedRefuses s item.toNat n.toNat = some e →
        exec (.bedrockEnd item) s = .next { s with boot := { s.boot with bedError := BitVec.ofNat 8 e } }) ∧
      (bedRefuses s item.toNat n.toNat = none →
        answers (exec (.bedrockEnd item) s) fun t => t.boot.bedItem = none ∧ t.boot.bedError = 0)) ∧
    (∀ rail, exec .bedrockRestart s = exec (.railFault rail) s)

/-! ### Whole-machine rules -/

/-- A mailbox entry says its command, and one entry only says it: the bytes of R340 and R347 to R353 read back as the command they hold, and
an entry of interface 1 that reads as a command is the entry of that command (R7, R339, R340). -/
def Obligations.MailboxEntriesRoundTrip : Prop :=
  (∀ (seq : BitVec 32) (c : MboxCmd), isCommand c = true →
    (entryBytesOf seq c).length = 128 ∧ fieldAt 32 (entryBytesOf seq c) 0 4 = seq ∧ parseEntry (entryBytesOf seq c) = c) ∧
  (∀ e : Bytes, e.length = 128 → fieldAt 8 e 5 1 = 1 → isCommand (parseEntry e) = true →
    e = entryBytesOf (fieldAt 32 e 0 4) (parseEntry e))

/-- The state after reset is in good order: no table lists a value it would read anyway, every class ring fits, and no command waits; no plot
is open, no link is up and no step runs (R405, R438; reset values the spec does not give are those of log 7). -/
def Obligations.ResetIsTidy : Prop :=
  tidy State.reset = true ∧ ringsFit State.reset = true ∧ queueOk State.reset = true ∧ State.reset.pending = [] ∧
    State.reset.sec.isOpen = false ∧ State.reset.step.running = false ∧ State.reset.launch.state = .idle ∧
    ∀ k, (getSub State.reset k).state = .off ∧ (getSub State.reset k).linkUp = false

/-- Every step keeps memory, flash, host memory, the step copies and every table of parts in their one form: keys rise, and no byte is listed
that reads so unlisted. -/
def Obligations.StepKeepsTidy : Prop :=
  ∀ s t : State, tidy s = true → step s = .next t → tidy t = true

/-- Every step keeps the class rings of the blotter within 64 pinned and 64 recent positions (R387). -/
def Obligations.StepKeepsRingsWithinBounds : Prop :=
  ∀ s t : State, ringsFit s = true → step s = .next t → ringsFit t = true

/-- No command touches the queue of those that wait, and every command answers a next state: neither a fault nor a refusal stops the device. -/
def Obligations.CommandsLeaveQueue : Prop :=
  ∀ (i : Instr) (s : State), answers (exec i s) fun t => t.pending = s.pending

/-- Frame of the rows of engines, scribes and die movers: registers, flash, the sheets, the memory controllers, time, pace, ports, the mailbox,
loading and the plot are as before, as are a step's number, attempts and launch; of serving only slots can change (marks of an emit block), of
the debug port only breakpoints' HIT and the halt hold, of the launch logic only holds and what it has seen. -/
def Obligations.UnitsLeaveTheDevice : Prop :=
  ∀ (i : Instr) (s t : State), isUnitCmd i = true → exec i s = .next t →
    t.boot = s.boot ∧ t.flash = s.flash ∧ t.regs = s.regs ∧ t.stackTbl = s.stackTbl ∧ t.ddrs = s.ddrs ∧ t.sheets = s.sheets ∧
    t.time = s.time ∧ t.ptp = s.ptp ∧ t.ptpOut = s.ptpOut ∧ t.pace = s.pace ∧ t.ports = s.ports ∧ t.load = s.load ∧
    t.mbox = s.mbox ∧ t.sec = s.sec ∧ t.free = s.free ∧
    (∃ slots, t.serv = { s.serv with slots }) ∧
    (t.step.running, t.step.number, t.step.attempts, t.step.voided, t.step.launchTime) =
      (s.step.running, s.step.number, s.step.attempts, s.step.voided, s.step.launchTime) ∧
    (∃ bps sent, t.dbg = { s.dbg with bps, holdSent := sent }) ∧
    (∃ holds held seen, t.launch = { s.launch with holds, heldSince := held, seen })

end
end

