-- ==== Sys2Proof/Laws/State.lean ====
section
/-! SUPPORT. What each update of the state does to each field: one lemma per field per update. -/

namespace Sys2Proof.Machine

variable (s : State)

/-! ### setUnit -/

@[simp] theorem setUnit_pending (k : Nat) (u : UnitSt) : (setUnit s k u).pending = s.pending := rfl
@[simp] theorem setUnit_free (k : Nat) (u : UnitSt) : (setUnit s k u).free = s.free := rfl
@[simp] theorem setUnit_boot (k : Nat) (u : UnitSt) : (setUnit s k u).boot = s.boot := rfl
@[simp] theorem setUnit_flash (k : Nat) (u : UnitSt) : (setUnit s k u).flash = s.flash := rfl
@[simp] theorem setUnit_regs (k : Nat) (u : UnitSt) : (setUnit s k u).regs = s.regs := rfl
@[simp] theorem setUnit_mem (k : Nat) (u : UnitSt) : (setUnit s k u).mem = s.mem := rfl
@[simp] theorem setUnit_overlay (k : Nat) (u : UnitSt) : (setUnit s k u).overlay = s.overlay := rfl
@[simp] theorem setUnit_stackTbl (k : Nat) (u : UnitSt) : (setUnit s k u).stackTbl = s.stackTbl := rfl
@[simp] theorem setUnit_ddrs (k : Nat) (u : UnitSt) : (setUnit s k u).ddrs = s.ddrs := rfl
@[simp] theorem setUnit_sheets (k : Nat) (u : UnitSt) : (setUnit s k u).sheets = s.sheets := rfl
@[simp] theorem setUnit_units (k : Nat) (u : UnitSt) : (setUnit s k u).units = tset {} s.units k u := rfl
@[simp] theorem setUnit_scribes (k : Nat) (u : UnitSt) : (setUnit s k u).scribes = s.scribes := rfl
@[simp] theorem setUnit_matrix (k : Nat) (u : UnitSt) : (setUnit s k u).matrix = s.matrix := rfl
@[simp] theorem setUnit_vector (k : Nat) (u : UnitSt) : (setUnit s k u).vector = s.vector := rfl
@[simp] theorem setUnit_xfer (k : Nat) (u : UnitSt) : (setUnit s k u).xfer = s.xfer := rfl
@[simp] theorem setUnit_chans (k : Nat) (u : UnitSt) : (setUnit s k u).chans = s.chans := rfl
@[simp] theorem setUnit_step (k : Nat) (u : UnitSt) : (setUnit s k u).step = s.step := rfl
@[simp] theorem setUnit_launch (k : Nat) (u : UnitSt) : (setUnit s k u).launch = s.launch := rfl
@[simp] theorem setUnit_time (k : Nat) (u : UnitSt) : (setUnit s k u).time = s.time := rfl
@[simp] theorem setUnit_ptp (k : Nat) (u : UnitSt) : (setUnit s k u).ptp = s.ptp := rfl
@[simp] theorem setUnit_ptpOut (k : Nat) (u : UnitSt) : (setUnit s k u).ptpOut = s.ptpOut := rfl
@[simp] theorem setUnit_pace (k : Nat) (u : UnitSt) : (setUnit s k u).pace = s.pace := rfl
@[simp] theorem setUnit_ports (k : Nat) (u : UnitSt) : (setUnit s k u).ports = s.ports := rfl
@[simp] theorem setUnit_subs (k : Nat) (u : UnitSt) : (setUnit s k u).subs = s.subs := rfl
@[simp] theorem setUnit_serv (k : Nat) (u : UnitSt) : (setUnit s k u).serv = s.serv := rfl
@[simp] theorem setUnit_load (k : Nat) (u : UnitSt) : (setUnit s k u).load = s.load := rfl
@[simp] theorem setUnit_mbox (k : Nat) (u : UnitSt) : (setUnit s k u).mbox = s.mbox := rfl
@[simp] theorem setUnit_blot (k : Nat) (u : UnitSt) : (setUnit s k u).blot = s.blot := rfl
@[simp] theorem setUnit_sec (k : Nat) (u : UnitSt) : (setUnit s k u).sec = s.sec := rfl
@[simp] theorem setUnit_dbg (k : Nat) (u : UnitSt) : (setUnit s k u).dbg = s.dbg := rfl
@[simp] theorem setUnit_host (k : Nat) (u : UnitSt) : (setUnit s k u).host = s.host := rfl

/-! ### setSub -/

@[simp] theorem setSub_pending (k : Nat) (b : SubSt) : (setSub s k b).pending = s.pending := rfl
@[simp] theorem setSub_free (k : Nat) (b : SubSt) : (setSub s k b).free = s.free := rfl
@[simp] theorem setSub_boot (k : Nat) (b : SubSt) : (setSub s k b).boot = s.boot := rfl
@[simp] theorem setSub_flash (k : Nat) (b : SubSt) : (setSub s k b).flash = s.flash := rfl
@[simp] theorem setSub_regs (k : Nat) (b : SubSt) : (setSub s k b).regs = s.regs := rfl
@[simp] theorem setSub_mem (k : Nat) (b : SubSt) : (setSub s k b).mem = s.mem := rfl
@[simp] theorem setSub_overlay (k : Nat) (b : SubSt) : (setSub s k b).overlay = s.overlay := rfl
@[simp] theorem setSub_stackTbl (k : Nat) (b : SubSt) : (setSub s k b).stackTbl = s.stackTbl := rfl
@[simp] theorem setSub_ddrs (k : Nat) (b : SubSt) : (setSub s k b).ddrs = s.ddrs := rfl
@[simp] theorem setSub_sheets (k : Nat) (b : SubSt) : (setSub s k b).sheets = s.sheets := rfl
@[simp] theorem setSub_units (k : Nat) (b : SubSt) : (setSub s k b).units = s.units := rfl
@[simp] theorem setSub_scribes (k : Nat) (b : SubSt) : (setSub s k b).scribes = s.scribes := rfl
@[simp] theorem setSub_matrix (k : Nat) (b : SubSt) : (setSub s k b).matrix = s.matrix := rfl
@[simp] theorem setSub_vector (k : Nat) (b : SubSt) : (setSub s k b).vector = s.vector := rfl
@[simp] theorem setSub_xfer (k : Nat) (b : SubSt) : (setSub s k b).xfer = s.xfer := rfl
@[simp] theorem setSub_chans (k : Nat) (b : SubSt) : (setSub s k b).chans = s.chans := rfl
@[simp] theorem setSub_step (k : Nat) (b : SubSt) : (setSub s k b).step = s.step := rfl
@[simp] theorem setSub_launch (k : Nat) (b : SubSt) : (setSub s k b).launch = s.launch := rfl
@[simp] theorem setSub_time (k : Nat) (b : SubSt) : (setSub s k b).time = s.time := rfl
@[simp] theorem setSub_ptp (k : Nat) (b : SubSt) : (setSub s k b).ptp = s.ptp := rfl
@[simp] theorem setSub_ptpOut (k : Nat) (b : SubSt) : (setSub s k b).ptpOut = s.ptpOut := rfl
@[simp] theorem setSub_pace (k : Nat) (b : SubSt) : (setSub s k b).pace = s.pace := rfl
@[simp] theorem setSub_ports (k : Nat) (b : SubSt) : (setSub s k b).ports = s.ports := rfl
@[simp] theorem setSub_subs (k : Nat) (b : SubSt) : (setSub s k b).subs = tset {} s.subs k b := rfl
@[simp] theorem setSub_serv (k : Nat) (b : SubSt) : (setSub s k b).serv = s.serv := rfl
@[simp] theorem setSub_load (k : Nat) (b : SubSt) : (setSub s k b).load = s.load := rfl
@[simp] theorem setSub_mbox (k : Nat) (b : SubSt) : (setSub s k b).mbox = s.mbox := rfl
@[simp] theorem setSub_blot (k : Nat) (b : SubSt) : (setSub s k b).blot = s.blot := rfl
@[simp] theorem setSub_sec (k : Nat) (b : SubSt) : (setSub s k b).sec = s.sec := rfl
@[simp] theorem setSub_dbg (k : Nat) (b : SubSt) : (setSub s k b).dbg = s.dbg := rfl
@[simp] theorem setSub_host (k : Nat) (b : SubSt) : (setSub s k b).host = s.host := rfl

/-! ### setChan -/

@[simp] theorem setChan_pending (ch : Nat) (ds : List Drop) : (setChan s ch ds).pending = s.pending := rfl
@[simp] theorem setChan_free (ch : Nat) (ds : List Drop) : (setChan s ch ds).free = s.free := rfl
@[simp] theorem setChan_boot (ch : Nat) (ds : List Drop) : (setChan s ch ds).boot = s.boot := rfl
@[simp] theorem setChan_flash (ch : Nat) (ds : List Drop) : (setChan s ch ds).flash = s.flash := rfl
@[simp] theorem setChan_regs (ch : Nat) (ds : List Drop) : (setChan s ch ds).regs = s.regs := rfl
@[simp] theorem setChan_mem (ch : Nat) (ds : List Drop) : (setChan s ch ds).mem = s.mem := rfl
@[simp] theorem setChan_overlay (ch : Nat) (ds : List Drop) : (setChan s ch ds).overlay = s.overlay := rfl
@[simp] theorem setChan_stackTbl (ch : Nat) (ds : List Drop) : (setChan s ch ds).stackTbl = s.stackTbl := rfl
@[simp] theorem setChan_ddrs (ch : Nat) (ds : List Drop) : (setChan s ch ds).ddrs = s.ddrs := rfl
@[simp] theorem setChan_sheets (ch : Nat) (ds : List Drop) : (setChan s ch ds).sheets = s.sheets := rfl
@[simp] theorem setChan_units (ch : Nat) (ds : List Drop) : (setChan s ch ds).units = s.units := rfl
@[simp] theorem setChan_scribes (ch : Nat) (ds : List Drop) : (setChan s ch ds).scribes = s.scribes := rfl
@[simp] theorem setChan_matrix (ch : Nat) (ds : List Drop) : (setChan s ch ds).matrix = s.matrix := rfl
@[simp] theorem setChan_vector (ch : Nat) (ds : List Drop) : (setChan s ch ds).vector = s.vector := rfl
@[simp] theorem setChan_xfer (ch : Nat) (ds : List Drop) : (setChan s ch ds).xfer = s.xfer := rfl
@[simp] theorem setChan_chans (ch : Nat) (ds : List Drop) : (setChan s ch ds).chans = tset [] s.chans ch ds := rfl
@[simp] theorem setChan_step (ch : Nat) (ds : List Drop) : (setChan s ch ds).step = s.step := rfl
@[simp] theorem setChan_launch (ch : Nat) (ds : List Drop) : (setChan s ch ds).launch = s.launch := rfl
@[simp] theorem setChan_time (ch : Nat) (ds : List Drop) : (setChan s ch ds).time = s.time := rfl
@[simp] theorem setChan_ptp (ch : Nat) (ds : List Drop) : (setChan s ch ds).ptp = s.ptp := rfl
@[simp] theorem setChan_ptpOut (ch : Nat) (ds : List Drop) : (setChan s ch ds).ptpOut = s.ptpOut := rfl
@[simp] theorem setChan_pace (ch : Nat) (ds : List Drop) : (setChan s ch ds).pace = s.pace := rfl
@[simp] theorem setChan_ports (ch : Nat) (ds : List Drop) : (setChan s ch ds).ports = s.ports := rfl
@[simp] theorem setChan_subs (ch : Nat) (ds : List Drop) : (setChan s ch ds).subs = s.subs := rfl
@[simp] theorem setChan_serv (ch : Nat) (ds : List Drop) : (setChan s ch ds).serv = s.serv := rfl
@[simp] theorem setChan_load (ch : Nat) (ds : List Drop) : (setChan s ch ds).load = s.load := rfl
@[simp] theorem setChan_mbox (ch : Nat) (ds : List Drop) : (setChan s ch ds).mbox = s.mbox := rfl
@[simp] theorem setChan_blot (ch : Nat) (ds : List Drop) : (setChan s ch ds).blot = s.blot := rfl
@[simp] theorem setChan_sec (ch : Nat) (ds : List Drop) : (setChan s ch ds).sec = s.sec := rfl
@[simp] theorem setChan_dbg (ch : Nat) (ds : List Drop) : (setChan s ch ds).dbg = s.dbg := rfl
@[simp] theorem setChan_host (ch : Nat) (ds : List Drop) : (setChan s ch ds).host = s.host := rfl

/-! ### memWrite -/

@[simp] theorem memWrite_pending (a : Nat) (bs : Bytes) : (memWrite s a bs).pending = s.pending := rfl
@[simp] theorem memWrite_free (a : Nat) (bs : Bytes) : (memWrite s a bs).free = s.free := rfl
@[simp] theorem memWrite_boot (a : Nat) (bs : Bytes) : (memWrite s a bs).boot = s.boot := rfl
@[simp] theorem memWrite_flash (a : Nat) (bs : Bytes) : (memWrite s a bs).flash = s.flash := rfl
@[simp] theorem memWrite_regs (a : Nat) (bs : Bytes) : (memWrite s a bs).regs = s.regs := rfl
@[simp] theorem memWrite_mem (a : Nat) (bs : Bytes) : (memWrite s a bs).mem = writeRun 0 s.mem a bs := rfl
@[simp] theorem memWrite_overlay (a : Nat) (bs : Bytes) : (memWrite s a bs).overlay = s.overlay := rfl
@[simp] theorem memWrite_stackTbl (a : Nat) (bs : Bytes) : (memWrite s a bs).stackTbl = s.stackTbl := rfl
@[simp] theorem memWrite_ddrs (a : Nat) (bs : Bytes) : (memWrite s a bs).ddrs = s.ddrs := rfl
@[simp] theorem memWrite_sheets (a : Nat) (bs : Bytes) : (memWrite s a bs).sheets = s.sheets := rfl
@[simp] theorem memWrite_units (a : Nat) (bs : Bytes) : (memWrite s a bs).units = s.units := rfl
@[simp] theorem memWrite_scribes (a : Nat) (bs : Bytes) : (memWrite s a bs).scribes = s.scribes := rfl
@[simp] theorem memWrite_matrix (a : Nat) (bs : Bytes) : (memWrite s a bs).matrix = s.matrix := rfl
@[simp] theorem memWrite_vector (a : Nat) (bs : Bytes) : (memWrite s a bs).vector = s.vector := rfl
@[simp] theorem memWrite_xfer (a : Nat) (bs : Bytes) : (memWrite s a bs).xfer = s.xfer := rfl
@[simp] theorem memWrite_chans (a : Nat) (bs : Bytes) : (memWrite s a bs).chans = s.chans := rfl
@[simp] theorem memWrite_step (a : Nat) (bs : Bytes) : (memWrite s a bs).step = s.step := rfl
@[simp] theorem memWrite_launch (a : Nat) (bs : Bytes) : (memWrite s a bs).launch = s.launch := rfl
@[simp] theorem memWrite_time (a : Nat) (bs : Bytes) : (memWrite s a bs).time = s.time := rfl
@[simp] theorem memWrite_ptp (a : Nat) (bs : Bytes) : (memWrite s a bs).ptp = s.ptp := rfl
@[simp] theorem memWrite_ptpOut (a : Nat) (bs : Bytes) : (memWrite s a bs).ptpOut = s.ptpOut := rfl
@[simp] theorem memWrite_pace (a : Nat) (bs : Bytes) : (memWrite s a bs).pace = s.pace := rfl
@[simp] theorem memWrite_ports (a : Nat) (bs : Bytes) : (memWrite s a bs).ports = s.ports := rfl
@[simp] theorem memWrite_subs (a : Nat) (bs : Bytes) : (memWrite s a bs).subs = s.subs := rfl
@[simp] theorem memWrite_serv (a : Nat) (bs : Bytes) : (memWrite s a bs).serv = s.serv := rfl
@[simp] theorem memWrite_load (a : Nat) (bs : Bytes) : (memWrite s a bs).load = s.load := rfl
@[simp] theorem memWrite_mbox (a : Nat) (bs : Bytes) : (memWrite s a bs).mbox = s.mbox := rfl
@[simp] theorem memWrite_blot (a : Nat) (bs : Bytes) : (memWrite s a bs).blot = s.blot := rfl
@[simp] theorem memWrite_sec (a : Nat) (bs : Bytes) : (memWrite s a bs).sec = s.sec := rfl
@[simp] theorem memWrite_dbg (a : Nat) (bs : Bytes) : (memWrite s a bs).dbg = s.dbg := rfl
@[simp] theorem memWrite_host (a : Nat) (bs : Bytes) : (memWrite s a bs).host = s.host := rfl

/-! ### stepCopyWrite -/

@[simp] theorem stepCopyWrite_pending (a : Nat) (bs : Bytes) : (stepCopyWrite s a bs).pending = s.pending := rfl
@[simp] theorem stepCopyWrite_free (a : Nat) (bs : Bytes) : (stepCopyWrite s a bs).free = s.free := rfl
@[simp] theorem stepCopyWrite_boot (a : Nat) (bs : Bytes) : (stepCopyWrite s a bs).boot = s.boot := rfl
@[simp] theorem stepCopyWrite_flash (a : Nat) (bs : Bytes) : (stepCopyWrite s a bs).flash = s.flash := rfl
@[simp] theorem stepCopyWrite_regs (a : Nat) (bs : Bytes) : (stepCopyWrite s a bs).regs = s.regs := rfl
@[simp] theorem stepCopyWrite_mem (a : Nat) (bs : Bytes) : (stepCopyWrite s a bs).mem = s.mem := rfl
@[simp] theorem stepCopyWrite_overlay (a : Nat) (bs : Bytes) : (stepCopyWrite s a bs).overlay = overlayRun s.overlay a bs := rfl
@[simp] theorem stepCopyWrite_stackTbl (a : Nat) (bs : Bytes) : (stepCopyWrite s a bs).stackTbl = s.stackTbl := rfl
@[simp] theorem stepCopyWrite_ddrs (a : Nat) (bs : Bytes) : (stepCopyWrite s a bs).ddrs = s.ddrs := rfl
@[simp] theorem stepCopyWrite_sheets (a : Nat) (bs : Bytes) : (stepCopyWrite s a bs).sheets = s.sheets := rfl
@[simp] theorem stepCopyWrite_units (a : Nat) (bs : Bytes) : (stepCopyWrite s a bs).units = s.units := rfl
@[simp] theorem stepCopyWrite_scribes (a : Nat) (bs : Bytes) : (stepCopyWrite s a bs).scribes = s.scribes := rfl
@[simp] theorem stepCopyWrite_matrix (a : Nat) (bs : Bytes) : (stepCopyWrite s a bs).matrix = s.matrix := rfl
@[simp] theorem stepCopyWrite_vector (a : Nat) (bs : Bytes) : (stepCopyWrite s a bs).vector = s.vector := rfl
@[simp] theorem stepCopyWrite_xfer (a : Nat) (bs : Bytes) : (stepCopyWrite s a bs).xfer = s.xfer := rfl
@[simp] theorem stepCopyWrite_chans (a : Nat) (bs : Bytes) : (stepCopyWrite s a bs).chans = s.chans := rfl
@[simp] theorem stepCopyWrite_step (a : Nat) (bs : Bytes) : (stepCopyWrite s a bs).step = s.step := rfl
@[simp] theorem stepCopyWrite_launch (a : Nat) (bs : Bytes) : (stepCopyWrite s a bs).launch = s.launch := rfl
@[simp] theorem stepCopyWrite_time (a : Nat) (bs : Bytes) : (stepCopyWrite s a bs).time = s.time := rfl
@[simp] theorem stepCopyWrite_ptp (a : Nat) (bs : Bytes) : (stepCopyWrite s a bs).ptp = s.ptp := rfl
@[simp] theorem stepCopyWrite_ptpOut (a : Nat) (bs : Bytes) : (stepCopyWrite s a bs).ptpOut = s.ptpOut := rfl
@[simp] theorem stepCopyWrite_pace (a : Nat) (bs : Bytes) : (stepCopyWrite s a bs).pace = s.pace := rfl
@[simp] theorem stepCopyWrite_ports (a : Nat) (bs : Bytes) : (stepCopyWrite s a bs).ports = s.ports := rfl
@[simp] theorem stepCopyWrite_subs (a : Nat) (bs : Bytes) : (stepCopyWrite s a bs).subs = s.subs := rfl
@[simp] theorem stepCopyWrite_serv (a : Nat) (bs : Bytes) : (stepCopyWrite s a bs).serv = s.serv := rfl
@[simp] theorem stepCopyWrite_load (a : Nat) (bs : Bytes) : (stepCopyWrite s a bs).load = s.load := rfl
@[simp] theorem stepCopyWrite_mbox (a : Nat) (bs : Bytes) : (stepCopyWrite s a bs).mbox = s.mbox := rfl
@[simp] theorem stepCopyWrite_blot (a : Nat) (bs : Bytes) : (stepCopyWrite s a bs).blot = s.blot := rfl
@[simp] theorem stepCopyWrite_sec (a : Nat) (bs : Bytes) : (stepCopyWrite s a bs).sec = s.sec := rfl
@[simp] theorem stepCopyWrite_dbg (a : Nat) (bs : Bytes) : (stepCopyWrite s a bs).dbg = s.dbg := rfl
@[simp] theorem stepCopyWrite_host (a : Nat) (bs : Bytes) : (stepCopyWrite s a bs).host = s.host := rfl

/-! ### hostWrite -/

@[simp] theorem hostWrite_pending (a : Nat) (bs : Bytes) : (hostWrite s a bs).pending = s.pending := rfl
@[simp] theorem hostWrite_free (a : Nat) (bs : Bytes) : (hostWrite s a bs).free = s.free := rfl
@[simp] theorem hostWrite_boot (a : Nat) (bs : Bytes) : (hostWrite s a bs).boot = s.boot := rfl
@[simp] theorem hostWrite_flash (a : Nat) (bs : Bytes) : (hostWrite s a bs).flash = s.flash := rfl
@[simp] theorem hostWrite_regs (a : Nat) (bs : Bytes) : (hostWrite s a bs).regs = s.regs := rfl
@[simp] theorem hostWrite_mem (a : Nat) (bs : Bytes) : (hostWrite s a bs).mem = s.mem := rfl
@[simp] theorem hostWrite_overlay (a : Nat) (bs : Bytes) : (hostWrite s a bs).overlay = s.overlay := rfl
@[simp] theorem hostWrite_stackTbl (a : Nat) (bs : Bytes) : (hostWrite s a bs).stackTbl = s.stackTbl := rfl
@[simp] theorem hostWrite_ddrs (a : Nat) (bs : Bytes) : (hostWrite s a bs).ddrs = s.ddrs := rfl
@[simp] theorem hostWrite_sheets (a : Nat) (bs : Bytes) : (hostWrite s a bs).sheets = s.sheets := rfl
@[simp] theorem hostWrite_units (a : Nat) (bs : Bytes) : (hostWrite s a bs).units = s.units := rfl
@[simp] theorem hostWrite_scribes (a : Nat) (bs : Bytes) : (hostWrite s a bs).scribes = s.scribes := rfl
@[simp] theorem hostWrite_matrix (a : Nat) (bs : Bytes) : (hostWrite s a bs).matrix = s.matrix := rfl
@[simp] theorem hostWrite_vector (a : Nat) (bs : Bytes) : (hostWrite s a bs).vector = s.vector := rfl
@[simp] theorem hostWrite_xfer (a : Nat) (bs : Bytes) : (hostWrite s a bs).xfer = s.xfer := rfl
@[simp] theorem hostWrite_chans (a : Nat) (bs : Bytes) : (hostWrite s a bs).chans = s.chans := rfl
@[simp] theorem hostWrite_step (a : Nat) (bs : Bytes) : (hostWrite s a bs).step = s.step := rfl
@[simp] theorem hostWrite_launch (a : Nat) (bs : Bytes) : (hostWrite s a bs).launch = s.launch := rfl
@[simp] theorem hostWrite_time (a : Nat) (bs : Bytes) : (hostWrite s a bs).time = s.time := rfl
@[simp] theorem hostWrite_ptp (a : Nat) (bs : Bytes) : (hostWrite s a bs).ptp = s.ptp := rfl
@[simp] theorem hostWrite_ptpOut (a : Nat) (bs : Bytes) : (hostWrite s a bs).ptpOut = s.ptpOut := rfl
@[simp] theorem hostWrite_pace (a : Nat) (bs : Bytes) : (hostWrite s a bs).pace = s.pace := rfl
@[simp] theorem hostWrite_ports (a : Nat) (bs : Bytes) : (hostWrite s a bs).ports = s.ports := rfl
@[simp] theorem hostWrite_subs (a : Nat) (bs : Bytes) : (hostWrite s a bs).subs = s.subs := rfl
@[simp] theorem hostWrite_serv (a : Nat) (bs : Bytes) : (hostWrite s a bs).serv = s.serv := rfl
@[simp] theorem hostWrite_load (a : Nat) (bs : Bytes) : (hostWrite s a bs).load = s.load := rfl
@[simp] theorem hostWrite_mbox (a : Nat) (bs : Bytes) : (hostWrite s a bs).mbox = s.mbox := rfl
@[simp] theorem hostWrite_blot (a : Nat) (bs : Bytes) : (hostWrite s a bs).blot = s.blot := rfl
@[simp] theorem hostWrite_sec (a : Nat) (bs : Bytes) : (hostWrite s a bs).sec = s.sec := rfl
@[simp] theorem hostWrite_dbg (a : Nat) (bs : Bytes) : (hostWrite s a bs).dbg = s.dbg := rfl
@[simp] theorem hostWrite_host (a : Nat) (bs : Bytes) : (hostWrite s a bs).host = writeRun 0 s.host a bs := rfl

/-! ### putReg -/

@[simp] theorem putReg_pending (o : Nat) (v : BitVec 256) : (putReg s o v).pending = s.pending := rfl
@[simp] theorem putReg_free (o : Nat) (v : BitVec 256) : (putReg s o v).free = s.free := rfl
@[simp] theorem putReg_boot (o : Nat) (v : BitVec 256) : (putReg s o v).boot = s.boot := rfl
@[simp] theorem putReg_flash (o : Nat) (v : BitVec 256) : (putReg s o v).flash = s.flash := rfl
@[simp] theorem putReg_regs (o : Nat) (v : BitVec 256) : (putReg s o v).regs = tset (regReset o) s.regs o v := rfl
@[simp] theorem putReg_mem (o : Nat) (v : BitVec 256) : (putReg s o v).mem = s.mem := rfl
@[simp] theorem putReg_overlay (o : Nat) (v : BitVec 256) : (putReg s o v).overlay = s.overlay := rfl
@[simp] theorem putReg_stackTbl (o : Nat) (v : BitVec 256) : (putReg s o v).stackTbl = s.stackTbl := rfl
@[simp] theorem putReg_ddrs (o : Nat) (v : BitVec 256) : (putReg s o v).ddrs = s.ddrs := rfl
@[simp] theorem putReg_sheets (o : Nat) (v : BitVec 256) : (putReg s o v).sheets = s.sheets := rfl
@[simp] theorem putReg_units (o : Nat) (v : BitVec 256) : (putReg s o v).units = s.units := rfl
@[simp] theorem putReg_scribes (o : Nat) (v : BitVec 256) : (putReg s o v).scribes = s.scribes := rfl
@[simp] theorem putReg_matrix (o : Nat) (v : BitVec 256) : (putReg s o v).matrix = s.matrix := rfl
@[simp] theorem putReg_vector (o : Nat) (v : BitVec 256) : (putReg s o v).vector = s.vector := rfl
@[simp] theorem putReg_xfer (o : Nat) (v : BitVec 256) : (putReg s o v).xfer = s.xfer := rfl
@[simp] theorem putReg_chans (o : Nat) (v : BitVec 256) : (putReg s o v).chans = s.chans := rfl
@[simp] theorem putReg_step (o : Nat) (v : BitVec 256) : (putReg s o v).step = s.step := rfl
@[simp] theorem putReg_launch (o : Nat) (v : BitVec 256) : (putReg s o v).launch = s.launch := rfl
@[simp] theorem putReg_time (o : Nat) (v : BitVec 256) : (putReg s o v).time = s.time := rfl
@[simp] theorem putReg_ptp (o : Nat) (v : BitVec 256) : (putReg s o v).ptp = s.ptp := rfl
@[simp] theorem putReg_ptpOut (o : Nat) (v : BitVec 256) : (putReg s o v).ptpOut = s.ptpOut := rfl
@[simp] theorem putReg_pace (o : Nat) (v : BitVec 256) : (putReg s o v).pace = s.pace := rfl
@[simp] theorem putReg_ports (o : Nat) (v : BitVec 256) : (putReg s o v).ports = s.ports := rfl
@[simp] theorem putReg_subs (o : Nat) (v : BitVec 256) : (putReg s o v).subs = s.subs := rfl
@[simp] theorem putReg_serv (o : Nat) (v : BitVec 256) : (putReg s o v).serv = s.serv := rfl
@[simp] theorem putReg_load (o : Nat) (v : BitVec 256) : (putReg s o v).load = s.load := rfl
@[simp] theorem putReg_mbox (o : Nat) (v : BitVec 256) : (putReg s o v).mbox = s.mbox := rfl
@[simp] theorem putReg_blot (o : Nat) (v : BitVec 256) : (putReg s o v).blot = s.blot := rfl
@[simp] theorem putReg_sec (o : Nat) (v : BitVec 256) : (putReg s o v).sec = s.sec := rfl
@[simp] theorem putReg_dbg (o : Nat) (v : BitVec 256) : (putReg s o v).dbg = s.dbg := rfl
@[simp] theorem putReg_host (o : Nat) (v : BitVec 256) : (putReg s o v).host = s.host := rfl

/-! ### setMatrix -/

@[simp] theorem setMatrix_pending (k : Nat) (m : MatrixSt) : (setMatrix s k m).pending = s.pending := rfl
@[simp] theorem setMatrix_free (k : Nat) (m : MatrixSt) : (setMatrix s k m).free = s.free := rfl
@[simp] theorem setMatrix_boot (k : Nat) (m : MatrixSt) : (setMatrix s k m).boot = s.boot := rfl
@[simp] theorem setMatrix_flash (k : Nat) (m : MatrixSt) : (setMatrix s k m).flash = s.flash := rfl
@[simp] theorem setMatrix_regs (k : Nat) (m : MatrixSt) : (setMatrix s k m).regs = s.regs := rfl
@[simp] theorem setMatrix_mem (k : Nat) (m : MatrixSt) : (setMatrix s k m).mem = s.mem := rfl
@[simp] theorem setMatrix_overlay (k : Nat) (m : MatrixSt) : (setMatrix s k m).overlay = s.overlay := rfl
@[simp] theorem setMatrix_stackTbl (k : Nat) (m : MatrixSt) : (setMatrix s k m).stackTbl = s.stackTbl := rfl
@[simp] theorem setMatrix_ddrs (k : Nat) (m : MatrixSt) : (setMatrix s k m).ddrs = s.ddrs := rfl
@[simp] theorem setMatrix_sheets (k : Nat) (m : MatrixSt) : (setMatrix s k m).sheets = s.sheets := rfl
@[simp] theorem setMatrix_units (k : Nat) (m : MatrixSt) : (setMatrix s k m).units = s.units := rfl
@[simp] theorem setMatrix_scribes (k : Nat) (m : MatrixSt) : (setMatrix s k m).scribes = s.scribes := rfl
@[simp] theorem setMatrix_matrix (k : Nat) (m : MatrixSt) : (setMatrix s k m).matrix = tset {} s.matrix k m := rfl
@[simp] theorem setMatrix_vector (k : Nat) (m : MatrixSt) : (setMatrix s k m).vector = s.vector := rfl
@[simp] theorem setMatrix_xfer (k : Nat) (m : MatrixSt) : (setMatrix s k m).xfer = s.xfer := rfl
@[simp] theorem setMatrix_chans (k : Nat) (m : MatrixSt) : (setMatrix s k m).chans = s.chans := rfl
@[simp] theorem setMatrix_step (k : Nat) (m : MatrixSt) : (setMatrix s k m).step = s.step := rfl
@[simp] theorem setMatrix_launch (k : Nat) (m : MatrixSt) : (setMatrix s k m).launch = s.launch := rfl
@[simp] theorem setMatrix_time (k : Nat) (m : MatrixSt) : (setMatrix s k m).time = s.time := rfl
@[simp] theorem setMatrix_ptp (k : Nat) (m : MatrixSt) : (setMatrix s k m).ptp = s.ptp := rfl
@[simp] theorem setMatrix_ptpOut (k : Nat) (m : MatrixSt) : (setMatrix s k m).ptpOut = s.ptpOut := rfl
@[simp] theorem setMatrix_pace (k : Nat) (m : MatrixSt) : (setMatrix s k m).pace = s.pace := rfl
@[simp] theorem setMatrix_ports (k : Nat) (m : MatrixSt) : (setMatrix s k m).ports = s.ports := rfl
@[simp] theorem setMatrix_subs (k : Nat) (m : MatrixSt) : (setMatrix s k m).subs = s.subs := rfl
@[simp] theorem setMatrix_serv (k : Nat) (m : MatrixSt) : (setMatrix s k m).serv = s.serv := rfl
@[simp] theorem setMatrix_load (k : Nat) (m : MatrixSt) : (setMatrix s k m).load = s.load := rfl
@[simp] theorem setMatrix_mbox (k : Nat) (m : MatrixSt) : (setMatrix s k m).mbox = s.mbox := rfl
@[simp] theorem setMatrix_blot (k : Nat) (m : MatrixSt) : (setMatrix s k m).blot = s.blot := rfl
@[simp] theorem setMatrix_sec (k : Nat) (m : MatrixSt) : (setMatrix s k m).sec = s.sec := rfl
@[simp] theorem setMatrix_dbg (k : Nat) (m : MatrixSt) : (setMatrix s k m).dbg = s.dbg := rfl
@[simp] theorem setMatrix_host (k : Nat) (m : MatrixSt) : (setMatrix s k m).host = s.host := rfl

/-! ### setVector -/

@[simp] theorem setVector_pending (k : Nat) (v : VectorSt) : (setVector s k v).pending = s.pending := rfl
@[simp] theorem setVector_free (k : Nat) (v : VectorSt) : (setVector s k v).free = s.free := rfl
@[simp] theorem setVector_boot (k : Nat) (v : VectorSt) : (setVector s k v).boot = s.boot := rfl
@[simp] theorem setVector_flash (k : Nat) (v : VectorSt) : (setVector s k v).flash = s.flash := rfl
@[simp] theorem setVector_regs (k : Nat) (v : VectorSt) : (setVector s k v).regs = s.regs := rfl
@[simp] theorem setVector_mem (k : Nat) (v : VectorSt) : (setVector s k v).mem = s.mem := rfl
@[simp] theorem setVector_overlay (k : Nat) (v : VectorSt) : (setVector s k v).overlay = s.overlay := rfl
@[simp] theorem setVector_stackTbl (k : Nat) (v : VectorSt) : (setVector s k v).stackTbl = s.stackTbl := rfl
@[simp] theorem setVector_ddrs (k : Nat) (v : VectorSt) : (setVector s k v).ddrs = s.ddrs := rfl
@[simp] theorem setVector_sheets (k : Nat) (v : VectorSt) : (setVector s k v).sheets = s.sheets := rfl
@[simp] theorem setVector_units (k : Nat) (v : VectorSt) : (setVector s k v).units = s.units := rfl
@[simp] theorem setVector_scribes (k : Nat) (v : VectorSt) : (setVector s k v).scribes = s.scribes := rfl
@[simp] theorem setVector_matrix (k : Nat) (v : VectorSt) : (setVector s k v).matrix = s.matrix := rfl
@[simp] theorem setVector_vector (k : Nat) (v : VectorSt) : (setVector s k v).vector = tset {} s.vector k v := rfl
@[simp] theorem setVector_xfer (k : Nat) (v : VectorSt) : (setVector s k v).xfer = s.xfer := rfl
@[simp] theorem setVector_chans (k : Nat) (v : VectorSt) : (setVector s k v).chans = s.chans := rfl
@[simp] theorem setVector_step (k : Nat) (v : VectorSt) : (setVector s k v).step = s.step := rfl
@[simp] theorem setVector_launch (k : Nat) (v : VectorSt) : (setVector s k v).launch = s.launch := rfl
@[simp] theorem setVector_time (k : Nat) (v : VectorSt) : (setVector s k v).time = s.time := rfl
@[simp] theorem setVector_ptp (k : Nat) (v : VectorSt) : (setVector s k v).ptp = s.ptp := rfl
@[simp] theorem setVector_ptpOut (k : Nat) (v : VectorSt) : (setVector s k v).ptpOut = s.ptpOut := rfl
@[simp] theorem setVector_pace (k : Nat) (v : VectorSt) : (setVector s k v).pace = s.pace := rfl
@[simp] theorem setVector_ports (k : Nat) (v : VectorSt) : (setVector s k v).ports = s.ports := rfl
@[simp] theorem setVector_subs (k : Nat) (v : VectorSt) : (setVector s k v).subs = s.subs := rfl
@[simp] theorem setVector_serv (k : Nat) (v : VectorSt) : (setVector s k v).serv = s.serv := rfl
@[simp] theorem setVector_load (k : Nat) (v : VectorSt) : (setVector s k v).load = s.load := rfl
@[simp] theorem setVector_mbox (k : Nat) (v : VectorSt) : (setVector s k v).mbox = s.mbox := rfl
@[simp] theorem setVector_blot (k : Nat) (v : VectorSt) : (setVector s k v).blot = s.blot := rfl
@[simp] theorem setVector_sec (k : Nat) (v : VectorSt) : (setVector s k v).sec = s.sec := rfl
@[simp] theorem setVector_dbg (k : Nat) (v : VectorSt) : (setVector s k v).dbg = s.dbg := rfl
@[simp] theorem setVector_host (k : Nat) (v : VectorSt) : (setVector s k v).host = s.host := rfl

/-! ### setXfer -/

@[simp] theorem setXfer_pending (k : Nat) (x : XferSt) : (setXfer s k x).pending = s.pending := rfl
@[simp] theorem setXfer_free (k : Nat) (x : XferSt) : (setXfer s k x).free = s.free := rfl
@[simp] theorem setXfer_boot (k : Nat) (x : XferSt) : (setXfer s k x).boot = s.boot := rfl
@[simp] theorem setXfer_flash (k : Nat) (x : XferSt) : (setXfer s k x).flash = s.flash := rfl
@[simp] theorem setXfer_regs (k : Nat) (x : XferSt) : (setXfer s k x).regs = s.regs := rfl
@[simp] theorem setXfer_mem (k : Nat) (x : XferSt) : (setXfer s k x).mem = s.mem := rfl
@[simp] theorem setXfer_overlay (k : Nat) (x : XferSt) : (setXfer s k x).overlay = s.overlay := rfl
@[simp] theorem setXfer_stackTbl (k : Nat) (x : XferSt) : (setXfer s k x).stackTbl = s.stackTbl := rfl
@[simp] theorem setXfer_ddrs (k : Nat) (x : XferSt) : (setXfer s k x).ddrs = s.ddrs := rfl
@[simp] theorem setXfer_sheets (k : Nat) (x : XferSt) : (setXfer s k x).sheets = s.sheets := rfl
@[simp] theorem setXfer_units (k : Nat) (x : XferSt) : (setXfer s k x).units = s.units := rfl
@[simp] theorem setXfer_scribes (k : Nat) (x : XferSt) : (setXfer s k x).scribes = s.scribes := rfl
@[simp] theorem setXfer_matrix (k : Nat) (x : XferSt) : (setXfer s k x).matrix = s.matrix := rfl
@[simp] theorem setXfer_vector (k : Nat) (x : XferSt) : (setXfer s k x).vector = s.vector := rfl
@[simp] theorem setXfer_xfer (k : Nat) (x : XferSt) : (setXfer s k x).xfer = tset {} s.xfer k x := rfl
@[simp] theorem setXfer_chans (k : Nat) (x : XferSt) : (setXfer s k x).chans = s.chans := rfl
@[simp] theorem setXfer_step (k : Nat) (x : XferSt) : (setXfer s k x).step = s.step := rfl
@[simp] theorem setXfer_launch (k : Nat) (x : XferSt) : (setXfer s k x).launch = s.launch := rfl
@[simp] theorem setXfer_time (k : Nat) (x : XferSt) : (setXfer s k x).time = s.time := rfl
@[simp] theorem setXfer_ptp (k : Nat) (x : XferSt) : (setXfer s k x).ptp = s.ptp := rfl
@[simp] theorem setXfer_ptpOut (k : Nat) (x : XferSt) : (setXfer s k x).ptpOut = s.ptpOut := rfl
@[simp] theorem setXfer_pace (k : Nat) (x : XferSt) : (setXfer s k x).pace = s.pace := rfl
@[simp] theorem setXfer_ports (k : Nat) (x : XferSt) : (setXfer s k x).ports = s.ports := rfl
@[simp] theorem setXfer_subs (k : Nat) (x : XferSt) : (setXfer s k x).subs = s.subs := rfl
@[simp] theorem setXfer_serv (k : Nat) (x : XferSt) : (setXfer s k x).serv = s.serv := rfl
@[simp] theorem setXfer_load (k : Nat) (x : XferSt) : (setXfer s k x).load = s.load := rfl
@[simp] theorem setXfer_mbox (k : Nat) (x : XferSt) : (setXfer s k x).mbox = s.mbox := rfl
@[simp] theorem setXfer_blot (k : Nat) (x : XferSt) : (setXfer s k x).blot = s.blot := rfl
@[simp] theorem setXfer_sec (k : Nat) (x : XferSt) : (setXfer s k x).sec = s.sec := rfl
@[simp] theorem setXfer_dbg (k : Nat) (x : XferSt) : (setXfer s k x).dbg = s.dbg := rfl
@[simp] theorem setXfer_host (k : Nat) (x : XferSt) : (setXfer s k x).host = s.host := rfl

/-! ### setScribe -/

@[simp] theorem setScribe_pending (c : Nat) (x : ScribeSt) : (setScribe s c x).pending = s.pending := rfl
@[simp] theorem setScribe_free (c : Nat) (x : ScribeSt) : (setScribe s c x).free = s.free := rfl
@[simp] theorem setScribe_boot (c : Nat) (x : ScribeSt) : (setScribe s c x).boot = s.boot := rfl
@[simp] theorem setScribe_flash (c : Nat) (x : ScribeSt) : (setScribe s c x).flash = s.flash := rfl
@[simp] theorem setScribe_regs (c : Nat) (x : ScribeSt) : (setScribe s c x).regs = s.regs := rfl
@[simp] theorem setScribe_mem (c : Nat) (x : ScribeSt) : (setScribe s c x).mem = s.mem := rfl
@[simp] theorem setScribe_overlay (c : Nat) (x : ScribeSt) : (setScribe s c x).overlay = s.overlay := rfl
@[simp] theorem setScribe_stackTbl (c : Nat) (x : ScribeSt) : (setScribe s c x).stackTbl = s.stackTbl := rfl
@[simp] theorem setScribe_ddrs (c : Nat) (x : ScribeSt) : (setScribe s c x).ddrs = s.ddrs := rfl
@[simp] theorem setScribe_sheets (c : Nat) (x : ScribeSt) : (setScribe s c x).sheets = s.sheets := rfl
@[simp] theorem setScribe_units (c : Nat) (x : ScribeSt) : (setScribe s c x).units = s.units := rfl
@[simp] theorem setScribe_scribes (c : Nat) (x : ScribeSt) : (setScribe s c x).scribes = tset {} s.scribes c x := rfl
@[simp] theorem setScribe_matrix (c : Nat) (x : ScribeSt) : (setScribe s c x).matrix = s.matrix := rfl
@[simp] theorem setScribe_vector (c : Nat) (x : ScribeSt) : (setScribe s c x).vector = s.vector := rfl
@[simp] theorem setScribe_xfer (c : Nat) (x : ScribeSt) : (setScribe s c x).xfer = s.xfer := rfl
@[simp] theorem setScribe_chans (c : Nat) (x : ScribeSt) : (setScribe s c x).chans = s.chans := rfl
@[simp] theorem setScribe_step (c : Nat) (x : ScribeSt) : (setScribe s c x).step = s.step := rfl
@[simp] theorem setScribe_launch (c : Nat) (x : ScribeSt) : (setScribe s c x).launch = s.launch := rfl
@[simp] theorem setScribe_time (c : Nat) (x : ScribeSt) : (setScribe s c x).time = s.time := rfl
@[simp] theorem setScribe_ptp (c : Nat) (x : ScribeSt) : (setScribe s c x).ptp = s.ptp := rfl
@[simp] theorem setScribe_ptpOut (c : Nat) (x : ScribeSt) : (setScribe s c x).ptpOut = s.ptpOut := rfl
@[simp] theorem setScribe_pace (c : Nat) (x : ScribeSt) : (setScribe s c x).pace = s.pace := rfl
@[simp] theorem setScribe_ports (c : Nat) (x : ScribeSt) : (setScribe s c x).ports = s.ports := rfl
@[simp] theorem setScribe_subs (c : Nat) (x : ScribeSt) : (setScribe s c x).subs = s.subs := rfl
@[simp] theorem setScribe_serv (c : Nat) (x : ScribeSt) : (setScribe s c x).serv = s.serv := rfl
@[simp] theorem setScribe_load (c : Nat) (x : ScribeSt) : (setScribe s c x).load = s.load := rfl
@[simp] theorem setScribe_mbox (c : Nat) (x : ScribeSt) : (setScribe s c x).mbox = s.mbox := rfl
@[simp] theorem setScribe_blot (c : Nat) (x : ScribeSt) : (setScribe s c x).blot = s.blot := rfl
@[simp] theorem setScribe_sec (c : Nat) (x : ScribeSt) : (setScribe s c x).sec = s.sec := rfl
@[simp] theorem setScribe_dbg (c : Nat) (x : ScribeSt) : (setScribe s c x).dbg = s.dbg := rfl
@[simp] theorem setScribe_host (c : Nat) (x : ScribeSt) : (setScribe s c x).host = s.host := rfl

end Sys2Proof.Machine
end

