-- ==== Sys2Proof/Laws/Table.lean ====
section
/-! SUPPORT. Laws of sparse tables: what a read gives after a write, and that every write keeps the canonical form. -/

namespace Sys2Proof.Machine

variable {α : Type}

/-! ### Reads after writes -/

theorem tget_tput_self (d : α) (t : Tbl α) (i : Nat) (v : α) : tget d (tput t i v) i = v := by
  induction t with
  | nil => simp [tput, tget]
  | cons e t ih =>
    obtain ⟨k, w⟩ := e
    simp only [tput]
    split
    · simp [tget]
    · split
      · simp [tget]
      · simp [tget, *]

theorem tget_tput_ne (d : α) (t : Tbl α) (i i' : Nat) (v : α) (h : i' ≠ i) : tget d (tput t i v) i' = tget d t i' := by
  induction t with
  | nil => simp [tput, tget, Ne.symm h]
  | cons e t ih =>
    obtain ⟨k, w⟩ := e
    simp only [tput]
    split
    · next hk => subst hk; simp [tget, Ne.symm h]
    · split
      · next hk hi =>
        simp only [tget, if_neg (Ne.symm h)]
        split
        · have : k ≠ i' := by omega
          have : i' < k := by omega
          simp [*]
        · rfl
      · simp only [tget, ih]

/-- Keys from `lo` on: nothing is listed below. -/
theorem tget_below (d : α) (t : Tbl α) (lo i : Nat) (h : keysRise lo t = true) (hi : i < lo) : tget d t i = d := by
  cases t with
  | nil => rfl
  | cons e t =>
    obtain ⟨k, w⟩ := e
    simp only [keysRise, Bool.and_eq_true, decide_eq_true_eq] at h
    simp only [tget]
    rw [if_neg (by omega), if_pos (by omega)]

theorem tget_tdel_self (d : α) (t : Tbl α) (lo i : Nat) (h : keysRise lo t = true) : tget d (tdel t i) i = d := by
  induction t generalizing lo with
  | nil => rfl
  | cons e t ih =>
    obtain ⟨k, w⟩ := e
    have h' := h
    simp only [keysRise, Bool.and_eq_true, decide_eq_true_eq] at h
    simp only [tdel]
    split
    · next hk => exact tget_below d t (k + 1) i h.2 (by omega)
    · split
      · next hk hi => simp [tget, hk, hi]
      · next hk hi => simp only [tget, if_neg hk, if_neg hi]; exact ih (k + 1) h.2

theorem tget_tdel_ne (d : α) (t : Tbl α) (lo i i' : Nat) (h : keysRise lo t = true) (hne : i' ≠ i) :
    tget d (tdel t i) i' = tget d t i' := by
  induction t generalizing lo with
  | nil => rfl
  | cons e t ih =>
    obtain ⟨k, w⟩ := e
    have h' := h
    simp only [keysRise, Bool.and_eq_true, decide_eq_true_eq] at h
    simp only [tdel]
    split
    · next hk =>
      simp only [tget]
      rw [if_neg (by omega)]
      split
      · next hlt => exact tget_below d t (k + 1) i' h.2 (by omega)
      · rfl
    · split
      · rfl
      · simp only [tget, ih (k + 1) h.2]

variable [DecidableEq α]

/-- A read of the key that was set. -/
theorem tget_tset_self (d : α) (t : Tbl α) (i : Nat) (v : α) (h : keysRise 0 t = true) : tget d (tset d t i v) i = v := by
  unfold tset
  split
  · next hv => rw [tget_tdel_self d t 0 i h, hv]
  · exact tget_tput_self d t i v

/-- A read of any other key. -/
theorem tget_tset_ne (d : α) (t : Tbl α) (i i' : Nat) (v : α) (h : keysRise 0 t = true) (hne : i' ≠ i) :
    tget d (tset d t i v) i' = tget d t i' := by
  unfold tset
  split
  · exact tget_tdel_ne d t 0 i i' h hne
  · exact tget_tput_ne d t i i' v hne

/-- A read after a set of a value that is not the default needs no order of the keys. -/
theorem tget_tset_of_ne (d : α) (t : Tbl α) (i : Nat) (v : α) (hv : v ≠ d) : tget d (tset d t i v) i = v := by
  simp [tset, hv, tget_tput_self]

/-! ### The canonical form -/

theorem tget_tset_ne_of_ne (d : α) (t : Tbl α) (i i' : Nat) (v : α) (hv : v ≠ d) (hne : i' ≠ i) : tget d (tset d t i v) i' = tget d t i' := by
  unfold tset
  rw [if_neg hv]
  exact tget_tput_ne d t i i' v hne

omit [DecidableEq α] in
theorem keysRise_mono (t : Tbl α) (lo lo' : Nat) (h : keysRise lo t = true) (hl : lo' ≤ lo) : keysRise lo' t = true := by
  cases t with
  | nil => rfl
  | cons e t =>
    obtain ⟨k, w⟩ := e
    simp only [keysRise, Bool.and_eq_true, decide_eq_true_eq] at h ⊢
    exact ⟨by omega, h.2⟩

omit [DecidableEq α] in
theorem keysRise_tput (t : Tbl α) (lo i : Nat) (v : α) (h : keysRise lo t = true) (hi : lo ≤ i) :
    keysRise lo (tput t i v) = true := by
  induction t generalizing lo with
  | nil => simp [tput, keysRise, hi]
  | cons e t ih =>
    obtain ⟨k, w⟩ := e
    simp only [keysRise, Bool.and_eq_true, decide_eq_true_eq] at h
    simp only [tput]
    split
    · next hk => subst hk; simp only [keysRise, Bool.and_eq_true, decide_eq_true_eq]; exact h
    · split
      · next hk hlt =>
        simp only [keysRise, Bool.and_eq_true, decide_eq_true_eq]
        exact ⟨hi, by omega, h.2⟩
      · next hk hlt =>
        simp only [keysRise, Bool.and_eq_true, decide_eq_true_eq]
        exact ⟨h.1, ih (k + 1) h.2 (by omega)⟩

omit [DecidableEq α] in
theorem keysRise_tdel (t : Tbl α) (lo i : Nat) (h : keysRise lo t = true) : keysRise lo (tdel t i) = true := by
  induction t generalizing lo with
  | nil => rfl
  | cons e t ih =>
    obtain ⟨k, w⟩ := e
    have h' := h
    simp only [keysRise, Bool.and_eq_true, decide_eq_true_eq] at h
    simp only [tdel]
    split
    · exact keysRise_mono t (k + 1) lo h.2 (by omega)
    · split
      · exact h'
      · simp only [keysRise, Bool.and_eq_true, decide_eq_true_eq]
        exact ⟨h.1, ih (k + 1) h.2⟩

theorem keysRise_tset (d : α) (t : Tbl α) (i : Nat) (v : α) (h : keysRise 0 t = true) : keysRise 0 (tset d t i v) = true := by
  unfold tset
  split
  · exact keysRise_tdel t 0 i h
  · exact keysRise_tput t 0 i v h (Nat.zero_le i)

omit [DecidableEq α] in
theorem all_tdel (p : Nat × α → Bool) (t : Tbl α) (i : Nat) (h : t.all p = true) : (tdel t i).all p = true := by
  induction t with
  | nil => rfl
  | cons e t ih =>
    obtain ⟨k, w⟩ := e
    simp only [List.all_cons, Bool.and_eq_true] at h
    simp only [tdel]
    split
    · exact h.2
    · split
      · simp [h.1, h.2]
      · simp [h.1, ih h.2]

omit [DecidableEq α] in
theorem all_tput (p : Nat × α → Bool) (t : Tbl α) (i : Nat) (v : α) (h : t.all p = true) (hv : p (i, v) = true) :
    (tput t i v).all p = true := by
  induction t with
  | nil => simp [tput, hv]
  | cons e t ih =>
    obtain ⟨k, w⟩ := e
    simp only [List.all_cons, Bool.and_eq_true] at h
    simp only [tput]
    split
    · simp [hv, h.2]
    · split
      · simp [hv, h.1, h.2]
      · simp [h.1, ih h.2]

/-- Setting a key keeps the canonical form. -/
theorem twf_tset (d : α) (t : Tbl α) (i : Nat) (v : α) (h : twf d t = true) : twf d (tset d t i v) = true := by
  simp only [twf, Bool.and_eq_true] at h ⊢
  refine ⟨keysRise_tset d t i v h.1, ?_⟩
  unfold tset
  split
  · exact all_tdel _ t i h.2
  · next hv => exact all_tput _ t i v h.2 (by simpa using hv)

theorem twf_tmod (d : α) (t : Tbl α) (i : Nat) (f : α → α) (h : twf d t = true) : twf d (tmod d t i f) = true :=
  twf_tset d t i _ h

omit [DecidableEq α] in
theorem keysRise_filter (p : Nat × α → Bool) (t : Tbl α) (lo : Nat) (h : keysRise lo t = true) :
    keysRise lo (t.filter p) = true := by
  induction t generalizing lo with
  | nil => rfl
  | cons e t ih =>
    obtain ⟨k, w⟩ := e
    simp only [keysRise, Bool.and_eq_true, decide_eq_true_eq] at h
    simp only [List.filter_cons]
    split
    · simp only [keysRise, Bool.and_eq_true, decide_eq_true_eq]
      exact ⟨h.1, ih (k + 1) h.2⟩
    · exact keysRise_mono _ (k + 1) lo (ih (k + 1) h.2) (by omega)

/-- Dropping entries keeps the canonical form. -/
theorem twf_filter (d : α) (p : Nat × α → Bool) (t : Tbl α) (h : twf d t = true) : twf d (t.filter p) = true := by
  simp only [twf, Bool.and_eq_true] at h ⊢
  refine ⟨keysRise_filter p t 0 h.1, ?_⟩
  simp only [List.all_eq_true, List.mem_filter] at h ⊢
  exact fun x hx => h.2 x hx.1

omit [DecidableEq α] in
/-- Mapping entries to entries of the same key, or to none, keeps the keys rising. -/
theorem keysRise_filterMap {β : Type} (f : Nat × α → Option (Nat × β)) (hf : ∀ e e', f e = some e' → e'.1 = e.1) (t : Tbl α) (lo : Nat)
    (h : keysRise lo t = true) : keysRise lo (t.filterMap f) = true := by
  induction t generalizing lo with
  | nil => rfl
  | cons e t ih =>
    obtain ⟨k, w⟩ := e
    simp only [keysRise, Bool.and_eq_true, decide_eq_true_eq] at h
    simp only [List.filterMap_cons]
    split
    · exact keysRise_mono _ (k + 1) lo (ih (k + 1) h.2) (by omega)
    · next e' he =>
      obtain ⟨k', w'⟩ := e'
      have : k' = k := hf _ _ he
      subst this
      simp only [keysRise, Bool.and_eq_true, decide_eq_true_eq]
      exact ⟨h.1, ih (k' + 1) h.2⟩

/-! ### Runs of bytes -/

/-- A byte read after a run is written: the run's byte inside it, the old byte outside. -/
theorem tget_writeRun (d : Byte) (bs : Bytes) : ∀ (t : Tbl Byte) (a x : Nat), keysRise 0 t = true →
    tget d (writeRun d t a bs) x = if a ≤ x ∧ x < a + bs.length then bs.getD (x - a) 0 else tget d t x := by
  induction bs with
  | nil => intro t a x _; simp [writeRun]
  | cons b bs ih =>
    intro t a x h
    have hk := keysRise_tset d t a b h
    rw [writeRun, ih _ _ _ hk]
    by_cases hx : x = a
    · subst hx; simp [tget_tset_self d t x b h]
    · rw [tget_tset_ne d t a x b h hx]
      by_cases h1 : a + 1 ≤ x ∧ x < a + 1 + bs.length
      · have h2 : a ≤ x ∧ x < a + (b :: bs).length := by simp; omega
        rw [if_pos h1, if_pos h2, show x - a = (x - (a + 1)) + 1 by omega]; simp
      · have h2 : ¬(a ≤ x ∧ x < a + (b :: bs).length) := by simp; omega
        rw [if_neg h1, if_neg h2]


theorem twf_writeRun (d : Byte) (bs : Bytes) : ∀ (t : Tbl Byte) (a : Nat), twf d t = true → twf d (writeRun d t a bs) = true := by
  induction bs with
  | nil => intro t a h; exact h
  | cons b bs ih => intro t a h; exact ih _ _ (twf_tset d t a b h)

theorem twf_clearRun (d : Byte) (t : Tbl Byte) (a n : Nat) (h : twf d t = true) : twf d (clearRun t a n) = true :=
  twf_filter d _ t h

theorem twf_overlayRun (bs : Bytes) :
    ∀ (t : Tbl (Option Byte)) (a : Nat), twf none t = true → twf none (overlayRun t a bs) = true := by
  induction bs with
  | nil => intro t a h; exact h
  | cons b bs ih => intro t a h; exact ih _ _ (twf_tset none t a (some b) h)

theorem twf_overlayMerge (o : Tbl (Option Byte)) : ∀ (m : Tbl Byte), twf 0 m = true → twf 0 (overlayMerge m o) = true := by
  induction o with
  | nil => intro m h; exact h
  | cons e o ih =>
    intro m h
    obtain ⟨a, b⟩ := e
    cases b with
    | none => exact ih m h
    | some b => exact ih _ (twf_tset 0 m a b h)

end Sys2Proof.Machine
end

