-- ==== Sys2Proof/Laws/Engine.lean ====
section
/-! SUPPORT. Units and tiles: what a unit's record reads after a write, and what a command that nothing stops does (R46, R50, R62). -/

namespace Sys2Proof.Machine

/-! ### Units -/

theorem getUnit_setUnit (s : State) (k : Nat) (u : UnitSt) (h : u ≠ {}) : getUnit (setUnit s k u) k = u :=
  tget_tset_of_ne _ s.units k u h

theorem getUnit_setUnit_ne (s : State) (k k' : Nat) (u : UnitSt) (h : keysRise 0 s.units = true) (hk : k' ≠ k) :
    getUnit (setUnit s k u) k' = getUnit s k' :=
  tget_tset_ne _ s.units k k' u h hk

/-- The unit's record once its command is taken. -/
theorem getUnit_issued (s : State) (c : BitVec 6) (j : BitVec 5) :
    getUnit (issued s c j) (tileKey c.toNat j.toNat) =
      { getUnit s (tileKey c.toNat j.toNat) with
        queue := (getUnit s (tileKey c.toNat j.toNat)).queue.tail
        issued := (getUnit s (tileKey c.toNat j.toNat)).issued + 1
        waiting := none, stepped := 0, passBp := false } := by
  apply getUnit_setUnit
  intro h
  have := congrArg UnitSt.issued h
  simp at this

/-- A breakpoint or a halt stops the issued command where it stops the unit that comes to it. -/
theorem stopAt_issued (s : State) (c : BitVec 6) (j : BitVec 5) (n : Nat)
    (h : stopAt s (tileKey c.toNat j.toNat) { getUnit s (tileKey c.toNat j.toNat) with stepped := 0, waiting := none } n = n) :
    stopAt (issued s c j) (tileKey c.toNat j.toNat) (getUnit (issued s c j) (tileKey c.toNat j.toNat)) n = n := by
  rw [getUnit_issued]
  exact h

/-! ### Gathering inputs -/

theorem gather_nil (s : State) (got : List (Nat × List Drop)) : gather s [] got = (s, [], none) := rfl

/-- One channel that holds enough drops gives them all. -/
theorem gather_one (s : State) (ch n : Nat) (h : n ≤ (getChan s ch).length) :
    gather s [(ch, n)] [] = ((takeDrops s ch n).2, [(ch, (takeDrops s ch n).1)], none) := by
  simp [gather, takeDrops, h]

@[simp] theorem noteTaken_sheets (s : State) (ch n : Nat) : (noteTaken s ch n).sheets = s.sheets := by
  unfold noteTaken
  split
  · rfl
  · split <;> rfl

@[simp] theorem takeDrops_sheets (s : State) (ch n : Nat) : (takeDrops s ch n).2.sheets = s.sheets := by
  simp [takeDrops]

/-- Channels are bound by the live sheet alone. -/
theorem inChan_of_sheets (s s' : State) (h : s'.sheets = s.sheets) (c tile p : Nat) : inChan s' c tile p = inChan s c tile p := by
  simp [inChan, liveChans, h]

/-- Gathering the inputs that source locations ask for is draining their channels, where the drops are there. -/
theorem gather_drain (c : BitVec 6) (j : BitVec 5) (s0 : State) (ls : List (LocRef × Nat)) : ∀ (s : State), s.sheets = s0.sheets →
    fed s c j ls →
    (gather s (onInputs s0 c.toNat j.toNat (ls.flatMap fun l => srcPorts l.1 l.2)) []).1 = (drain s c j ls).1 ∧
    (gather s (onInputs s0 c.toNat j.toNat (ls.flatMap fun l => srcPorts l.1 l.2)) []).2.1.map Prod.snd = (drain s c j ls).2 ∧
    (gather s (onInputs s0 c.toNat j.toNat (ls.flatMap fun l => srcPorts l.1 l.2)) []).2.2 = none := by
  induction ls with
  | nil => intro s _ _; exact ⟨rfl, rfl, rfl⟩
  | cons l ls ih =>
    intro s hs hf
    obtain ⟨loc, n⟩ := l
    cases loc with
    | slab o => simpa [srcPorts, drain, fed] using ih s hs (by simpa [fed] using hf)
    | bad => simpa [srcPorts, drain, fed] using ih s hs (by simpa [fed] using hf)
    | port p =>
      have hc := inChan_of_sheets s0 s hs c.toNat j.toNat p
      rcases hch : inChan s0 c.toNat j.toNat p with _ | ch
      · rw [hch] at hc
        simpa [srcPorts, drain, onInputs, hch, hc] using ih s hs (by simpa [fed, hc] using hf)
      · rw [hch] at hc
        simp only [fed, hc] at hf
        have := ih (takeDrops s ch n).2 (by simp [hs]) hf.2
        simp only [onInputs, List.flatMap_cons, srcPorts, List.cons_append, List.nil_append, List.filterMap_cons, hch,
          Option.map_some, gather, List.headD_nil, List.length_nil, Nat.sub_zero, List.tail_nil, drain, hc] at this ⊢
        refine ⟨this.1, ?_, ?_⟩
        · simp [this.2.1]
        · have hl : ¬ (takeDrops s ch n).1.length < n := by simp [takeDrops, hf.1]
          simp [hl, this.2.2]

/-! ### A command that nothing stops -/

/-- The tile's command is taken and carried on where it may begin and no breakpoint stops it. -/
theorem runTileWith_at (s : State) (c : BitVec 6) (j : BitVec 5) (w : CmdWord) (p : Plan) (go : State → Blocked → State)
    (h : tileAt s c j w p.strokes) (hc : p.cause = none) :
    runTileWith s c.toNat j.toNat w p go = go (issued s c j) { word := w, got := [], moved := 0, out := [], effectDone := false } := by
  obtain ⟨h1, h2, h3, -⟩ := h
  simp only [runTileWith, h1, h2, h3, issueTile, hc]
  rfl

/-- A command whose checks pass, whose inputs are in and whose outputs have room retires with its effect (R50, R62). -/
theorem runTile_done (s : State) (c : BitVec 6) (j : BitVec 5) (w : CmdWord) (p : Plan) (g : State) (got : List (Nat × List Drop))
    (h : tileAt s c j w p.strokes) (hc : p.cause = none) (hg : gather (issued s c j) p.demand [] = (g, got, none))
    (hr : room (p.effect (strokeOf s c j) (got.map Prod.snd) g).1 (p.effect (strokeOf s c j) (got.map Prod.snd) g).2) :
    runTile s c.toNat j.toNat w p =
      retired (pump (p.effect (strokeOf s c j) (got.map Prod.snd) g).1 (p.effect (strokeOf s c j) (got.map Prod.snd) g).2).1 c j
        p.strokes := by
  rw [runTile, runTileWith_at s c j w p _ h hc]
  have hs : (getUnit (issued s c j) (tileKey c.toNat j.toNat)).strokes.toNat = strokeOf s c j := by rw [getUnit_issued]; rfl
  have hx : (getUnit (issued s c j) (tileKey c.toNat j.toNat)).stepped = 0 := by rw [getUnit_issued]
  have hl := stopAt_issued s c j p.strokes h.2.2.2
  simp only [room] at hr
  simp only [advance, planEffect, asIssued, hc, hg, hs, hx, if_true, List.drop_zero, hr, hl]
  rfl

/-- The same for a command that gives no drops. -/
theorem runTile_quiet (s : State) (c : BitVec 6) (j : BitVec 5) (w : CmdWord) (p : Plan) (g : State) (got : List (Nat × List Drop))
    (h : tileAt s c j w p.strokes) (hc : p.cause = none) (hg : gather (issued s c j) p.demand [] = (g, got, none))
    (he : (p.effect (strokeOf s c j) (got.map Prod.snd) g).2 = []) :
    runTile s c.toNat j.toNat w p = retired (p.effect (strokeOf s c j) (got.map Prod.snd) g).1 c j p.strokes := by
  rw [runTile_done s c j w p g got h hc hg (by rw [he]; rfl), he]
  rfl

/-- A command of sources `ls` that gives no drops. -/
theorem runTile_sources (s : State) (c : BitVec 6) (j : BitVec 5) (w : CmdWord) (p : Plan) (ls : List (LocRef × Nat))
    (h : tileAt s c j w p.strokes) (hc : p.cause = none)
    (hd : p.demand = onInputs s c.toNat j.toNat (ls.flatMap fun l => srcPorts l.1 l.2)) (hf : fed (issued s c j) c j ls)
    (he : ∀ got g, (p.effect (strokeOf s c j) got g).2 = []) :
    runTile s c.toNat j.toNat w p =
      retired (p.effect (strokeOf s c j) (drain (issued s c j) c j ls).2 (drain (issued s c j) c j ls).1).1 c j p.strokes := by
  have hg := gather_drain c j s ls (issued s c j) rfl hf
  have hq := runTile_quiet s c j w p (drain (issued s c j) c j ls).1 (gather (issued s c j) p.demand []).2.1 h hc
    (by rw [hd, ← hg.1, ← hg.2.2]) (he _ _)
  rw [hq, hd, hg.2.1]

end Sys2Proof.Machine
end

