-- ==== Sys2Proof/Laws/Logging.lean ====
section
/-! SUPPORT. Logging an event: what it can change, said once. -/

namespace Sys2Proof.Machine

/-- `t` is `s` but for the blotter, breakpoints' HIT and the halt hold, halted units, the launch state's holds, queues 0 and 2 of
sub-ports, and host memory (the sink ring). -/
def LoggedOnly (s t : State) : Prop :=
  (∃ blot bps sent units subs holds held seen host, t = { s with
    blot, units, subs, host, dbg := { s.dbg with bps, holdSent := sent }, launch := { s.launch with holds, heldSince := held, seen } }) ∧
  (∀ k, ∃ q0 q2, getSub t k = { getSub s k with q0, q2 }) ∧
  (∀ k, ∃ h, getUnit t k = { getUnit s k with halted := h })

theorem LoggedOnly.rfl (s : State) : LoggedOnly s s :=
  ⟨⟨_, _, _, _, _, _, _, _, _, Eq.refl s⟩, fun _ => ⟨_, _, Eq.refl _⟩, fun _ => ⟨_, Eq.refl _⟩⟩

theorem LoggedOnly.trans {s t u : State} (h : LoggedOnly s t) (g : LoggedOnly t u) : LoggedOnly s u := by
  obtain ⟨⟨b, d, d2, us, sb, ho, he, se, x, h1⟩, h2, h3⟩ := h
  obtain ⟨⟨b', d', d2', us', sb', ho', he', se', x', g1⟩, g2, g3⟩ := g
  refine ⟨⟨b', d', d2', us', sb', ho', he', se', x', ?_⟩, fun k => ?_, fun k => ?_⟩
  · rw [g1, h1]
  · obtain ⟨p, q, e⟩ := h2 k
    obtain ⟨p', q', e'⟩ := g2 k
    exact ⟨p', q', by rw [e', e]⟩
  · obtain ⟨p, e⟩ := h3 k
    obtain ⟨p', e'⟩ := g3 k
    exact ⟨p', by rw [e', e]⟩

theorem loggedOnly_blot (s : State) (b : BlotSt) : LoggedOnly s { s with blot := b } :=
  ⟨⟨b, _, _, _, _, _, _, _, _, rfl⟩, fun _ => ⟨_, _, rfl⟩, fun _ => ⟨_, rfl⟩⟩

theorem loggedOnly_dbg (s : State) (bps : Tbl Breakpoint) (sent : Bool) :
    LoggedOnly s { s with dbg := { s.dbg with bps, holdSent := sent } } :=
  ⟨⟨_, bps, sent, _, _, _, _, _, _, rfl⟩, fun _ => ⟨_, _, rfl⟩, fun _ => ⟨_, rfl⟩⟩

theorem loggedOnly_holds (s : State) (holds held seen) :
    LoggedOnly s { s with launch := { s.launch with holds := holds, heldSince := held, seen := seen } } :=
  ⟨⟨_, _, _, _, _, holds, held, seen, _, rfl⟩, fun _ => ⟨_, _, rfl⟩, fun _ => ⟨_, rfl⟩⟩

/-- A grain appended to queue 0 or 2 of a sub-port leaves every other part of every sub-port. -/
theorem loggedOnly_queue (s : State) (k : Nat) (q0 q2 : List Grain) (h : q0 ≠ [] ∨ q2 ≠ []) :
    LoggedOnly s (modSub s k fun b => { b with q0, q2 }) := by
  refine ⟨⟨_, _, _, _, _, _, _, _, _, rfl⟩, fun i => ?_, fun _ => ⟨_, rfl⟩⟩
  have hne : ({ getSub s k with q0 := q0, q2 := q2 } : SubSt) ≠ {} := by
    intro e
    rcases h with h | h
    · exact h (congrArg SubSt.q0 e)
    · exact h (congrArg SubSt.q2 e)
  by_cases hi : i = k
  · subst hi
    exact ⟨q0, q2, by simp only [modSub, setSub, getSub]; exact tget_tset_of_ne _ _ _ _ hne⟩
  · refine ⟨(getSub s i).q0, (getSub s i).q2, ?_⟩
    simp only [modSub, setSub, getSub]
    exact tget_tset_ne_of_ne _ _ _ _ _ hne hi

theorem loggedOnly_sendLaunch (s : State) (k : Nat) (m : LaunchMsg) : LoggedOnly s (sendLaunch s k m) := by
  unfold sendLaunch
  split
  · exact loggedOnly_queue s k _ _ (.inl (by simp))
  · exact .rfl s

theorem loggedOnly_sendAll (m : LaunchMsg) : ∀ (ks : List Nat) (s : State), LoggedOnly s (sendAll s m ks)
  | [], s => .rfl s
  | k :: ks, s => (loggedOnly_sendLaunch s k m).trans (loggedOnly_sendAll m ks _)

theorem loggedOnly_flood (s : State) (m : LaunchMsg) (o : Option Nat) : LoggedOnly s (flood s m o) :=
  (loggedOnly_sendAll _ _ s).trans (loggedOnly_sendAll _ _ _)

theorem loggedOnly_originate (s : State) (n : BitVec 64) (b : LaunchBody) : LoggedOnly s (originate s n b) :=
  (loggedOnly_holds s _ _ _).trans (loggedOnly_flood _ _ _)

theorem loggedOnly_beginHold (s : State) (p u : Nat) (d : BitVec 32) : LoggedOnly s (beginHold s p u d) :=
  (loggedOnly_holds s _ _ _).trans (loggedOnly_originate _ _ _)

theorem loggedOnly_endHold (s : State) (p u : Nat) (d : BitVec 32) (o : Nat) : LoggedOnly s (endHold s p u d o) :=
  (loggedOnly_holds s _ _ _).trans (loggedOnly_originate _ _ _)

theorem loggedOnly_telemetryRoute (s : State) (p : BitVec 2048) : LoggedOnly s (telemetryRoute s p).1 := by
  unfold telemetryRoute
  split
  · exact loggedOnly_queue s _ _ _ (.inr (by simp))
  · exact loggedOnly_blot s _

theorem loggedOnly_sinkWrite (s : State) (p : BitVec 2048) : LoggedOnly s (sinkWrite s p) := by
  unfold sinkWrite
  dsimp only
  split
  · exact loggedOnly_blot s _
  · split
    · exact loggedOnly_blot s _
    · exact ⟨⟨_, _, _, _, _, _, _, _, _, rfl⟩, fun _ => ⟨_, _, rfl⟩, fun _ => ⟨_, rfl⟩⟩

theorem loggedOnly_telemetrySend (s : State) : LoggedOnly s (telemetrySend s) := by
  unfold telemetrySend
  dsimp only
  split
  · exact .rfl s
  · refine (loggedOnly_blot s { s.blot with fill := [] }).trans ?_
    split
    · exact loggedOnly_sinkWrite _ _
    · split
      · exact (loggedOnly_telemetryRoute _ _).trans (loggedOnly_blot _ _)
      · exact loggedOnly_telemetryRoute _ _

theorem loggedOnly_inbandTake (s : State) (e : BlotEntry) : LoggedOnly s (inbandTake s e) := by
  unfold inbandTake
  split
  · exact .rfl s
  · dsimp only
    have h0 : LoggedOnly s (if s.blot.fill.length + entryLen e > 3 then telemetrySend s else s) := by
      split
      · exact loggedOnly_telemetrySend s
      · exact .rfl s
    refine h0.trans ?_
    generalize (if s.blot.fill.length + entryLen e > 3 then telemetrySend s else s) = s0
    split
    · exact loggedOnly_blot s0 _
    · split
      · exact (loggedOnly_blot s0 _).trans (loggedOnly_telemetrySend _)
      · exact loggedOnly_blot s0 _

theorem loggedOnly_oobTake (s : State) (e : BlotEntry) : LoggedOnly s (oobTake s e) := by
  unfold oobTake
  split
  · exact .rfl s
  · dsimp only
    split <;> exact loggedOnly_blot s _

theorem loggedOnly_blotWrite (s : State) (e : BlotEntry) : LoggedOnly s (blotWrite s e) :=
  (loggedOnly_blot s _).trans ((loggedOnly_inbandTake _ _).trans (loggedOnly_oobTake _ _))

theorem loggedOnly_logRaw (s : State) (e : Ev) : LoggedOnly s (logRaw s e) := by
  have key : ∀ s1 : State, LoggedOnly s s1 → LoggedOnly s (
      let ent := mkEntry s e
      if (alarmCauses e.cls).contains e.cause then
        if s1.blot.windows.any (windowIs ent.cls ent.cause ent.locator) then
          let bump := fun w => if windowIs ent.cls ent.cause ent.locator w then { w with count := satAdd w.count 1, last := ent } else w
          { s1 with blot := { s1.blot with windows := s1.blot.windows.map bump } }
        else
          let s2 := if s1.blot.windows.length < 256 then
            { s1 with blot := { s1.blot with windows := s1.blot.windows ++
                [{ cls := ent.cls, cause := ent.cause, locator := ent.locator, count := 0, last := ent }] } } else s1
          blotWrite s2 ent
      else blotWrite s1 ent) := by
    intro s1 h1
    dsimp only
    refine h1.trans ?_
    split
    · split
      · exact loggedOnly_blot _ _
      · split
        · exact (loggedOnly_blot _ _).trans (loggedOnly_blotWrite _ _)
        · exact loggedOnly_blotWrite _ _
    · exact loggedOnly_blotWrite _ _
  exact key _ (loggedOnly_blot s _)

theorem loggedOnly_haltUnits : ∀ (ks : List Nat) (s : State), LoggedOnly s (haltUnits s ks)
  | [], s => .rfl s
  | k :: ks, s => by
    refine .trans ?_ (loggedOnly_haltUnits ks _)
    refine ⟨⟨_, _, _, _, _, _, _, _, _, rfl⟩, fun _ => ⟨_, _, rfl⟩, fun i => ?_⟩
    have hne : ({ getUnit s k with halted := true } : UnitSt) ≠ {} := fun e => by simpa using congrArg UnitSt.halted e
    by_cases hi : i = k
    · subst hi
      exact ⟨true, by simp only [modUnit, setUnit, getUnit]; exact tget_tset_of_ne _ _ _ _ hne⟩
    · refine ⟨(getUnit s i).halted, ?_⟩
      simp only [modUnit, setUnit, getUnit]
      exact tget_tset_ne_of_ne _ _ _ _ _ hne hi

theorem loggedOnly_bpHits : ∀ (is : List Nat) (s : State), LoggedOnly s (bpHits s is)
  | [], s => .rfl s
  | _ :: is, s => (loggedOnly_dbg s _ _).trans (loggedOnly_bpHits is _)

theorem loggedOnly_haltWith (s : State) (us : List Nat) (loc : BitVec 64) (bp : Nat) : LoggedOnly s (haltWith s us loc bp) := by
  unfold haltWith
  dsimp only
  have h : LoggedOnly s (logRaw (haltUnits s us) { cls := clsTrace, cause := 2, loc, a0 := BitVec.ofNat 64 bp }) :=
    (loggedOnly_haltUnits us s).trans (loggedOnly_logRaw _ _)
  refine h.trans ?_
  generalize logRaw (haltUnits s us) { cls := clsTrace, cause := 2, loc, a0 := BitVec.ofNat 64 bp } = s1
  generalize blotMet s1 clsTrace (nextSeqOf s1 clsTrace != nextSeqOf s clsTrace) = met
  have h2 : LoggedOnly s1 (if met.isEmpty = true then s1 else haltUnits (bpHits s1 met) allUnits) := by
    split
    · exact .rfl _
    · exact (loggedOnly_bpHits _ _).trans (loggedOnly_haltUnits _ _)
  refine h2.trans ?_
  generalize (if met.isEmpty = true then s1 else haltUnits (bpHits s1 met) allUnits) = s2
  split
  · exact (loggedOnly_dbg _ _ _).trans (loggedOnly_beginHold _ _ _ _)
  · exact .rfl _

/-- Logging an event changes the blotter, and what telemetry and an EVENT breakpoint reach from it, and nothing else. -/
theorem loggedOnly_logEv (s : State) (e : Ev) : LoggedOnly s (logEv s e) := by
  unfold logEv blotBreak
  dsimp only
  refine (loggedOnly_logRaw s e).trans ?_
  split
  · exact .rfl _
  · exact (loggedOnly_bpHits _ _).trans (loggedOnly_haltWith _ _ _ _)

end Sys2Proof.Machine
end

