-- ==== Sys2Proof/Tests/Slice0.lean ====
section
/-! SUPPORT. Tests of the model: refused ill-formed commands, a state that meets the hypotheses of each clause of each statement, and values
worked by hand from the manual. -/

namespace Sys2Proof.Tests

open Machine

set_option Elab.async false

/-! ### Ill-formed commands are refused (WellFormed) -/

theorem test_matrix_tile_refused : wellFormed (.mldw 0 12 0 0 0) = false ∧ wellFormed (.mldw 0 11 0 0 0) = true := by decide

theorem test_vector_tile_refused :
    wellFormed (.vimm 0 11 0 0 0) = false ∧ wellFormed (.vimm 0 20 0 0 0) = false ∧ wellFormed (.vimm 0 19 0 0 0) = true := by decide

theorem test_transfer_tile_refused :
    wellFormed (.xflip 0 24 1) = false ∧ wellFormed (.xflip 0 19 1) = false ∧ wellFormed (.xflip 0 23 1) = true := by decide

theorem test_push_tile_refused : wellFormed (.pushr 0 24 0) = false ∧ wellFormed (.pushr 0 23 0) = true := by decide

theorem test_unit_refused :
    wellFormed (.waitResume (.tile 0 24)) = false ∧ wellFormed (.waitResume (.tile 63 23)) = true := by decide

theorem test_port_refused : wellFormed (.linkDown 50 0) = false ∧ wellFormed (.linkDown 49 7) = true := by decide

/-- An idle frame of version 1 that names one grain and holds none. -/
def frame1 : SpanFrame := { fcsOk := true, sub := 0, version := 1, flags := 0, grains := 1, ack := 0, freed := 0, srcMac := 0, body := [] }

theorem test_frame_count_refused :
    wellFormed (.spanFrame 0 0 frame1) = false := by
  decide

theorem test_empty_data_refused :
    wellFormed (.data 0 0 0 []) = false ∧ wellFormed (.data 0 0 0 [0, 0, 0, 0, 0]) = false ∧ wellFormed (.data 0 0 0 [0]) = true := by decide

theorem test_credit_refused : wellFormed (.credit 0 0 (List.replicate 65 0)) = false := by decide

/-! ### Small states -/

/-- An allocation entry: base and size in bytes, kind, owner, both rights. -/
def allocW (base size kind owner : Nat) : BitVec 128 :=
  BitVec.ofNat 128 (base + size / 64 * 2 ^ 64 + kind * 2 ^ 106 + owner * 2 ^ 109 + 3 * 2 ^ 114 + 2 ^ 127)

/-- A channel entry: index, producer, consumer, depth. -/
def chanW (ix prod cons depth : Nat) : BitVec 128 := BitVec.ofNat 128 (ix + prod * 2 ^ 16 + cons * 2 ^ 36 + depth * 2 ^ 56)

/-- Core 0 with some code; tile `j` owns its own slab, the scribe 4 KiB of tile 23's. -/
def coreOf (j : Nat) (code : List (BitVec 64)) : CoreSheet :=
  { code, consts := [7], templates := [0], alloc := [allocW (j * 2 ^ 22) (2 ^ 22) 1 j, allocW (30 * 2 ^ 22) 4096 0 0x1F] }

/-- A sheet: core 0; channel 5 out of tile `j` by port 3, channel 6 into it by port 4, 7 and 8 out of and into the scribe. -/
def sheetOf (j : Nat) (code : List (BitVec 64)) : Sheet :=
  { cores := [(0, coreOf j code)]
    channels := [chanW 5 (endpoint 0 j 3) (endpoint 1 j 0) 512, chanW 6 (endpoint 1 j 0) (endpoint 0 j 4) 512,
      chanW 7 (endpoint 0 0x1F 1) (endpoint 1 j 1) 2, chanW 8 (endpoint 1 j 1) (endpoint 0 0x1F 2) 2] }

/-- A step runs; tile `j` of core 0 has the word `w` in front. -/
def atTile (j : Nat) (w : CmdWord) : State :=
  { State.reset with
    sheets := { live := some (sheetOf j []) }, step := { running := true }, units := [(tileKey 0 j, { queue := [w] })] }

/-- A step runs; the scribe of core 0 comes to `w`. -/
def atScribe (w : BitVec 64) : State :=
  { State.reset with sheets := { live := some (sheetOf 0 [w]) }, step := { running := true } }

/-- The device serves, its link up. -/
def serving : State := { State.reset with boot := { phase := .service, pwrgood := true }, mbox := { link := 2, width := 4 } }

/-! ### Witnesses: the queue and the engines -/

theorem witness_StepRunsFrontCommand : State.reset.pending = [] := rfl

theorem witness_WaitTakesNStrokes :
    tileAt (atTile 11 (waitWord 65535)) 0 11 (waitWord (65535 : BitVec 16).toNat) (65535 : BitVec 16).toNat ∧ matrixTile 11 = true ∧
      tileAt (atTile 19 (waitWord 1)) 0 19 (waitWord (1 : BitVec 16).toNat) (1 : BitVec 16).toNat ∧ vectorTile 19 = true ∧
      tileAt (atTile 23 (waitWord 1)) 0 23 (waitWord (1 : BitVec 16).toNat) (1 : BitVec 16).toNat ∧ transferTile 23 = true := by
  refine ⟨⟨?_, ?_, ?_⟩, ?_, ⟨?_, ?_, ?_⟩, ?_, ⟨?_, ?_, ?_⟩, ?_⟩ <;> decide +kernel

theorem witness_mldw :
    let s := atTile 11 (mldwWord 1 11 0)
    (planMldw s 0 11 1 11 0).cause = none ∧ tileAt s 0 11 (mldwWord 1 11 0) (loadStrokes 11) ∧
      fed (issued s 0 11) 0 11 [(locRef 0, dropsFor (tileBytes 11))] := by
  refine ⟨?_, ⟨?_, ?_, ?_⟩, trivial⟩ <;> decide +kernel

/-! ### Witnesses: matrix engine -/

/-- A port operand of a tile is fed when its channel holds the drops. -/
theorem fed_port (s : State) (c : BitVec 6) (j : BitVec 5) (p n ch : Nat) (h : inChan s c.toNat j.toNat p = some ch)
    (hn : n ≤ (getChan s ch).length) : fed s c j [(.port p, n)] := by
  simp [fed, h, hn]

theorem witness_manc :
    let s := atTile 11 (mancWord 63 1 0 0 255 0 100)
    (planManc s 0 11 63 1 0 0 255 0 100).cause = none ∧ tileAt s 0 11 (mancWord 63 1 0 0 255 0 100) 257 ∧
      fed (issued s 0 11) 0 11 [(locRef 0, 255), (locRef 100, 2)] := by
  refine ⟨?_, ⟨?_, ?_, ?_⟩, trivial⟩ <;> decide +kernel

theorem witness_macc :
    let w := maccWord 0 64 0 1 0 0 0 0
    let s := atTile 11 w
    (planMacc s 0 11 0 64 0 1 0 0 0 0).cause = none ∧ tileAt s 0 11 w (64 * rowStrokes 0 0) ∧
      fed (issued s 0 11) 0 11 [(locRef 0, runDrops 0 (fmtKT 0) 64)] := by
  refine ⟨?_, ⟨?_, ?_, ?_⟩, trivial⟩ <;> decide +kernel

theorem witness_macc_next :
    let w := maccWord 0 1 0 1 0 1 11 512
    let s := atTile 11 w
    (planMacc s 0 11 0 1 0 1 0 1 11 512).cause = none ∧ tileAt s 0 11 w (max (1 * rowStrokes 0 0) (loadStrokes 11)) ∧
      fed (issued s 0 11) 0 11 [(locRef 0, runDrops 0 (fmtKT 0) 1), (locRef 512, dropsFor (tileBytes 11))] := by
  refine ⟨?_, ⟨?_, ?_, ?_⟩, trivial⟩ <;> decide +kernel

/-- The tile's word in front, and 64 drops in the channel of its port 4. -/
def fedTile (j : Nat) (w : CmdWord) (n : Nat) : State := { atTile j w with chans := [(6, List.replicate n 0)] }

theorem witness_mwadd :
    let w := mwaddWord 63 1 0x10004
    (planMwadd (fedTile 11 w 64) 0 11 63 1 0x10004).cause = none ∧ tileAt (fedTile 11 w 64) 0 11 w 16 ∧
      fed (issued (fedTile 11 w 64) 0 11) 0 11 [(locRef 0x10004, 64)] := by
  refine ⟨?_, ⟨?_, ?_, ?_⟩, fed_port _ _ _ 4 64 6 ?_ ?_⟩ <;> decide +kernel

theorem witness_mwout :
    let w := mwoutWord 0 64 11 2 1 0 2000
    let s := atTile 11 w
    (planMwout s 0 11 0 64 11 2 1 0 2000).cause = none ∧ tileAt s 0 11 w (64 * 1 + if fmtScaled 11 then 4 else 0) := by
  refine ⟨?_, ?_, ?_, ?_⟩ <;> decide +kernel

theorem witness_mwexp :
    let w := mwexpWord 63 1 0x10003
    let s := atTile 11 w
    (planMwexp s 0 11 63 1 0x10003).cause = none ∧ tileAt s 0 11 w 16 ∧ room (matrixAt s 0 11 []) (List.replicate 64 (5, 0)) := by
  refine ⟨?_, ⟨?_, ?_, ?_⟩, ?_⟩
  all_goals first | decide +kernel | (unfold room; decide +kernel)

/-! ### Witnesses: vector engine -/

theorem witness_VectorLaneCommands :
    (planVop 0 19 29 3 63 63 63 0 7).cause = none ∧ (planVop 0 19 3 2 0 0 0 63 7).cause = none ∧
      tileAt (atTile 19 (vopWord 3 2 0 0 0 63 7)) 0 19 (vopWord 3 2 0 0 0 63 7) 1 ∧
      tileAt (atTile 19 (vfnWord 7 2 0 63 63 7)) 0 19 (vfnWord 7 2 0 63 63 7) 1 ∧
      tileAt (atTile 19 (vcvtWord 4 4 63 63 7)) 0 19 (vcvtWord 4 4 63 63 7) 1 ∧
      tileAt (atTile 19 (vselWord 63 63 63 7)) 0 19 (vselWord 63 63 63 7) 1 ∧
      tileAt (atTile 19 (vimmWord 63 0xFFFFFFFF 7)) 0 19 (vimmWord 63 0xFFFFFFFF 7) 1 ∧
      tileAt (atTile 19 (viotaWord 63 0xFFFFFFFF)) 0 19 (viotaWord 63 0xFFFFFFFF) 1 := by
  refine ⟨?_, ?_, ⟨?_, ?_, ?_⟩, ⟨?_, ?_, ?_⟩, ⟨?_, ?_, ?_⟩, ⟨?_, ?_, ?_⟩, ⟨?_, ?_, ?_⟩, ⟨?_, ?_, ?_⟩⟩ <;> decide +kernel

theorem witness_VectorMaskCommands :
    tileAt (atTile 19 (vcmpWord 6 3 7 63 63 7)) 0 19 (vcmpWord 6 3 7 63 63 7) 1 ∧
    tileAt (atTile 19 (vkopWord 3 7 7 7)) 0 19 (vkopWord 3 7 7 7) 1 := by
  refine ⟨⟨?_, ?_, ?_⟩, ⟨?_, ?_, ?_⟩⟩ <;> decide +kernel

theorem witness_vld :
    (planVld (atTile 19 (vldWord 63 3 0)) 0 19 63 3 0).cause = none ∧
      tileAt (atTile 19 (vldWord 63 3 0)) 0 19 (vldWord 63 3 0) 2 ∧
      fed (issued (atTile 19 (vldWord 63 3 0)) 0 19) 0 19 [(locRef 0, 16)] := by
  refine ⟨?_, ⟨?_, ?_, ?_⟩, trivial⟩ <;> decide +kernel

theorem witness_vldx :
    (planVldx (atTile 19 (vldxWord 63 63 0 1024)) 0 19 63 63 0 1024).cause = none ∧
      tileAt (atTile 19 (vldxWord 63 63 0 1024)) 0 19 (vldxWord 63 63 0 1024) 2 := by
  refine ⟨?_, ⟨?_, ?_, ?_⟩⟩ <;> decide +kernel

theorem witness_vldq :
    (planVldq (atTile 19 (vldqWord 63 4 1 11 0)) 0 19 63 4 1 11 0).cause = none ∧
      tileAt (atTile 19 (vldqWord 63 4 1 11 0)) 0 19 (vldqWord 63 4 1 11 0) (4 + b2n (fmtScaled 11)) ∧
      fed (issued (atTile 19 (vldqWord 63 4 1 11 0)) 0 19) 0 19 [(locRef 0, (runDrops 11 64 4))] := by
  refine ⟨?_, ⟨?_, ?_, ?_⟩, trivial⟩ <;> decide +kernel

theorem witness_vlda :
    (planVlda (fedTile 19 (vldaWord 63 0x10004) 1) 0 19 63 0x10004).cause = none ∧
      tileAt (fedTile 19 (vldaWord 63 0x10004) 1) 0 19 (vldaWord 63 0x10004) 1 ∧
      fed (issued (fedTile 19 (vldaWord 63 0x10004) 1) 0 19) 0 19 [(locRef 0x10004, 1)] := by
  refine ⟨?_, ⟨?_, ?_, ?_⟩, fed_port _ _ _ 4 1 6 ?_ ?_⟩ <;> decide +kernel

theorem witness_vwadd :
    (planVwadd (fedTile 19 (vwaddWord 7 0x10004) 128) 0 19 7 0x10004).cause = none ∧
      tileAt (fedTile 19 (vwaddWord 7 0x10004) 128) 0 19 (vwaddWord 7 0x10004) 32 ∧
      fed (issued (fedTile 19 (vwaddWord 7 0x10004) 128) 0 19) 0 19 [(locRef 0x10004, 128)] := by
  refine ⟨?_, ⟨?_, ?_, ?_⟩, fed_port _ _ _ 4 128 6 ?_ ?_⟩ <;> decide +kernel

theorem witness_vst :
    (planVst (atTile 19 (vstWord 63 1 0x10003 7)) 0 19 63 1 0x10003 7).cause = none ∧
      tileAt (atTile 19 (vstWord 63 1 0x10003 7)) 0 19 (vstWord 63 1 0x10003 7) 1 ∧
      room (vectorAt (atTile 19 (vstWord 63 1 0x10003 7)) 0 19 []) (List.replicate 8 (5, 0)) := by
  refine ⟨?_, ⟨?_, ?_, ?_⟩, ?_⟩
  all_goals first | decide +kernel | (unfold room; decide +kernel)

theorem witness_vst_slab :
    (planVst (atTile 19 (vstWord 63 0 0 7)) 0 19 63 0 0 7).cause = none ∧
      tileAt (atTile 19 (vstWord 63 0 0 7)) 0 19 (vstWord 63 0 0 7) 2 := by
  refine ⟨?_, ⟨?_, ?_, ?_⟩⟩ <;> decide +kernel

theorem witness_vstx :
    (planVstx (atTile 19 (vstxWord 63 63 0 1024)) 0 19 63 63 0 1024).cause = none ∧
      tileAt (atTile 19 (vstxWord 63 63 0 1024)) 0 19 (vstxWord 63 63 0 1024) 2 := by
  refine ⟨?_, ⟨?_, ?_, ?_⟩⟩ <;> decide +kernel

theorem witness_vqnt :
    (planVqnt (atTile 19 (vqntWord 63 4 1 11 60 63 0)) 0 19 63 4 1 11 60 63 0).cause = none ∧
      tileAt (atTile 19 (vqntWord 63 4 1 11 60 63 0)) 0 19 (vqntWord 63 4 1 11 60 63 0) (4 + b2n (fmtScaled 11)) := by
  refine ⟨?_, ⟨?_, ?_, ?_⟩⟩ <;> decide +kernel

theorem witness_vsta :
    (planVsta (atTile 19 (vstaWord 63 0)) 0 19 63 0).cause = none ∧
      tileAt (atTile 19 (vstaWord 63 0)) 0 19 (vstaWord 63 0) 1 := by
  refine ⟨?_, ⟨?_, ?_, ?_⟩⟩ <;> decide +kernel

theorem witness_vwexp :
    (planVwexp (atTile 19 (vwexpWord 7 0x10003)) 0 19 7 0x10003).cause = none ∧
      tileAt (atTile 19 (vwexpWord 7 0x10003)) 0 19 (vwexpWord 7 0x10003) 32 ∧
      room (vectorAt (atTile 19 (vwexpWord 7 0x10003)) 0 19 []) (List.replicate 128 (5, 0)) := by
  refine ⟨?_, ⟨?_, ?_, ?_⟩, ?_⟩
  all_goals first | decide +kernel | (unfold room; decide +kernel)

theorem witness_VectorWellsAndMaxima :
    tileAt (atTile 19 (vwancWord 7 1 1 63 63)) 0 19 (vwancWord 7 1 1 63 63) 1 ∧
    tileAt (atTile 19 (vrsumWord 7 1 2 63 7)) 0 19 (vrsumWord 7 1 2 63 7) 1 ∧
    tileAt (atTile 19 (vrdotWord 7 1 2 63 63 7)) 0 19 (vrdotWord 7 1 2 63 63 7) 1 ∧
    tileAt (atTile 19 (vwoutWord 63 7 2 7)) 0 19 (vwoutWord 63 7 2 7) 1 ∧
    tileAt (atTile 19 (vanchWord 63 63 2 1 1 7)) 0 19 (vanchWord 63 63 2 1 1 7) 1 ∧
    tileAt (atTile 19 (vrmaxWord 63 63 2 7)) 0 19 (vrmaxWord 63 63 2 7) 1 := by
  refine ⟨⟨?_, ?_, ?_⟩, ⟨?_, ?_, ?_⟩, ⟨?_, ?_, ?_⟩, ⟨?_, ?_, ?_⟩, ⟨?_, ?_, ?_⟩, ⟨?_, ?_, ?_⟩⟩ <;> decide +kernel

theorem witness_VectorSelectAndSample :
    tileAt (atTile 19 (vtopkWord 63 62 61 60 256 1 7)) 0 19 (vtopkWord 63 62 61 60 256 1 7) 8 ∧
    tileAt (atTile 19 (vsampWord 63 62 61 60 256)) 0 19 (vsampWord 63 62 61 60 256) 16 ∧
    tileAt (atTile 19 (vrngWord 63 61 62 60 0xFFFF 1)) 0 19 (vrngWord 63 61 62 60 0xFFFF 1) 1 ∧
    tileAt (atTile 19 (vdispWord 63 62 61 60 8 32 1)) 0 19 (vdispWord 63 62 61 60 8 32 1) 16 := by
  refine ⟨⟨?_, ?_, ?_⟩, ⟨?_, ?_, ?_⟩, ⟨?_, ?_, ?_⟩, ⟨?_, ?_, ?_⟩⟩ <;> decide +kernel

/-! ### Witnesses: scribes -/

theorem witness_ScribeArithmetic :
    scribeAt (atScribe (sWord [(8, 0), (16, 65535)])) 0 (sWord [(8, 0), (16, 65535)]) 65535 ∧
    scribeAt (atScribe (sWord [(8, 1), (4, 13), (5, 31), (7, 0), (7, 0x67)])) 0 (sWord [(8, 1), (4, 13), (5, 31), (7, 0), (7, 0x67)]) 1 ∧
    scribeAt (atScribe (sWord [(8, 2), (4, 13), (5, 31), (7, 0x67), (32, 0xFFFFFFFF)])) 0 (sWord [(8, 2), (4, 13), (5, 31), (7, 0x67), (32, 0xFFFFFFFF)]) 1 ∧
    scribeAt (atScribe (sWord [(8, 3), (5, 31), (48, 1)])) 0 (sWord [(8, 3), (5, 31), (48, 1)]) 1 ∧
    scribeAt (atScribe (sWord [(8, 0x0A), (5, 31), (16, 0)])) 0 (sWord [(8, 0x0A), (5, 31), (16, 0)]) 1 ∧
    tidy (atScribe 0) = true ∧
    (liveCore (atScribe 0) 0).consts[0]? = some 7 := by
  refine ⟨⟨?_, ?_, ?_⟩, ⟨?_, ?_, ?_⟩, ⟨?_, ?_, ?_⟩, ⟨?_, ?_, ?_⟩, ⟨?_, ?_, ?_⟩, ?_, ?_⟩ <;> decide +kernel

theorem witness_ScribeControlFlow :
    scribeAt (atScribe (sWord [(8, 0x10), (24, 0xFFFFFF)])) 0 (sWord [(8, 0x10), (24, 0xFFFFFF)]) 1 ∧
    scribeAt (atScribe (sWord [(8, 0x12), (3, 7), (7, 1), (32, 0x7FFFFFFF)])) 0 (sWord [(8, 0x12), (3, 7), (7, 1), (32, 0x7FFFFFFF)]) 1 ∧
    scribeAt (atScribe (sWord [(8, 0x13), (3, 7), (24, 0)])) 0 (sWord [(8, 0x13), (3, 7), (24, 0)]) 1 ∧
    scribeAt (atScribe (sWord [(8, 0x1F)])) 0 (sWord [(8, 0x1F)]) 1 ∧
    (scribeSrc (atScribe 0) 0 1 + (0x7FFFFFFF : BitVec 32).signExtend 64).toNat < 2 ^ 32 := by
  refine ⟨⟨?_, ?_, ?_⟩, ⟨?_, ?_, ?_⟩, ⟨?_, ?_, ?_⟩, ⟨?_, ?_, ?_⟩, ?_⟩ <;> decide +kernel

theorem witness_BranchConditions :
    plainSel 1 ∧ plainSel 0x67 ∧ tidy (atScribe 0) = true ∧
    scribeAt (atScribe (sWord [(8, 0x11), (3, 5), (7, 1), (7, 0x67), (24, 0)])) 0 (sWord [(8, 0x11), (3, 5), (7, 1), (7, 0x67), (24, 0)]) 1 ∧
    scribeAt (atScribe (sWord [(8, 0x11), (3, 7), (7, 1), (7, 2), (24, 1)])) 0 (sWord [(8, 0x11), (3, 7), (7, 1), (7, 2), (24, 1)]) 1 := by
  refine ⟨by unfold plainSel; decide, by unfold plainSel; decide, ?_, ⟨?_, ?_, ?_⟩, ⟨?_, ?_, ?_⟩⟩ <;> decide +kernel

/-- A scribe that comes to `w` with the address of its scratch region in G1. -/
def atScratch (w : BitVec 64) : State := { atScribe w with scribes := [(0, { g := [(1, 30 * 2 ^ 22)] })] }

theorem witness_ScribeMemory :
    tidy (atScratch 0) = true ∧ plainSel 1 ∧
      memCause (scribeNow (atScratch 0) 0) 0 (scribeSrc (atScratch 0) 0 1 + (63 : BitVec 20).signExtend 64 * 64) 7 false = none ∧
      memCause (scribeNow (atScratch 0) 0) 0 (scribeSrc (atScratch 0) 0 1 + (63 : BitVec 20).signExtend 64 * 64) 7 true = none ∧
      scribeAt (atScratch (sWord [(8, 8), (5, 31), (7, 1), (20, 63), (3, 7)])) 0 (sWord [(8, 8), (5, 31), (7, 1), (20, 63), (3, 7)]) 1 ∧
      scribeAt (atScratch (sWord [(8, 9), (7, 1), (7, 1), (20, 63), (3, 7)])) 0 (sWord [(8, 9), (7, 1), (7, 1), (20, 63), (3, 7)]) 1 := by
  refine ⟨?_, ?_, ?_, ?_, ⟨?_, ?_, ?_⟩, ⟨?_, ?_, ?_⟩⟩
  all_goals first | decide +kernel | (unfold plainSel; decide +kernel)

theorem witness_ScribePushes :
    scribeAt (atScribe (sWord [(8, 0x20), (5, 23), (14, 0), (7, 1), (7, 2), (7, 0x67)])) 0 (sWord [(8, 0x20), (5, 23), (14, 0), (7, 1), (7, 2), (7, 0x67)]) 1 ∧
    scribeAt (atScribe (sWord [(8, 0x21), (5, 23), (5, 30)])) 0 (sWord [(8, 0x21), (5, 23), (5, 30)]) 1 ∧
    scribeAt (atScribe (sWord [(8, 0x28), (2, 3), (8, 60), (7, 1)])) 0 (sWord [(8, 0x28), (2, 3), (8, 60), (7, 1)]) 1 ∧
    tidy (atScribe 0) = true ∧
    (liveCore (atScribe 0) 0).templates[0]? = some 0 ∧
    patchWord 0 [(patchOf 0 128, (scribeSrc (atScribe 0) 0 1).toNat), (patchOf 0 144, (scribeSrc (atScribe 0) 0 2).toNat),
        (patchOf 0 160, (scribeSrc (atScribe 0) 0 0x67).toNat)] = some 0 ∧
    xregBad 60 (scribeSrc (atScribe 0) 0 1).toNat = false ∧
    (getUnit (scribeNow (atScribe 0) 0) (tileKey 0 23)).queue.length < 64 := by
  refine ⟨⟨?_, ?_, ?_⟩, ⟨?_, ?_, ?_⟩, ⟨?_, ?_, ?_⟩, ?_, ?_, ?_, ?_, ?_⟩ <;> decide +kernel

/-- A scribe that comes to `w` with two drops in its inbound channel. -/
def fedScribe (w : BitVec 64) : State := { atScribe w with chans := [(8, [1, 2])] }

theorem witness_ScribeChannelsAndObservation :
    tidy (fedScribe 0) = true ∧ outChan (fedScribe 0) 0 0x1F 1 = some 7 ∧ (getChan (fedScribe 0) 7).length < chanDepth (fedScribe 0) 7 ∧
      inChan (fedScribe 0) 0 0x1F 2 = some 8 ∧ 2 ≤ (getChan (fedScribe 0) 8).length ∧
      scribeAt (fedScribe (sWord [(8, 0x30), (4, 1), (5, 24)])) 0 (sWord [(8, 0x30), (4, 1), (5, 24)]) 1 ∧
      scribeAt (fedScribe (sWord [(8, 0x31), (4, 2), (16, 2)])) 0 (sWord [(8, 0x31), (4, 2), (16, 2)]) 2 ∧
      scribeAt (fedScribe (sWord [(8, 0x38), (3, 7), (2, 3)])) 0 (sWord [(8, 0x38), (3, 7), (2, 3)]) 1 ∧
      scribeAt (fedScribe (sWord [(8, 0x39), (1, 0), (16, 9), (7, 0x6F), (7, 0)])) 0 (sWord [(8, 0x39), (1, 0), (16, 9), (7, 0x6F), (7, 0)]) 1 ∧
      scribeAt (fedScribe (sWord [(8, 0x39), (1, 1), (16, 9), (7, 0x6F), (7, 0)])) 0 (sWord [(8, 0x39), (1, 1), (16, 9), (7, 0x6F), (7, 0)]) 1 := by
  refine ⟨?_, ?_, ?_, ?_, ?_, ⟨?_, ?_, ?_⟩, ⟨?_, ?_, ?_⟩, ⟨?_, ?_, ?_⟩, ⟨?_, ?_, ?_⟩, ⟨?_, ?_, ?_⟩⟩ <;> decide +kernel

/-! ### Witnesses: transfer engines, movers, waiting -/

/-- An XMOV of one row of two drops with a done drop, from memory of the tile's own slab to itself. -/
def xmovOne : Xmov := { set := 7, flip := 1, rows := 1, drops := 2, soff := 0, doff := 4096, done := 1, cport := 3 }

/-- A transfer engine that comes to it with the base of its slab in the shadow set. -/
def atXmov : State :=
  { atTile 23 (xmovWord xmovOne) with xfer := [(tileKey 0 23, { shadow := [(56, 23 * 2 ^ 22), (57, 23 * 2 ^ 22)] })] }

theorem witness_TransferCommands :
    xregBad 60 0x1FFF = false ∧ tileAt (atTile 23 (xregWord 60 0x1FFF)) 0 23 (xregWord 60 0x1FFF) 1 ∧
      tileAt (atTile 23 (xflipWord 255)) 0 23 (xflipWord 255) 1 ∧
      xmovCause atXmov 0 23 xmovOne = none ∧ tileAt atXmov 0 23 (xmovWord xmovOne) 4 ∧ tidy atXmov = true ∧
      (xmovGo 0 xmovOne (xmovSet atXmov (tileKey 0 23) xmovOne) false none none 2 0 none (issued atXmov 0 23)).2.2.2 = none ∧
      room (issued atXmov 0 23) [(5, doneDrop 0 2)] := by
  refine ⟨?_, ⟨?_, ?_, ?_⟩, ⟨?_, ?_, ?_⟩, ?_, ⟨?_, ?_, ?_⟩, ?_, ?_, ?_⟩
  all_goals first | decide +kernel | (unfold room; decide +kernel)

/-- Mover 7 with one entry, the channel of its data port and that of its descriptor port, and the drops in them. -/
def atMover (op amode : Nat) : State :=
  { State.reset with
    sheets := { live := some {
      movers := [(7, { ranges := [BitVec.ofNat 128 (0x8000000000 + 1 * 2 ^ 64 + 3 * 2 ^ 96 + 0 * 2 ^ 104)]
                       entries := [BitVec.ofNat 256 (op + amode * 2 ^ 8 + 1 * 2 ^ 16 + 2 * 2 ^ 24 + 1 * 2 ^ 32 + 0x8000000000 * 2 ^ 64
                         + 0xFF * 2 ^ 128)] })]
      channels := [if op = 2 then chanW 5 0 (moverEndpoint 7 1) 4 else chanW 5 (moverEndpoint 7 1) 0 4, chanW 6 1 (moverEndpoint 7 2) 4] } }
    step := { running := true }, chans := [(5, [0]), (6, [64])] }

theorem witness_DieMoverEntries :
    tidy (atMover 1 0) = true ∧ tidy (atMover 2 1) = true ∧ canIssue (atMover 1 0) (moverKey 7) = true ∧
      canIssue (atMover 2 1) (moverKey 7) = true ∧ moverIn (atMover 2 1) 7 2 = some 6 ∧ getChan (atMover 2 1) 6 = [64] ∧
      (∃ v, (moverList (atMover 1 0) 7).entries[0]? = some v ∧ (moverEntryOf v).op = 1 ∧ (moverEntryOf v).amode ≠ 1 ∧
        moverCause (atMover 1 0) 7 (moverEntryOf v) (moverEntryOf v).addr = none ∧
        (moverGo 7 (moverEntryOf v) 0x8000000000 false (moverOut (atMover 1 0) 7 1) 1 0 (atMover 1 0)).2.2 = none) ∧
      (∃ v, (moverList (atMover 2 1) 7).entries[0]? = some v ∧ (moverEntryOf v).op = 2 ∧ (moverEntryOf v).amode = 1 ∧
        moverCause (atMover 2 1) 7 (moverEntryOf v) 0x8000000040 = none ∧
        (moverGo 7 (moverEntryOf v) 0x8000000040 false (moverIn (atMover 2 1) 7 1) 1 0 (atMover 2 1)).2.2 = none) := by
  refine ⟨?_, ?_, ?_, ?_, ?_, ?_, ⟨_, rfl, ?_, ?_, ?_, ?_⟩, ⟨_, rfl, ?_, ?_, ?_, ?_⟩⟩ <;> decide +kernel

/-- Tile 12 waits inside a VSTA for room on channel 5, where there is room. -/
def stretched : State :=
  { atTile 12 0 with
    units := [(tileKey 0 12, { issued := 1, waiting := some (.channel 5), blocked := some {
      word := vstaWord 0 0x10003, got := [], moved := 0, out := [], effectDone := false } })] }

/-- What is left to it. -/
def stretchedPlan : Plan := wordPlan stretched 0 12 (vstaWord 0 0x10003)

/-- Tile 23 with nothing in its queue. -/
def idleTile : State := { atTile 23 0 with units := [] }

theorem witness_WaitingTileGoesOn :
    mayGoOn stretched (tileKey 0 12) = true ∧ midStroke (getUnit stretched (tileKey 0 12)) = true ∧ isXmov (vstaWord 0 0x10003) = false ∧
      stopAt stretched (tileKey 0 12) (getUnit stretched (tileKey 0 12)) stretchedPlan.strokes = stretchedPlan.strokes ∧
      (gather stretched stretchedPlan.demand []).2.2 = none ∧ (planEffect stretchedPlan 0 [] stretched).2.length = 1 ∧
      room (planEffect stretchedPlan 0 [] stretched).1 (planEffect stretchedPlan 0 [] stretched).2 ∧
      mayGoOn idleTile (tileKey 0 23) = true ∧ (getUnit idleTile (tileKey 0 23)).queue = [] ∧ canIssue idleTile (tileKey 0 23) = true := by
  refine ⟨?_, ?_, ?_, ?_, ?_, ?_, ?_, ?_, ?_, ?_⟩
  all_goals first | decide +kernel | (unfold room; decide +kernel)

/-! ### Witnesses: the step and the launch -/

/-- A plot is open, with a neighbour on port 49 sub 7 that is a child of both trees, and the link carries the plot. -/
def plotted : State :=
  { serving with
    sec := { isOpen := true, plot := 9, devices := 2
             topo := [{ port := 49, sub := 7, role := 0x0A, peerPort := 0, peerSub := 0, peerId := 0, peerMac := 0 }] }
    subs := [(subKey 49 7, { state := .plot, linkUp := true, cfgIn := 0x10C06, pen := true, rolesKnown := true })] }

/-- The device is ready for step 5, free-running, and its time has come. -/
def readyToLaunch : State :=
  { plotted with launch := { state := .committed, nextStep := 5, ready := some {}, armRec := { State.reset.launch.armRec with firstStep := 5 } } }

theorem witness_LaunchTickStartsStep :
    readyToLaunch.sec.isOpen = true ∧ readyToLaunch.step.running = false ∧ readyToLaunch.time.relock = false ∧
      anyHalted readyToLaunch = false ∧ readyToLaunch.launch.state = .committed ∧ endFor readyToLaunch 5 = none ∧
      readyToLaunch.launch.ready = some {} ∧ tickReached readyToLaunch 5 = true ∧ readyToLaunch.launch.reloading = false ∧
      isHead readyToLaunch = false ∧ blottedPort readyToLaunch = false := by decide +kernel

/-- The head of a serving plot has room for tokens and seals. -/
theorem witness_head_launch :
    let s := { readyToLaunch with sec := { readyToLaunch.sec with serving := true } }
    isHead s = true ∧ tokenRoom s = true ∧ sealRoom s = true := by decide +kernel

/-- A step runs with nothing to do. -/
def running : State := { plotted with step := { running := true, number := 7 } }

theorem witness_StepEndsAndCommits :
    running.step.running = true ∧ running.step.voided = false ∧ running.step.localEnded = false ∧ allRetired running = true ∧
      commitsComplete { running with step := { running := true, localEnded := true } } = true ∧
      residue { running with step := { running := true, localEnded := true } } = false ∧ running.sec.serving = false ∧
      running.mbox.ckpt = none := by decide +kernel

theorem witness_StepVoidAndReexecution :
    running.step.running = true ∧ running.step.voided = false ∧ running.step.localEnded = false ∧ running.step.ownVoids = 0 ∧
      1 ≤ ({ running := true, ownVoids := 1 } : StepSt).ownVoids ∧ running.sec.serving = false ∧ running.mbox.ckpt = none ∧
      ({ running := true, voided := true } : StepSt).reload = none := by decide +kernel

theorem witness_StepFailuresAndBoundary :
    running.step.running = true ∧ dryHold running = false ∧ anyHalted running = false ∧ inMemory running 0x8000000000 = true ∧
      inMemory running 0xFFFFFFFFFF = true ∧ running.load.liveManifest = none ∧
      inService { serving with sheets := { flipPending := true } } = true ∧ serving.step.running = false ∧ launching serving = false ∧
      serving.ddrs = [] ∧ serving.mbox.rings = [] ∧ serving.mbox.came = [] := by decide +kernel

/-- The header of a launch message of step 7 from device 1. -/
def hdr7 : LaunchHdr := { tree := 1, hops := 0, origin := 1, job := 0, step := 7 }

theorem witness_FloodedNotices :
    plotted.sec.isOpen = true ∧ (getSub plotted (subKey 49 7)).state = .plot ∧ hdr7.tree.toNat ≤ 1 ∧ plotted.launch.seen = [] ∧
      (9 : BitVec 8).toNat < 16 ∧ tb failMask.toNat (9 : BitVec 8).toNat = true ∧ tb failMask.toNat (3 : BitVec 8).toNat = true ∧
      plotted.step.running = false := by decide +kernel

/-- A device of a plot armed for step 0. -/
def armedFor : State :=
  { plotted with launch := { state := .armed, before := .idle, censusA := { own := true } } }

theorem witness_CensusAndCommitMessages :
    (treeChildren plotted 1).contains (subKey 49 7) = true ∧ (censusOf plotted 1).heard = [] ∧ (censusOf plotted 1).sent = false ∧
      (censusOf plotted 1).own = false ∧ plotted.launch.armWaiter = none ∧ plotted.sec.position = 0 ∧ plotted.launch.digests = [] ∧
      (censusOf armedFor 0).own = true ∧ (censusOf armedFor 0).sent = false ∧ armedFor.launch.armWaiter = none ∧ armedFor.launch.state = .armed ∧
      armedFor.launch.armRec.job = 0 ∧ armedFor.launch.armRec.firstStep = 0 ∧ nowNs armedFor < 0 * 1000000000 + 1 := by decide +kernel

/-! ### Witnesses: time and pace -/

/-- A register of a state at a value. -/
def withReg (s : State) (off : Nat) (v : BitVec 256) : State := { s with regs := tset (regReset off) s.regs off v }

theorem witness_TimebaseCommands :
    State.reset.time.relock = false ∧ ({ setGo := true } : TimeSt).setGo = true ∧
      ((0 : Int) * (1000000000 * 2 ^ 32) + 0 + (0x100000000 : BitVec 36).toNat + (0 : BitVec 47).toInt * 2 ^ 16 =
        (0 : Int) * (1000000000 * 2 ^ 32) + 4294967296) := by decide +kernel

theorem witness_ReferencesAndRegionStops :
    refOk ({ refBok := true } : TimeSt) (1 - 0) = true ∧ refOk ({} : TimeSt) (1 - 1) = false ∧ ({} : TimeSt).refSel = 0 ∧
      refOk ({ relock := true, refAok := true } : TimeSt) 0 = true ∧
      (tget ({} : StackSt) [(7, { stopping := true })] 7).stopping = true ∧
      (getDdr { State.reset with ddrs := [(7, { stopping := true })] } (15 - 8)).stopping = true := by decide +kernel

/-- PPS input and output are on, the input is in state OK. -/
def ppsOn : State := { withReg State.reset offTbaseCtl 0x18 with time := { ppsState := 1, timeValid := true, now := { acc := 999000000 * 2 ^ 32 } } }

theorem witness_PpsCommands :
    cfg ppsOn offTbaseCtl 3 3 = 1 ∧ cfg ppsOn offTbaseCtl 4 4 = 1 ∧ ppsOn.time.ppsState = 1 ∧ ppsOn.time.ppsLastEdge = none ∧
      ppsOn.time.ppsRejTimes.length < 4 ∧ nsUnits 999000000 ≤ tvUnits ppsOn.time.now ∧ tvUnits { acc := 1000000 * 2 ^ 32 } ≤ nsUnits 1000000 ∧
      nsUnits 1000000 < tvUnits { acc := 1000000 * 2 ^ 32 + 2 ^ 16 } ∧ tvUnits { acc := 999000000 * 2 ^ 32 - 1 } < nsUnits 999000000 ∧
      ppsOn.time.relock = false ∧ tvUnits { acc := 2 ^ 32 } ≤ nsUnits 1 ∧ nsUnits 999999999 ≤ tvUnits { acc := 999999999 * 2 ^ 32 } ∧
      timeUnits State.reset.time.ppsOutAt + nsUnits (1000000 * cfg State.reset offTbaseCtl 14 5) ≤
        nowUnits { State.reset with time := { now := { acc := 100000000 * 2 ^ 32 } } } := by
  decide +kernel

/-- Port 49 sub 7 runs PTP in a role, with peer delay or not; the host owns the servo. -/
def ptpOn (role p2p : Nat) (p : PtpSt) : State :=
  { withReg (withReg plotted offTbaseCtl 1) (offPtpPort 49 7) (BitVec.ofNat 256 (1 + p2p * 8 + role * 16)) with ptp := [(subKey 49 7, p)] }

/-- A header that the port takes. -/
def ptpHdr0 (twoStep : Bool) : PtpHdr :=
  { domain := 0, seq := 5, sourceClock := 0, sourcePort := 0, correction := 0, twoStep }

theorem witness_PtpMessages :
    (∀ role, role ∈ [1, 2] → ∀ p2p, p2p ∈ [0, 1] →
      ptpTake (ptpOn role p2p {}) 49 7 (ptpHdr0 true) true = some true ∧ ptpTake (ptpOn role p2p {}) 49 7 (ptpHdr0 false) false = some true ∧
        ptpRole (ptpCountEvent (ptpOn role p2p {}) 49 7) 49 7 = role ∧ ptpCfg (ptpOn role p2p {}) 49 7 3 3 = p2p ∧
        hostOwnsServo (ptpOn role p2p {}) = true ∧ ptpCfg (ptpOn role p2p {}) 49 7 0 0 = 1) ∧
      (getPtp (ptpOn 2 0 { syncPending := some (5, 1) }) (subKey 49 7)).syncPending = some ((ptpHdr0 false).seq, 1) ∧
      (getPtp (ptpOn 2 0 { reqSent := some (5, 1), lastSync := some 2 }) (subKey 49 7)).reqSent = some ((ptpHdr0 false).seq, 1) ∧
      (getPtp (ptpOn 2 0 { reqSent := some (5, 1), lastSync := some 2 }) (subKey 49 7)).lastSync = some 2 ∧
      (getPtp (ptpOn 2 1 { pdelayPending := some (5, 1) }) (subKey 49 7)).pdelayPending = some ((ptpHdr0 false).seq, 1) := by decide +kernel

theorem witness_PtpTimers :
    ptpMaySend (ptpOn 1 0 {}) 49 7 true = true ∧ ptpMaySend (ptpOn 1 0 {}) 49 7 false = true ∧ ptpRole (ptpOn 1 0 {}) 49 7 = 1 ∧
      ptpMaySend (ptpOn 2 0 {}) 49 7 true = true ∧ ptpRole (ptpOn 2 0 {}) 49 7 = 2 ∧ ptpCfg (ptpOn 2 0 {}) 49 7 3 3 ≠ 1 ∧
      ptpMaySend (ptpOn 2 1 {}) 49 7 true = true ∧ ptpCfg (ptpOn 2 1 {}) 49 7 3 3 = 1 ∧ ptpRole (ptpOn 2 1 {}) 49 7 ≠ 0 := by decide +kernel

theorem witness_PaceAndRails :
    State.reset.pace.avsFault = false ∧ State.reset.launch.paced = false ∧ paceDue State.reset = true ∧ overPower State.reset = false ∧
      overTemp State.reset = false ∧ State.reset.pace.railMv.toNat = cfg State.reset offPaceRate 41 32 ∧
      (700 : BitVec 10).toNat ≠ cfg State.reset offPaceRate 41 32 ∧
      min (max 705 (cfg State.reset offPaceLimits 9 0)) (cfg State.reset offPaceLimits 19 10) ≠ (700 : BitVec 10).toNat := by decide +kernel

/-! ### Witnesses: span ports -/

/-- Sub-port 0 of port 49 in a state, on an enabled port. -/
def atSub (b : SubSt) : State :=
  { withReg serving (offSpanCfg 49) 0x88B58014 with subs := [(subKey 49 0, b)] }

theorem witness_SpanTrainingAndLinkDown :
    ({ training := true } : SubSt).training = true ∧ ownLanes (shareOf { cfgIn := 4 }) 0 &&& ~~~(0xFE : BitVec 8) = 1 ∧
      widthFor 8 (laneCount 1) ≠ 0 ∧ isDirect { cfgIn := 4 } = true ∧
      widthFor 8 (laneCount (ownLanes (shareOf { cfgIn := 4 }) 0 &&& ~~~(0xFF : BitVec 8))) = 0 ∧
      subThere (atSub {}) 49 0 = true ∧ isDirect (getSub (atSub { cfgIn := 4, rolesKnown := true, state := .down }) (subKey 49 0)) = true ∧
      (getSub (atSub { linkUp := true, state := .up }) (subKey 49 0)).state ≠ .plot ∧
      (getSub (atSub { linkUp := true, state := .plot }) (subKey 49 0)).state = .plot ∧
      (tget {} ({ atSub { holding := true } with ports := [(49, { dryMs := 1 })] } : State).ports 49).dryMs ≠ 0 := by decide +kernel

/-- A handshake message of a partner. -/
def shake (mode flags : BitVec 8) (rx tx : BitVec 32) : HandshakeMsg :=
  { deviceId := 1, port := 0, sub := 0, mode, width := 8, replayLevel := 0, flags, plot := 0, rxExpect := rx, pool := 0, res := 0, txStart := tx, mac := 0 }

/-- The entry of a topology view that names that partner of port 49 sub 0. -/
def shakeTopo : TopoEnt := { port := 49, sub := 0, role := 0, peerPort := 0, peerSub := 0, peerId := 1, peerMac := 0 }

theorem witness_SpanHandshakes :
    (shake 3 0 0 0).mode.toNat ≠ subCfg { cfgIn := 4 } 1 0 ∧ (shake 0 3 0 0).mode.toNat = subCfg { cfgIn := 4 } 1 0 ∧
      ({} : SubSt).partnerReset = false ∧ tb (shake 0 3 0 0).flags.toNat 1 = true ∧ tb (shake 0 3 0 0).flags.toNat 0 = ({} : SubSt).needReset ∧
      tb (shake 0 2 1 0).flags.toNat 0 = ({ needReset := false } : SubSt).needReset ∧
      seqDist 0 (shake 0 2 1 0).rxExpect ≤ [((0 : BitVec 32), ({ header := 0, payload := 0, crc := 0 } : Grain))].length ∧
      serving.sec.isOpen = false ∧ tb (shake 0 2 1 0).flags.toNat 0 = false ∧ plotted.sec.isOpen = true ∧
      topoFor { plotted with sec := { plotted.sec with topo := [shakeTopo] } } (subKey 49 0) = some shakeTopo ∧
      shakeTopo.peerId = (shake 0 2 1 0).deviceId ∧ shakeTopo.peerPort.toNat = (shake 0 2 1 0).port.toNat % 64 ∧
      shakeTopo.peerSub.toNat = (shake 0 2 1 0).sub.toNat % 8 ∧ ({} : SecSt).plot = (shake 0 2 1 0).plot ∧ plotted.mbox.opener = none := by
  decide +kernel

/-- A direct link of four lanes that narrows and widens, at the pen-holder or not. -/
def lanes4 (pen narrowing realigned : Bool) : SubSt :=
  { linkUp := true, cfgIn := 0x8004, rolesKnown := true, state := .up, width := 4, lanes := 0x0F, goodLanes := 0x0F, pen, narrowing, realigned }

theorem witness_SpanLaneOperations :
    tidy (atSub (lanes4 true false false)) = true ∧ (∀ p n r, canNarrow (lanes4 p n r) = true) ∧
      (0x08 : BitVec 8) &&& (lanes4 true false false).lanes ≠ 0 ∧ shareOf (lanes4 true false false) ≠ 8 ∧
      widthFor ((lanes4 true false false).width.toNat - 1) (laneCount (goodBoth { lanes4 true false false with badLanes := 0x08 })) ≠ 0 ∧
      widthFor ((lanes4 true false false).width.toNat - 1) (laneCount (goodBoth { lanes4 true false false with partnerBad := 0x08 })) ≠ 0 ∧
      (1 : BitVec 32) ≠ (lanes4 false false false).opNum ∧ seqDist 0 0 ≤ (lanes4 false true true).replay.length ∧
      ({ lanes4 false true true with state := .plot } : SubSt).state = .plot ∧
      widthFor 8 (laneCount (goodBoth { lanes4 true false false with badLanes := 0, partnerBad := 0xF0 })) ≠ 0 ∧
      (atSub (lanes4 true false false)).step.running = false ∧ ({ lanes4 false false false with linkOp := 2 } : SubSt).linkOp = 2 := by
  decide +kernel

/-- A plot's sub-port with inbound span channel 4095 to channel 5 and outbound span channel 9 from channel 6, which holds a drop. -/
def spanPlot (n : BitVec 64) (go : Bool) : State :=
  { atSub { state := .plot, linkUp := true, cfgIn := 0x8004 } with
    sec := { isOpen := true }
    sheets := { live := some { channels := [chanW 5 (0x1D * 2 ^ 6 + 17 * 2 ^ 15 + 1) 0 64 ||| BitVec.ofNat 128 (4095 * 2 ^ 79),
      chanW 6 0 (0x1D * 2 ^ 6 + 17 * 2 ^ 15 + 1) 64 ||| BitVec.ofNat 128 (9 * 2 ^ 79)] } }
    step := { running := go, number := n }, chans := [(6, [1])] }

theorem witness_SpanChannelGrains :
    tidy (spanPlot 0 true) = true ∧ carriesPlot (spanPlot 0 true) (subKey 49 0) = true ∧
      inSpanChan (spanPlot 0 true) (subKey 49 0) 4095 = some 5 ∧ (spanPlot 0 true).step.running = true ∧
      senderStep (spanPlot 0 true) (subKey 49 0) 4095 + BitVec.ofNat 64 (lagOf (spanPlot 0 true) (subKey 49 0) 4095) = 0 ∧
      (spanPlot 0 true).step.consumed.contains (spanKey (subKey 49 0) 4095) = false ∧
      (spanPlot 0 false).launch.nextStep.toNat ≤ (0 : BitVec 64).toNat ∧ isHead (spanPlot 0 true) = false ∧ [1, 2, 3, (4 : Drop)].length ≤ 4 := by
  decide +kernel

/-- A payload with given first bytes. -/
def payloadOf (bs : Bytes) : BitVec 2048 := wordOf 2048 bs

/-- One block of 64 bytes of 0, and a manifest that holds it. -/
def block64 : BlockEnt :=
  { length := 64, firstPos := 0, lastPos := 0, stage := 0, target := 0, digest := sm3 (List.replicate 64 0), kind := 0, fmt := 0, anchor := 0 }

def manifest1 : ManifestSt := { epoch := 1, adapter := 0, digest := 0, blocks := [block64], retain := 0, retainLen := 0 }

/-- The plot's device whose load chain has its neighbours on the sub-port. -/
def chained (role : BitVec 8) (l : LoadSt) : State :=
  { spanPlot 0 true with
    sec := { isOpen := true, topo := [{ port := 49, sub := 0, role, peerPort := 0, peerSub := 0, peerId := 0, peerMac := 0 }] }, load := l }

theorem witness_SpanMessageGrains :
    carriesPlot (spanPlot 0 true) (subKey 49 0) = true ∧ launchParse (launchPayload { hdr := hdr7, body := .hold 49 0 10 }) ≠ none ∧
      launchParse (payloadOf [9]) = none ∧
      cfg (withReg (withReg (spanPlot 0 true) offInbandCfg (2 ^ 10)) offSinkPtr 1) offInbandCfg 10 10 = 1 ∧
      cfg (withReg (withReg (spanPlot 0 true) offInbandCfg (2 ^ 10)) offSinkPtr 1) offSinkPtr 23 0 ≠ 0 ∧
      ((0 : BitVec 32) - BitVec.ofNat 32 0).toNat ≠ 1 ∧
      uplink (withReg (spanPlot 0 true) offInbandCfg (BitVec.ofNat 256 (49 + 2 ^ 9 + 2 ^ 11))) = some (subKey 49 0) ∧
      cfg (withReg (spanPlot 0 true) offInbandCfg (BitVec.ofNat 256 (49 + 2 ^ 9 + 2 ^ 11))) offInbandCfg 11 11 = 1 ∧
      uplink (spanPlot 0 true) = none ∧
      uplink (withReg (spanPlot 0 true) offInbandCfg 49) = some (subKey 49 0) ∧ cfg (withReg (spanPlot 0 true) offInbandCfg 49) offInbandCfg 11 11 ≠ 1 ∧
      loadPrev (chained 0x20 {}) = some (subKey 49 0) ∧ loadNext (chained 0x10 {}) = some (subKey 49 0) ∧
      (∃ m, loadOf (chained 0x20 { manifests := [manifest1] }) 1 = some m ∧ (0 : BitVec 32).toNat < m.blocks.length ∧
        m.blocks[0]? = some block64 ∧ block64.length = 64) ∧
      ([] : Bytes).length + 256 < (257 : BitVec 32).toNat ∧ (64 : BitVec 32).toNat ≤ ([] : Bytes).length + 256 ∧
      sm3 ((([] : Bytes) ++ bytesOf 256 (payloadOf [])).take 64) = block64.digest ∧
      sm3 ((([] : Bytes) ++ bytesOf 256 (payloadOf [1])).take 64) ≠ block64.digest ∧
      (([{ epoch := 1, block := 0, failures := 2, queued := true, bytes := [] }] : List BlockTx).any fun t => t.epoch == 1 && t.block == 0)
        = true := by
  refine ⟨?_, ?_, ?_, ?_, ?_, ?_, ?_, ?_, ?_, ?_, ?_, ?_, ?_, ⟨_, rfl, ?_⟩, ?_, ?_, ?_, ?_, ?_⟩ <;> decide +kernel

/-- A grain whose check is right for sequence number 0, or one too high. -/
def grain0 (off : BitVec 32) : Grain := { header := 7, payload := 1, crc := grainCrc 0 { header := 7, payload := 1, crc := 0 } + off }

theorem witness_grain_check : (grain0 0).crc = grainCrc 0 (grain0 0) ∧ (grain0 1).crc ≠ grainCrc 0 (grain0 1) := by
  simp only [grain0, grainCrc]
  generalize crc32c _ = x
  constructor <;> bv_omega

/-- A sub-port that replays. -/
def replayer : SubSt := { state := .plot, linkUp := true, cfgIn := 0x88B58004, replaying := true, replay := [(0, { header := 7, payload := 1, crc := 0 })] }

theorem witness_SpanFramesAndTimers :
    tidy (atSub replayer) = true ∧ mayTransmit replayer = true ∧ frame1.fcsOk = true ∧ frame1.etherType.toNat = subCfg replayer 31 16 ∧
      frame1.vlan = vlanOf replayer ∧ replayer.holding = false ∧ replayer.state = .plot ∧ frame1.version = 1 ∧ 1 ≤ frame1.grains.toNat ∧
      tb frame1.flags.toNat 0 = false ∧ replayer.replayPos < replayer.replay.length ∧ 1 ≤ grainsMax replayer ∧
      replayer.replay.length ≤ ({ replayer with replayPos := 1 } : SubSt).replayPos ∧
      outSpanChan (spanPlot 0 true) (subKey 49 0) 9 = some 6 ∧ getChan (spanPlot 0 true) 6 ≠ [] := by decide +kernel

theorem witness_MemoryControllers :
    95 ≤ (95 : BitVec 8).toNat ∧ (85 : BitVec 8).toNat ≤ 85 ∧ (getStack State.reset 7).steppedDown = false ∧
      (getStack { State.reset with stackTbl := [(7, { steppedDown := true })] } 7).steppedDown = true ∧
      (getDdr { State.reset with ddrs := [(7, { state := 2, trains := 5, rateMts := 8800 })] } 7).state = 2 ∧ State.reset.step.running = false ∧
      tb (5 : BitVec 3).toNat 1 = false ∧ tb (5 : BitVec 3).toNat 2 = true ∧ (8800 : BitVec 14) ≠ 7200 ∧
      patrolHours State.reset 0xFFFFFFFFFF ≠ 0 := by
  refine ⟨?_, ?_, ?_, ?_, ?_, ?_, ?_, ?_, ?_, ?_⟩ <;> decide +kernel

/-! ### Witnesses: host link, rings, mailbox commands -/

theorem witness_HostLinkCommands :
    serving.boot.phase = .service ∧ serving.mbox.sealHold = [] ∧ serving.launch.short = false ∧ serving.mbox.link = 2 ∧
      (1 : BitVec 4).toNat < serving.mbox.width.toNat ∧ ({} : MboxSt).link ≠ 2 ∧ inDataArea 0xFFFFFFFFFF [(0 : Byte)].length = true ∧
      decodeAddr 0x8000000000 = .stack 0 0 ∧ inWindow 0x8000000000 = false ∧ plotted.sec.isOpen = true ∧ serving.sec.isOpen = false ∧
      writesLive plotted 0x8000000000 2 = false ∧ decodeAddr (commonsAddr 63 + 0x3FFFFFF) = .commons 63 0x3FFFFFF ∧
      inWindow (commonsAddr 63 + 0x3FFFFFF) = false ∧
      writesLive { plotted with sheets := { live := some {}, liveSlot := 1 } } (commonsAddr 63 + 0x3FFFFFF) 1 = true ∧
      backedRange serving 0x8000000000 2 = true ∧ writesLive serving 0x8000000000 2 = false ∧
      [({ ring := 15, seq := 9, cmd := .scrub } : HostRead)].find? (readIs (15 : BitVec 4).toNat 9) = some { ring := 15, seq := 9, cmd := .scrub } := by
  decide +kernel

/-- Ring 15 with some entries read, and memory that holds a command in the next one. -/
def ringAt (n : BitVec 32) (c : MboxCmd) : State :=
  memWrite { serving with mbox := { rings := [(15, { nextSeq := n, tail := n })], link := 2, width := 4 } } (ringEntryAddr 15 n.toNat) (entryBytesOf n c)

theorem witness_DoorbellsAndRings :
    256 < ((264 : BitVec 32) - (getRing (ringAt 7 .scrub) 15).nextSeq).toNat ∧ ((264 : BitVec 32) - 7).toNat < 2 ^ 31 ∧
      inService (ringAt 7 .scrub) = true ∧ ringWaits (getRing (ringAt 7 .scrub) 15) = false ∧ (ringAt 7 .scrub).mbox.link = 2 ∧
      badRead (ringAt 7 .scrub) (ringEntryAddr 15 7) 128 = none ∧ (List.replicate 128 (0 : Byte)).length = 128 ∧
      ({} : MboxSt).link ≠ 2 ∧ serving.mbox.sealHold = [] ∧ serving.launch.short = false ∧ serving.boot.phase = .service ∧
      fieldAt 32 (memRead (ringAt 7 .scrub) (ringEntryAddr 15 8) 128) 0 4 ≠ 8 ∧ ifServed (ringAt 7 .scrub) 1 = true ∧
      isCommand .scrub = true ∧ memRead (ringAt 7 .scrub) (ringEntryAddr 15 7) 128 = entryBytesOf 7 .scrub ∧
      1 ≤ announced { nextSeq := 7, tail := 8 } ∧ announced { nextSeq := 7, tail := 263 } ≤ 256 := by decide +kernel

theorem witness_CompletionIsWritten : tidy serving = true ∧ (List.replicate 48 (0 : Byte)).length ≤ 48 := by decide +kernel

/-- A topology view of one direct neighbour on port 49. -/
def view1 : Bytes :=
  [0x54, 0x4F, 0x50, 0, 1, 0, 1, 0] ++ bytesOf 2 (9 : BitVec 16) ++ [0, 0] ++ bytesOf 4 (0 : BitVec 32) ++ bytesOf 4 (2 : BitVec 32)
    ++ List.replicate 44 0 ++ [49, 0, 0x0A] ++ List.replicate 21 0

/-- OPEN_PLOT of that view as position 0 of two devices. -/
def open1 : OpenPlotBody :=
  { plot := 9, flags := 7, devices := 2, position := 0, dryMs := 0, topo := 0, topoLen := 88, waitMs := 0, servingIf := 1
    servCfg := (cfgReg serving offServCfg).setWidth 64
    topoDigest := sm3 view1 }

/-- Host memory with given bytes from address 0. -/
def hostOf (bs : Bytes) : HostView := bs.zipIdx.map fun e => (e.2, e.1)

/-- A serving device that has no work: commands are served as they are read. -/
theorem servedIdle (s : State) (ring : BitVec 4) (c : MboxCmd) (h : (inService s && !ringWaits (getRing s ring.toNat) && atDoorbell s c) = true) :
    servedNow s ring c := by
  simp only [Bool.and_eq_true, Bool.not_eq_true'] at h
  exact ⟨h.1.1, h.1.2, h.2⟩

/-- A serving device whose memory has been scrubbed. -/
def scrubbed : State := { serving with sec := { scrubbed := true } }

theorem witness_openPlot :
    servedNow scrubbed 15 (.openPlot open1) ∧ openError scrubbed open1 = none ∧ scrubbed.mbox.link = 2 ∧
      sm3 (hostView (hostOf view1) 0 88) = open1.topoDigest ∧ topoHeaderOk scrubbed open1 (hostView (hostOf view1) 0 88) = true ∧
      (topoEnts (hostView (hostOf view1) 0 88)).all (topoEntOk scrubbed) = true ∧
      topoObeys 0 (topoEnts (hostView (hostOf view1) 0 88)) = true ∧ (topoEnts (hostView (hostOf view1) 0 88)).filter (barred scrubbed) = [] := by
  refine ⟨servedIdle _ _ _ ?_, ?_, ?_, ?_, ?_, ?_, ?_, ?_⟩ <;> decide +kernel

theorem witness_PlotCommands :
    servedNow plotted 15 (.closePlot 1) ∧ plotted.sec.isOpen = true ∧ servedNow serving 15 .scrub ∧ serving.sec.scrubState ≠ 1 ∧
      ({ serving with mbox := { scrubber := some (15, 3) } } : State).mbox.scrubber = some (15, 3) ∧ tidy serving = true ∧
      scrubKeeps serving 0 = false ∧ plotted.sec.topo ≠ [] ∧
      (∀ e ∈ plotted.sec.topo, (getSub { plotted with subs := [] } (topoKey e)).state ≠ .plot) := by
  refine ⟨servedIdle _ _ _ ?_, ?_, servedIdle _ _ _ ?_, ?_, ?_, ?_, ?_, ?_, ?_⟩ <;> decide +kernel

/-- A serving plot's head that is idle, with a sheet in the shadow slot and no port in its trees. -/
def headIdle : State :=
  { serving with
    sec := { isOpen := true, serving := true, devices := 1 }, sheets := { live := some {}, shadow := some {}, shadowValid := true } }

/-- An arm record that the device accepts at first. -/
def arm0 (mode : BitVec 8) : ArmRecord := { State.reset.launch.armRec with periodNs := 1000, devices := 1, mode }

theorem witness_SheetAndLaunchCommands :
    servedNow serving 15 (.loadSheet 0 64 0) ∧ serving.sheets.loading = none ∧ serving.sec.scrubState ≠ 1 ∧ serving.sheets.flipPending = false ∧
      serving.mbox.link = 2 ∧ servedNow headIdle 15 .flipSheet ∧ headIdle.sheets.shadowValid = true ∧
      (noStep headIdle = true ∧ headIdle.launch.armWaiter = none) ∧ headIdle.launch.state ≠ .armed ∧ servedNow { headIdle with sec := { isOpen := true } } 15 (.arm 0 (arm0 0)) ∧
      armReasons { headIdle with sec := { isOpen := true } } 0 (arm0 0) = 0 ∧
      armReasons { headIdle with sec := { isOpen := true }, time := { timeValid := true, bound := 0 } } 0 (arm0 1) = 0 ∧
      1000 ≤ (arm0 1).periodNs.toNat ∧
      servedNow { headIdle with launch := { state := .armed, censusOk := true } } 15 (.commit 10 0) ∧
      nowUnits headIdle + nsUnits (cfg headIdle offLead 31 0 * 1000) ≤ nsUnits (10 * 1000000000) ∧
      nsUnits (10 * 1000000000) ≤ nowUnits headIdle + nsUnits 10000000000 := by
  refine ⟨servedIdle _ _ _ ?_, ?_, ?_, ?_, ?_, servedIdle _ _ _ ?_, ?_, ?_, ?_, servedIdle _ _ _ ?_, ?_, ?_, ?_, servedIdle _ _ _ ?_, ?_, ?_⟩
    <;> decide +kernel

/-- ADMIT of a prompt of one token. -/
def admit1 : AdmitBody :=
  { rid := 1, seed := 0, epoch := 0, adapter := 0, tenant := 0, flags := 0, prompt := 1, maxTokens := 1, stopToken := 0
    promptAddr := 0xFFFE000000, deadlineS := 0, deadlineNs := 0, sealLen := 0, sealAddr := 0 }

/-- A head with 64 folios and a slot 8191 of request 3. -/
def headWith (v : Slot) : State :=
  { withReg headIdle offLimits 64 with serv := { slots := if v.state = .free then [] else [(8191, v)] } }

theorem witness_admit :
    servedNow (headWith {}) 15 (.admitReq admit1) ∧ isHead (headWith {}) = true ∧ freeSlotFrom (headWith {}) 0 8192 = some 0 ∧
      admit1.epoch = (headWith {}).serv.admission ∧ adapterReady (headWith {}) 0 0 = true ∧ admitFieldsOk admit1 = true ∧
      (sieveLookup (headWith {}) (newSlot (headWith {}) admit1 (promptTokens (headWith {}) 0xFFFE000000 1)) [0]).folios = [] ∧
      findRun (headWith {}) (runLength (headWith {}) (newSlot (headWith {}) admit1 [0])) none [] [] = some 0 := by
  refine ⟨servedIdle _ _ _ ?_, ?_, ?_, ?_, ?_, ?_, ?_, ?_⟩ <;> decide +kernel

/-- A live manifest's load that is complete. -/
def staged1 : LoadSt := { manifests := [{ manifest1 with complete := true }] }

theorem witness_ServingCommands :
    let s := headWith { state := .held, rid := 3, hostHold := true }
    slotError s 8191 3 = none ∧ (getSlot s 8191).decided = false ∧ servedNow s 15 (.cancel 8191 3) ∧ servedNow s 15 (.pause 8191 3) ∧
      noStep s = true ∧ servedNow s 15 (.resume 8191 3) ∧ (getSlot s 8191).hostHold = true ∧ servedNow s 15 (.setDeadline 8191 3 0 0) ∧
      (getSlot s 8191).state ≠ .ending ∧ servedNow { s with load := staged1 } 15 (.activateEpoch 1 1) ∧
      (staged1.manifests.find? fun m => m.epoch == 1 && m.adapter == 0 && m.complete) = some { manifest1 with complete := true } ∧ isHead s = true ∧
      cfg (withReg s offPolicy (2 ^ 40)) offPolicy 63 40 ≠ 0 ∧
      timeUnits (getSlot s 8191).since + nsUnits (1 * 1000000) < nowUnits { s with time := { now := { sec := 1 } } } ∧
      cfg (withReg s offEpochCtl (2 ^ 16)) offEpochCtl 47 16 ≠ 0 ∧ 1 ≤ ({ switching := true, drainSteps := 1, admission := 1 } : ServSt).drainSteps ∧
      ([{ slot := 8191, rid := 3, output := 0, addr := 0, core := [], obs := [] }] : List SealJob).find? (fun j => j.slot == 8191) ≠ none := by
  refine ⟨?_, ?_, servedIdle _ _ _ ?_, servedIdle _ _ _ ?_, ?_, servedIdle _ _ _ ?_, ?_, servedIdle _ _ _ ?_, ?_, servedIdle _ _ _ ?_,
    ?_, ?_, ?_, ?_, ?_, ?_, ?_⟩ <;> decide +kernel

/-- LOAD_MANIFEST of 272 bytes for epoch 1. -/
def man1 : ManifestBody :=
  { epoch := 1, adapter := 0, host := 0, length := 192, timeoutS := 86400, retain := 0, retainLen := 0, digest := 1 }

theorem witness_CheckpointAndLoadCommands :
    servedNow headIdle 15 (.checkpoint 0 0 0 0) ∧ headIdle.sec.isOpen = true ∧ headIdle.sheets.flipPending = false ∧
      (upcoming headIdle).toNat ≤ (0 : BitVec 64).toNat ∧ headIdle.mbox.ckpt = none ∧
      freeDimm { headIdle with ddrs := [(7, { state := 2, sizeGib := 64 })] } 0x5C000000000 64 = true ∧ headIdle.mbox.link = 2 ∧
      backedRange headIdle 0x8000000000 160 = true ∧ servedNow headIdle 15 (.restore 1 0x8000000000 160 0) ∧
      headIdle.step.launchedSinceOpen = false ∧ headIdle.mbox.restore = none ∧ servedNow headIdle 15 (.loadManifest man1) ∧
      man1.epoch ≠ headIdle.serv.live ∧ inStack 0x8000000000 64 = true ∧ headIdle.load.manifests = [] ∧ headIdle.load.reading = [] ∧
      servedNow { headIdle with load := { manifests := [manifest1] } } 15 (.loadBlock 1 0 0 64) ∧ loadPrev headIdle = none ∧
      loadOf { headIdle with load := { manifests := [manifest1] } } 1 = some manifest1 ∧ manifest1.blocks[0]? = some block64 ∧
      manifestReading { headIdle with load := { reading := [(15, 4, man1)] } } 15 4 = some man1 ∧
      (match manifestCheck headIdle man1 [] with | .inl e => e | .inr _ => 0) = errDigest ∧ inService headIdle = true ∧
      ({ manifest1 with waiter := some (15, 4) } : ManifestSt).waiter = some (15, 4) ∧
      (([(15, 4, man1)] : List (Nat × BitVec 32 × ManifestBody)).find? fun r => r.2.2.epoch == man1.epoch && r.2.2.adapter == man1.adapter)
        = some (15, 4, man1) := by
  refine ⟨servedIdle _ _ _ ?_, ?_, ?_, ?_, ?_, ?_, ?_, ?_, servedIdle _ _ _ ?_, ?_, ?_, servedIdle _ _ _ ?_, ?_, ?_, ?_, ?_, servedIdle _ _ _ ?_,
    ?_, ?_, ?_, ?_, ?_, ?_, ?_, ?_⟩ <;> decide +kernel

theorem witness_TimeQueryAndPortCommands :
    servedNow serving 15 (.timeSet 0 0 0) ∧ hostOwnsServo serving = false ∧ hostOwnsServo (withReg serving offTbaseCtl 1) = true ∧ setOk serving = true ∧
      servedNow serving 15 (.timeAdjust 15 0x100000000 0 1000 3) ∧ adjustOk serving 15 0x100000000 0 1000 3 = true ∧ offsetOk serving 0 = true ∧
      servedNow serving 15 (.query 6 0 1 0xFFFE000000 64) ∧ inDataArea 0xFFFE000000 64 = true ∧ servedNow serving 15 (.query 7 0 0 0xFFFE000000 64) ∧
      servedNow serving 15 (.blotterDrain 255 0xFFFE000000 64) ∧ servedNow serving 15 (.attestQuote 0 0xFFFE000000 640) ∧
      inDataArea 0xFFFE000000 640 = true ∧ (49 : BitVec 8).toNat < 50 ∧ (0 : BitVec 8).toNat < subsOf serving 49 ∧
      servedNow serving 15 (.fencePort 49 0) ∧ servedNow serving 15 (.unfencePort 49 0) ∧ subThere (atSub { fenced := true }) 49 0 = true ∧
      tidy serving = true ∧ queryLost serving = none := by
  refine ⟨servedIdle _ _ _ ?_, ?_, ?_, ?_, servedIdle _ _ _ ?_, ?_, ?_, servedIdle _ _ _ ?_, ?_, servedIdle _ _ _ ?_, servedIdle _ _ _ ?_,
    servedIdle _ _ _ ?_, ?_, ?_, ?_, servedIdle _ _ _ ?_, servedIdle _ _ _ ?_, ?_, ?_, ?_⟩ <;> decide +kernel

/-- An update of a target with all of its blocks applied. -/
def update1 (target : BitVec 8) : UpdateSt :=
  { target, version := 1, length := 64, blocks := 2, digest := 0, applied := [0, 1], held := [] }

/-- A serving device with that update open. -/
def updating (target : BitVec 8) : State := { serving with boot := { serving.boot with update := some (update1 target) } }

theorem witness_UpdateAndGrantCommands :
    servedNow serving 15 (.updateBegin 4 1 64 2 0) ∧ serving.boot.update = none ∧ anyTrial serving = false ∧ (64 : BitVec 32).toNat ≤ updateMax 4 ∧
      servedNow (updating 3) 15 (.updateBlock 1 0 64 0) ∧ blockLengthOk (update1 3) 1 64 = true ∧ (update1 3).applied.contains 1 = true ∧
      ({ update1 3 with applied := [0] } : UpdateSt).applied.contains 1 = false ∧ servedNow (updating 3) 15 (.updateActivate 3) ∧
      servedNow (updating 0) 15 (.updateActivate 0) ∧ servedNow (updating 4) 15 (.updateActivate 4) ∧ (updating 4).sec.isOpen = false ∧
      (update1 4).blocks.toNat ≤ (update1 4).applied.length ∧ frozen (updating 4) = false ∧ sm3 (update1 4).held ≠ (update1 4).digest ∧
      servedNow { serving with boot := { serving.boot with hdrTrial := 8, hdrTries := 1 } } 15 .updateConfirm ∧
      anyTrial { serving with boot := { serving.boot with hdrTrial := 8, hdrTries := 1 } } = true ∧
      (getFw { serving with boot := { serving.boot with fw := [(3, { starting := true })], hdrTrial := 8 } } 3).starting = true ∧
      inTrial { serving with boot := { serving.boot with fw := [(3, { starting := true })], hdrTrial := 8 } } 3 = true ∧
      servedNow serving 15 (.debugGrant 0 192) ∧ nsUnits ((1 : BitVec 64).toNat * 1000000000) < nowUnits { serving with time := { now := { sec := 2 } } } := by
  refine ⟨servedIdle _ _ _ ?_, ?_, ?_, ?_, servedIdle _ _ _ ?_, ?_, ?_, ?_, servedIdle _ _ _ ?_, servedIdle _ _ _ ?_, servedIdle _ _ _ ?_, ?_, ?_, ?_,
    ?_, servedIdle _ _ _ ?_, ?_, ?_, ?_, servedIdle _ _ _ ?_, ?_⟩ <;> decide +kernel

/-! ### Witnesses: blotter, management, debug, power -/

/-- A coalescing window with some occurrences. -/
def window1 (n : BitVec 32) : AlarmWindow :=
  { cls := 5, cause := 1, locator := 0, count := n
    last := { seq := 0, cls := 5, cause := 1, flags := 1, timeS := 0, timeNs := 0, count := 0, step := 0, locator := 0, arg0 := 0, arg1 := 0, die := 0
              tag := 0, record := none } }

/-- The uplink is sub-port 7 of port 49. -/
def uplinked : State := withReg plotted offInbandCfg (49 + 7 * 64)

theorem witness_BlotterCommands :
    cfg uplinked offInbandCfg 10 10 ≠ 1 ∧ (uplink uplinked).isSome = true ∧ uplink serving = none ∧ cfg serving offInbandCfg 10 10 ≠ 1 ∧
    ([window1 0] : List AlarmWindow).find? (windowIs 5 1 0) = some (window1 0) ∧ (window1 0).count = 0 ∧ (window1 1).count ≠ 0 ∧
      ({ fill := [1] } : BlotSt).fill ≠ [] := by decide +kernel

theorem witness_ManagementCommands : inService serving = true := by decide +kernel

/-- A grant of every scope. -/
def granted : State := { serving with dbg := { grant := true, scope := 15, tapGrantOk := true } }

theorem witness_DebugPortCommands :
    serving.dbg.tapGrantOk = false ∧ granted.dbg.tapGrantOk = true ∧ decodeAddr 0xFFFFFFFFF8 = .stack 511 0x3FFFFFF8 ∧ inScope granted scopeRead = true ∧
      inScope serving scopeRead = false ∧ (0xFFFFFFFFF8 : DevAddr).toNat % 8 = 0 ∧ granted.boot.phase = .service ∧
      backedRange granted 0xFFFFFFFFF8 8 = true ∧ inScope granted scopeWrite = true ∧ writesLive granted 0xFFFFFFFFF8 8 = false ∧
      serving.dbg.grant = false ∧ inScope granted scopeHalt = true ∧ granted.sec.isOpen = false := by decide +kernel

/-- A halted tile 23 whose next command has 3 strokes, in a running step. -/
def haltedTile : State :=
  { granted with
    step := { running := true }, units := [(tileKey 63 23, { halted := true, queue := [waitWord 3] })] }

theorem witness_DebugRunControl :
    mayRun haltedTile = true ∧ (1 : BitVec 2).toNat < 2 ∧ tidy haltedTile = true ∧ haltedTile.dbg.bps = [] ∧
      tileKey 63 23 ∈ reachUnits 1 0 ∧ (getUnit haltedTile (tileKey 63 23)).halted = true ∧ tileOk 23 = true ∧ tileOk 31 = true ∧
      haltedTile.step.running = true ∧ haltedTile.step.voided = false ∧ haltedTile.step.localEnded = false ∧
      (getUnit haltedTile (tileKey 63 23)).oneMore = false ∧ (getUnit haltedTile (tileKey 63 23)).oneStroke = false ∧ transferTile 23 = true ∧
      (getUnit haltedTile (tileKey 63 23)).queue.head? = some (waitWord 3) ∧ (getUnit haltedTile (tileKey 63 23)).ended = false ∧
      (getUnit haltedTile (tileKey 63 23)).blocked = none ∧ turnOk haltedTile (tileKey 63 23) = true ∧ 1 < (3 : BitVec 16).toNat ∧
      anyHalted { haltedTile with sec := { isOpen := true }, dbg := { haltedTile.dbg with holdSent := true } } = true ∧
      (∃ e, e ∈ plotted.subs ∧ carries plotted e.1 = true) := by
  refine ⟨?_, ?_, ?_, ?_, ?_, ?_, ?_, ?_, ?_, ?_, ?_, ?_, ?_, ?_, ?_, ?_, ?_, ?_, ?_, ?_, ⟨_, List.mem_singleton.2 rfl, ?_⟩⟩ <;> decide +kernel

/-- STEP of one stroke runs one of its 3 strokes, and the next STEP the next. -/
theorem test_step_stroke :
    (getUnit (stepOn haltedTile 63 23 0) (tileKey 63 23)).stepped = 1 ∧
      (getUnit (stepOn (stepOn (stepOn haltedTile 63 23 0) 63 23 0) 63 23 0) (tileKey 63 23)).strokes = 3 := by decide +kernel

/-- What the ROM meets with a reference and the modes that the flash declares. -/
def view (a : Bool) (modes : Option (BitVec 4)) : BootView :=
  { sfdpModes := modes, refA := a, refB := false, hostLanes := 15, stackTbl := [], dimms := [], failing := [], avsOk := true, bootMs := 9 }

/-- A header of flash copy 0. -/
def hdr0 : Hdr := { seq := 1, bank := 0, trial := 0, tries := 0, loam := 0 }

/-- A device whose flash holds that header. -/
def flashed : State := flashWrite State.reset 0 (hdrBytes hdr0)

theorem witness_PowerAndBoot :
    ({ pwrgood := false } : BootSt).pwrgood = false ∧ State.reset.boot.pwrgood = true ∧ State.reset.dbg.grant = false ∧
      State.reset.boot.phase = .reset ∧ (view false none).refA = false ∧ (view false none).refB = false ∧ (view true (some 3)).refA = true ∧
      fastestMode (view true none).sfdpModes = none ∧ fastestMode (some 0) = none ∧ pickHdr State.reset = none ∧
      fastestMode (view true (some 9)).sfdpModes = some 3 ∧ fastestMode (some 1) = some 0 ∧ pickHdr flashed = some (0, hdr0) ∧
      ({ phase := .waitRef } : BootSt).phase = .waitRef := by decide +kernel

theorem witness_TripLossAndSelfTest :
    serving.boot.phase = .service ∧ tripTemp 7 ≤ (115 : BitVec 8).toNat ∧ tripTemp 15 ≤ (105 : BitVec 8).toNat ∧ inService serving = true ∧
      serving.sec.isOpen = false ∧ selfTestKind { kind := 8, u0 := 0, u1 := 0, u2 := 0 } = true ∧
      (retirements serving).any (sameUnit (failingEntry { kind := 8, u0 := 0, u1 := 0, u2 := 0 })) = false ∧
      (retirements (retire serving (failingEntry { kind := 8, u0 := 0, u1 := 0, u2 := 0 }))).any
        (sameUnit (failingEntry { kind := 8, u0 := 0, u1 := 0, u2 := 0 })) = true := by
  refine ⟨?_, ?_, ?_, ?_, ?_, ?_, ?_, ?_⟩ <;> decide +kernel

/-- A device in bedrock mode that receives item 7 of 0 bytes, with the digest of that. -/
def bedrock : State :=
  withReg { State.reset with boot := { phase := .bedrock 2, bedItem := some (7, 0) } } offBedrockDigest (sm3 [])

theorem witness_BedrockOperations :
    inBedrock bedrock = true ∧ bedLength bedrock ≤ (itemRegion 7).2 ∧ (7 : BitVec 4).toNat ≤ 7 ∧ bedrock.boot.bedItem = some (7, 0) ∧
      bedLength bedrock ≤ 0x80000 ∧ bedOffset bedrock + bedLength bedrock ≤ (0 : BitVec 32).toNat ∧
      sm3 (readRun 0 bedrock.boot.bedBuf 0 (bedLength bedrock)) = bedDigest bedrock ∧ sm3 [] ≠ bedDigest (withReg bedrock offBedrockDigest 1) ∧
      bedRefuses bedrock 7 0 = none ∧ bedRefuses (withReg bedrock offBedrockDigest 1) 7 0 = some errDigest := by decide +kernel

/-! ### Witnesses: whole-machine rules -/

theorem witness_MailboxEntriesRoundTrip :
    isCommand (.debugGrant 0 0) = true ∧ (entryBytesOf 0xFFFFFFFF (.admitReq admit1)).length = 128 ∧
      fieldAt 8 (entryBytesOf 0xFFFFFFFF (.admitReq admit1)) 5 1 = 1 ∧
      isCommand (parseEntry (entryBytesOf 0xFFFFFFFF (.admitReq admit1))) = true := by decide +kernel

theorem witness_StepKeepsTidy : tidy serving = true ∧ ringsFit serving = true ∧ step serving = .next (idle serving) := by
  refine ⟨?_, ?_, rfl⟩ <;> decide +kernel

theorem witness_UnitsLeaveTheDevice :
    isUnitCmd (.waitResume (.mover 7)) = true ∧ exec (.scribeWait 0 0) serving = .next serving := ⟨rfl, rfl⟩

/-! ### Values worked in the manual -/

/-- The check values of R298. -/
theorem test_crc32c_check_values :
    crc32c [0x31, 0x32, 0x33, 0x34, 0x35, 0x36, 0x37, 0x38, 0x39] = 0xE3069283 ∧ crc32c (List.replicate 32 0) = 0x8A9136AA ∧
      crc32c (List.replicate 32 0xFF) = 0x62A8AB43 := by decide +kernel

/-- The digest of the example of R205: a 4-byte pattern, 16 times. -/
theorem test_sm3_root_message :
    sm3Bytes (List.replicate 16 [0x61, 0x62, 0x63, 0x64]).flatten =
      [0xDE, 0xBE, 0x9F, 0xF9, 0x22, 0x75, 0xB8, 0xA1, 0x38, 0x60, 0x48, 0x89, 0xC1, 0x8E, 0x5A, 0x4D,
       0x6F, 0xDB, 0x70, 0xE5, 0x38, 0x7E, 0x57, 0x65, 0x29, 0x3D, 0xCB, 0xA3, 0x9C, 0x0C, 0x57, 0x32] := by
  decide +kernel

/-- Both vectors of R136. -/
theorem test_kcg_vectors :
    kcg 0 0 0 0 0 0 0 0 = (0xC3608199, 0x660932D5) ∧ kcg 0 0 0 0 0 0 1 0 = (0x151E4D12, 0xA72DDBBF) := by decide +kernel

/-- Results of R131 to FP32. -/
theorem test_exact_functions :
    exactFn 1 fltFP32 (laneNum 0 0x3F000000) = 0x3FB504F3 ∧ exactFn 1 fltBF16 (laneNum 0 0x3F000000) = 0x3FB5 ∧
      exactFn 1 fltFP32 (laneNum 0 0x3F800000) = 0x40000000 ∧ exactFn 0 fltFP32 (laneNum 0 0x3F800000) = 0x402DF854 ∧
      exactFn 2 fltFP32 (laneNum 0 0x40000000) = 0x3F317218 ∧ exactFn 2 fltFP32 (laneNum 0 0x3F800000) = 0 ∧
      exactFn 2 fltFP32 (laneNum 0 0xBF800000) = 0x7FC00000 ∧ exactFn 3 fltFP32 (laneNum 0 0x40400000) = 0x3EAAAAAB ∧
      exactFn 4 fltFP32 (laneNum 0 0x40800000) = 0x3F000000 ∧ exactFn 5 fltFP32 (laneNum 0 0x3F000000) = 0x3EEC9A9F ∧
      exactFn 5 fltFP32 (laneNum 0 0x39000000) = 0x39000000 ∧ exactFn 6 fltFP32 (laneNum 0 0) = 0x3F000000 ∧
      exactFn 7 fltFP32 (laneNum 0 0x3F000000) = 0x3F053F7B := by decide +kernel

/-- The example of R134: the token is 41 for p = 0.5, 907 for p = 0.9. -/
theorem test_vsamp_example :
    let l : List Cand := [(0x40000000, 40), (0x40000000, 41), (0x40000000, 907), (0xC0600000, 12)]
    (vsamp l 4 0x3F000000 0xC36081).1 = 41 ∧ (vsamp l 4 0x3F666666 0xC36081).1 = 907 := by decide +kernel

/-- Rank order of that example, from the list as held (R132, R133). -/
theorem test_topk_example :
    topK 4 [(0x40000000, 907), (0x40000000, 41), (0x40000000, 40), (0xC0600000, 12)] =
      [(0x40000000, 40), (0x40000000, 41), (0x40000000, 907), (0xC0600000, 12)] ++ List.replicate 252 emptyCand := by decide +kernel

/-- The well of "A row in bits": its ceiling, one term, and its write-out as FP32 and BF16. -/
theorem test_row_in_bits :
    (anchoredWell 2 0x80 6 0x7D).c = 11 ∧ windowTerm 36 112 = (0x24 * 2 ^ 112, 0) ∧
      fltEncode fltFP32 (wellNum { w := 1537 * 2 ^ 104, c := 11, flags := 0, count := 128 }) = 0x3EC02000 ∧
      fltEncode fltBF16 (wellNum { w := 1537 * 2 ^ 104, c := 11, flags := 0, count := 128 }) = 0x3EC0 := by decide +kernel

/-- The three terms of that example add up to its W. -/
theorem test_row_terms :
    (accumulate { w := 0, c := 11, flags := 0, count := 0 }
      [term (fmtDecode 2 0x44) 1 (fmtDecode 6 0x5) (-3) 11, term (fmtDecode 2 0x3A) 1 (fmtDecode 6 0xF) (-3) 11,
       term (fmtDecode 2 0x01) 0 (fmtDecode 6 0x1) (-2) 11]).1.w = 1537 * 2 ^ 104 := by decide +kernel

/-- The addresses of the examples after R38. -/
theorem test_address_examples :
    decodeAddr 0x0000FA012340 = .slab 1000 0x12340 ∧ decodeAddr 0x00A345678900 = .stack 141 0x05678900 ∧
      xferOwns 17 22 0x00A345678900 = true ∧ xferOwns 17 21 0x00A345678900 = false := by decide +kernel

/-- The header of the example after R298. -/
theorem test_grain_header : grainHeader 0x123 1 0 4 0x42 = 0x0000004200101123 := by decide

/-- The status of the example after R4. -/
theorem test_status_of_mask : statusOf 0x0012 = 4 := by decide

/-- MLDW of MXFP4_E2M1 takes 9 strokes and MACC of MXFP8_E4M3 on it 2 a row (the example after R105). -/
theorem test_strokes_example : loadStrokes 6 = 9 ∧ rowStrokes 2 6 = 2 := by decide +kernel

/-- ADD wraps, SRA keeps the sign, and a shift count is taken modulo 64 (R144). -/
theorem test_alu_wraps :
    aluOp 0 0xFFFFFFFFFFFFFFFF 1 = 0 ∧ aluOp 8 0x8000000000000000 63 = 0xFFFFFFFFFFFFFFFF ∧ aluOp 6 1 64 = 1 := by decide

/-- WAIT moves the stroke count and nothing else of the unit but its queue (R48). -/
theorem test_wait_counts_strokes :
    (match exec (.matrixWait 0 11 7) (atTile 11 (waitWord 7)) with
      | .next t => ((getUnit t (tileKey 0 11)).strokes, (getUnit t (tileKey 0 11)).queue, (getUnit t (tileKey 0 11)).issued)
      | _ => (0, [], 0)) = (7, [], 1) := by decide +kernel

/-- A MOVI to G31 can be read one stroke later, and not at its own (R147). -/
theorem test_movi_contract :
    (match exec (.movi 0 31 5) (atScribe (sWord [(8, 3), (5, 31), (48, 5)])) with
      | .next t => (scribeSrc t 0 31, scribePc t 0)
      | _ => (0, 0)) = (5, 1) := by decide +kernel

/-- A step begins with no command waiting as a tick: time moves by the increment (R248). -/
theorem test_tick : (match step State.reset with | .next t => t.time.now.acc.toNat | _ => 0) = 0x100000000 := by decide +kernel

end Sys2Proof.Tests
end

section
/-! PROOFS. The one form of the tables, as a structure, and what logging an event keeps of it. -/

namespace Sys2Proof.Machine

set_option Elab.async false

/-- The conditions of `tidy`, by name. -/
structure IsTidy (s : State) : Prop where
  mem : twf 0 s.mem = true
  host : twf 0 s.host = true
  flash : twf 0xFF s.flash = true
  overlay : twf none s.overlay = true
  regs : keysRise 0 s.regs = true
  stackTbl : keysRise 0 s.stackTbl = true
  ddrs : keysRise 0 s.ddrs = true
  units : keysRise 0 s.units = true
  scribes : keysRise 0 s.scribes = true
  matrix : keysRise 0 s.matrix = true
  vector : keysRise 0 s.vector = true
  xfer : keysRise 0 s.xfer = true
  chans : keysRise 0 s.chans = true
  ptp : keysRise 0 s.ptp = true
  ports : keysRise 0 s.ports = true
  subs : keysRise 0 s.subs = true
  rings : keysRise 0 s.mbox.rings = true

theorem tidy_iff {s : State} : tidy s = true ↔ IsTidy s := by
  simp only [tidy, Memory.wf, Bool.and_eq_true, and_assoc]
  constructor
  · rintro ⟨h1, h2, h3, h4, h5, h6, h7, h8, h9, h10, h11, h12, h13, h14, h15, h16, h17⟩
    exact ⟨h1, h2, h3, h4, h5, h6, h7, h8, h9, h10, h11, h12, h13, h14, h15, h16, h17⟩
  · exact fun ⟨h1, h2, h3, h4, h5, h6, h7, h8, h9, h10, h11, h12, h13, h14, h15, h16, h17⟩ =>
      ⟨h1, h2, h3, h4, h5, h6, h7, h8, h9, h10, h11, h12, h13, h14, h15, h16, h17⟩

variable {s : State}

/-- Parts that are no tables may change, and of the mailbox what is not its rings. -/
protected theorem IsTidy.parts {pending free boot sheets step launch time ptpOut pace serv load mbox blot sec dbg} (hs : IsTidy s)
    (hm : mbox.rings = s.mbox.rings := by rfl) :
    IsTidy { s with pending, free, boot, sheets, step, launch, time, ptpOut, pace, serv, load, mbox, blot, sec, dbg } :=
  { hs with rings := hm ▸ hs.rings }

protected theorem IsTidy.ite {c : Prop} [Decidable c] {t u : State} (ht : IsTidy t) (hu : IsTidy u) : IsTidy (if c then t else u) := by
  split
  · exact ht
  · exact hu

protected theorem answers.next {P : State → Prop} {t : State} (ht : P t) : answers (.next t) P := ⟨t, rfl, ht⟩

protected theorem IsTidy.foldl {α : Type} {f : State → α → State} {l : List α} (hs : IsTidy s)
    (hf : ∀ {s a}, IsTidy s → IsTidy (f s a)) : IsTidy (l.foldl f s) := by
  induction l generalizing s with
  | nil => exact hs
  | cons a l ih => exact ih (hf hs)

protected theorem IsTidy.setSub {k b} (hs : IsTidy s) : IsTidy (setSub s k b) := { hs with subs := keysRise_tset _ _ _ _ hs.subs }

protected theorem IsTidy.modSub {k f} (hs : IsTidy s) : IsTidy (modSub s k f) := hs.setSub

protected theorem IsTidy.setUnit {k u} (hs : IsTidy s) : IsTidy (setUnit s k u) :=
  { hs with units := keysRise_tset _ _ _ _ hs.units }

protected theorem IsTidy.modUnit {k f} (hs : IsTidy s) : IsTidy (modUnit s k f) := hs.setUnit

protected theorem IsTidy.setChan {ch ds} (hs : IsTidy s) : IsTidy (setChan s ch ds) :=
  { hs with chans := keysRise_tset _ _ _ _ hs.chans }

protected theorem IsTidy.memWrite {a bs} (hs : IsTidy s) : IsTidy (memWrite s a bs) :=
  { hs with mem := twf_writeRun _ _ _ _ hs.mem }

protected theorem IsTidy.stepCopyWrite {a bs} (hs : IsTidy s) : IsTidy (stepCopyWrite s a bs) :=
  { hs with overlay := twf_overlayRun _ _ _ hs.overlay }

protected theorem IsTidy.hostWrite {a bs} (hs : IsTidy s) : IsTidy (hostWrite s a bs) :=
  { hs with host := twf_writeRun _ _ _ _ hs.host }

protected theorem IsTidy.setXfer {k x} (hs : IsTidy s) : IsTidy (setXfer s k x) :=
  { hs with xfer := keysRise_tset _ _ _ _ hs.xfer }

protected theorem IsTidy.setScribe {c x} (hs : IsTidy s) : IsTidy (setScribe s c x) :=
  { hs with scribes := keysRise_tset _ _ _ _ hs.scribes }

protected theorem IsTidy.setMatrix {k m} (hs : IsTidy s) : IsTidy (setMatrix s k m) :=
  { hs with matrix := keysRise_tset _ _ _ _ hs.matrix }

protected theorem IsTidy.setVector {k v} (hs : IsTidy s) : IsTidy (setVector s k v) :=
  { hs with vector := keysRise_tset _ _ _ _ hs.vector }

protected theorem IsTidy.sinkWrite {payload} (hs : IsTidy s) : IsTidy (sinkWrite s payload) := by
  unfold sinkWrite
  refine .ite hs.parts (.ite hs.parts ?_)
  generalize bytesOf 256 payload = bs
  exact { hs with host := twf_writeRun _ _ _ _ hs.host }

protected theorem IsTidy.telemetryRoute {payload} (hs : IsTidy s) : IsTidy (telemetryRoute s payload).1 := by
  unfold telemetryRoute
  dsimp only
  split
  · dsimp only
    exact hs.modSub
  · dsimp only
    exact hs.parts

protected theorem IsTidy.telemetrySend (hs : IsTidy s) : IsTidy (telemetrySend s) :=
  .ite hs (.ite hs.parts.sinkWrite (.ite hs.parts.telemetryRoute.parts hs.parts.telemetryRoute))

protected theorem IsTidy.inbandTake {e} (hs : IsTidy s) : IsTidy (inbandTake s e) := by
  unfold inbandTake
  refine .ite hs ?_
  extract_lets s0 debt _ charged s1
  have h0 : IsTidy s0 := .ite hs.telemetrySend hs
  have h1 : IsTidy s1 := h0.parts
  exact .ite h0.parts (.ite h1.telemetrySend h1)

protected theorem IsTidy.oobTake {e} (hs : IsTidy s) : IsTidy (oobTake s e) := .ite hs (.ite hs.parts hs.parts)

protected theorem IsTidy.blotWrite {e} (hs : IsTidy s) : IsTidy (blotWrite s e) := hs.parts.inbandTake.oobTake

protected theorem IsTidy.logRaw {e} (hs : IsTidy s) : IsTidy (logRaw s e) :=
  .ite (.ite hs.parts.parts (.blotWrite (.ite hs.parts.parts hs.parts))) hs.parts.blotWrite

protected theorem IsTidy.sendLaunch {k m} (hs : IsTidy s) : IsTidy (sendLaunch s k m) := .ite hs.modSub hs

protected theorem IsTidy.sendAll {m xs} (hs : IsTidy s) : IsTidy (sendAll s m xs) := by
  fun_induction sendAll s m xs with
  | case1 => exact hs
  | case2 _ _ _ ih => exact ih hs.sendLaunch

protected theorem IsTidy.flood {m source} (hs : IsTidy s) : IsTidy (flood s m source) := hs.sendAll.sendAll

protected theorem IsTidy.originate {step body} (hs : IsTidy s) : IsTidy (originate s step body) := hs.parts.flood

protected theorem IsTidy.beginHold {port sub dryMs} (hs : IsTidy s) : IsTidy (beginHold s port sub dryMs) := hs.parts.originate

protected theorem IsTidy.haltUnits {xs} (hs : IsTidy s) : IsTidy (haltUnits s xs) := by
  fun_induction haltUnits s xs with
  | case1 => exact hs
  | case2 _ _ _ ih => exact ih hs.modUnit

protected theorem IsTidy.bpHits {xs} (hs : IsTidy s) : IsTidy (bpHits s xs) := by
  fun_induction bpHits s xs with
  | case1 => exact hs
  | case2 _ _ _ ih => exact ih hs.parts

protected theorem IsTidy.haltWith {units loc bp} (hs : IsTidy s) : IsTidy (haltWith s units loc bp) := by
  unfold haltWith
  extract_lets first s1 met s2
  have h1 : IsTidy s1 := hs.haltUnits.logRaw
  have h2 : IsTidy s2 := .ite h1 h1.bpHits.haltUnits
  exact .ite h2.parts.beginHold h2

protected theorem IsTidy.blotBreak {cls written} (hs : IsTidy s) : IsTidy (blotBreak s cls written) := by
  unfold blotBreak
  split
  · exact hs
  · exact hs.bpHits.haltWith

protected theorem IsTidy.logEv {e} (hs : IsTidy s) : IsTidy (logEv s e) := hs.logRaw.blotBreak

end Sys2Proof.Machine
end

section
/-! PROOFS. What the command of an engine, a scribe or a die mover can make of a state (R37, R47, R59, R62). -/

namespace Sys2Proof.Machine

set_option Elab.async false

variable {s s₀ : State}

/-! ### What a unit can do -/

/-- What the commands of engines, scribes and die movers can make of a state: every part of the device but memory, step copies, units, engines,
channels, sub-ports, the blotter and host memory stands, but for what R62 and R427 let a unit set; and tables keep their form. -/
structure UnitStep (s t : State) : Prop where
  free : t.free = s.free
  boot : t.boot = s.boot
  flash : t.flash = s.flash
  regs : t.regs = s.regs
  stackTbl : t.stackTbl = s.stackTbl
  ddrs : t.ddrs = s.ddrs
  sheets : t.sheets = s.sheets
  time : t.time = s.time
  ptp : t.ptp = s.ptp
  ptpOut : t.ptpOut = s.ptpOut
  pace : t.pace = s.pace
  ports : t.ports = s.ports
  load : t.load = s.load
  mbox : t.mbox = s.mbox
  sec : t.sec = s.sec
  serv : ∃ slots, t.serv = { s.serv with slots }
  step : (t.step.running, t.step.number, t.step.attempts, t.step.voided, t.step.launchTime) =
    (s.step.running, s.step.number, s.step.attempts, s.step.voided, s.step.launchTime)
  dbg : ∃ bps sent, t.dbg = { s.dbg with bps, holdSent := sent }
  launch : ∃ holds held seen, t.launch = { s.launch with holds, heldSince := held, seen }
  tidy : IsTidy s → IsTidy t

protected theorem UnitStep.refl (s : State) : UnitStep s s where
  free := rfl
  boot := rfl
  flash := rfl
  regs := rfl
  stackTbl := rfl
  ddrs := rfl
  sheets := rfl
  time := rfl
  ptp := rfl
  ptpOut := rfl
  pace := rfl
  ports := rfl
  load := rfl
  mbox := rfl
  sec := rfl
  serv := ⟨_, rfl⟩
  step := rfl
  dbg := ⟨_, _, rfl⟩
  launch := ⟨_, _, _, rfl⟩
  tidy := id

protected theorem UnitStep.ite {c : Prop} [Decidable c] {t u : State} (ht : UnitStep s₀ t) (hu : UnitStep s₀ u) :
    UnitStep s₀ (if c then t else u) := by
  split
  · exact ht
  · exact hu

/-- The parts that a unit's command may write, written so that the tables keep their form. -/
protected theorem UnitStep.write {mem overlay units scribes matrix vector xfer chans subs} (hs : UnitStep s₀ s)
    (ht : IsTidy s → IsTidy { s with mem, overlay, units, scribes, matrix, vector, xfer, chans, subs }) :
    UnitStep s₀ { s with mem, overlay, units, scribes, matrix, vector, xfer, chans, subs } :=
  { hs with tidy := fun h => ht (hs.tidy h) }

/-- A unit's command counts and notes in the step, and marks slots of serving. -/
protected theorem UnitStep.parts {step serv} (hs : UnitStep s₀ s)
    (hp : (step.running, step.number, step.attempts, step.voided, step.launchTime) =
      (s.step.running, s.step.number, s.step.attempts, s.step.voided, s.step.launchTime) := by rfl)
    (hv : ∃ slots, serv = { s.serv with slots } := by exact ⟨_, rfl⟩) :
    UnitStep s₀ { s with step, serv } := by
  obtain ⟨slots, rfl⟩ := hv
  obtain ⟨slots', h⟩ := hs.serv
  exact { hs with serv := ⟨slots, by rw [h]⟩, step := hp.trans hs.step, tidy := fun h => (hs.tidy h).parts }

/-- Logging an event is within what a unit can do. -/
protected theorem UnitStep.logged {t : State} (hs : UnitStep s₀ s) (hl : LoggedOnly s t) (ht : IsTidy s → IsTidy t) : UnitStep s₀ t := by
  obtain ⟨⟨blot, bps, sent, units, subs, holds, held, seen, host, rfl⟩, -, -⟩ := hl
  obtain ⟨_, _, hd⟩ := hs.dbg
  obtain ⟨_, _, _, hh⟩ := hs.launch
  exact { hs with
    dbg := ⟨bps, sent, by rw [hd]⟩
    launch := ⟨holds, held, seen, by rw [hh]⟩
    tidy := fun h => ht (hs.tidy h) }

protected theorem UnitStep.logEv {e} (hs : UnitStep s₀ s) : UnitStep s₀ (logEv s e) := hs.logged (loggedOnly_logEv s e) .logEv

protected theorem UnitStep.bpHits {is} (hs : UnitStep s₀ s) : UnitStep s₀ (bpHits s is) := hs.logged (loggedOnly_bpHits is s) .bpHits

protected theorem UnitStep.haltWith {us loc bp} (hs : UnitStep s₀ s) : UnitStep s₀ (haltWith s us loc bp) :=
  hs.logged (loggedOnly_haltWith s us loc bp) .haltWith

protected theorem UnitStep.bpFire {c loc fired} (hs : UnitStep s₀ s) : UnitStep s₀ (bpFire s c loc fired) := hs.bpHits.haltWith

protected theorem UnitStep.setUnit {k u} (hs : UnitStep s₀ s) : UnitStep s₀ (setUnit s k u) := hs.write .setUnit

protected theorem UnitStep.setChan {ch ds} (hs : UnitStep s₀ s) : UnitStep s₀ (setChan s ch ds) := hs.write .setChan

protected theorem UnitStep.memWrite {a bs} (hs : UnitStep s₀ s) : UnitStep s₀ (memWrite s a bs) := hs.write .memWrite

protected theorem UnitStep.stepCopyWrite {a bs} (hs : UnitStep s₀ s) : UnitStep s₀ (stepCopyWrite s a bs) := hs.write .stepCopyWrite

protected theorem UnitStep.setXfer {k x} (hs : UnitStep s₀ s) : UnitStep s₀ (setXfer s k x) := hs.write .setXfer

protected theorem UnitStep.setScribe {c x} (hs : UnitStep s₀ s) : UnitStep s₀ (setScribe s c x) := hs.write .setScribe

protected theorem UnitStep.setMatrix {k m} (hs : UnitStep s₀ s) : UnitStep s₀ (setMatrix s k m) := hs.write .setMatrix

protected theorem UnitStep.setVector {k v} (hs : UnitStep s₀ s) : UnitStep s₀ (setVector s k v) := hs.write .setVector

/-- The channels of another state that a unit can reach may take the place of a state's own. -/
protected theorem UnitStep.withChans {t : State} (hs : UnitStep s₀ s) (ht : UnitStep s₀ t) : UnitStep s₀ { s with chans := t.chans } :=
  { hs with tidy := fun h => { hs.tidy h with chans := (ht.tidy h).chans } }

protected theorem UnitStep.setSub {k b} (hs : UnitStep s₀ s) : UnitStep s₀ (setSub s k b) := hs.write .setSub

protected theorem UnitStep.modSub {k f} (hs : UnitStep s₀ s) : UnitStep s₀ (modSub s k f) := hs.setSub

protected theorem UnitStep.modUnit {k f} (hs : UnitStep s₀ s) : UnitStep s₀ (modUnit s k f) := hs.setUnit

protected theorem UnitStep.noteTaken {ch n} (hs : UnitStep s₀ s) : UnitStep s₀ (noteTaken s ch n) := by
  unfold noteTaken
  split
  · exact hs
  · exact .ite hs hs.modSub.parts

protected theorem UnitStep.takeDrops {ch n} (hs : UnitStep s₀ s) : UnitStep s₀ (takeDrops s ch n).2 := by
  unfold takeDrops
  exact hs.setChan.noteTaken

protected theorem UnitStep.gather {ds got} (hs : UnitStep s₀ s) : UnitStep s₀ (gather s ds got).1 := by
  induction ds generalizing s got with
  | nil => exact hs
  | cons d ds ih => exact ih hs.takeDrops

protected theorem UnitStep.pump {xs} (hs : UnitStep s₀ s) : UnitStep s₀ (pump s xs).1 := by
  fun_induction pump s xs with
  | case1 =>
    exact hs
  | case2 _ _ _ _ _ _ ih => exact ih hs.setChan
  | case3 =>
    exact hs

protected theorem UnitStep.unitStore {c a bs} (hs : UnitStep s₀ s) : UnitStep s₀ (unitStore s c a bs) := by
  unfold unitStore
  split
  · exact .ite hs.stepCopyWrite hs.memWrite
  · exact hs.memWrite

protected theorem UnitStep.settleSlab {c r xs} (hs : UnitStep s₀ s) : UnitStep s₀ (settleSlab s c r xs).1 := by
  fun_induction settleSlab s c r xs with
  | case1 =>
    exact hs
  | case2 _ _ _ _ ih => exact ih hs.unitStore
  | case3 =>
    exact hs

protected theorem UnitStep.noteSkip {c tile cause index} (hs : UnitStep s₀ s) : UnitStep s₀ (noteSkip s c tile cause index) := by
  unfold noteSkip
  extract_lets loc s1 st
  have h1 : UnitStep s₀ s1 := hs.logEv
  clear_value s1
  exact h1.parts

protected theorem UnitStep.fireAt {k idx fired} (hs : UnitStep s₀ s) : UnitStep s₀ (fireAt s k idx fired) := hs.modUnit.bpFire

protected theorem UnitStep.pauseUnit {k idx x w b} (hs : UnitStep s₀ s) : UnitStep s₀ (pauseUnit s k idx x w b) :=
  .ite hs.setUnit hs.setUnit.fireAt

protected theorem UnitStep.retireUnit {k n} (hs : UnitStep s₀ s) : UnitStep s₀ (retireUnit s k n) := hs.modUnit

protected theorem UnitStep.keepBefore {k t} (hs : UnitStep s₀ s) : UnitStep s₀ (keepBefore s k t) :=
  hs.write fun h => { h with matrix := keysRise_tset _ _ _ _ h.matrix, vector := keysRise_tset _ _ _ _ h.vector }

protected theorem UnitStep.partEffect {e : State} {k t} (hs : UnitStep s₀ s) (he : UnitStep s₀ e) : UnitStep s₀ (partEffect s e k t) :=
  have hr : UnitStep s₀ (keepBefore e k t) := he.keepBefore
  { hr with step := hs.step, tidy := fun h => { hr.tidy h with matrix := keysRise_tset _ _ _ _ (hr.tidy h).matrix } }

protected theorem UnitStep.asIssued {k u} (hs : UnitStep s₀ s) : UnitStep s₀ (asIssued s k u) := .ite hs hs.keepBefore

protected theorem UnitStep.moverStore {m a bs} (hs : UnitStep s₀ s) : UnitStep s₀ (moverStore s m a bs) := by
  unfold moverStore
  split
  · exact .ite hs.stepCopyWrite hs.memWrite
  · exact hs

protected theorem UnitStep.moverGo {m e a skip ch n i} (hs : UnitStep s₀ s) : UnitStep s₀ (moverGo m e a skip ch n i s).1 := by
  induction n generalizing s i with
  | zero => exact hs
  | succ n ih =>
    unfold moverGo
    split
    · exact ih hs
    · split
      · split
        · exact hs
        · exact ih (.ite hs.takeDrops hs.takeDrops.moverStore)
      · split
        · exact ih hs.setChan
        · exact hs

protected theorem UnitStep.moverMove {m i e b} (hs : UnitStep s₀ s) : UnitStep s₀ (moverMove s m i e b) := by
  unfold moverMove
  dsimp only
  split
  · exact hs.moverGo.modUnit
  · split
    · exact hs.moverGo.pump.modUnit
    · exact hs.moverGo.pump.modUnit

protected theorem UnitStep.noteMoverSkip {m i e b} (hs : UnitStep s₀ s) : UnitStep s₀ (noteMoverSkip s m i e b) := by
  unfold noteMoverSkip
  split
  · exact hs.noteSkip
  · exact hs

protected theorem UnitStep.moverAdvance {m i e b} (hs : UnitStep s₀ s) : UnitStep s₀ (moverAdvance s m i e b) := by
  unfold moverAdvance
  dsimp only
  split
  · exact hs.moverMove
  · split
    · split
      · exact hs.noteMoverSkip.moverMove
      · exact .ite hs.modUnit hs.takeDrops.noteMoverSkip.moverMove
    · exact hs.noteMoverSkip.moverMove

protected theorem UnitStep.runMover {m op} (hs : UnitStep s₀ s) : UnitStep s₀ (runMover s m op) := by
  unfold runMover
  dsimp only
  split
  · exact hs
  · exact .ite hs.setUnit.moverAdvance hs

protected theorem UnitStep.setSlot {i v} (hs : UnitStep s₀ s) : UnitStep s₀ (setSlot s i v) := hs.parts

protected theorem UnitStep.markLane {l token} (hs : UnitStep s₀ s) : UnitStep s₀ (markLane s l token) := by
  unfold markLane
  split
  · exact hs
  · exact .ite hs hs.setSlot

protected theorem UnitStep.markRecords {base a bs m} (hs : UnitStep s₀ s) : UnitStep s₀ (markRecords s base a bs m) := by
  fun_induction markRecords s base a bs m with
  | case1 => exact hs
  | case2 _ _ _ _ ih => exact ih.markLane
  | case3 _ _ _ _ ih => exact ih

protected theorem UnitStep.markEmit {a bs} (hs : UnitStep s₀ s) : UnitStep s₀ (markEmit s a bs) := .ite hs.markRecords hs

protected theorem UnitStep.xmovTake {x v skip inp i} {r : Drop × State} (hs : UnitStep s₀ s)
    (hr : xmovTake x v skip inp i s = some r) : UnitStep s₀ r.2 := by
  unfold xmovTake at hr
  split at hr
  · split at hr
    · cases hr
    · cases hr
      exact hs.takeDrops
  · cases hr
    exact hs

protected theorem UnitStep.xmovGive {c x v skip outp i d} {t : State} (hs : UnitStep s₀ s)
    (ht : xmovGive c x v skip outp i d s = some t) : UnitStep s₀ t := by
  unfold xmovGive at ht
  dsimp only at ht
  split at ht
  · split at ht
    · cases ht
      exact hs.setChan
    · cases ht
  · split at ht
    · cases ht
      exact hs
    · cases ht
      exact hs.unitStore.markEmit

protected theorem UnitStep.xmovGo {c x v skip inp outp n i h} (hs : UnitStep s₀ s) :
    UnitStep s₀ (xmovGo c x v skip inp outp n i h s).1 := by
  induction n generalizing s i h with
  | zero => exact hs
  | succ n ih =>
    unfold xmovGo
    split
    · exact hs
    · next d s1 hd =>
      have h1 : UnitStep s₀ s1 := by
        split at hd
        · cases hd
          exact hs
        · exact hs.xmovTake hd
      split
      · exact h1
      · next s2 h2 => exact ih (h1.xmovGive h2)

protected theorem UnitStep.xmovAdvance {c j x b} (hs : UnitStep s₀ s) : UnitStep s₀ (xmovAdvance s c j x b) := by
  unfold xmovAdvance
  dsimp only
  split
  · exact hs.xmovGo.pauseUnit
  · split
    · exact hs.xmovGo.pauseUnit
    · split
      · exact hs.xmovGo.pump.retireUnit
      · exact hs.xmovGo.pump.pauseUnit

protected theorem UnitStep.xmovFlip {k x skip} (hs : UnitStep s₀ s) : UnitStep s₀ (xmovFlip s k x skip) := .ite hs.setXfer hs

protected theorem UnitStep.putG {c t lat gd v} (hs : UnitStep s₀ s) : UnitStep s₀ (putG s c t lat gd v) := .ite hs hs.setScribe

protected theorem UnitStep.retireScribe {c n pc} (hs : UnitStep s₀ s) : UnitStep s₀ (retireScribe s c n pc) := by
  unfold retireScribe
  exact hs.setScribe.modUnit

protected theorem UnitStep.nextScribe {c n} (hs : UnitStep s₀ s) : UnitStep s₀ (nextScribe s c n) := hs.retireScribe

protected theorem UnitStep.pauseScribe {c x w spent} (hs : UnitStep s₀ s) : UnitStep s₀ (pauseScribe s c x w spent) := hs.pauseUnit

protected theorem UnitStep.finishScribe {c x n} (hs : UnitStep s₀ s) : UnitStep s₀ (finishScribe s c x n) :=
  .ite hs.nextScribe hs.pauseScribe

protected theorem UnitStep.skipScribe {c cause n} (hs : UnitStep s₀ s) : UnitStep s₀ (skipScribe s c cause n) :=
  hs.noteSkip.finishScribe

protected theorem UnitStep.waitScribe {c w moved} (hs : UnitStep s₀ s) : UnitStep s₀ (waitScribe s c w moved) := hs.pauseScribe

protected theorem UnitStep.beginScribe {c} (hs : UnitStep s₀ s) : UnitStep s₀ (beginScribe s c) := hs.setScribe

protected theorem UnitStep.putL {c lk v} (hs : UnitStep s₀ s) : UnitStep s₀ (putL s c lk v) := hs.setScribe

protected theorem UnitStep.enqueueOrWait {c j w} (hs : UnitStep s₀ s) : UnitStep s₀ (enqueueOrWait s c j w) :=
  .ite hs.waitScribe hs.setUnit.nextScribe

protected theorem UnitStep.doCsend {c port ga} (hs : UnitStep s₀ s) : UnitStep s₀ (doCsend s c port ga) := by
  unfold doCsend
  split
  · exact hs.skipScribe
  · exact .ite hs.skipScribe (.ite hs.setChan.nextScribe hs.waitScribe)

protected theorem UnitStep.doCwait {c port n moved} (hs : UnitStep s₀ s) : UnitStep s₀ (doCwait s c port n moved) := by
  unfold doCwait
  split
  · exact hs.skipScribe
  · exact .ite hs.skipScribe (.ite hs.takeDrops.waitScribe (.ite hs.takeDrops.pauseScribe hs.takeDrops.nextScribe))

protected theorem UnitStep.doTread {c od what} (hs : UnitStep s₀ s) : UnitStep s₀ (doTread s c od what) :=
  .ite hs.waitScribe hs.setScribe.nextScribe

protected theorem UnitStep.beginMatrix {c k t} (hs : UnitStep s₀ s) : UnitStep s₀ (beginMatrix s c k t) := hs.settleSlab.setMatrix

protected theorem UnitStep.noteSat {b} (hs : UnitStep s₀ s) : UnitStep s₀ (noteSat s b) := .ite hs.parts hs

protected theorem UnitStep.beginVector {c k t} (hs : UnitStep s₀ s) : UnitStep s₀ (beginVector s c k t) := hs.settleSlab.setVector

protected theorem UnitStep.putRegs {k lat w rs} (hs : UnitStep s₀ s) : UnitStep s₀ (putRegs s k lat w rs) := hs.setVector

protected theorem UnitStep.putMask {k w kd bits} (hs : UnitStep s₀ s) : UnitStep s₀ (putMask s k w kd bits) := hs.setVector

protected theorem UnitStep.putTerms {k t ts} (hs : UnitStep s₀ s) : UnitStep s₀ (putTerms s k t ts) := by
  induction ts generalizing s with
  | nil => exact hs
  | cons e ts ih => exact ih hs.setVector.noteSat

protected theorem UnitStep.vwaddAll {k e row rs} (hs : UnitStep s₀ s) : UnitStep s₀ (vwaddAll s k e row rs) := by
  induction rs generalizing s with
  | nil => exact hs
  | cons r rs ih => exact ih hs.setVector.noteSat

protected theorem UnitStep.noteDropped {k n} (hs : UnitStep s₀ s) : UnitStep s₀ (noteDropped s k n) := .ite hs hs.parts

/-! ### Plans: what the effect of a tile's command can do (R62, R63) -/

/-- The effect of the plan is one that a unit can have, whatever state and drops it meets. -/
structure PlanKeeps (p : Plan) : Prop where
  effect : ∀ {s₀ s : State} {t : Nat} {got : List (List Drop)}, UnitStep s₀ s → UnitStep s₀ (p.effect t got s).1

protected theorem PlanKeeps.ite {c : Prop} [Decidable c] {p q : Plan} (hp : PlanKeeps p) (hq : PlanKeeps q) :
    PlanKeeps (if c then p else q) := by
  split
  · exact hp
  · exact hq

protected theorem PlanKeeps.illegalPlan : PlanKeeps illegalPlan := ⟨id⟩

protected theorem PlanKeeps.planWait {n} : PlanKeeps (planWait n) := ⟨id⟩

protected theorem PlanKeeps.regPlan {c j n ill bad} {eff : Nat → State → Nat → VectorSt → State}
    (he : ∀ {s₀ s t k v}, UnitStep s₀ s → UnitStep s₀ (eff t s k v)) : PlanKeeps (regPlan c j n ill bad eff) :=
  .ite .illegalPlan ⟨fun hs => he hs.beginVector⟩

protected theorem PlanKeeps.loadPlan {c j n d src ill bad} {eff : Nat → Bytes → State → Nat → VectorSt → State}
    (he : ∀ {s₀ s t bs k v}, UnitStep s₀ s → UnitStep s₀ (eff t bs s k v)) : PlanKeeps (loadPlan s c j n d src ill bad eff) :=
  .ite .illegalPlan ⟨fun hs => he hs.beginVector⟩

protected theorem PlanKeeps.storePlan {c j n d dst ill bad} {eff : Nat → State → Nat → VectorSt → List OutPiece × State}
    (he : ∀ {s₀ s t k v}, UnitStep s₀ s → UnitStep s₀ (eff t s k v).2) : PlanKeeps (storePlan s c j n d dst ill bad eff) :=
  .ite .illegalPlan ⟨fun hs => (he hs.beginVector).setVector⟩

protected theorem PlanKeeps.atStrokes {f p} (hp : PlanKeeps p) : PlanKeeps (atStrokes f p) := ⟨hp.effect⟩

/-! ### The matrix engine (R102-R108) -/

protected theorem PlanKeeps.planMldw {c j bank fmtW src} : PlanKeeps (planMldw s c j bank fmtW src) :=
  .ite .illegalPlan ⟨fun hs => hs.beginMatrix.setMatrix⟩

protected theorem PlanKeeps.planManc {c j row0 nr fmtA fmtW q asrc wsrc} : PlanKeeps (planManc s c j row0 nr fmtA fmtW q asrc wsrc) :=
  .ite .illegalPlan ⟨fun hs => hs.beginMatrix.setMatrix⟩

protected theorem PlanKeeps.planMacc {c j row0 nr fmtA bank asrc next nfmt nsrc} :
    PlanKeeps (planMacc s c j row0 nr fmtA bank asrc next nfmt nsrc) :=
  .ite .illegalPlan ⟨fun hs => hs.beginMatrix.setMatrix.noteSat⟩

protected theorem PlanKeeps.planMwout {c j row0 nr fmtO cols aen dst adst} : PlanKeeps (planMwout s c j row0 nr fmtO cols aen dst adst) :=
  .ite .illegalPlan ⟨fun hs => hs.beginMatrix.setMatrix⟩

protected theorem PlanKeeps.planMwexp {c j row0 nr dst} : PlanKeeps (planMwexp s c j row0 nr dst) :=
  .ite .illegalPlan ⟨fun hs => hs.beginMatrix⟩

protected theorem PlanKeeps.planMwadd {c j row0 nr src} : PlanKeeps (planMwadd s c j row0 nr src) :=
  .ite .illegalPlan ⟨fun hs => hs.beginMatrix.setMatrix.noteSat⟩

protected theorem PlanKeeps.matrixPlan {c j w} : PlanKeeps (matrixPlan s c j w) := by
  unfold matrixPlan
  dsimp only
  split
  · exact .ite .illegalPlan .planWait
  · exact .ite .illegalPlan .planMldw
  · exact .ite .illegalPlan .planManc
  · exact .ite .illegalPlan .planMacc
  · exact .ite .illegalPlan .planMwout
  · exact .ite .illegalPlan .planMwexp
  · exact .ite .illegalPlan .planMwadd
  · exact .illegalPlan

/-! ### The transfer engine (R172-R182) -/

protected theorem PlanKeeps.planXreg {c j reg value} : PlanKeeps (planXreg c j reg value) := ⟨fun hs => hs.setXfer⟩

protected theorem PlanKeeps.planXflip {c j mask} : PlanKeeps (planXflip c j mask) := ⟨fun hs => hs.setXfer⟩

protected theorem PlanKeeps.transferPlan {c j w} : PlanKeeps (transferPlan c j w) := by
  unfold transferPlan
  dsimp only
  split
  · exact .ite .illegalPlan .planWait
  · exact .ite .illegalPlan .planXreg
  · exact .ite .illegalPlan .planXflip
  · exact .illegalPlan

/-! ### The vector engine (R113-R125) -/

protected theorem PlanKeeps.planVop {c j op ty vd va vb vc km} : PlanKeeps (planVop c j op ty vd va vb vc km) := by
  unfold planVop
  exact .regPlan fun hs => hs.putRegs

protected theorem PlanKeeps.planVfn {c j fn ti tt vd va km} : PlanKeeps (planVfn c j fn ti tt vd va km) := .regPlan fun hs => hs.putRegs

protected theorem PlanKeeps.planVcmp {c j cmp ty kd va vb km} : PlanKeeps (planVcmp c j cmp ty kd va vb km) :=
  .regPlan fun hs => hs.putMask

protected theorem PlanKeeps.planVsel {c j vd va vb ks} : PlanKeeps (planVsel c j vd va vb ks) := .regPlan fun hs => hs.putRegs

protected theorem PlanKeeps.planVkop {c j kop kd ka kb} : PlanKeeps (planVkop c j kop kd ka kb) := .regPlan fun hs => hs.putMask

protected theorem PlanKeeps.planVimm {c j vd imm km} : PlanKeeps (planVimm c j vd imm km) := .regPlan fun hs => hs.putRegs

protected theorem PlanKeeps.planViota {c j vd base} : PlanKeeps (planViota c j vd base) := .regPlan fun hs => hs.putRegs

protected theorem PlanKeeps.planVcvt {c j ti tt vd va km} : PlanKeeps (planVcvt c j ti tt vd va km) := .regPlan fun hs => hs.putRegs

protected theorem PlanKeeps.planVld {c j vd ty src} : PlanKeeps (planVld s c j vd ty src) := .loadPlan fun hs => hs.putRegs

protected theorem PlanKeeps.planVst {c j va ty dst km} : PlanKeeps (planVst s c j va ty dst km) := by
  refine .storePlan fun hs => ?_
  dsimp only
  split
  · split
    · exact hs
    · exact hs
  · exact hs

protected theorem PlanKeeps.planVldx {c j vd vx base limit} : PlanKeeps (planVldx s c j vd vx base limit) :=
  .ite .illegalPlan ⟨fun hs => hs.beginVector.putRegs⟩

protected theorem PlanKeeps.planVstx {c j va vx base limit} : PlanKeeps (planVstx s c j va vx base limit) :=
  .ite .illegalPlan ⟨fun hs => hs.beginVector.setVector⟩

protected theorem PlanKeeps.planVldq {c j vd nr kc fmt src} : PlanKeeps (planVldq s c j vd nr kc fmt src) :=
  .atStrokes (.loadPlan fun hs => hs.putRegs)

protected theorem PlanKeeps.planVqnt {c j va nr kc fmtO row0 vx dst} : PlanKeeps (planVqnt s c j va nr kc fmtO row0 vx dst) :=
  .atStrokes (.storePlan fun hs => hs.putRegs)

protected theorem PlanKeeps.planVlda {c j vd src} : PlanKeeps (planVlda s c j vd src) := .loadPlan fun hs => hs.putRegs

protected theorem PlanKeeps.planVsta {c j va dst} : PlanKeeps (planVsta s c j va dst) := .storePlan id

protected theorem PlanKeeps.planVwanc {c j row mode bc vx vy} : PlanKeeps (planVwanc c j row mode bc vx vy) :=
  .regPlan fun hs => hs.setVector

protected theorem PlanKeeps.planVrsum {c j row dir ty va km} : PlanKeeps (planVrsum c j row dir ty va km) :=
  .regPlan fun hs => hs.putTerms

protected theorem PlanKeeps.planVrdot {c j row dir ty va vb km} : PlanKeeps (planVrdot c j row dir ty va vb km) :=
  .regPlan fun hs => hs.putTerms

protected theorem PlanKeeps.planVwout {c j vd row ty km} : PlanKeeps (planVwout c j vd row ty km) := .regPlan fun hs => hs.putRegs

protected theorem PlanKeeps.planVwexp {c j row dst} : PlanKeeps (planVwexp s c j row dst) := .ite .illegalPlan ⟨fun hs => hs.beginVector⟩

protected theorem PlanKeeps.planVwadd {c j row src} : PlanKeeps (planVwadd s c j row src) :=
  .ite .illegalPlan ⟨fun hs => hs.beginVector.vwaddAll⟩

protected theorem PlanKeeps.planVanch {c j vd va ty hm mg km} : PlanKeeps (planVanch c j vd va ty hm mg km) :=
  .regPlan fun hs => hs.putRegs

protected theorem PlanKeeps.planVrmax {c j vd va ty km} : PlanKeeps (planVrmax c j vd va ty km) := .regPlan fun hs => hs.putRegs

protected theorem PlanKeeps.planVtopk {c j lv li va vi k init km} : PlanKeeps (planVtopk c j lv li va vi k init km) :=
  .regPlan fun hs => hs.putRegs

protected theorem PlanKeeps.planVsamp {c j vd lv li vp k} : PlanKeeps (planVsamp c j vd lv li vp k) := .regPlan fun hs => hs.putRegs

protected theorem PlanKeeps.planVrng {c j vd vt vq vs stream wd} : PlanKeeps (planVrng c j vd vt vq vs stream wd) :=
  .regPlan fun hs => hs.putRegs

protected theorem PlanKeeps.planVdisp {c j vs vf ve vcap nc nt cont} : PlanKeeps (planVdisp c j vs vf ve vcap nc nt cont) :=
  .regPlan fun hs => hs.putRegs.noteDropped

protected theorem PlanKeeps.vectorPlan {c j w} : PlanKeeps (vectorPlan s c j w) := by
  unfold vectorPlan
  dsimp only
  split
  · exact .ite .illegalPlan .planWait
  · exact .ite .illegalPlan .planVop
  · exact .ite .illegalPlan .planVfn
  · exact .ite .illegalPlan .planVcmp
  · exact .ite .illegalPlan .planVsel
  · exact .ite .illegalPlan .planVkop
  · exact .ite .illegalPlan .planVimm
  · exact .ite .illegalPlan .planViota
  · exact .ite .illegalPlan .planVcvt
  · exact .ite .illegalPlan .planVld
  · exact .ite .illegalPlan .planVst
  · exact .ite .illegalPlan .planVldx
  · exact .ite .illegalPlan .planVstx
  · exact .ite .illegalPlan .planVldq
  · exact .ite .illegalPlan .planVqnt
  · exact .ite .illegalPlan .planVlda
  · exact .ite .illegalPlan .planVsta
  · exact .ite .illegalPlan .planVwanc
  · exact .ite .illegalPlan .planVrsum
  · exact .ite .illegalPlan .planVrdot
  · exact .ite .illegalPlan .planVwout
  · exact .ite .illegalPlan .planVwexp
  · exact .ite .illegalPlan .planVwadd
  · exact .ite .illegalPlan .planVanch
  · exact .ite .illegalPlan .planVrmax
  · exact .ite .illegalPlan .planVtopk
  · exact .ite .illegalPlan .planVsamp
  · exact .ite .illegalPlan .planVrng
  · exact .ite .illegalPlan .planVdisp
  · exact .illegalPlan

protected theorem PlanKeeps.planXmov {c j x} : PlanKeeps (planXmov s c j x) := ⟨id⟩

protected theorem PlanKeeps.wordPlan {c j w} : PlanKeeps (wordPlan s c j w) :=
  .ite .matrixPlan (.ite .vectorPlan (.ite .planXmov .transferPlan))

/-! ### A tile's command from its plan on (R46, R50, R62) -/

protected theorem UnitStep.planEffect {p i got} (hp : PlanKeeps p) (hs : UnitStep s₀ s) : UnitStep s₀ (planEffect p i got s).1 := by
  unfold planEffect
  split
  · exact hs
  · exact hp.effect hs

protected theorem UnitStep.goOn {k idx} {f : State → State} (hs : UnitStep s₀ s) (hf : UnitStep s₀ (f s)) :
    UnitStep s₀ (goOn s k idx f) :=
  .ite hf hs.fireAt

protected theorem UnitStep.advancePart {k b p lim} (hs : UnitStep s₀ s) (hp : PlanKeeps p) : UnitStep s₀ (advancePart s k b p lim) := by
  unfold advancePart
  exact .pauseUnit ((UnitStep.partEffect hs.gather (.planEffect hp hs.gather.asIssued)).withChans hs.gather.pump)

protected theorem UnitStep.advance {k b p} (hs : UnitStep s₀ s) (hp : PlanKeeps p) : UnitStep s₀ (advance s k b p) :=
  .ite (UnitStep.planEffect hp hs.gather.asIssued).pump.retireUnit (hs.advancePart hp)

protected theorem UnitStep.runTileWith {c j w p} {go : State → Blocked → State} (hs : UnitStep s₀ s)
    (hg : ∀ {t b}, UnitStep s₀ t → UnitStep s₀ (go t b)) : UnitStep s₀ (runTileWith s c j w p go) := by
  have hi : UnitStep s₀ (issueTile s c j w p go) := by
    refine hg ?_
    split
    · exact hs.setUnit.noteSkip
    · exact hs.setUnit
  unfold runTileWith
  refine .ite hs (.ite ?_ (.ite hs.setUnit hs))
  split
  · exact hi
  · exact hs.fireAt

protected theorem UnitStep.runTile {c j w p} (hs : UnitStep s₀ s) (hp : PlanKeeps p) : UnitStep s₀ (runTile s c j w p) :=
  hs.runTileWith fun ht => ht.advance hp

protected theorem UnitStep.runXmov {c j x} (hs : UnitStep s₀ s) : UnitStep s₀ (runXmov s c j x) :=
  hs.runTileWith fun ht => ht.xmovFlip.xmovAdvance

protected theorem UnitStep.runMatrix {c j w p} (hs : UnitStep s₀ s) (hp : PlanKeeps p) : answers (runMatrix s c j w p) (UnitStep s₀) :=
  .next (.ite (hs.runTile hp) hs)

protected theorem UnitStep.runVector {c j w p} (hs : UnitStep s₀ s) (hp : PlanKeeps p) : answers (runVector s c j w p) (UnitStep s₀) :=
  .next (.ite (hs.runTile hp) hs)

protected theorem UnitStep.runTransfer {c j w p} (hs : UnitStep s₀ s) (hp : PlanKeeps p) :
    answers (runTransfer s c j w p) (UnitStep s₀) :=
  .next (.ite (hs.runTile hp) hs)

/-! ### Scribes (R140-R160) -/

protected theorem UnitStep.withSources {c ill sels n} {k : Unit → State} (hs : UnitStep s₀ s) (hk : UnitStep s₀ (k ())) :
    UnitStep s₀ (withSources s c ill sels n k) :=
  .ite hs.skipScribe (.ite hs.skipScribe hk)

protected theorem UnitStep.doPush {c j tpl sa sb sc} (hs : UnitStep s₀ s) : UnitStep s₀ (doPush s c j tpl sa sb sc) := by
  refine hs.withSources ?_
  dsimp only
  split
  · exact hs.skipScribe
  · exact .ite hs.skipScribe hs.enqueueOrWait

protected theorem UnitStep.doPushr {c j ga} (hs : UnitStep s₀ s) : UnitStep s₀ (doPushr s c j ga) := .ite hs.skipScribe hs.enqueueOrWait

protected theorem UnitStep.doXwr {c x reg sa} (hs : UnitStep s₀ s) : UnitStep s₀ (doXwr s c x reg sa) :=
  hs.withSources (.ite hs.skipScribe hs.enqueueOrWait)

protected theorem UnitStep.runScribe {c w n} {body : State → State} (hs : UnitStep s₀ s) (hb : ∀ {t}, UnitStep s₀ t → UnitStep s₀
  (body t)) :
    answers (runScribe s c w n body) (UnitStep s₀) := by
  unfold runScribe
  dsimp only
  split
  · refine .next ?_
    split
    · exact hb hs.beginScribe
    · exact hs.fireAt
  · exact .next hs

protected theorem UnitStep.resumeScribe {c} (hs : UnitStep s₀ s) : UnitStep s₀ (resumeScribe s c) := by
  unfold resumeScribe
  split
  · refine hs.goOn (.ite hs.finishScribe ?_)
    split
    · exact hs.doPush
    · exact hs.doPushr
    · exact hs.doXwr
    · exact hs.doCsend
    · exact hs.doCwait
    · exact hs.doTread
    · exact hs
  · exact hs

protected theorem UnitStep.execScribeWait {c n} (hs : UnitStep s₀ s) : answers (execScribeWait c n s) (UnitStep s₀) := by
  unfold execScribeWait
  exact hs.runScribe fun hb => .ite hb.skipScribe hb.finishScribe

protected theorem UnitStep.execAlu {c op gd sa sb} (hs : UnitStep s₀ s) : answers (execAlu c op gd sa sb s) (UnitStep s₀) := by
  unfold execAlu
  exact hs.runScribe fun hb => hb.withSources hb.putG.nextScribe

protected theorem UnitStep.execAlui {c op gd sa imm} (hs : UnitStep s₀ s) : answers (execAlui c op gd sa imm s) (UnitStep s₀) := by
  unfold execAlui
  exact hs.runScribe fun hb => hb.withSources hb.putG.nextScribe

protected theorem UnitStep.execBr {c cond sa sb target} (hs : UnitStep s₀ s) : answers (execBr c cond sa sb target s) (UnitStep s₀) := by
  unfold execBr
  exact hs.runScribe fun hb => hb.withSources (.ite hb.retireScribe hb.nextScribe)

protected theorem UnitStep.execLset {c lk sa imm} (hs : UnitStep s₀ s) : answers (execLset c lk sa imm s) (UnitStep s₀) := by
  unfold execLset
  exact hs.runScribe fun hb => hb.withSources (.ite hb.skipScribe hb.putL.nextScribe)

protected theorem UnitStep.execLdc {c gd idx} (hs : UnitStep s₀ s) : answers (execLdc c gd idx s) (UnitStep s₀) := by
  unfold execLdc
  refine hs.runScribe fun hb => ?_
  split
  · exact hb.skipScribe
  · exact hb.putG.nextScribe

protected theorem UnitStep.execMovi {c gd imm} (hs : UnitStep s₀ s) : answers (execMovi c gd imm s) (UnitStep s₀) := by
  unfold execMovi
  exact hs.runScribe fun hb => hb.putG.nextScribe

protected theorem UnitStep.execLd {c gd sa off w} (hs : UnitStep s₀ s) : answers (execLd c gd sa off w s) (UnitStep s₀) := by
  unfold execLd
  refine hs.runScribe fun hb => hb.withSources ?_
  dsimp only
  split
  · exact hb.skipScribe
  · exact hb.putG.nextScribe

protected theorem UnitStep.execSt {c ss sa off w} (hs : UnitStep s₀ s) : answers (execSt c ss sa off w s) (UnitStep s₀) := by
  unfold execSt
  refine hs.runScribe fun hb => hb.withSources ?_
  dsimp only
  split
  · exact hb.skipScribe
  · exact hb.unitStore.nextScribe

protected theorem UnitStep.execNote {c dest tag sa sb} (hs : UnitStep s₀ s) : answers (execNote c dest tag sa sb s) (UnitStep s₀) := by
  unfold execNote
  exact hs.runScribe fun hb => .ite hb.skipScribe (.nextScribe (.ite hb.logEv hb.parts))

protected theorem UnitStep.execLend {c lk target} (hs : UnitStep s₀ s) : answers (execLend c lk target s) (UnitStep s₀) := by
  unfold execLend
  exact hs.runScribe fun hb => .ite hb.putL.retireScribe hb.putL.nextScribe

protected theorem UnitStep.execJmp {c target} (hs : UnitStep s₀ s) : answers (execJmp c target s) (UnitStep s₀) := by
  unfold execJmp
  exact hs.runScribe fun hb => hb.retireScribe

protected theorem UnitStep.execEnd {c} (hs : UnitStep s₀ s) : answers (execEnd c s) (UnitStep s₀) := by
  unfold execEnd
  exact hs.runScribe fun hb => hb.retireScribe.modUnit

protected theorem UnitStep.execPush {c j tpl sa sb sc} (hs : UnitStep s₀ s) : answers (execPush c j tpl sa sb sc s) (UnitStep s₀) := by
  unfold execPush
  exact hs.runScribe fun hb => hb.doPush

protected theorem UnitStep.execPushr {c j ga} (hs : UnitStep s₀ s) : answers (execPushr c j ga s) (UnitStep s₀) := by
  unfold execPushr
  exact hs.runScribe fun hb => hb.doPushr

protected theorem UnitStep.execXwr {c x reg sa} (hs : UnitStep s₀ s) : answers (execXwr c x reg sa s) (UnitStep s₀) := by
  unfold execXwr
  exact hs.runScribe fun hb => hb.doXwr

protected theorem UnitStep.execCsend {c port ga} (hs : UnitStep s₀ s) : answers (execCsend c port ga s) (UnitStep s₀) := by
  unfold execCsend
  exact hs.runScribe fun hb => hb.doCsend

protected theorem UnitStep.execCwait {c port n} (hs : UnitStep s₀ s) : answers (execCwait c port n s) (UnitStep s₀) := by
  unfold execCwait
  exact hs.runScribe fun hb => hb.doCwait

protected theorem UnitStep.execTread {c od what} (hs : UnitStep s₀ s) : answers (execTread c od what s) (UnitStep s₀) := by
  unfold execTread
  exact hs.runScribe fun hb => hb.doTread

/-! ### Stretched strokes go on (R50) -/

protected theorem UnitStep.resumeTile {c j} (hs : UnitStep s₀ s) : UnitStep s₀ (resumeTile s c j) := by
  unfold resumeTile
  dsimp only
  split
  · exact hs.goOn (.ite hs.xmovAdvance (hs.advance .wordPlan))
  · split
    · exact .ite hs.runXmov (hs.runTile .wordPlan)
    · exact .ite hs.setUnit hs

protected theorem UnitStep.resumeMover {m} (hs : UnitStep s₀ s) : UnitStep s₀ (resumeMover s m) := by
  unfold resumeMover
  dsimp only
  split
  · exact hs.moverAdvance
  · exact hs

/-- A row of an engine, a scribe or a die mover does what a unit can do, and no more. -/
theorem exec_unitStep (i : Instr) (s : State) (hi : isUnitCmd i = true) : answers (exec i s) (UnitStep s) := by
  have hs : UnitStep s s := .refl s
  cases i with
  | matrixWait => exact hs.runMatrix .planWait
  | mldw => exact hs.runMatrix .planMldw
  | manc => exact hs.runMatrix .planManc
  | macc => exact hs.runMatrix .planMacc
  | mwout => exact hs.runMatrix .planMwout
  | mwexp => exact hs.runMatrix .planMwexp
  | mwadd => exact hs.runMatrix .planMwadd
  | vectorWait => exact hs.runVector .planWait
  | vop => exact hs.runVector .planVop
  | vfn => exact hs.runVector .planVfn
  | vcmp => exact hs.runVector .planVcmp
  | vsel => exact hs.runVector .planVsel
  | vkop => exact hs.runVector .planVkop
  | vimm => exact hs.runVector .planVimm
  | viota => exact hs.runVector .planViota
  | vcvt => exact hs.runVector .planVcvt
  | vld => exact hs.runVector .planVld
  | vst => exact hs.runVector .planVst
  | vldx => exact hs.runVector .planVldx
  | vstx => exact hs.runVector .planVstx
  | vldq => exact hs.runVector .planVldq
  | vqnt => exact hs.runVector .planVqnt
  | vlda => exact hs.runVector .planVlda
  | vsta => exact hs.runVector .planVsta
  | vwanc => exact hs.runVector .planVwanc
  | vrsum => exact hs.runVector .planVrsum
  | vrdot => exact hs.runVector .planVrdot
  | vwout => exact hs.runVector .planVwout
  | vwexp => exact hs.runVector .planVwexp
  | vwadd => exact hs.runVector .planVwadd
  | vanch => exact hs.runVector .planVanch
  | vrmax => exact hs.runVector .planVrmax
  | vtopk => exact hs.runVector .planVtopk
  | vsamp => exact hs.runVector .planVsamp
  | vrng => exact hs.runVector .planVrng
  | vdisp => exact hs.runVector .planVdisp
  | transferWait => exact hs.runTransfer .planWait
  | xmov => exact .next (.ite hs.runXmov hs)
  | xreg => exact hs.runTransfer .planXreg
  | xflip => exact hs.runTransfer .planXflip
  | moverRead => exact .next hs.runMover
  | moverWrite => exact .next hs.runMover
  | scribeWait => exact hs.execScribeWait
  | alu => exact hs.execAlu
  | alui => exact hs.execAlui
  | movi => exact hs.execMovi
  | ld => exact hs.execLd
  | st => exact hs.execSt
  | ldc => exact hs.execLdc
  | jmp => exact hs.execJmp
  | br => exact hs.execBr
  | lset => exact hs.execLset
  | lend => exact hs.execLend
  | endOp => exact hs.execEnd
  | push => exact hs.execPush
  | pushr => exact hs.execPushr
  | xwr => exact hs.execXwr
  | csend => exact hs.execCsend
  | cwait => exact hs.execCwait
  | tread => exact hs.execTread
  | note => exact hs.execNote
  | waitResume u =>
    refine .next ?_
    cases u with
    | scribe c => exact .ite hs.resumeScribe hs
    | tile c j => exact .ite hs.resumeTile hs
    | mover m => exact .ite hs.resumeMover hs
  | _ => exact nomatch hi

end Sys2Proof.Machine
end

section
/-! PROOFS. Every other function of the model keeps the one form of the tables. -/

namespace Sys2Proof.Machine

set_option Elab.async false

variable {s s₀ : State}

/-! ### Keeping the tables, for what units and other commands share -/

/-- The rows of units keep the tables' form. -/
protected theorem IsTidy.unitRow {i : Instr} (hs : IsTidy s) (hi : isUnitCmd i = true) : answers (exec i s) IsTidy := by
  obtain ⟨t, ht, h⟩ := exec_unitStep i s hi
  exact ⟨t, ht, h.tidy hs⟩

/-! ### The definitions of Machine/Engine -/

protected theorem IsTidy.unitStore {c a bs} (hs : IsTidy s) : IsTidy (unitStore s c a bs) := (UnitStep.refl s).unitStore.tidy hs

/-! ### The definitions of Machine/Scribe -/

protected theorem IsTidy.resumeScribe {c} (hs : IsTidy s) : IsTidy (resumeScribe s c) := (UnitStep.refl s).resumeScribe.tidy hs

/-! ### The definitions of Machine/Resume -/

protected theorem IsTidy.resumeTile {c j} (hs : IsTidy s) : IsTidy (resumeTile s c j) := (UnitStep.refl s).resumeTile.tidy hs

/-! ### The definitions of Machine/ServOps -/

protected theorem IsTidy.setSlot {i v} (hs : IsTidy s) : IsTidy (setSlot s i v) := hs.parts

/-! ### Tables that a command builds whole -/

section
variable {α β : Type}

/-- Entries whose value becomes the default fall out, the others keep their keys. -/
theorem keysRise_keepVals [DecidableEq β] {d : β} (g : Nat × α → β) {t : Tbl α} (ht : keysRise 0 t = true) :
    keysRise 0 (t.filterMap fun e => if g e = d then none else some (e.1, g e)) = true := by
  refine keysRise_filterMap _ (fun e e' he => ?_) t 0 ht
  split at he
  · cases he
  · cases he
    rfl

theorem keysRise_mapVals (g : Nat × α → β) (t : Tbl α) {lo : Nat} (ht : keysRise lo t = true) :
    keysRise lo (t.map fun e => (e.1, g e)) = true := by
  rw [← List.filterMap_eq_map]
  exact keysRise_filterMap _ (fun e e' he => by cases he; rfl) t lo ht

end

theorem keysRise_mapPorts (good ns : List Nat) {t : Tbl PortSt} (ht : keysRise 0 t = true) : keysRise 0 (mapPorts t good ns) = true := by
  induction ns generalizing t with
  | nil => exact ht
  | cons n ns ih => exact ih (keysRise_tset _ _ _ _ ht)

theorem keysRise_setDry (d : BitVec 32) (ns : List Nat) {t : Tbl PortSt} (ht : keysRise 0 t = true) :
    keysRise 0 (setDry t d ns) = true := by
  induction ns generalizing t with
  | nil => exact ht
  | cons n ns ih => exact ih (keysRise_tset _ _ _ _ ht)

theorem twf_clearSlots (slot : Nat) (cs : List Nat) {mem : Tbl Byte} (hm : twf 0 mem = true) : twf 0 (clearSlots mem slot cs) = true := by
  induction cs generalizing mem with
  | nil => exact hm
  | cons c cs ih => exact ih (twf_clearRun _ _ _ _ hm)

theorem twf_overlayOver (a : Nat) (bs : Bytes) {t : Tbl (Option Byte)} (ht : twf none t = true) :
    twf none (overlayOver t a bs) = true := by
  induction bs generalizing t a with
  | nil => exact ht
  | cons b bs ih =>
    refine ih (a + 1) ?_
    split
    · exact twf_tset _ _ _ _ ht
    · exact ht

theorem keysRise_linksOff {t : Tbl SubSt} (ht : keysRise 0 t = true) : keysRise 0 (linksOff t) = true := keysRise_keepVals _ ht

protected theorem IsTidy.reset : IsTidy .reset := by
  constructor <;> decide

/-! ### The definitions of Machine/RegMap -/

protected theorem IsTidy.putReg {off v} (hs : IsTidy s) : IsTidy (putReg s off v) :=
  { hs with regs := keysRise_tset _ _ _ _ hs.regs }

protected theorem IsTidy.putField {off hi lo v} (hs : IsTidy s) : IsTidy (putField s off hi lo v) := hs.putReg

/-! ### The definitions of Machine/Ops -/

protected theorem IsTidy.drawFree {w} (hs : IsTidy s) : IsTidy (drawFree w s).2 := hs.parts

protected theorem IsTidy.freeBytes {n} (hs : IsTidy s) : IsTidy (freeBytes n s).2 := by
  unfold freeBytes
  dsimp only
  exact hs.drawFree

/-! ### The definitions of Machine/LaunchOps -/

protected theorem IsTidy.sendEnd {step status} (hs : IsTidy s) : IsTidy (sendEnd s step status) := hs.originate

protected theorem IsTidy.endHold {port sub dryMs outcome} (hs : IsTidy s) : IsTidy (endHold s port sub dryMs outcome) :=
  hs.parts.originate

protected theorem IsTidy.raiseCond {code} (hs : IsTidy s) : IsTidy (raiseCond s code) := hs.parts

protected theorem IsTidy.clearHalts (hs : IsTidy s) : IsTidy (clearHalts s) :=
  { hs with units := keysRise_keepVals _ hs.units }

protected theorem IsTidy.endHaltHold {outcome} (hs : IsTidy s) : IsTidy (endHaltHold s outcome) := .ite hs.parts.endHold hs

protected theorem IsTidy.endHalts (hs : IsTidy s) : IsTidy (endHalts s) := .ite hs hs.clearHalts.endHaltHold

/-! ### The definitions of Machine/Engine -/

protected theorem IsTidy.flushSlab {c xs} (hs : IsTidy s) : IsTidy (flushSlab s c xs) := by
  fun_induction flushSlab s c xs with
  | case1 => exact hs
  | case2 _ _ _ ih => exact ih hs.unitStore

/-! ### The definitions of Machine/ServOps -/

protected theorem IsTidy.modSlot {i f} (hs : IsTidy s) : IsTidy (modSlot s i f) := hs.setSlot

protected theorem IsTidy.eachSlot {f is} (hs : IsTidy s) (hf : ∀ {i t}, IsTidy t → IsTidy (f i t)) : IsTidy (eachSlot s f is) := by
  induction is generalizing s with
  | nil => exact hs
  | cons i is ih => exact ih (hf hs)

protected theorem IsTidy.decide_ {i code} (hs : IsTidy s) : IsTidy (decide_ s i code) := hs.modSlot

protected theorem IsTidy.setFolio {i f} (hs : IsTidy s) : IsTidy (setFolio s i f) := hs.parts

protected theorem IsTidy.sieveRemove {idx} (hs : IsTidy s) : IsTidy (sieveRemove s idx) := by
  unfold sieveRemove
  split
  · exact hs
  · exact .ite hs.parts.setFolio hs.parts

protected theorem IsTidy.sieveRemoveAll {xs} (hs : IsTidy s) : IsTidy (sieveRemoveAll s xs) := by
  fun_induction sieveRemoveAll s xs with
  | case1 => exact hs
  | case2 _ _ _ ih => exact ih hs.sieveRemove

protected theorem IsTidy.takeRun {slot base n} (hs : IsTidy s) : IsTidy (takeRun s slot base n) := by
  induction n with
  | zero => exact hs
  | succ n ih => exact .setFolio (.ite ih.sieveRemove ih)

protected theorem IsTidy.giveRun {slot base n} (hs : IsTidy s) : IsTidy (giveRun s slot base n) := hs.takeRun.modSlot

protected theorem IsTidy.freeRun {i} (hs : IsTidy s) : IsTidy (freeRun s i) := .ite hs.parts.modSlot hs

protected theorem IsTidy.freeSpill {i} (hs : IsTidy s) : IsTidy (freeSpill s i) := by
  unfold freeSpill
  exact hs.parts.modSlot

protected theorem IsTidy.freeRuns {i} (hs : IsTidy s) : IsTidy (freeRuns s i) := hs.freeRun.freeSpill

/-! ### The definitions of Machine/MboxOps -/

protected theorem IsTidy.modRing {r f} (hs : IsTidy s) : IsTidy (modRing s r f) :=
  { hs with rings := keysRise_tset _ _ _ _ hs.rings }

protected theorem IsTidy.complete {ring seq code err result} (hs : IsTidy s) : IsTidy (complete s ring seq code err result) :=
  hs.memWrite.modRing.parts

protected theorem IsTidy.done {ring seq c err result} (hs : IsTidy s) : IsTidy (done s ring seq c err result) := hs.complete

protected theorem IsTidy.putToken {rec16} (hs : IsTidy s) : IsTidy (putToken s rec16) := hs.memWrite.parts

/-! ### The definitions of Machine/Loading -/

protected theorem IsTidy.fillTarget {e} (hs : IsTidy s) : IsTidy (fillTarget s e) := .ite hs hs.memWrite

protected theorem IsTidy.fillAnchors {all xs} (hs : IsTidy s) : IsTidy (fillAnchors s all xs) := by
  fun_induction fillAnchors s all xs with
  | case1 => exact hs
  | case2 _ _ _ ih => exact ih (.ite hs.memWrite hs)

protected theorem IsTidy.reloadWeights (hs : IsTidy s) : IsTidy (reloadWeights s) := by
  unfold reloadWeights
  split
  · exact hs
  · refine .fillAnchors ?_
    refine hs.foldl fun ht => ?_
    exact ht.fillTarget

protected theorem IsTidy.switchEpoch {epoch} (hs : IsTidy s) : IsTidy (switchEpoch s epoch) := hs.parts

protected theorem IsTidy.modManifest {epoch adapter f} (hs : IsTidy s) : IsTidy (modManifest s epoch adapter f) := hs.parts

protected theorem IsTidy.loadDone {epoch adapter} (hs : IsTidy s) : IsTidy (loadDone s epoch adapter) := by
  unfold loadDone
  split
  · exact hs
  · split
    · exact hs
    · exact .ite (.originate (.complete (.ite hs.modManifest.parts hs.modManifest))) hs

protected theorem IsTidy.dropManifest {epoch adapter} (hs : IsTidy s) : IsTidy (dropManifest s epoch adapter) := hs.parts

protected theorem IsTidy.sendBulk {k bs} (hs : IsTidy s) : IsTidy (sendBulk s k bs) := hs.modSub

protected theorem IsTidy.sendData {k bs m} (hs : IsTidy s) : IsTidy (sendData s k bs m) := by
  fun_induction sendData s k bs m with
  | case1 => exact hs
  | case2 _ _ _ ih => exact ih hs.sendBulk

protected theorem IsTidy.sendBlock {t} (hs : IsTidy s) : IsTidy (sendBlock s t) := by
  unfold sendBlock
  dsimp only
  split
  · exact hs
  · exact hs.sendBulk.sendData

protected theorem IsTidy.pumpTx {xs} (hs : IsTidy s) : IsTidy (pumpTx s xs) := by
  fun_induction pumpTx s xs with
  | case1 => exact hs
  | case2 _ _ _ _ ih => exact ih hs
  | case3 _ _ _ _ _ _ ih => exact ih hs.parts.memWrite.sendBlock

protected theorem IsTidy.dropTx {epoch block} (hs : IsTidy s) : IsTidy (dropTx s epoch block) := hs.parts

protected theorem IsTidy.ackUp {epoch block} (hs : IsTidy s) : IsTidy (ackUp s epoch block) := by
  unfold ackUp
  split
  · exact hs.sendBulk
  · split
    · exact hs
    · exact hs.parts.complete

protected theorem IsTidy.takeBlock {m block e bytes} (hs : IsTidy s) : IsTidy (takeBlock s m block e bytes) := by
  unfold takeBlock
  extract_lets s1 s2 t s3
  have h1 : IsTidy s1 := .ite hs.memWrite.modManifest hs
  have h2 : IsTidy s2 := h1.loadDone
  exact .ite h2.parts.pumpTx h2.ackUp

protected theorem IsTidy.failJob {j err res} (hs : IsTidy s) : IsTidy (failJob s j err res) := hs.parts.complete

protected theorem IsTidy.blockError {j position} (hs : IsTidy s) : IsTidy (blockError s j position).1 := by
  unfold blockError
  dsimp only
  split
  · split
    · exact hs
    · dsimp only
      exact hs.drawFree
  · split
    · exact hs
    · dsimp only
      exact hs.drawFree

protected theorem IsTidy.readAgain {j position} (hs : IsTidy s) : IsTidy (readAgain s j position) :=
  .ite hs.blockError.failJob hs.parts

protected theorem IsTidy.nackUp {epoch block position} (hs : IsTidy s) : IsTidy (nackUp s epoch block position) := by
  unfold nackUp
  split
  · exact hs.sendBulk
  · split
    · exact hs.readAgain
    · exact hs

protected theorem IsTidy.nackUnsent {epoch} (hs : IsTidy s) : IsTidy (nackUnsent s epoch) :=
  .ite hs (hs.parts.foldl fun ht => ht.nackUp)

protected theorem IsTidy.bulkStartOn {k epoch block length} (hs : IsTidy s) : IsTidy (bulkStartOn s k epoch block length) := by
  unfold bulkStartOn
  split
  · exact hs
  · split
    · exact hs.nackUp
    · exact hs.parts

protected theorem IsTidy.bulkDataOn {k payload} (hs : IsTidy s) : IsTidy (bulkDataOn s k payload) := by
  unfold bulkDataOn
  split
  · exact hs
  · split
    · exact hs
    · dsimp only
      split
      · exact hs.parts
      · split
        · exact hs.parts.nackUp
        · split
          · exact hs.parts.nackUp
          · exact .ite hs.parts.takeBlock hs.parts.nackUp

protected theorem IsTidy.bulkAckOn {k epoch block} (hs : IsTidy s) : IsTidy (bulkAckOn s k epoch block) :=
  .ite hs.dropTx.ackUp.pumpTx hs

protected theorem IsTidy.bulkNackOn {k epoch block position} (hs : IsTidy s) : IsTidy (bulkNackOn s k epoch block position) := by
  unfold bulkNackOn
  split
  · exact hs
  · split
    · exact hs
    · exact .ite hs.dropTx.nackUp hs.parts.sendBlock

protected theorem IsTidy.resendBlocks {xs} (hs : IsTidy s) : IsTidy (resendBlocks s xs) := by
  fun_induction resendBlocks s xs with
  | case1 => exact hs
  | case2 _ _ _ ih => exact ih (.ite hs.sendBlock hs)

protected theorem IsTidy.serveLoadManifest {ring seq b} (hs : IsTidy s) : IsTidy (serveLoadManifest s ring seq b) :=
  .ite hs.done (.ite hs.done (.ite hs.done hs.parts))

protected theorem IsTidy.manifestRead {ring seq b host} (hs : IsTidy s) : IsTidy (manifestRead s ring seq b host) := by
  unfold manifestRead
  dsimp only
  split
  · exact hs.parts.done
  · exact .loadDone (.parts (.ite hs.parts.dropManifest hs.parts))

protected theorem IsTidy.serveLoadBlock {ring seq epoch block host length} (hs : IsTidy s) :
    IsTidy (serveLoadBlock s ring seq epoch block host length) := by
  unfold serveLoadBlock
  dsimp only
  split
  · exact hs.done
  · split
    · exact hs.done
    · split
      · exact hs.done
      · exact .ite hs.done (.ite hs.done hs.parts)

protected theorem IsTidy.blockRead {j host} (hs : IsTidy s) : IsTidy (blockRead s j host) := by
  unfold blockRead
  dsimp only
  split
  · exact hs.failJob
  · split
    · exact hs.failJob
    · exact .ite hs.parts.takeBlock hs.readAgain

protected theorem IsTidy.execManifestTimeout {epoch adapter} (hs : IsTidy s) : answers (execManifestTimeout epoch adapter s) IsTidy := by
  unfold execManifestTimeout
  refine .next ?_
  split
  · exact hs.parts.dropManifest.nackUnsent.complete
  · split
    · exact hs
    · split
      · exact hs
      · exact hs.dropManifest.nackUnsent.complete

/-! ### The definitions of Machine/Seals -/

protected theorem IsTidy.deliverSeal {slot rid output addr bs} (hs : IsTidy s) : IsTidy (deliverSeal s slot rid output addr bs) :=
  hs.hostWrite.putToken

protected theorem IsTidy.holdSeal {h} (hs : IsTidy s) : IsTidy (holdSeal s h) := .ite hs.parts.memWrite hs.parts

protected theorem IsTidy.flushSeals {xs} (hs : IsTidy s) : IsTidy (flushSeals s xs) := by
  fun_induction flushSeals s xs with
  | case1 => exact hs.parts
  | case2 _ _ _ ih => exact ih hs.deliverSeal

protected theorem IsTidy.execSealSigned {slot} (hs : IsTidy s) : answers (execSealSigned slot s) IsTidy := by
  unfold execSealSigned
  refine .next ?_
  split
  · exact hs
  · exact .ite hs.parts.deliverSeal hs.parts.holdSeal

/-! ### The definitions of Machine/Serving -/

protected theorem IsTidy.useEntries {step is} (hs : IsTidy s) : IsTidy (useEntries s step is) := by
  induction is generalizing s with
  | nil => exact hs
  | cons i is ih =>
    refine ih ?_
    split
    · exact hs.parts
    · exact hs

protected theorem IsTidy.logEvicted {i} (hs : IsTidy s) : IsTidy (logEvicted s i) := hs.logEv

protected theorem IsTidy.evictNow {i} (hs : IsTidy s) : IsTidy (evictNow s i) := hs.decide_.freeRun.logEvicted

protected theorem IsTidy.strike {i} (hs : IsTidy s) : IsTidy (strike s i) := by
  unfold strike
  dsimp only
  split
  · exact hs.parts.modSlot
  · exact hs.evictNow

protected theorem IsTidy.strikeAll {xs} (hs : IsTidy s) : IsTidy (strikeAll s xs) := by
  fun_induction strikeAll s xs with
  | case1 => exact hs
  | case2 _ _ _ ih => exact ih hs.strike

protected theorem IsTidy.allocate {n align hits} {r : State × Option Nat} (hs : IsTidy s) (hr : allocate s n align hits = some r) :
    IsTidy r.1 := by
  unfold allocate at hr
  split at hr
  · cases hr
    exact hs
  · split at hr
    · cases hr
    · cases hr
      exact hs.strikeAll

protected theorem IsTidy.serveAdmit {ring seq b} (hs : IsTidy s) : IsTidy (serveAdmit s ring seq b) := by
  unfold serveAdmit
  dsimp only
  split
  · exact hs.done
  · split
    · exact hs.done
    · split
      · exact hs.done
      · split
        · exact hs.done
        · split
          · exact hs.done
          · next ha =>
            refine .done ?_
            split
            · exact (hs.allocate ha).parts.useEntries.setSlot.giveRun
            · exact (hs.allocate ha).parts.useEntries.setSlot

protected theorem IsTidy.retryRuns {is} (hs : IsTidy s) : IsTidy (retryRuns s is) := by
  induction is generalizing s with
  | nil => exact hs
  | cons i is ih =>
    refine ih ?_
    split
    · exact hs.giveRun
    · exact hs

protected theorem IsTidy.recordCancel {i code} (hs : IsTidy s) : IsTidy (recordCancel s i code) := hs.decide_.modSlot.freeRuns

protected theorem IsTidy.serveCancel {ring seq slot rid} (hs : IsTidy s) : IsTidy (serveCancel s ring seq slot rid) := by
  unfold serveCancel
  dsimp only
  split
  · exact hs.done
  · exact .ite hs.done hs.recordCancel.done

protected theorem IsTidy.servePause {ring seq slot rid} (hs : IsTidy s) : IsTidy (servePause s ring seq slot rid) := by
  unfold servePause
  dsimp only
  split
  · exact hs.done
  · exact .ite hs.done hs.setSlot.done

protected theorem IsTidy.serveResume {ring seq slot rid} (hs : IsTidy s) : IsTidy (serveResume s ring seq slot rid) := by
  unfold serveResume
  dsimp only
  split
  · exact hs.done
  · exact .ite hs.done hs.setSlot.done

protected theorem IsTidy.serveSetDeadline {ring seq slot rid sec ns} (hs : IsTidy s) :
    IsTidy (serveSetDeadline s ring seq slot rid sec ns) := by
  unfold serveSetDeadline
  dsimp only
  split
  · exact hs.done
  · exact .ite hs.done (.ite hs.done hs.modSlot.done)

protected theorem IsTidy.execEvictTimer {slot} (hs : IsTidy s) : answers (execEvictTimer slot s) IsTidy :=
  .next (.ite hs.decide_.logEvicted hs)

protected theorem IsTidy.retireOld {epoch} (hs : IsTidy s) : IsTidy (retireOld s epoch) := hs.eachSlot (fun ht => ht.decide_)

protected theorem IsTidy.execDrainLimitExpiry (hs : IsTidy s) : answers (execDrainLimitExpiry s) IsTidy :=
  .next (.ite hs.retireOld hs)

protected theorem IsTidy.serveActivate {ring seq epoch mode} (hs : IsTidy s) : IsTidy (serveActivate s ring seq epoch mode) := by
  unfold serveActivate
  dsimp only
  split
  · exact hs.done
  · split
    · split
      · exact hs.done
      · exact .done (.parts (.reloadWeights (.switchEpoch (.ite hs.retireOld hs))))
    · exact .ite hs.done (.ite hs.done (.ite hs.done (.done (.ite hs.parts.retireOld hs.parts))))

protected theorem IsTidy.switchAtMarker {epoch} (hs : IsTidy s) : IsTidy (switchAtMarker s epoch) := hs.switchEpoch.parts

protected theorem IsTidy.fillLanes {room pauseMax margin xs xs' m} (hs : IsTidy s) :
    IsTidy (fillLanes s room pauseMax margin xs xs' m).1 := by
  fun_induction fillLanes s room pauseMax margin xs xs' m with
  | case1 =>
    exact hs
  | case2 _ _ _ _ _ _ ih => exact ih hs
  | case3 =>
    exact hs
  | case4 _ _ _ _ _ _ _ _ _ ih => exact ih hs.modSlot
  | case5 =>
    exact hs

protected theorem IsTidy.fillGroup {group} (hs : IsTidy s) : IsTidy (fillGroup s group).1 := by
  unfold fillGroup
  exact hs.parts.fillLanes.parts

protected theorem IsTidy.fetchRun {i} (hs : IsTidy s) : IsTidy (fetchRun s i).1 := by
  unfold fetchRun
  dsimp only
  split
  · next ha => exact .giveRun (hs.allocate ha)
  · next ha => exact hs.allocate ha
  · exact hs

protected theorem IsTidy.takeLane {group i d} (hs : IsTidy s) : IsTidy (takeLane s group i d).1 := by
  unfold takeLane
  dsimp only
  split
  · exact hs.decide_.logEvicted
  · split
    · exact hs.decide_
    · dsimp only
      split
      · refine .memWrite ?_
        refine .setSlot ?_
        split
        · exact hs.drawFree
        · exact hs
      · refine .setSlot ?_
        split
        · exact hs.drawFree
        · exact hs

protected theorem IsTidy.takeLanes {group d is} (hs : IsTidy s) : IsTidy (takeLanes s group d is).1 := by
  induction is generalizing s d with
  | nil => exact hs
  | cons i is ih =>
    have hf : IsTidy (if (getSlot s i).state = .spilled then fetchRun s i else (s, true)).1 := by
      split
      · exact hs.fetchRun
      · exact hs
    unfold takeLanes
    generalize (if (getSlot s i).state = .spilled then fetchRun s i else (s, true)) = f at hf ⊢
    split
    · exact ih hs
    · refine ih ?_
      split
      · exact hf.takeLane
      · exact hf

protected theorem IsTidy.decideDeadlines (hs : IsTidy s) : IsTidy (decideDeadlines s) := hs.eachSlot (fun ht => ht.decide_)

protected theorem IsTidy.applyPauses (hs : IsTidy s) : IsTidy (applyPauses s) := hs.eachSlot (fun ht => ht.modSlot)

protected theorem IsTidy.headSwitch (hs : IsTidy s) : IsTidy (headSwitch s).1 := by
  unfold headSwitch
  split
  · exact hs.switchAtMarker
  · exact hs

protected theorem IsTidy.writeLanes {d} (hs : IsTidy s) : IsTidy (writeLanes s d) := hs.memWrite

protected theorem IsTidy.headDescriptor (hs : IsTidy s) : IsTidy (headDescriptor s) :=
  hs.decideDeadlines.applyPauses.retryRuns.headSwitch.fillGroup.takeLanes.parts.writeLanes

protected theorem IsTidy.mirrorLane {epoch l e} (hs : IsTidy s) : IsTidy (mirrorLane s epoch l e) := hs.modSlot

protected theorem IsTidy.mirrorSlots {d} (hs : IsTidy s) : IsTidy (mirrorSlots s d) :=
  .foldl (hs.eachSlot fun ht => ht.modSlot) fun ht => ht.mirrorLane

protected theorem IsTidy.pass {t record report} (hs : IsTidy s) : IsTidy (pass s t record report) := hs.parts

protected theorem IsTidy.useRecord {d} (hs : IsTidy s) : IsTidy (useRecord s d) := hs.parts.mirrorSlots.writeLanes

protected theorem IsTidy.takeRecord {failed} (hs : IsTidy s) : IsTidy (takeRecord s failed) := by
  unfold takeRecord
  dsimp only
  split
  · exact hs.useRecord
  · exact .ite hs.useRecord (.ite hs.useRecord (.ite hs.switchAtMarker.useRecord hs.useRecord.logEv))

protected theorem IsTidy.takeReport {d r} (hs : IsTidy s) : IsTidy (takeReport s d r) := by
  refine .foldl (.foldl hs fun ht => .ite ht.modSlot ht) fun ht => ?_
  split
  · exact .ite ht.modSlot ht
  · exact ht

protected theorem IsTidy.sieveInsert {i k} (hs : IsTidy s) : IsTidy (sieveInsert s i k) := by
  unfold sieveInsert
  dsimp only
  split
  · exact hs
  · split
    · exact hs.parts.setFolio
    · split
      · exact hs
      · exact hs.sieveRemove.parts.setFolio

protected theorem IsTidy.sieveInsertRun {i k m} (hs : IsTidy s) : IsTidy (sieveInsertRun s i k m) := by
  fun_induction sieveInsertRun s i k m with
  | case1 => exact hs
  | case2 _ ih => exact ih.sieveInsert

protected theorem IsTidy.commitPass {i rid w} (hs : IsTidy s) : IsTidy (commitPass s i rid w) := by
  unfold commitPass
  dsimp only
  split
  · exact hs
  · split
    · exact hs.setSlot.sieveInsertRun
    · exact hs.setSlot
    · exact hs.freeRun.modSlot
    · exact hs.freeSpill.modSlot
    · exact hs

protected theorem IsTidy.postEnd {i} (hs : IsTidy s) : IsTidy (postEnd s i) := .ite hs.freeRuns.setSlot.parts hs.freeRuns.setSlot

protected theorem IsTidy.commitSlot {i} (hs : IsTidy s) : IsTidy (commitSlot i s) :=
  .ite hs.setSlot (.ite hs.setSlot.putToken.postEnd hs.setSlot.putToken)

protected theorem IsTidy.countDrain (hs : IsTidy s) : IsTidy (countDrain s) := .ite hs.parts hs

protected theorem IsTidy.markerCommit (hs : IsTidy s) : IsTidy (markerCommit s) := .ite hs.parts hs

protected theorem IsTidy.commitServing (hs : IsTidy s) : IsTidy (commitServing s) := by
  unfold commitServing
  refine .ite hs ?_
  extract_lets d out s1 s2 s3 s4
  have h2 : IsTidy s2 := .foldl hs.takeReport fun ht => ht.commitPass
  have h4 : IsTidy s4 := (h2.eachSlot fun ht => ht.commitSlot).countDrain.markerCommit
  exact .ite h4.parts hs.markerCommit.parts

protected theorem IsTidy.failSlot {i} (hs : IsTidy s) : IsTidy (failSlot i s) := by
  unfold failSlot
  extract_lets s1 v s2
  have h2 : IsTidy s2 := hs.decide_.putToken
  exact h2.setSlot.postEnd

protected theorem IsTidy.failServing (hs : IsTidy s) : IsTidy (failServing s) :=
  .ite hs.parts (.countDrain (.parts (.eachSlot (hs.eachSlot (fun ht => ht.failSlot)) (fun ht => ht.modSlot))))

protected theorem IsTidy.closeSlots (hs : IsTidy s) : IsTidy (closeSlots s).1 := by
  unfold closeSlots
  dsimp only
  split
  · exact hs.eachSlot (fun ht => ht.failSlot)
  · exact hs

protected theorem IsTidy.evictSpilledOn {m} (hs : IsTidy s) : IsTidy (evictSpilledOn s m) :=
  .ite hs (hs.eachSlot (fun ht => ht.decide_.logEvicted))

protected theorem IsTidy.execSaltWrite {tenant salt} (hs : IsTidy s) : answers (execSaltWrite tenant salt s) IsTidy :=
  .next hs.sieveRemoveAll.parts

/-! ### The definitions of Machine/MemOps -/

protected theorem IsTidy.flashWrite {a bs} (hs : IsTidy s) : IsTidy (flashWrite s a bs) :=
  { hs with flash := twf_writeRun _ _ _ _ hs.flash }

protected theorem IsTidy.flashErase {a n} (hs : IsTidy s) : IsTidy (flashErase s a n) :=
  { hs with flash := twf_clearRun _ _ _ _ hs.flash }

protected theorem IsTidy.retireWrite {h i xs} (hs : IsTidy s) : IsTidy (retireWrite s h i xs) := by
  fun_induction retireWrite s h i xs with
  | case1 => exact hs
  | case2 _ _ _ _ ih => exact ih hs.flashWrite

protected theorem IsTidy.retire {e} (hs : IsTidy s) : IsTidy (retire s e) := .ite hs.retireWrite hs.retireWrite.flashErase

protected theorem IsTidy.modStack {k f} (hs : IsTidy s) : IsTidy (modStack s k f) :=
  { hs with stackTbl := keysRise_tset _ _ _ _ hs.stackTbl }

protected theorem IsTidy.modDdr {m f} (hs : IsTidy s) : IsTidy (modDdr s m f) := { hs with ddrs := keysRise_tset _ _ _ _ hs.ddrs }

protected theorem IsTidy.countError {a ue} (hs : IsTidy s) : IsTidy (countError s a ue) := by
  unfold countError
  split
  · exact hs.modStack
  · exact hs.modDdr
  · exact hs

protected theorem IsTidy.makePending {a} (hs : IsTidy s) : IsTidy (makePending s a) := by
  unfold makePending
  dsimp only
  split
  · exact .ite hs hs.modStack.retire.logEv
  · exact .ite hs hs.modDdr.retire.logEv
  · exact hs

protected theorem IsTidy.correctedRow {a} (hs : IsTidy s) : IsTidy (correctedRow s a) := by
  unfold correctedRow
  split
  · exact .ite hs.modStack.makePending hs.modStack
  · exact .ite hs.modDdr.makePending hs.modDdr
  · exact hs

protected theorem IsTidy.disableDdr {m cause} (hs : IsTidy s) : IsTidy (disableDdr s m cause) :=
  .ite hs hs.modDdr.logEv.retire.evictSpilledOn

protected theorem IsTidy.disableSoon {m cause} (hs : IsTidy s) : IsTidy (disableSoon s m cause) := .ite hs hs.modDdr

protected theorem IsTidy.applyDisables {ms} (hs : IsTidy s) : IsTidy (applyDisables s ms) := by
  induction ms generalizing s with
  | nil => exact hs
  | cons m ms ih =>
    refine ih ?_
    split
    · exact hs.disableDdr
    · exact hs

protected theorem IsTidy.countUe {a} (hs : IsTidy s) : IsTidy (countUe s a) := by
  unfold countUe
  split
  · exact .ite hs.modDdr.disableSoon hs.modDdr
  · exact hs

protected theorem IsTidy.noteUncorrectable {a kind index} (hs : IsTidy s) : IsTidy (noteUncorrectable s a kind index) :=
  hs.countError.countUe.logEv.makePending

/-! ### The definitions of Machine/Firmware -/

protected theorem IsTidy.setHdr {c h} (hs : IsTidy s) : IsTidy (setHdr s c h) := hs.parts

protected theorem IsTidy.writeHdr {h} (hs : IsTidy s) : IsTidy (writeHdr s h) := hs.flashErase.flashWrite.setHdr

protected theorem IsTidy.takeIdentity {k} (hs : IsTidy s) : IsTidy (takeIdentity s k) := hs.parts

protected theorem IsTidy.writeLoam {i img} (hs : IsTidy s) : IsTidy (writeLoam s i img) := hs.flashErase.flashWrite

/-! ### The definitions of Machine/SpanOps -/

protected theorem IsTidy.flushOut {ch k sc} (hs : IsTidy s) : IsTidy (flushOut s ch k sc) := by
  unfold flushOut
  exact hs.setChan.modSub

protected theorem IsTidy.commitOut {k sc} (hs : IsTidy s) : IsTidy (commitOut s k sc) := hs.modSub

protected theorem IsTidy.dropUnsent {ch k sc} (hs : IsTidy s) : IsTidy (dropUnsent s ch k sc) := hs.setChan.modSub

protected theorem IsTidy.voidOut {ch k sc} (hs : IsTidy s) : IsTidy (voidOut s ch k sc) := hs.dropUnsent.modSub

protected theorem IsTidy.eachOut {f l} (hs : IsTidy s) (hf : ∀ {t ch k sc}, IsTidy t → IsTidy (f t ch k sc)) :
    IsTidy (eachOut s f l) := by
  induction l generalizing s with
  | nil => exact hs
  | cons e l ih => exact ih (hf hs)

protected theorem IsTidy.sendCommits (hs : IsTidy s) : IsTidy (sendCommits s) := hs.eachOut (fun ht => ht.flushOut.commitOut)

protected theorem IsTidy.freeBuffer {k cls} (hs : IsTidy s) : IsTidy (freeBuffer s k cls) := hs.modSub

protected theorem IsTidy.creditBack {k sc n} (hs : IsTidy s) : IsTidy (creditBack s k sc n) := .ite hs hs.modSub

protected theorem IsTidy.creditLeft {k sc} (hs : IsTidy s) : IsTidy (creditLeft s k sc) := .ite hs hs.creditBack.modSub

protected theorem IsTidy.enterDrops {ch k sc ds} (hs : IsTidy s) : IsTidy (enterDrops s ch k sc ds) :=
  .freeBuffer (.modSub (.ite hs.parts hs.parts.setChan))

protected theorem IsTidy.discardDrops {k sc} (hs : IsTidy s) : IsTidy (discardDrops s k sc) := hs.creditBack.freeBuffer

protected theorem IsTidy.dataOn {k sc ds} (hs : IsTidy s) : IsTidy (dataOn s k sc ds) := by
  unfold dataOn
  split
  · exact hs.freeBuffer
  · exact .ite hs.enterDrops (.ite hs.modSub hs.discardDrops)

protected theorem IsTidy.enterWaiting {k l} (hs : IsTidy s) : IsTidy (enterWaiting s k l) := by
  induction l generalizing s with
  | nil => exact hs
  | cons e l ih =>
    unfold enterWaiting
    refine .ite (ih ?_) (.ite (ih hs.discardDrops) (ih hs.modSub))
    split
    · exact hs.enterDrops
    · exact hs.discardDrops

protected theorem IsTidy.enterPools {xs} (hs : IsTidy s) : IsTidy (enterPools s xs) := by
  fun_induction enterPools s xs with
  | case1 => exact hs
  | case2 _ _ _ _ ih => exact ih hs.modSub.enterWaiting

protected theorem IsTidy.enterRestored {l} (hs : IsTidy s) : IsTidy (enterRestored s l) := by
  induction l generalizing s with
  | nil => exact hs
  | cons e l ih =>
    unfold enterRestored
    refine .ite (ih ?_) (.ite (ih hs) (ih hs.parts))
    split
    · exact hs.parts.setChan.modSub
    · exact hs

protected theorem IsTidy.commitOn {k sc t} (hs : IsTidy s) : IsTidy (commitOn s k sc t) := hs.modSub.parts.freeBuffer

protected theorem IsTidy.creditEntry {k e} (hs : IsTidy s) : IsTidy (creditEntry s k e) := .ite hs hs.modSub

protected theorem IsTidy.creditOn {k xs} (hs : IsTidy s) : IsTidy (creditOn s k xs) := by
  fun_induction creditOn s k xs with
  | case1 => exact hs.freeBuffer
  | case2 _ _ _ ih => exact ih hs.creditEntry

/-! ### The definitions of Machine/Ckpt -/

protected theorem IsTidy.restoreHead {bs} (hs : IsTidy s) : IsTidy (restoreHead s bs) := hs.putReg.putReg.parts

protected theorem IsTidy.writeRanges {bs xs} (hs : IsTidy s) : IsTidy (writeRanges s bs xs) := by
  fun_induction writeRanges s bs xs with
  | case1 => exact hs
  | case2 _ _ _ _ ih => exact ih hs.memWrite

protected theorem IsTidy.serveCheckpoint {ring seq step kind addr len} (hs : IsTidy s) :
    IsTidy (serveCheckpoint s ring seq step kind addr len) :=
  .ite hs.done (.ite hs.done hs.parts)

protected theorem IsTidy.ckptEnd {err} (hs : IsTidy s) : IsTidy (ckptEnd s err) := by
  unfold ckptEnd
  split
  · exact hs
  · exact hs.parts.complete

protected theorem IsTidy.ckptFill (hs : IsTidy s) : IsTidy (ckptFill s) := by
  unfold ckptFill
  split
  · exact .ite hs (.ite hs.ckptEnd hs.parts)
  · exact hs

protected theorem IsTidy.ckptAtEnd {committed} (hs : IsTidy s) : IsTidy (ckptAtEnd s committed) := by
  unfold ckptAtEnd
  split
  · exact hs
  · exact .ite hs (.ite hs.parts.ckptEnd hs.parts.parts.ckptFill)

protected theorem IsTidy.execCheckpointWritten (hs : IsTidy s) : answers (execCheckpointWritten s) IsTidy := by
  unfold execCheckpointWritten
  refine .next ?_
  split
  · exact .ite (.ite hs.parts.hostWrite.complete hs) (.ite hs.parts.memWrite.complete hs.ckptEnd)
  · exact hs

protected theorem IsTidy.serveRestore {ring seq kind addr len digest} (hs : IsTidy s) :
    IsTidy (serveRestore s ring seq kind addr len digest) :=
  .ite hs.done (.ite hs.done (.ite hs.done hs.parts))

protected theorem IsTidy.restoreHeld {bs} (hs : IsTidy s) : IsTidy (restoreHeld s bs) := hs.parts.foldl fun ht => ht.modSub

protected theorem IsTidy.noState (hs : IsTidy s) : IsTidy (noState s) := { hs with mem := twf_filter _ _ _ hs.mem }

protected theorem IsTidy.restoreFail {ring seq err} (hs : IsTidy s) : IsTidy (restoreFail s ring seq err) :=
  hs.parts.noState.complete

protected theorem IsTidy.placeImage {img} (hs : IsTidy s) : IsTidy (placeImage s img) := by
  unfold placeImage
  extract_lets n _ s1 s2 s3 s4 s5 _ s6 _ _ _ s7
  have h2 : IsTidy s2 := .ite hs.parts.restoreHead hs.parts
  have h5 : IsTidy s5 := h2.writeRanges.writeRanges.writeRanges.restoreHeld
  have h6 : IsTidy s6 := .ite h5.parts h5
  exact h6.parts.eachSlot fun ht => ht.modSlot

protected theorem IsTidy.execRestoreComplete {host} (hs : IsTidy s) : answers (execRestoreComplete host s) IsTidy := by
  unfold execRestoreComplete
  refine .next ?_
  split
  · exact hs
  · split
    · exact hs
    · dsimp only
      split
      · exact hs.parts.restoreFail
      · exact hs.parts.placeImage.complete

/-! ### The definitions of Machine/Pace -/

protected theorem IsTidy.setRail {v byPower byTemp} (hs : IsTidy s) : IsTidy (setRail s v byPower byTemp) := hs.parts

protected theorem IsTidy.paceMove {v forced} (hs : IsTidy s) : IsTidy (paceMove s v forced) := .ite hs hs.setRail

protected theorem IsTidy.paceAfterLaunch {slack upstream} (hs : IsTidy s) : IsTidy (paceAfterLaunch s slack upstream) :=
  .ite hs (.ite hs.paceMove (.ite hs.paceMove (.ite hs.paceMove hs)))

protected theorem IsTidy.lateRunAfter {slack upstream} (hs : IsTidy s) : IsTidy (lateRunAfter s slack upstream) :=
  .ite (.ite hs.parts.parts.logEv hs.parts) hs.parts

protected theorem IsTidy.execPaceFreeUpdate (hs : IsTidy s) : answers (execPaceFreeUpdate s) IsTidy :=
  .next (.ite hs (.ite hs.paceMove (.ite hs.paceMove (.ite hs.paceMove hs))))

protected theorem IsTidy.logSilent {xs} (hs : IsTidy s) : IsTidy (logSilent s xs) := by
  fun_induction logSilent s xs with
  | case1 => exact hs
  | case2 _ _ _ ih => exact ih hs.logEv

protected theorem IsTidy.execAvsReadback {rails powerW tjC} (hs : IsTidy s) : answers (execAvsReadback rails powerW tjC s) IsTidy :=
  .next (.ite hs.parts.parts (.ite hs.parts hs.parts.parts.logSilent))

/-! ### The definitions of Machine/StepLife -/

protected theorem IsTidy.resetUnits (hs : IsTidy s) : IsTidy (resetUnits s) :=
  { hs with
    units := keysRise_keepVals _ hs.units
    scribes := keysRise_keepVals _ hs.scribes
    matrix := rfl
    vector := rfl
    xfer := rfl
    chans := rfl }

protected theorem IsTidy.keepRecord {r} (hs : IsTidy s) : IsTidy (keepRecord s r) := .ite hs.parts hs.parts.logEv

protected theorem IsTidy.afterStep (hs : IsTidy s) : IsTidy (afterStep s) := by
  unfold afterStep
  extract_lets st _ _ s1
  have h1 : IsTidy s1 := { hs with overlay := rfl, chans := rfl }
  exact h1.resetUnits.applyDisables

protected theorem IsTidy.creditAll {xs} (hs : IsTidy s) : IsTidy (creditAll s xs) := by
  fun_induction creditAll s xs with
  | case1 => exact hs
  | case2 _ _ _ _ _ ih => exact ih hs.creditLeft

protected theorem IsTidy.logDispatch (hs : IsTidy s) : IsTidy (logDispatch s) := by
  unfold logDispatch
  split
  · exact hs
  · exact hs.logEv

protected theorem IsTidy.endStepFailed {mask} (hs : IsTidy s) : IsTidy (endStepFailed s mask) := by
  unfold endStepFailed
  extract_lets m strokes s0 s1 r s2 _ s3
  have h0 : IsTidy s0 := .ite hs hs.logDispatch
  have h1 : IsTidy s1 := h0.creditAll.eachOut fun ht => ht.dropUnsent
  have h3 : IsTidy s3 := h1.keepRecord.parts.failServing
  exact h3.afterStep.ckptAtEnd.endHalts

protected theorem IsTidy.failStep {code} (hs : IsTidy s) : IsTidy (failStep s code) := hs.endStepFailed

protected theorem IsTidy.failHere {code} (hs : IsTidy s) : IsTidy (failHere s code) := .ite hs.parts.failStep.sendEnd hs

protected theorem IsTidy.recordUnlaunched {n code origin} (hs : IsTidy s) : IsTidy (recordUnlaunched s n code origin) := by
  unfold recordUnlaunched
  exact hs.drawFree.drawFree.drawFree.drawFree.parts.keepRecord.failServing.afterStep.ckptAtEnd

protected theorem IsTidy.lateRecord {n slack ready} (hs : IsTidy s) : IsTidy (lateRecord s n slack ready).1 := by
  unfold lateRecord
  dsimp only
  split
  · exact hs
  · exact hs.drawFree

protected theorem IsTidy.countLate {slack} (hs : IsTidy s) : IsTidy (countLate s slack) := .ite hs.parts hs

protected theorem IsTidy.beginStep {n} (hs : IsTidy s) : IsTidy (beginStep s n) := hs.parts.enterRestored.enterPools

protected theorem IsTidy.logLateDigests {n xs} (hs : IsTidy s) : IsTidy (logLateDigests s n xs) := by
  fun_induction logLateDigests s n xs with
  | case1 => exact hs
  | case2 _ _ _ _ ih => exact ih (.ite hs hs.logEv)

protected theorem IsTidy.launchBps (hs : IsTidy s) : IsTidy (launchBps s) := by
  unfold launchBps
  dsimp only
  split
  · exact hs
  · exact hs.bpHits.haltWith

protected theorem IsTidy.launchStep {n ready} (hs : IsTidy s) : IsTidy (launchStep s n ready) := by
  unfold launchStep
  extract_lets slack upstream l s1 _ _ s2 late paced s3 s4
  have h1 : IsTidy s1 := hs.lateRecord.countLate
  have hl : IsTidy late := h1.parts.lateRunAfter
  have hp : IsTidy paced := .ite hl.paceAfterLaunch hl
  have h3 : IsTidy s3 := .ite hp.logLateDigests hp
  have h4 : IsTidy s4 := h3.resetUnits.beginStep.launchBps
  exact .ite h4.failHere h4

protected theorem IsTidy.execLaunchTick (hs : IsTidy s) : answers (execLaunchTick s) IsTidy := by
  unfold execLaunchTick
  refine .next ?_
  split
  · exact hs
  · split
    · exact .ite hs hs.recordUnlaunched
    · split
      · exact hs
      · exact .ite hs hs.launchStep

protected theorem IsTidy.flushUnits {ks} (hs : IsTidy s) : IsTidy (flushUnits s ks) := by
  induction ks generalizing s with
  | nil => exact hs
  | cons k ks ih => exact ih hs.flushSlab.flushSlab

protected theorem IsTidy.discardResidue (hs : IsTidy s) : IsTidy (discardResidue s) := by
  have h1 : IsTidy (creditAll s (inSpans s)) := hs.creditAll
  exact .ite (.raiseCond { h1 with chans := rfl, units := keysRise_keepVals _ h1.units }) hs

protected theorem IsTidy.execLocalEnd (hs : IsTidy s) : answers (execLocalEnd s) IsTidy :=
  .next (.ite hs.flushUnits.parts.logDispatch.sendCommits.discardResidue hs)

protected theorem IsTidy.addStepSeal {r} (hs : IsTidy s) : IsTidy (addStepSeal s r) := .ite hs.parts hs

protected theorem IsTidy.execStepCommit (hs : IsTidy s) : answers (execStepCommit s) IsTidy := by
  have h1 : IsTidy (discardResidue s) := hs.discardResidue
  unfold execStepCommit
  generalize discardResidue s = s1 at h1
  have h2 : IsTidy { s1 with mem := overlayMerge s1.mem s1.overlay, overlay := [] } :=
    { h1 with mem := twf_overlayMerge _ _ h1.mem, overlay := rfl }
  exact .next (.ite (h2.commitServing.addStepSeal.keepRecord.afterStep.ckptAtEnd) hs)

protected theorem IsTidy.unpaid {xs} (hs : IsTidy s) : IsTidy (unpaid s xs) := by
  fun_induction unpaid s xs with
  | case1 => exact hs
  | case2 _ _ _ _ _ _ ih => exact ih (.ite hs hs.modSub)

protected theorem IsTidy.voidStep (hs : IsTidy s) : IsTidy (voidStep s) := by
  unfold voidStep
  extract_lets s1 s2
  have h1 : IsTidy s1 := hs.eachOut fun ht => ht.voidOut
  have h2 : IsTidy s2 := h1.creditAll.unpaid.resetUnits
  exact .endHalts { h2 with overlay := rfl }

protected theorem IsTidy.execStepVoid {addr} (hs : IsTidy s) : answers (execStepVoid addr s) IsTidy :=
  .next (.ite (.ite hs.logEv.failHere hs.logEv.parts.voidStep) hs)

protected theorem IsTidy.reloadBlock {a} (hs : IsTidy s) : IsTidy (reloadBlock s a) := by
  unfold reloadBlock
  split
  · exact hs.fillTarget
  · split
    · exact hs
    · exact hs.fillAnchors

protected theorem IsTidy.refill {xs} (hs : IsTidy s) : IsTidy (refill s xs) := by
  fun_induction refill s xs with
  | case1 => exact hs
  | case2 _ _ _ _ ih => exact ih hs.setChan

protected theorem IsTidy.execStepReexecute (hs : IsTidy s) : answers (execStepReexecute s) IsTidy := by
  unfold execStepReexecute
  refine .next ?_
  split
  · refine .refill ?_
    refine .parts ?_
    split
    · exact hs.resetUnits.reloadBlock
    · exact hs.resetUnits
  · exact hs

protected theorem IsTidy.voidOn {k sc t} (hs : IsTidy s) : IsTidy (voidOn s k sc t) := by
  unfold voidOn
  extract_lets r gone s0 s1
  have h1 : IsTidy s1 := .freeBuffer (hs.modSub.foldl fun ht => ht.discardDrops)
  split
  · exact h1
  · refine .ite ?_ h1
    extract_lets s2
    have h2 : IsTidy s2 := h1.parts.setChan.creditLeft
    exact .ite h2.parts.voidStep h2

protected theorem IsTidy.logWaiting {xs} (hs : IsTidy s) : IsTidy (logWaiting s xs) := by
  fun_induction logWaiting s xs with
  | case1 => exact hs
  | case2 _ _ _ _ ih => exact ih hs.logEv

protected theorem IsTidy.execWatchdogExpiry (hs : IsTidy s) : answers (execWatchdogExpiry s) IsTidy :=
  .next (.ite hs.logWaiting.parts.failHere hs)

protected theorem IsTidy.failUncorrectable (hs : IsTidy s) : IsTidy (failUncorrectable s) := hs.failHere

protected theorem IsTidy.patchCores {n cs} (hs : IsTidy s) : IsTidy (patchCores s n cs) := by
  induction cs generalizing s with
  | nil => exact hs
  | cons c cs ih => exact ih { hs with scribes := keysRise_tset _ _ _ _ hs.scribes }

protected theorem IsTidy.applyFlip (hs : IsTidy s) : IsTidy (applyFlip s) := .ite hs.parts hs

protected theorem IsTidy.markReady (hs : IsTidy s) : IsTidy (markReady s) := .ite hs.parts hs.parts

protected theorem IsTidy.roomCame (hs : IsTidy s) : IsTidy (roomCame s) := .ite hs.markReady hs

protected theorem IsTidy.finishBoundary (hs : IsTidy s) : IsTidy (finishBoundary s) := by
  unfold finishBoundary
  refine .ite hs (.ite hs ?_)
  extract_lets s1 s2
  have h1 : IsTidy s1 := .ite hs.headDescriptor (.ite hs.takeRecord hs)
  have h2 : IsTidy s2 := h1.patchCores
  exact .ite h2.parts h2.markReady

protected theorem IsTidy.execEpochReloadDone (hs : IsTidy s) : answers (execEpochReloadDone s) IsTidy :=
  .next (.ite (.ite hs.parts.reloadWeights.markReady hs.parts.reloadWeights) hs)

/-! ### The definitions of Machine/Memc -/

protected theorem IsTidy.stackRate {k tempC down} (hs : IsTidy s) : IsTidy (stackRate s k tempC down) := hs.modStack.logEv

protected theorem IsTidy.stackTemp {k tempC} (hs : IsTidy s) : IsTidy (stackTemp s k tempC) := hs.modStack

protected theorem IsTidy.execStackStepDown {k tempC} (hs : IsTidy s) : answers (execStackStepDown k tempC s) IsTidy :=
  .next (.ite hs.stackRate hs.stackTemp)

protected theorem IsTidy.execStackStepUp {k tempC} (hs : IsTidy s) : answers (execStackStepUp k tempC s) IsTidy :=
  .next (.ite hs.stackRate hs.stackTemp)

protected theorem IsTidy.execDdrThermal {m} (hs : IsTidy s) : answers (execDdrThermal m s) IsTidy := .next hs.disableSoon

protected theorem IsTidy.retrainFailed {m} (hs : IsTidy s) : IsTidy (retrainFailed s m) :=
  .ite hs (.ite hs.modDdr.failUncorrectable hs.disableDdr)

protected theorem IsTidy.execDdrRetrain {m ok} (hs : IsTidy s) : answers (execDdrRetrain m ok s) IsTidy :=
  .next (.ite hs hs.retrainFailed)

protected theorem IsTidy.rateReqOn {m r} (hs : IsTidy s) : IsTidy (rateReqOn s m r) :=
  .ite hs.logEv (.ite hs.putField hs.putField.modDdr)

protected theorem IsTidy.execRateReq {m rate} (hs : IsTidy s) : answers (execRateReq m rate s) IsTidy := .next hs.rateReqOn

protected theorem IsTidy.readCorrected {a} (hs : IsTidy s) : IsTidy (readCorrected s a) := hs.countError.correctedRow

protected theorem IsTidy.execPatrolRead {addr outcome} (hs : IsTidy s) : answers (execPatrolRead addr outcome s) IsTidy := by
  unfold execPatrolRead
  refine .next ?_
  split
  · exact hs
  · split
    · exact hs
    · exact hs.readCorrected
    · exact hs.noteUncorrectable

protected theorem IsTidy.promptFails {slot} (hs : IsTidy s) : IsTidy (promptFails s slot) := .ite hs hs.modSlot

/-! ### The definitions of Machine/RegRead -/

protected theorem IsTidy.latchNow (hs : IsTidy s) : IsTidy (latchNow s) := hs.parts

protected theorem IsTidy.regReadEffect {o n} (hs : IsTidy s) : IsTidy (regReadEffect s o n) := .ite hs.latchNow hs

/-! ### The definitions of Machine/Mapping -/

protected theorem IsTidy.disablePorts {xs} (hs : IsTidy s) : IsTidy (disablePorts s xs) := by
  fun_induction disablePorts s xs with
  | case1 => exact hs
  | case2 _ _ _ ih => exact ih (.ite hs.putField hs)

protected theorem IsTidy.mapDevice (hs : IsTidy s) : IsTidy (mapDevice s) := by
  unfold mapDevice
  generalize List.range 50 = ports
  exact .disablePorts { hs with ports := keysRise_mapPorts _ _ hs.ports }

/-! ### The definitions of Machine/LaunchMsgs -/

protected theorem IsTidy.setCensus {a c} (hs : IsTidy s) : IsTidy (setCensus s a c) := .ite hs.parts hs.parts

protected theorem IsTidy.completeArm (hs : IsTidy s) : IsTidy (completeArm s) := by
  unfold completeArm
  dsimp only
  split
  · exact hs
  · exact .ite hs.parts.complete hs

protected theorem IsTidy.sendCensus {a} (hs : IsTidy s) : IsTidy (sendCensus s a) := by
  unfold sendCensus
  dsimp only
  split
  · exact hs.setCensus.completeArm
  · exact hs.setCensus.sendLaunch

protected theorem IsTidy.tryCensus {a} (hs : IsTidy s) : IsTidy (tryCensus s a) := .ite hs.sendCensus hs

protected theorem IsTidy.sendDigest {step} (hs : IsTidy s) : IsTidy (sendDigest s step) := by
  unfold sendDigest
  split
  · exact hs.parts
  · dsimp only
    split
    · refine .sendLaunch ?_
      split
      · exact hs.sendLaunch
      · exact hs
    · split
      · exact hs.sendLaunch
      · exact hs

protected theorem IsTidy.serveArm {ring seq digest r} (hs : IsTidy s) : IsTidy (serveArm s ring seq digest r) := by
  unfold serveArm
  extract_lets fin why isRoot _ s1 _ s2 s3
  have h1 : IsTidy s1 := hs.parts
  have h2 : IsTidy s2 := .ite h1.parts.sendDigest h1
  have h3 : IsTidy s3 := .ite h2 (.ite h2.complete h2.complete)
  exact .ite hs.done (.ite hs.done (.ite hs.complete h3.tryCensus.tryCensus.completeArm))

protected theorem IsTidy.censusOn {k h m} (hs : IsTidy s) : IsTidy (censusOn s k h m) := .ite hs.setCensus.tryCensus hs

protected theorem IsTidy.execCensusWaitExpiry {tree} (hs : IsTidy s) : answers (execCensusWaitExpiry tree s) IsTidy :=
  .next (.ite hs.sendCensus hs)

protected theorem IsTidy.digestOn {h d} (hs : IsTidy s) : IsTidy (digestOn s h d) := by
  unfold digestOn
  split
  · exact .ite (.ite hs.logEv hs) (.parts (.ite hs.logEv hs))
  · split
    · exact hs.sendLaunch
    · exact hs

protected theorem IsTidy.lateRecords {n m} (hs : IsTidy s) : IsTidy (lateRecords s n m) := by
  fun_induction lateRecords s n m with
  | case1 => exact hs
  | case2 => exact hs
  | case3 _ _ _ _ ih => exact ih hs.recordUnlaunched

protected theorem IsTidy.acceptCommit {sec ns} (hs : IsTidy s) : IsTidy (acceptCommit s sec ns) :=
  .ite hs.parts hs.parts.originate.lateRecords

protected theorem IsTidy.serveCommit {ring seq sec ns} (hs : IsTidy s) : IsTidy (serveCommit s ring seq sec ns) :=
  .ite hs.done (.ite hs.done (.ite hs.done (.ite hs.done hs.sendAll.sendAll.parts.done.acceptCommit)))

protected theorem IsTidy.discardLaunch {k ty origin} (hs : IsTidy s) : IsTidy (discardLaunch s k ty origin) := hs.logEv

protected theorem IsTidy.commitMsgOn {k h tag sec ns} (hs : IsTidy s) : IsTidy (commitMsgOn s k h tag sec ns) := by
  unfold commitMsgOn
  extract_lets a fwd m s1 _ s2 r
  have h1 : IsTidy s1 := .ite hs hs.sendAll
  have h2 : IsTidy s2 := .ite h1.parts h1.parts
  exact .ite (.ite h2.acceptCommit h2) h2.discardLaunch

protected theorem IsTidy.execArmExpiry (hs : IsTidy s) : answers (execArmExpiry s) IsTidy := .next (.ite hs.parts.logEv hs)

protected theorem IsTidy.floodOn {k m} {t : State} (hs : IsTidy s) (ht : floodOn s k m = some t) : IsTidy t := by
  unfold floodOn at ht
  split at ht
  · cases ht
  · cases ht
    exact hs.parts.flood

protected theorem IsTidy.endOn {step count status} (hs : IsTidy s) : IsTidy (endOn s step count status) :=
  .ite hs (.ite hs.parts.failStep hs.parts)

protected theorem IsTidy.noticeEffect {m} (hs : IsTidy s) : IsTidy (noticeEffect s m) := by
  unfold noticeEffect
  split
  · exact hs.endOn
  · exact hs.parts
  · exact hs.parts
  · exact hs.parts
  · exact hs

protected theorem IsTidy.launchOn {k m} (hs : IsTidy s) : IsTidy (launchOn s k m) := by
  unfold launchOn
  split
  · exact hs.discardLaunch
  · split
    · exact hs.censusOn
    · exact hs.digestOn
    · exact hs.commitMsgOn
    · split
      · next hf => exact .noticeEffect (hs.floodOn hf)
      · exact hs

protected theorem IsTidy.launchPayloadOn {k p} (hs : IsTidy s) : IsTidy (launchPayloadOn s k p) := by
  unfold launchPayloadOn
  split
  · exact hs.launchOn
  · exact hs.discardLaunch

protected theorem IsTidy.launchRow {port sub h body} (hs : IsTidy s) : answers (launchRow port sub h body s) IsTidy :=
  .next (.ite hs.launchOn.freeBuffer hs)

protected theorem IsTidy.execCensus {port sub h tag armed refused reasons firstRefused maxBound} (hs : IsTidy s) :
    answers (execCensus port sub h tag armed refused reasons firstRefused maxBound s) IsTidy :=
  hs.launchRow

protected theorem IsTidy.execDigest {port sub h d} (hs : IsTidy s) : answers (execDigest port sub h d s) IsTidy := hs.launchRow

protected theorem IsTidy.execCommitMessage {port sub h tag sec ns} (hs : IsTidy s) :
    answers (execCommitMessage port sub h tag sec ns s) IsTidy :=
  hs.launchRow

protected theorem IsTidy.execEndNotice {port sub h count status} (hs : IsTidy s) :
    answers (execEndNotice port sub h count status s) IsTidy :=
  hs.launchRow

protected theorem IsTidy.execHold {port sub h hport hsub dryMs} (hs : IsTidy s) :
    answers (execHold port sub h hport hsub dryMs s) IsTidy :=
  hs.launchRow

protected theorem IsTidy.execHoldEnd {port sub h hport hsub dryMs outcome} (hs : IsTidy s) :
    answers (execHoldEnd port sub h hport hsub dryMs outcome s) IsTidy :=
  hs.launchRow

protected theorem IsTidy.execHoldLapse {origin step hport hsub} (hs : IsTidy s) :
    answers (execHoldLapse origin step hport hsub s) IsTidy :=
  .next hs.parts

protected theorem IsTidy.execStaged {port sub h epoch adapter} (hs : IsTidy s) : answers (execStaged port sub h epoch adapter s) IsTidy :=
  hs.launchRow

/-! ### The definitions of Machine/SheetLoad -/

protected theorem IsTidy.serveLoadSheet {ring seq host length digest} (hs : IsTidy s) :
    IsTidy (serveLoadSheet s ring seq host length digest) :=
  .ite hs.done (.ite hs.done hs.parts)

protected theorem IsTidy.execLoadSheetComplete {host} (hs : IsTidy s) :
    answers (execLoadSheetComplete host s) IsTidy := by
  unfold execLoadSheetComplete
  refine .next ?_
  split
  · exact hs
  · next l _ =>
    refine .ite hs ?_
    extract_lets fin _ s1
    have h1 : IsTidy s1 := hs.parts
    clear_value s1
    generalize checkImage s1 (hostView host l.host.toNat l.length.toNat) l.digest = c
    match c with
    | .inl (0, _) => exact h1.done
    | .inl (n + 1, _) => exact h1.done
    | .inr _ =>
      generalize List.range 64 = slots
      exact .done { h1 with mem := twf_clearSlots _ _ h1.mem }

protected theorem IsTidy.serveFlip {ring seq} (hs : IsTidy s) : IsTidy (serveFlip s ring seq) :=
  .ite hs.done (.done (.ite hs.parts.applyFlip hs.parts))

/-! ### The definitions of Machine/SpanLink -/

protected theorem IsTidy.sendFrame {k link body} (hs : IsTidy s) : IsTidy (sendFrame s k link body) := hs.modSub

protected theorem IsTidy.queueLink {k op mask width opNum rx} (hs : IsTidy s) : IsTidy (queueLink s k op mask width opNum rx) := by
  unfold queueLink
  exact hs.modSub

protected theorem IsTidy.sendHandshake {k} (hs : IsTidy s) : IsTidy (sendHandshake s k) := hs.sendFrame

protected theorem IsTidy.drawStart (hs : IsTidy s) : IsTidy (drawStart s).2 := by
  unfold drawStart
  dsimp only
  exact hs.drawFree

protected theorem IsTidy.startShake {k reset} (hs : IsTidy s) : IsTidy (startShake s k reset) := by
  unfold startShake
  refine .modSub ?_
  split
  · exact hs.drawStart
  · exact hs

protected theorem IsTidy.leavePlot {k} (hs : IsTidy s) : IsTidy (leavePlot s k) := .ite hs.modSub.startShake hs.modSub

protected theorem IsTidy.oweReset {xs} (hs : IsTidy s) : IsTidy (oweReset s xs) := by
  fun_induction oweReset s xs with
  | case1 => exact hs
  | case2 _ _ _ _ ih => exact ih (.ite hs.startShake hs.modSub)

protected theorem IsTidy.leaveAll {xs} (hs : IsTidy s) : IsTidy (leaveAll s xs) := by
  fun_induction leaveAll s xs with
  | case1 => exact hs
  | case2 _ _ _ ih => exact ih hs.leavePlot

protected theorem IsTidy.forgetPlot {scrubbed} (hs : IsTidy s) : IsTidy (forgetPlot s scrubbed) := hs.oweReset.parts.leaveAll

protected theorem IsTidy.failOpen {k} (hs : IsTidy s) : IsTidy (failOpen s k) := by
  unfold failOpen
  split
  · exact hs
  · exact hs.parts.forgetPlot.complete

protected theorem IsTidy.checkOpen (hs : IsTidy s) : IsTidy (checkOpen s) := by
  unfold checkOpen
  split
  · exact hs.failOpen
  · exact hs

protected theorem IsTidy.tryOpen (hs : IsTidy s) : IsTidy (tryOpen s) := by
  unfold tryOpen
  split
  · exact hs
  · exact .ite hs.parts.complete hs

protected theorem IsTidy.enterPlot {k goesOn} (hs : IsTidy s) : IsTidy (enterPlot s k goesOn) :=
  .tryOpen (.ite (.resendBlocks (.ite hs.setSub.logEv.endHold hs.setSub)) (.ite hs.setSub.logEv.endHold hs.setSub))

protected theorem IsTidy.enterMiswired {k e} (hs : IsTidy s) : IsTidy (enterMiswired s k e) := hs.setSub.logEv.checkOpen

protected theorem IsTidy.settle {k goesOn} (hs : IsTidy s) : IsTidy (settle s k goesOn) := by
  unfold settle
  dsimp only
  split
  · exact hs.setSub
  · split
    · exact hs.setSub
    · exact .ite hs.enterPlot hs.enterMiswired

protected theorem IsTidy.finishShake {k} (hs : IsTidy s) : IsTidy (finishShake s k) := hs.modSub.settle

protected theorem IsTidy.handshakeOn {k m} (hs : IsTidy s) : IsTidy (handshakeOn s k m) := by
  unfold handshakeOn
  extract_lets b s1 c d s2 e
  have h1 : IsTidy s1 := .modSub (.ite hs hs.startShake)
  have h2 : IsTidy s2 := .ite h1.drawStart.modSub h1.modSub
  exact .ite hs (.ite hs.logEv (.ite hs.sendHandshake (.ite h2.finishShake h2)))

protected theorem IsTidy.linkDownOn {k reason} (hs : IsTidy s) : IsTidy (linkDownOn s k reason) :=
  .ite hs (.ite hs.setSub.logEv.logEv.beginHold hs.setSub.logEv)

protected theorem IsTidy.blotDiscard {k} (hs : IsTidy s) : IsTidy (blotDiscard s k).1 := by
  unfold blotDiscard
  exact hs.setSub.parts

protected theorem IsTidy.blotDown {k after n} (hs : IsTidy s) : IsTidy (blotDown s k after n) := hs.endHold.modSub.logEv

protected theorem IsTidy.blot {k after} (hs : IsTidy s) : IsTidy (blot s k after) := by
  unfold blot
  exact hs.blotDiscard.failHere.blotDown

protected theorem IsTidy.startTraining {k} (hs : IsTidy s) : IsTidy (startTraining s k) := hs.modSub

protected theorem IsTidy.noteLanes {n mine termFault inverted reversed} (hs : IsTidy s) :
    IsTidy (noteLanes s n mine termFault inverted reversed) :=
  { hs with ports := keysRise_tset _ _ _ _ hs.ports }

protected theorem IsTidy.execTrainingComplete {port sub ok reversed termFault inverted} (hs : IsTidy s) :
    answers (execTrainingComplete port sub ok reversed termFault inverted s) IsTidy :=
  .next (.ite hs (.ite hs.noteLanes.setSub.logEv hs.noteLanes.setSub.startShake))

protected theorem IsTidy.execPenHolderWaitExpiry {port sub} (hs : IsTidy s) : answers (execPenHolderWaitExpiry port sub s) IsTidy :=
  .next (.ite hs.startTraining hs)

protected theorem IsTidy.execHandshake {port sub m} (hs : IsTidy s) : answers (execHandshake port sub m s) IsTidy :=
  .next hs.handshakeOn

protected theorem IsTidy.execHandshakeTimer {port sub} (hs : IsTidy s) : answers (execHandshakeTimer port sub s) IsTidy :=
  .next (.ite hs.sendHandshake hs)

protected theorem IsTidy.beginLanes {k lanes w opNum linkOp} (hs : IsTidy s) : IsTidy (beginLanes s k lanes w opNum linkOp) :=
  .ite hs.modSub.logEv hs.modSub

protected theorem IsTidy.penLanes {k cap} (hs : IsTidy s) : IsTidy (penLanes s k cap) := .ite hs.linkDownOn hs.beginLanes.queueLink

protected theorem IsTidy.penNarrow {k} (hs : IsTidy s) : IsTidy (penNarrow s k) := .ite (.ite hs.penLanes hs.linkDownOn) hs.penLanes

protected theorem IsTidy.execLaneFault {port sub lanes} (hs : IsTidy s) : answers (execLaneFault port sub lanes s) IsTidy :=
  .next (.ite hs (.ite hs.linkDownOn (.ite hs.setSub.penNarrow (.ite hs.setSub.linkDownOn hs.setSub.modSub.queueLink))))

protected theorem IsTidy.narrowReqOn {k lanes} (hs : IsTidy s) : IsTidy (narrowReqOn s k lanes) :=
  .ite hs (.ite hs.setSub (.ite hs.setSub.linkDownOn hs.setSub.penNarrow))

protected theorem IsTidy.narrowOn {k lanes width opNum} (hs : IsTidy s) : IsTidy (narrowOn s k lanes width opNum) :=
  .ite hs (.ite (.ite hs hs.queueLink) hs.beginLanes)

protected theorem IsTidy.resumeLanes {k} (hs : IsTidy s) : IsTidy (resumeLanes s k) := .ite hs.modSub.penNarrow hs.modSub

protected theorem IsTidy.narrowDoneOn {k opNum rx} (hs : IsTidy s) : IsTidy (narrowDoneOn s k opNum rx) :=
  .ite hs (.ite hs.setSub.resumeLanes hs.setSub)

protected theorem IsTidy.execNarrowReq {port sub lanes} (hs : IsTidy s) : answers (execNarrowReq port sub lanes s) IsTidy :=
  .next hs.narrowReqOn

protected theorem IsTidy.execNarrow {port sub lanes width opNum} (hs : IsTidy s) :
    answers (execNarrow port sub lanes width opNum s) IsTidy :=
  .next hs.narrowOn

protected theorem IsTidy.execNarrowDone {port sub opNum rxExpect} (hs : IsTidy s) :
    answers (execNarrowDone port sub opNum rxExpect s) IsTidy :=
  .next hs.narrowDoneOn

protected theorem IsTidy.execRealignDone {port sub ok} (hs : IsTidy s) : answers (execRealignDone port sub ok s) IsTidy :=
  .next (.ite hs (.ite hs.linkDownOn (.ite hs.setSub.queueLink.resumeLanes hs.setSub.queueLink)))

protected theorem IsTidy.execLinkOpRepeatTimer {port sub} (hs : IsTidy s) : answers (execLinkOpRepeatTimer port sub s) IsTidy :=
  .next (.ite hs.queueLink (.ite hs.queueLink hs))

protected theorem IsTidy.execLinkRetrain {port sub} (hs : IsTidy s) : answers (execLinkRetrain port sub s) IsTidy :=
  .next hs.linkDownOn

protected theorem IsTidy.refuseSubCtl {n u v} (hs : IsTidy s) : IsTidy (refuseSubCtl s n u v) := hs.logEv

protected theorem IsTidy.retrainOn {n u} (hs : IsTidy s) : IsTidy (retrainOn s n u) :=
  .ite hs.refuseSubCtl (.ite hs.sendFrame.linkDownOn (.ite hs.startTraining hs.linkDownOn))

protected theorem IsTidy.execRetrain {port sub} (hs : IsTidy s) : answers (execRetrain port sub s) IsTidy := .next hs.retrainOn

protected theorem IsTidy.penWiden {k mask} (hs : IsTidy s) : IsTidy (penWiden s k mask) := .ite hs.setSub.penLanes hs

protected theorem IsTidy.widenOn {n u} (hs : IsTidy s) : IsTidy (widenOn s n u) :=
  .ite hs.refuseSubCtl (.ite hs.penWiden (.ite hs.setSub.queueLink hs))

protected theorem IsTidy.execWiden {port sub} (hs : IsTidy s) : answers (execWiden port sub s) IsTidy := .next hs.widenOn

protected theorem IsTidy.execWidenReq {port sub lanes} (hs : IsTidy s) : answers (execWidenReq port sub lanes s) IsTidy :=
  .next hs.penWiden

protected theorem IsTidy.execLinkDown {port sub} (hs : IsTidy s) : answers (execLinkDown port sub s) IsTidy := .next hs.linkDownOn

protected theorem IsTidy.execKeepaliveExpiry {port sub} (hs : IsTidy s) : answers (execKeepaliveExpiry port sub s) IsTidy :=
  .next (.ite hs.linkDownOn hs)

protected theorem IsTidy.execLinkUp {port sub} (hs : IsTidy s) : answers (execLinkUp port sub s) IsTidy :=
  .next (.ite hs.startTraining hs)

protected theorem IsTidy.execDryTimeExpiry {port sub} (hs : IsTidy s) : answers (execDryTimeExpiry port sub s) IsTidy :=
  .next (.ite hs.modSub.blot hs)

protected theorem IsTidy.serveFence {ring seq port sub} (hs : IsTidy s) : IsTidy (serveFence s ring seq port sub) :=
  .ite hs.done (.done (.checkOpen (.ite hs.modSub.blot hs.modSub.modSub)))

protected theorem IsTidy.serveUnfence {ring seq port sub} (hs : IsTidy s) : IsTidy (serveUnfence s ring seq port sub) :=
  .ite hs.done (.ite hs.done (.done (.ite hs.modSub.startShake hs.modSub)))

/-! ### The definitions of Machine/SpanFrames -/

protected theorem IsTidy.rejectGrain {k header} (hs : IsTidy s) : IsTidy (rejectGrain s k header) := hs.modSub.freeBuffer.logEv

protected theorem IsTidy.telemetryOn {k payload} (hs : IsTidy s) : IsTidy (telemetryOn s k payload) :=
  .freeBuffer (.ite hs.sinkWrite (.ite hs.telemetryRoute (.ite hs hs.parts)))

protected theorem IsTidy.bulkOn {k payload} (hs : IsTidy s) : IsTidy (bulkOn s k payload) := by
  unfold bulkOn
  refine .freeBuffer ?_
  split
  · exact hs.bulkDataOn
  · split
    · exact hs.bulkStartOn
    · exact hs.bulkAckOn
    · exact hs.bulkNackOn
    · exact hs

protected theorem IsTidy.servingGrain {t rec_ report} (hs : IsTidy s) : IsTidy (servingGrain s t rec_ report) := by
  unfold servingGrain
  split
  · split
    · exact hs
    · split
      · exact hs.takeReport
      · exact hs
  · exact .ite hs.pass hs

protected theorem IsTidy.commitGrainOn {k sc t rec_ report} (hs : IsTidy s) : IsTidy (commitGrainOn s k sc t rec_ report) :=
  hs.commitOn.servingGrain.ckptFill.finishBoundary

protected theorem IsTidy.onChannel {k sc ty f} (hs : IsTidy s) (hf : ∀ {t}, IsTidy t → IsTidy (f t)) : IsTidy (onChannel s k sc ty f) :=
  .ite (hf hs) hs.rejectGrain

protected theorem IsTidy.grainOn {k g} (hs : IsTidy s) : IsTidy (grainOn s k g) := by
  unfold grainOn
  dsimp only
  split
  · exact hs.modSub.freeBuffer.logEv
  · split
    · exact hs.rejectGrain
    · split
      · exact hs.dataOn
      · exact hs.commitGrainOn
      · exact hs.voidOn
      · exact hs.creditOn
      · exact hs.launchPayloadOn.freeBuffer
      · exact hs.telemetryOn
      · exact hs.bulkOn

protected theorem IsTidy.linkGrainOn {k mac g} (hs : IsTidy s) : IsTidy (linkGrainOn s k mac g) :=
  .ite hs.handshakeOn (.ite (.ite hs.narrowReqOn (.ite hs.narrowOn (.ite hs.narrowDoneOn (.ite hs.linkDownOn
    (.ite hs.penWiden hs))))) hs.modSub.logEv)

protected theorem IsTidy.dropGrain {k} (hs : IsTidy s) : IsTidy (dropGrain s k) := hs.modSub

protected theorem IsTidy.grainsOn {k link mac gs} (hs : IsTidy s) : IsTidy (grainsOn s k link mac gs) := by
  induction gs generalizing s with
  | nil => exact hs
  | cons g gs ih => exact ih (.ite hs.dropGrain (.ite hs.linkGrainOn hs.modSub.grainOn))

protected theorem IsTidy.execSpanFrame {port sub f} (hs : IsTidy s) : answers (execSpanFrame port sub f s) IsTidy :=
  .next (.ite hs hs.setSub.grainsOn)

protected theorem IsTidy.grainRow {port sub f} (hs : IsTidy s) (hf : ∀ {k t}, IsTidy t → IsTidy (f k t)) :
    answers (grainRow port sub s f) IsTidy :=
  .next (.ite (hf hs) hs)

protected theorem IsTidy.execData {port sub chan drops} (hs : IsTidy s) : answers (execData port sub chan drops s) IsTidy :=
  (hs.grainRow (fun ht => ht.onChannel (fun ht => ht.dataOn)))

protected theorem IsTidy.execCommitGrain {port sub chan step count rec_ report} (hs : IsTidy s) :
    answers (execCommitGrain port sub chan step count rec_ report s) IsTidy :=
  (hs.grainRow (fun ht => ht.onChannel (fun ht => ht.commitGrainOn)))

protected theorem IsTidy.execVoid {port sub chan step attempt} (hs : IsTidy s) : answers (execVoid port sub chan step attempt s) IsTidy :=
  (hs.grainRow (fun ht => ht.onChannel (fun ht => ht.voidOn)))

protected theorem IsTidy.execCredit {port sub entries} (hs : IsTidy s) : answers (execCredit port sub entries s) IsTidy :=
  (hs.grainRow (fun ht => ht.creditOn))

protected theorem IsTidy.execLaunch {port sub payload} (hs : IsTidy s) : answers (execLaunch port sub payload s) IsTidy :=
  (hs.grainRow (fun ht => ht.launchPayloadOn.freeBuffer))

protected theorem IsTidy.execTelemetry {port sub payload} (hs : IsTidy s) : answers (execTelemetry port sub payload s) IsTidy :=
  (hs.grainRow (fun ht => ht.telemetryOn))

protected theorem IsTidy.execBulkStart {port sub epoch block length} (hs : IsTidy s) :
    answers (execBulkStart port sub epoch block length s) IsTidy :=
  (hs.grainRow (fun ht => ht.bulkStartOn.freeBuffer))

protected theorem IsTidy.execBulkData {port sub payload} (hs : IsTidy s) : answers (execBulkData port sub payload s) IsTidy :=
  (hs.grainRow (fun ht => ht.bulkDataOn.freeBuffer))

protected theorem IsTidy.execBulkAck {port sub epoch block} (hs : IsTidy s) : answers (execBulkAck port sub epoch block s) IsTidy :=
  (hs.grainRow (fun ht => ht.bulkAckOn.freeBuffer))

protected theorem IsTidy.execBulkNack {port sub epoch block position} (hs : IsTidy s) :
    answers (execBulkNack port sub epoch block position s) IsTidy :=
  (hs.grainRow (fun ht => ht.bulkNackOn.freeBuffer))

protected theorem IsTidy.offerQueue {k n q put} {t : State} (hs : IsTidy s) (ht : offerQueue s k n q put = some t) : IsTidy t := by
  unfold offerQueue at ht
  dsimp only at ht
  split at ht
  · cases ht
  · cases ht
    exact hs.setSub.sendFrame

protected theorem IsTidy.offerControl {k} {t : State} (hs : IsTidy s) (ht : offerControl s k = some t) : IsTidy t := by
  unfold offerControl at ht
  dsimp only at ht
  split at ht
  · cases ht
    exact hs.setSub.sendFrame
  · split at ht
    · cases ht
    · split at ht
      · cases ht
        exact hs.setSub.sendFrame
      · split at ht
        · cases ht
        · cases ht
          exact hs.setSub.sendFrame

protected theorem IsTidy.packFull {k sc} (hs : IsTidy s) : IsTidy (packFull s k sc) := by
  unfold packFull
  split
  · exact hs
  · exact hs.setChan.modSub

protected theorem IsTidy.offerChan {k sc n} {t : State} (hs : IsTidy s) (ht : offerChan s k sc n = some t) : IsTidy t := by
  unfold offerChan at ht
  dsimp only at ht
  split at ht
  · cases ht
  · cases ht
    exact hs.packFull.setSub.sendFrame

protected theorem IsTidy.offer {k r} {t : State} (hs : IsTidy s) (ht : offer s k r = some t) : IsTidy t := by
  unfold offer at ht
  split at ht
  · exact hs.offerControl ht
  · split at ht
    · exact hs.offerChan ht
    · cases ht
  · split at ht
    · exact hs.offerQueue ht
    · cases ht
  · split at ht
    · exact hs.offerQueue ht
    · cases ht

protected theorem IsTidy.rotate {k rot i m} (hs : IsTidy s) : IsTidy (rotate s k rot i m) := by
  fun_induction rotate s k rot i m with
  | case1 => exact hs
  | case2 _ _ _ _ _ ih => exact .modSub (hs.offer ih)
  | case3 _ _ _ _ _ ih => exact ih (.ite hs.modSub hs)

protected theorem IsTidy.execFrameSend {port sub} (hs : IsTidy s) : answers (execFrameSend port sub s) IsTidy :=
  .next (.ite hs (.ite (.ite hs hs.setSub.sendFrame) (.ite (.ite hs.setSub.sendFrame (.ite hs hs.setSub.sendFrame)) hs.rotate)))

protected theorem IsTidy.execAckTimer {port sub} (hs : IsTidy s) : answers (execAckTimer port sub s) IsTidy :=
  .next (.ite hs.sendFrame hs)

protected theorem IsTidy.execReplayTimer {port sub} (hs : IsTidy s) : answers (execReplayTimer port sub s) IsTidy :=
  .next (.ite hs.setSub hs)

protected theorem IsTidy.execReplayCaughtUp {port sub} (hs : IsTidy s) : answers (execReplayCaughtUp port sub s) IsTidy :=
  .next (.ite hs.setSub hs)

protected theorem IsTidy.execFlushTimer {port sub chan} (hs : IsTidy s) : answers (execFlushTimer port sub chan s) IsTidy := by
  unfold execFlushTimer
  refine .next ?_
  split
  · exact .ite hs hs.flushOut
  · exact hs

protected theorem IsTidy.execKeepaliveTimer {port sub} (hs : IsTidy s) : answers (execKeepaliveTimer port sub s) IsTidy :=
  .next (.ite hs.sendFrame hs)

/-! ### The definitions of Machine/Plot -/

protected theorem IsTidy.logOutOfService (hs : IsTidy s) : IsTidy (logOutOfService s) := hs.logEv

protected theorem IsTidy.shakeAll {es} (hs : IsTidy s) : IsTidy (shakeAll s es) := by
  induction es generalizing s with
  | nil => exact hs
  | cons e es ih => exact ih (.ite hs.modSub.startShake hs.modSub)

protected theorem IsTidy.acceptOpen {b es} (hs : IsTidy s) : IsTidy (acceptOpen s b es) := by
  unfold acceptOpen
  extract_lets f s0
  have h0 : IsTidy s0 := hs.oweReset
  exact .shakeAll { h0 with ports := keysRise_setDry _ _ hs.ports }

protected theorem IsTidy.openRead {ring seq b host} (hs : IsTidy s) : IsTidy (openRead s ring seq b host) := by
  unfold openRead
  dsimp only
  split
  · exact hs.done
  · split
    · exact hs.done
    · split
      · exact hs.done
      · split
        · exact hs.done
        · exact hs.acceptOpen.parts.tryOpen

protected theorem IsTidy.execOpenPlotWaitExpiry (hs : IsTidy s) : answers (execOpenPlotWaitExpiry s) IsTidy := by
  unfold execOpenPlotWaitExpiry
  refine .next ?_
  split
  · exact hs
  · split
    · exact hs.tryOpen
    · exact hs.failOpen

protected theorem IsTidy.dropPending {r} (hs : IsTidy s) : IsTidy (dropPending s r) := hs.modRing.foldl fun ht => ht.done

protected theorem IsTidy.dropAllPending {xs} (hs : IsTidy s) : IsTidy (dropAllPending s xs) := by
  fun_induction dropAllPending s xs with
  | case1 => exact hs
  | case2 _ _ _ ih => exact ih hs.dropPending

protected theorem IsTidy.dropLoads (hs : IsTidy s) : IsTidy (dropLoads s) := by
  refine .parts (.foldl (.foldl (.foldl hs.parts fun ht => ht.complete) fun ht => ?_) fun ht => ht.failJob)
  split
  · exact ht.dropManifest.complete
  · exact ht

protected theorem IsTidy.dropSheetLoad (hs : IsTidy s) : IsTidy (dropSheetLoad s) := by
  unfold dropSheetLoad
  split
  · exact hs
  · exact hs.parts.done

protected theorem IsTidy.dropWaiters (hs : IsTidy s) : IsTidy (dropWaiters s) := by
  unfold dropWaiters
  dsimp only
  split
  · refine .complete ?_
    refine .parts ?_
    split
    · refine .complete ?_
      refine .parts ?_
      split
      · exact hs.ckptEnd.parts.complete
      · exact hs.ckptEnd
    · split
      · exact hs.ckptEnd.parts.complete
      · exact hs.ckptEnd
  · split
    · refine .complete ?_
      refine .parts ?_
      split
      · exact hs.ckptEnd.parts.complete
      · exact hs.ckptEnd
    · split
      · exact hs.ckptEnd.parts.complete
      · exact hs.ckptEnd

protected theorem IsTidy.abortStep (hs : IsTidy s) : IsTidy (abortStep s) := .ite hs.failHere (.ite hs.recordUnlaunched.sendEnd hs)

protected theorem IsTidy.sendQueued {k m} (hs : IsTidy s) : IsTidy (sendQueued s k m) := by
  fun_induction sendQueued s k m with
  | case1 => exact hs
  | case2 _ _ _ _ _ ih1 ih2 => exact ih2 (hs.offerQueue ih1)
  | case3 => exact hs
  | case4 => exact hs

protected theorem IsTidy.sendNotices {xs} (hs : IsTidy s) : IsTidy (sendNotices s xs) := by
  fun_induction sendNotices s xs with
  | case1 => exact hs
  | case2 _ _ _ ih => exact ih hs.sendQueued

protected theorem IsTidy.serveClose {ring seq flags} (hs : IsTidy s) : IsTidy (serveClose s ring seq flags) :=
  .ite hs.done (.ite hs.done (.done (.forgetPlot (.dropAllPending (.dropLoads (.dropWaiters (.closeSlots (.dropSheetLoad
    (.ite hs.abortStep.sendNotices hs)))))))))

protected theorem IsTidy.repairRow {kind k row st} (hs : IsTidy s) : IsTidy (repairRow s kind k row st) := by
  unfold repairRow
  extract_lets left d s1 a rest
  have h1 : IsTidy s1 := .ite hs.drawFree.modStack hs.drawFree.modDdr
  exact .ite h1.logEv.retire (.retire (.ite h1.modStack h1.modDdr))

protected theorem IsTidy.repairRows {kind k st xs} (hs : IsTidy s) : IsTidy (repairRows s kind k st xs) := by
  fun_induction repairRows s kind k st xs with
  | case1 => exact hs
  | case2 _ _ _ ih => exact ih hs.repairRow

protected theorem IsTidy.repairPending {kind st xs} (hs : IsTidy s) : IsTidy (repairPending s kind st xs) := by
  fun_induction repairPending s kind st xs with
  | case1 => exact hs
  | case2 _ _ _ ih => exact ih hs.repairRows

protected theorem IsTidy.serveScrub {ring seq} (hs : IsTidy s) : IsTidy (serveScrub s ring seq) :=
  .ite hs.done hs.parts.repairPending.repairPending

protected theorem IsTidy.eraseTenant (hs : IsTidy s) : IsTidy (eraseTenant s) :=
  have h1 : IsTidy (resetUnits s) := hs.resetUnits
  { h1 with mem := twf_filter _ _ _ h1.mem, overlay := rfl, scribes := rfl }

protected theorem IsTidy.execScrubComplete {ms badChannel} (hs : IsTidy s) : answers (execScrubComplete ms badChannel s) IsTidy := by
  unfold execScrubComplete
  refine .next ?_
  split
  · exact hs
  · dsimp only
    split
    · exact hs.parts.eraseTenant.parts.logEv.done
    · exact hs.parts.eraseTenant.parts.disableDdr.logEv.done

/-! ### The definitions of Machine/Timebase -/

protected theorem IsTidy.refSwitch {r} (hs : IsTidy s) : IsTidy (refSwitch s r) := hs.parts.logEv

protected theorem IsTidy.refRevert (hs : IsTidy s) : IsTidy (refRevert s) := .ite hs.refSwitch hs

protected theorem IsTidy.tickWatch (hs : IsTidy s) : IsTidy (tickWatch s) := hs.parts.refRevert

protected theorem IsTidy.tick (hs : IsTidy s) : IsTidy (tick s) := .ite hs hs.parts.tickWatch

protected theorem IsTidy.execTimeSetLoad (hs : IsTidy s) : answers (execTimeSetLoad s) IsTidy := .next (.ite hs.tick hs)

protected theorem IsTidy.execPhaseStepApply (hs : IsTidy s) : answers (execPhaseStepApply s) IsTidy := .next (.ite hs.tick hs)

protected theorem IsTidy.execTbaseNowRead (hs : IsTidy s) : answers (execTbaseNowRead s) IsTidy := .next (.ite hs.parts hs.latchNow)

protected theorem IsTidy.answerTimeReads (hs : IsTidy s) : IsTidy (answerTimeReads s) := by
  unfold answerTimeReads
  dsimp only
  split
  · exact .parts (.ite hs.latchNow hs)
  · exact .parts (.ite hs.latchNow hs)

protected theorem IsTidy.refuseTime {off val} (hs : IsTidy s) : IsTidy (refuseTime s off val) := hs.logEv

protected theorem IsTidy.execRefFail {r} (hs : IsTidy s) : answers (execRefFail r s) IsTidy :=
  .next (.ite hs.parts (.ite hs.parts.refSwitch hs.parts.parts.logEv))

protected theorem IsTidy.execRefPass {r} (hs : IsTidy s) : answers (execRefPass r s) IsTidy :=
  .next (.ite (.ite hs.parts hs.parts.parts) hs.parts)

protected theorem IsTidy.execHoldoverBoundTick (hs : IsTidy s) : answers (execHoldoverBoundTick s) IsTidy := .next (.ite hs.parts hs)

protected theorem IsTidy.logStop {region ns} (hs : IsTidy s) : IsTidy (logStop s region ns) := hs.logEv

protected theorem IsTidy.relockEnd {ns} (hs : IsTidy s) : IsTidy (relockEnd s ns) :=
  .ite (.ite hs.parts.logStop.logEv hs.parts.logStop) (.answerTimeReads (.ite hs.parts.logStop.logEv hs.parts.logStop))

protected theorem IsTidy.execRegionStopEnd {region ns} (hs : IsTidy s) : answers (execRegionStopEnd region ns s) IsTidy := by
  unfold execRegionStopEnd
  extract_lets g
  have hk : IsTidy (modStack s g fun k => { k with stopping := false }) := hs.modStack
  have hd : IsTidy (modDdr s (g - 8) fun k => { k with stopping := false }) := hs.modDdr
  exact .next (.ite (.ite hk.logStop hs) (.ite (.ite hd.logStop hs) (.ite hs.relockEnd hs)))

protected theorem IsTidy.ppsFault {st} (hs : IsTidy s) : IsTidy (ppsFault s st) := hs.parts.logEv

protected theorem IsTidy.execPpsInEdge (hs : IsTidy s) : answers (execPpsInEdge s) IsTidy :=
  .next (.ite hs (.ite hs.parts (.ite hs.parts.ppsFault hs.parts)))

protected theorem IsTidy.execPpsStuck (hs : IsTidy s) : answers (execPpsStuck s) IsTidy := .next (.ite hs.ppsFault hs)

protected theorem IsTidy.execPpsOutSecond (hs : IsTidy s) : answers (execPpsOutSecond s) IsTidy := .next (.ite hs.parts hs)

protected theorem IsTidy.execPpsOutFall (hs : IsTidy s) : answers (execPpsOutFall s) IsTidy := .next (.ite hs.parts hs)

/-! ### The definitions of Machine/RegWrite -/

protected theorem IsTidy.dropWrite {off v} (hs : IsTidy s) : IsTidy (dropWrite s off v) := hs.logEv

protected theorem IsTidy.refuseRange {off v} (hs : IsTidy s) : IsTidy (refuseRange s off v) := hs.logEv

protected theorem IsTidy.refuseSpan {n off v} (hs : IsTidy s) : IsTidy (refuseSpan n s off v) := hs.logEv

protected theorem IsTidy.refuseNoUnit {cause} (hs : IsTidy s) : IsTidy (refuseNoUnit s cause) := hs.drawFree.drawFree.drawFree.logEv

protected theorem IsTidy.refuseRws (hs : IsTidy s) : IsTidy (refuseRws s) := hs.refuseNoUnit

protected theorem IsTidy.refuseLive (hs : IsTidy s) : IsTidy (refuseLive s) := hs.refuseNoUnit

protected theorem IsTidy.putCfg {off v} (hs : IsTidy s) : IsTidy (putCfg s off v) := hs.putReg

protected theorem IsTidy.writeRws {off v ok out} (hs : IsTidy s) (ho : ∀ {t off v}, IsTidy t → IsTidy (out t off v)) :
    IsTidy (writeRws s off v ok out) :=
  .ite hs.refuseRws (.ite hs.putCfg (ho hs))

protected theorem IsTidy.irqClear {v} (hs : IsTidy s) : IsTidy (irqClear s v) := hs.parts

protected theorem IsTidy.execIrqClear {mask} (hs : IsTidy s) : answers (execIrqClear mask s) IsTidy := .next hs.irqClear

protected theorem IsTidy.writeMbox {o v} (hs : IsTidy s) : IsTidy (writeMbox s o v) :=
  .ite hs (.ite (.ite hs.putCfg hs.dropWrite) (.ite hs.irqClear (.ite hs.putCfg (.ite hs.parts.roomCame (.ite hs (.ite
    (.ite hs.dropWrite hs.putCfg) hs.dropWrite))))))

protected theorem IsTidy.writeTimeCtl {v} (hs : IsTidy s) : IsTidy (writeTimeCtl s v) :=
  .ite (.ite hs.putCfg hs.putCfg.parts) (.parts (.ite hs.putCfg hs.putCfg.parts))

protected theorem IsTidy.writeServo {o v owner} (hs : IsTidy s) : IsTidy (writeServo s o v owner) :=
  .ite hs.refuseTime (.ite (.ite hs.parts hs.refuseTime) (.ite (.ite hs.refuseTime hs.parts) (.ite hs.parts (.ite (.ite hs.refuseRange
    (.ite hs.refuseTime hs.parts)) (.ite (.ite hs.parts hs.refuseTime) hs.parts)))))

protected theorem IsTidy.writeTbase {o v owner} (hs : IsTidy s) : IsTidy (writeTbase s o v owner) :=
  .ite hs.dropWrite (.ite hs.writeServo (.ite (.ite hs.writeTimeCtl hs.refuseRange) (.ite hs.putCfg (.ite hs (.ite (.ite
    (.ite hs.putCfg hs.refuseRange) (.ite hs.putCfg hs)) hs.dropWrite)))))

protected theorem IsTidy.writePace {o v} (hs : IsTidy s) : IsTidy (writePace s o v) :=
  .ite (hs.writeRws (fun ht => ht.refuseRange)) (.ite (hs.writeRws (fun ht => ht.refuseRange)) (.ite (hs.writeRws
    (fun ht => ht.refuseRange)) (.ite (hs.writeRws (fun ht => ht.refuseRange)) (.ite hs hs.dropWrite))))

protected theorem IsTidy.writeLaunch {o v} (hs : IsTidy s) : IsTidy (writeLaunch s o v) :=
  .ite (hs.writeRws (fun ht => ht.refuseRange)) (.ite (hs.writeRws (fun ht => ht.refuseRange)) (.ite (hs.writeRws
    (fun ht => ht.refuseRange)) (.ite (hs.writeRws (fun ht => ht.refuseRange)) (.ite hs hs.dropWrite))))

protected theorem IsTidy.trainSubs {n us} (hs : IsTidy s) : IsTidy (trainSubs s n us) := by
  induction us generalizing s with
  | nil => exact hs
  | cons u us ih => exact ih (.ite hs.modSub hs.modSub.startTraining)

protected theorem IsTidy.disableSubs {n us} (hs : IsTidy s) : IsTidy (disableSubs s n us) := by
  induction us generalizing s with
  | nil => exact hs
  | cons u us ih => exact ih hs.linkDownOn.modSub

protected theorem IsTidy.writeSpanCfg {n v} (hs : IsTidy s) : IsTidy (writeSpanCfg s n v) :=
  .ite hs.putCfg.trainSubs (.ite hs.putCfg.disableSubs hs.putCfg)

protected theorem IsTidy.writeSubCtl {n u v} (hs : IsTidy s) : IsTidy (writeSubCtl s n u v) :=
  .ite hs (.ite hs.refuseSubCtl (.ite (.widenOn (.ite hs.retrainOn hs)) (.ite hs.retrainOn hs)))

protected theorem IsTidy.writeSpan {n o v} (hs : IsTidy s) : IsTidy (writeSpan s n o v) :=
  .ite (.ite hs.refuseRws (.ite hs.writeSpanCfg hs.refuseSpan)) (.ite (hs.writeRws (fun ht => ht.refuseSpan)) (.ite (hs.writeRws
    (fun ht => ht.refuseSpan)) (.ite hs (.ite (.ite (hs.writeRws (fun ht => ht.refuseSpan)) (.ite hs.writeSubCtl hs)) hs.dropWrite))))

protected theorem IsTidy.writeLedger {o v} (hs : IsTidy s) : IsTidy (writeLedger s o v) :=
  .ite hs.dropWrite (.ite hs (.ite (hs.writeRws (fun ht => ht.refuseRange)) (.ite (hs.writeRws (fun ht => ht.refuseRange)) (.ite
    (hs.writeRws (fun ht => ht.refuseRange)) (.ite (hs.writeRws (fun ht => ht.refuseRange)) (.ite (hs.writeRws (fun ht => ht.refuseRange))
    (.ite (hs.writeRws (fun ht => ht.refuseRange)) (.ite hs (.ite (hs.writeRws (fun ht => ht.refuseRange)) (.ite (hs.writeRws
    (fun ht => ht.refuseRange)) (.ite (hs.writeRws (fun ht => ht.refuseRange)) hs.dropWrite)))))))))))

protected theorem IsTidy.saltWrite {t salt} (hs : IsTidy s) : IsTidy (saltWrite s t salt) := by
  obtain ⟨s1, h1, ht⟩ := hs.execSaltWrite (tenant := BitVec.ofNat 12 t) (salt := salt)
  unfold saltWrite
  rw [h1]
  exact ht

protected theorem IsTidy.writeSieve {o v} (hs : IsTidy s) : IsTidy (writeSieve s o v) :=
  .ite (hs.writeRws (fun ht => ht.refuseRange)) (.ite hs (.ite hs.saltWrite hs.dropWrite))

protected theorem IsTidy.writeDdrCtl {m v} (hs : IsTidy s) : IsTidy (writeDdrCtl s m v) :=
  .ite hs.refuseRws (.ite hs.refuseRange (.ite hs.rateReqOn (.ite hs.putCfg hs.putCfg.rateReqOn)))

protected theorem IsTidy.writeMemc {o v} (hs : IsTidy s) : IsTidy (writeMemc s o v) :=
  .ite (hs.writeRws (fun ht => ht.refuseRange)) (.ite hs.writeDdrCtl (.ite hs hs.dropWrite))

protected theorem IsTidy.alarmClear {mask} (hs : IsTidy s) : IsTidy (alarmClear s mask) := hs.parts

protected theorem IsTidy.execAlarmClear {mask} (hs : IsTidy s) : answers (execAlarmClear mask s) IsTidy := .next hs.alarmClear

protected theorem IsTidy.clearCounts (hs : IsTidy s) : IsTidy (clearCounts s) := hs.parts

protected theorem IsTidy.execClearCounts (hs : IsTidy s) : answers (execClearCounts s) IsTidy := .next hs.clearCounts

protected theorem IsTidy.blotPut {off v w ok} (hs : IsTidy s) : IsTidy (blotPut s off v w ok) := .ite hs.putCfg hs.dropWrite

protected theorem IsTidy.writeBlot {o v} (hs : IsTidy s) : IsTidy (writeBlot s o v) :=
  .ite (.ite (.ite hs.putCfg.clearCounts hs.putCfg) hs.dropWrite) (.ite hs.alarmClear (.ite hs.blotPut (.ite hs.blotPut (.ite hs.blotPut
    (.ite hs.blotPut (.ite hs hs.dropWrite))))))

protected theorem IsTidy.regWriteCore {o v owner} (hs : IsTidy s) : IsTidy (regWriteCore s o v owner) :=
  .ite (.ite hs hs.dropWrite) (.ite hs.writeMbox (.ite hs.writeTbase (.ite hs.writePace (.ite hs.writeLaunch (.ite hs.writeSpan
    (.ite hs.writeLedger (.ite hs.writeSieve (.ite hs.writeMemc (.ite hs.writeBlot (.ite (.ite hs hs.dropWrite) hs.dropWrite))))))))))

/-! ### The definitions of Machine/Update -/

protected theorem IsTidy.startImage {t bank ready} (hs : IsTidy s) : IsTidy (startImage s t bank ready) := hs.parts

protected theorem IsTidy.startTrial {t} (hs : IsTidy s) : IsTidy (startTrial s t) := hs.writeHdr.startImage

protected theorem IsTidy.fallBackHdr {t} (hs : IsTidy s) : IsTidy (fallBackHdr s t) := hs.writeHdr.logEv

protected theorem IsTidy.readLoam (hs : IsTidy s) : IsTidy (readLoam s) := by
  unfold readLoam
  dsimp only
  split
  · exact hs.parts.logEv
  · exact hs.parts

protected theorem IsTidy.retrainAll {xs} (hs : IsTidy s) : IsTidy (retrainAll s xs) := by
  fun_induction retrainAll s xs with
  | case1 => exact hs.parts
  | case2 _ _ _ ih => exact ih (.ite hs.linkDownOn.startTraining hs)

protected theorem IsTidy.fallBack {t} (hs : IsTidy s) : IsTidy (fallBack s t) := by
  unfold fallBack
  extract_lets s1 s2 s3
  have h2 : IsTidy s2 := hs.fallBackHdr.startImage
  have h3 : IsTidy s3 := .ite h2.readLoam (.ite h2.retrainAll h2)
  split
  · exact .ite h3.parts.complete h3
  · exact h3

protected theorem IsTidy.convertRecs {fmt room rs} (hs : IsTidy s) : IsTidy (convertRecs s fmt room rs).2 := by
  induction rs generalizing s room with
  | nil => exact hs
  | cons r rs ih =>
    unfold convertRecs
    dsimp only
    split
    · exact ih hs.drawFree
    · exact ih hs.drawFree

protected theorem IsTidy.convertLoam (hs : IsTidy s) : IsTidy (convertLoam s) := .ite hs.convertRecs.writeLoam hs

protected theorem IsTidy.execFirmwareReady {target} (hs : IsTidy s) : answers (execFirmwareReady target s) IsTidy := by
  unfold execFirmwareReady
  refine .next ?_
  split
  · exact hs
  · dsimp only
    split
    · exact hs.parts
    · exact .ite hs.parts (.complete (.parts (.ite hs.parts.convertLoam.readLoam hs.parts)))

protected theorem IsTidy.execTrialReadyTimeout {target} (hs : IsTidy s) : answers (execTrialReadyTimeout target s) IsTidy :=
  .next (.ite hs.fallBack hs)

protected theorem IsTidy.serveUpdateBegin {ring seq target version length blocks digest} (hs : IsTidy s) :
    IsTidy (serveUpdateBegin s ring seq target version length blocks digest) :=
  .ite hs.done (.ite hs.done (.done (.parts (.ite hs hs.flashErase))))

protected theorem IsTidy.closeUpdate (hs : IsTidy s) : IsTidy (closeUpdate s) := hs.parts

protected theorem IsTidy.applyBlock {u i b} {t : State} (hs : IsTidy s) (ht : applyBlock s u i b = .inr t) : IsTidy t := by
  unfold applyBlock at ht
  dsimp only at ht
  split at ht
  · split at ht
    · cases ht
    · split at ht
      · cases ht
        exact hs.parts
      · cases ht
        exact hs.flashWrite.parts
  · split at ht
    · cases ht
    · split at ht
      · split at ht
        · cases ht
          exact hs.parts
        · cases ht
      · split at ht
        · cases ht
        · cases ht
          exact hs.flashWrite.parts

protected theorem IsTidy.serveUpdateBlock {ring seq index host length digest} (hs : IsTidy s) :
    IsTidy (serveUpdateBlock s ring seq index host length digest) := by
  unfold serveUpdateBlock
  dsimp only
  split
  · exact hs.done
  · exact .ite hs.closeUpdate.done (.ite hs.done hs.parts)

protected theorem IsTidy.updateBlockRead {ring seq index host length digest view} (hs : IsTidy s) :
    IsTidy (updateBlockRead s ring seq index host length digest view) := by
  unfold updateBlockRead
  dsimp only
  split
  · exact hs.done
  · refine .ite hs.done (.ite hs.done ?_)
    split
    · exact hs.closeUpdate.done
    · next ht => exact (hs.applyBlock ht).done

protected theorem IsTidy.activateImage {ring seq target} (hs : IsTidy s) : IsTidy (activateImage s ring seq target) :=
  .ite hs.closeUpdate.writeHdr.done (.ite hs.closeUpdate.writeHdr.parts.startTrial.retrainAll hs.closeUpdate.writeHdr.parts.startTrial)

protected theorem IsTidy.activateLoamImage {ring seq u} (hs : IsTidy s) : IsTidy (activateLoamImage s ring seq u) := by
  unfold activateLoamImage
  exact .ite hs.closeUpdate.done hs.closeUpdate.writeLoam.done

protected theorem IsTidy.serveUpdateActivate {ring seq target} (hs : IsTidy s) : IsTidy (serveUpdateActivate s ring seq target) := by
  unfold serveUpdateActivate
  dsimp only
  split
  · exact hs.done
  · split
    · exact hs.done
    · split
      · exact hs.logEv.done
      · split
        · exact hs.done
        · split
          · exact hs.activateLoamImage
          · split
            · exact hs.closeUpdate.done
            · exact hs.activateImage

protected theorem IsTidy.serveUpdateConfirm {ring seq} (hs : IsTidy s) : IsTidy (serveUpdateConfirm s ring seq) :=
  .ite hs.done hs.writeHdr.done

/-! ### The definitions of Machine/Boot -/

protected theorem IsTidy.bootBank {t bank} {u : State} (hs : IsTidy s) (hu : bootBank s t bank = some u) : IsTidy u := by
  unfold bootBank at hu
  split at hu
  · cases hu
    exact hs.startImage
  · split at hu
    · cases hu
      exact hs.startImage
    · cases hu

protected theorem IsTidy.bootHeader {t} (hs : IsTidy s) : IsTidy (bootHeader s t) := .ite hs.fallBackHdr hs

protected theorem IsTidy.bootTarget {t} {u : State} (hs : IsTidy s) (hu : bootTarget s t = some u) : IsTidy u := by
  unfold bootTarget at hu
  split at hu
  · cases hu
    exact hs.startTrial
  · exact hs.bootBank hu

protected theorem IsTidy.bootTargets {ts} (hs : IsTidy s) : IsTidy (bootTargets s ts).1 := by
  induction ts generalizing s with
  | nil => exact hs
  | cons t ts ih =>
    unfold bootTargets
    split
    · next h1 => exact ih (hs.bootHeader.bootTarget h1)
    · exact hs.bootHeader

protected theorem IsTidy.namedImages (hs : IsTidy s) : IsTidy (namedImages s) := hs.parts

protected theorem IsTidy.loamResets (hs : IsTidy s) : IsTidy (loamResets s) := hs.putCfg.putCfg

protected theorem IsTidy.loamPorts {p xs} (hs : IsTidy s) : IsTidy (loamPorts p s xs) := by
  fun_induction loamPorts p s xs with
  | case1 => exact hs
  | case2 _ _ _ _ ih => exact ih hs.putField.putField

protected theorem IsTidy.loamMacs {base xs} (hs : IsTidy s) : IsTidy (loamMacs base s xs) := by
  fun_induction loamMacs base s xs with
  | case1 => exact hs
  | case2 _ _ _ ih => exact ih hs.putCfg

protected theorem IsTidy.loamApply {r} (hs : IsTidy s) : IsTidy (loamApply s r) := by
  unfold loamApply
  dsimp only
  split
  · exact .ite hs.loamPorts hs
  · exact .ite hs.loamMacs hs
  · exact .ite hs.putCfg hs
  · exact .ite hs.parts hs
  · exact .ite hs.writeTimeCtl.putCfg hs
  · exact .ite hs.putCfg.putCfg hs
  · exact hs

protected theorem IsTidy.bootLoam (hs : IsTidy s) : IsTidy (bootLoam s) := by
  unfold bootLoam
  dsimp only
  split
  · exact hs.loamResets.convertLoam.readLoam
  · refine hs.loamResets.convertLoam.readLoam.foldl fun ht => ?_
    exact ht.loamApply

protected theorem IsTidy.linkTrained {width} (hs : IsTidy s) : IsTidy (linkTrained s width) := hs.parts

protected theorem IsTidy.bootRails {ok} (hs : IsTidy s) : IsTidy (bootRails s ok) := .ite hs.parts hs.parts.logSilent

protected theorem IsTidy.bootPolicy (hs : IsTidy s) : IsTidy (bootPolicy s) := hs.parts

protected theorem IsTidy.bootStack {k v} (hs : IsTidy s) : IsTidy (bootStack s k v) :=
  .ite hs.modStack.repairRows hs.modStack.repairRows.parts.logEv

protected theorem IsTidy.bootStacks {k xs} (hs : IsTidy s) : IsTidy (bootStacks s k xs) := by
  fun_induction bootStacks s k xs with
  | case1 => exact hs
  | case2 _ _ _ _ ih => exact ih hs.bootStack

protected theorem IsTidy.bootDimm {m v} (hs : IsTidy s) : IsTidy (bootDimm s m v) :=
  .ite (.logEv (.ite hs.modDdr.repairRows hs.modDdr)) (.ite hs.modDdr.repairRows hs.modDdr)

protected theorem IsTidy.bootDimms {m xs} (hs : IsTidy s) : IsTidy (bootDimms s m xs) := by
  fun_induction bootDimms s m xs with
  | case1 => exact hs
  | case2 _ _ _ _ ih => exact ih hs.bootDimm

protected theorem IsTidy.trainPart {old m} (hs : IsTidy s) : IsTidy (trainPart s old m).2 := by
  unfold trainPart
  dsimp only
  split
  · exact hs
  · split
    · dsimp only
      exact hs.drawFree
    · dsimp only
      exact hs.drawFree.freeBytes

protected theorem IsTidy.trainParts {old m n} (hs : IsTidy s) : IsTidy (trainParts s old m n).2 := by
  induction n generalizing s m with
  | zero => exact hs
  | succ n ih => exact ih hs.trainPart

protected theorem IsTidy.storeTraining (hs : IsTidy s) : IsTidy (storeTraining s) := by
  unfold storeTraining
  dsimp only
  split
  · exact hs
  · exact .ite hs.trainParts hs.trainParts.drawFree.writeLoam

protected theorem IsTidy.recordFailing {xs} (hs : IsTidy s) : IsTidy (recordFailing s xs) := by
  fun_induction recordFailing s xs with
  | case1 => exact hs
  | case2 _ _ _ _ ih => exact ih (.ite hs.retire hs)

protected theorem IsTidy.execSelfTest {failing} (hs : IsTidy s) : answers (execSelfTest failing s) IsTidy :=
  .next (.ite hs.recordFailing hs)

protected theorem IsTidy.enterBedrock {v cause} (hs : IsTidy s) : IsTidy (enterBedrock s v cause) := hs.parts.loamResets.linkTrained

protected theorem IsTidy.trainPorts {xs} (hs : IsTidy s) : IsTidy (trainPorts s xs) := by
  fun_induction trainPorts s xs with
  | case1 => exact hs
  | case2 _ _ _ ih => exact ih (.ite hs.trainSubs hs)

protected theorem IsTidy.noteOutOfService (hs : IsTidy s) : IsTidy (noteOutOfService s) := .ite hs.logOutOfService hs

protected theorem IsTidy.bootService {v} (hs : IsTidy s) : IsTidy (bootService s v) :=
  hs.bootLoam.bootPolicy.linkTrained.bootRails.bootStacks.bootDimms.storeTraining.recordFailing.mapDevice.noteOutOfService.parts.trainPorts

protected theorem IsTidy.bootRom {v} (hs : IsTidy s) : IsTidy (bootRom s v) := by
  unfold bootRom
  split
  · exact hs.enterBedrock
  · next c h _ =>
    extract_lets s1
    have h1 : IsTidy s1 := hs.setHdr
    split
    · exact h1.enterBedrock
    · next k _ =>
      extract_lets s2 _ s3 _ s4 s5
      have h2 : IsTidy s2 := h1.takeIdentity
      have h3 : IsTidy s3 := h2.parts
      have h5 : IsTidy s5.1 := h3.parts.namedImages.bootTargets
      exact .ite h2.enterBedrock (.ite h3.enterBedrock (.ite h5.bootService h5.enterBedrock))

protected theorem IsTidy.execResetNRelease {v} (hs : IsTidy s) : answers (execResetNRelease v s) IsTidy := by
  unfold execResetNRelease
  refine .next ?_
  split
  · exact hs
  · split
    · exact hs.parts
    · dsimp only
      split
      · exact hs.parts.enterBedrock
      · exact hs.parts.bootRom

protected theorem IsTidy.execReferenceWaitAlert (hs : IsTidy s) : answers (execReferenceWaitAlert s) IsTidy :=
  .next (.ite hs.parts hs)

/-! ### The definitions of Machine/Grants -/

protected theorem IsTidy.shakeBlotted {xs} (hs : IsTidy s) : IsTidy (shakeBlotted s xs) := by
  fun_induction shakeBlotted s xs with
  | case1 => exact hs
  | case2 _ _ _ _ ih => exact ih (.ite hs.startShake hs)

protected theorem IsTidy.afterResume (hs : IsTidy s) : IsTidy (afterResume s) :=
  .ite hs (.endHaltHold (.ite hs.parts.shakeBlotted hs))

protected theorem IsTidy.takeGrant {b} (hs : IsTidy s) : IsTidy (takeGrant s b).1 := by
  unfold takeGrant
  dsimp only
  split
  · exact hs.logEv
  · exact hs.parts.logEv

protected theorem IsTidy.endGrant {why} (hs : IsTidy s) : IsTidy (endGrant s why) := .ite hs hs.parts.clearHalts.afterResume.logEv

protected theorem IsTidy.execGrantExpiry (hs : IsTidy s) : answers (execGrantExpiry s) IsTidy := .next (.ite hs.endGrant hs)

protected theorem IsTidy.tapSelect {ir} (hs : IsTidy s) : IsTidy (tapSelect s ir) := hs.parts

protected theorem IsTidy.execTapGrant {grant} (hs : IsTidy s) : answers (execTapGrant grant s) IsTidy :=
  .next (.ite hs.tapSelect.takeGrant hs.tapSelect)

protected theorem IsTidy.debugGrantRead {ring seq addr length view} (hs : IsTidy s) :
    IsTidy (debugGrantRead s ring seq addr length view) :=
  hs.takeGrant.done

protected theorem IsTidy.debugGrantAtOnce {ring seq addr length} {t : State} (hs : IsTidy s)
    (ht : debugGrantAtOnce s ring seq addr length = some t) : IsTidy t := by
  unfold debugGrantAtOnce at ht
  split at ht
  · cases ht
    exact hs.endGrant.done
  · split at ht
    · cases ht
      exact hs.logEv.done
    · cases ht

/-! ### The definitions of Machine/Power -/

protected theorem IsTidy.resetDevice {mem phase pwrgood} (hs : IsTidy s) (hm : twf 0 mem = true) :
    IsTidy (resetDevice s mem phase pwrgood) :=
  { IsTidy.reset with mem := hm, flash := hs.flash, host := hs.host }

protected theorem IsTidy.execPowerUp (hs : IsTidy s) : answers (execPowerUp s) IsTidy := .next (hs.resetDevice rfl).drawFree.parts

protected theorem IsTidy.execPwrgoodAssert (hs : IsTidy s) : answers (execPwrgoodAssert s) IsTidy := .next (.ite hs hs.parts)

protected theorem IsTidy.execPwrgoodFall (hs : IsTidy s) : answers (execPwrgoodFall s) IsTidy := .next (hs.resetDevice hs.mem).parts

protected theorem IsTidy.poweredReset (hs : IsTidy s) : IsTidy (poweredReset s) :=
  .ite hs (.ite (hs.resetDevice hs.mem).parts.logEv (hs.resetDevice hs.mem).parts)

protected theorem IsTidy.execRailFault {rail} (hs : IsTidy s) : answers (execRailFault rail s) IsTidy := .next hs.poweredReset

protected theorem IsTidy.execWarmReset (hs : IsTidy s) : answers (execWarmReset s) IsTidy :=
  .next (.poweredReset (.ite hs.clearCounts hs))

protected theorem IsTidy.execThermalTrip {sensor tempC} (hs : IsTidy s) : answers (execThermalTrip sensor tempC s) IsTidy := by
  refine .next (.ite hs (.logEv ?_))
  exact { hs with subs := keysRise_linksOff hs.subs }

protected theorem IsTidy.execControllerLost {target die} (hs : IsTidy s) : answers (execControllerLost target die s) IsTidy :=
  .next (.ite hs hs.logEv)

protected theorem IsTidy.bedDone {err} (hs : IsTidy s) : IsTidy (bedDone s err) := hs.parts

protected theorem IsTidy.bedBegin {item} (hs : IsTidy s) : IsTidy (bedBegin s item) := .ite hs.bedDone hs.flashErase.parts.bedDone

protected theorem IsTidy.bedChunk {item} (hs : IsTidy s) : IsTidy (bedChunk s item) := by
  unfold bedChunk
  split
  · exact hs.bedDone
  · exact .ite hs.bedDone (.ite hs.bedDone hs.flashWrite.bedDone)

protected theorem IsTidy.bedEnd {item} (hs : IsTidy s) : IsTidy (bedEnd s item) := by
  unfold bedEnd
  split
  · exact hs.bedDone
  · split
    · exact hs.bedDone
    · exact .ite hs.parts.writeHdr.bedDone (.ite hs.parts.flashErase.bedDone hs.parts.bedDone)

protected theorem IsTidy.execBedrockBegin {item} (hs : IsTidy s) : answers (execBedrockBegin item s) IsTidy :=
  .next (.ite hs.bedBegin hs)

protected theorem IsTidy.execBedrockChunk {item} (hs : IsTidy s) : answers (execBedrockChunk item s) IsTidy :=
  .next (.ite hs.bedChunk hs)

protected theorem IsTidy.execBedrockEnd {item} (hs : IsTidy s) : answers (execBedrockEnd item s) IsTidy := .next (.ite hs.bedEnd hs)

protected theorem IsTidy.execBedrockRestart (hs : IsTidy s) : answers (execBedrockRestart s) IsTidy :=
  .next (.ite hs.poweredReset hs)

protected theorem IsTidy.bedCmd {v} (hs : IsTidy s) : IsTidy (bedCmd s v) := by
  unfold bedCmd
  dsimp only
  split
  · exact hs.bedBegin
  · exact hs.bedChunk
  · exact hs.bedEnd
  · exact hs.poweredReset
  · exact hs

protected theorem IsTidy.writeBedrock {o v} (hs : IsTidy s) : IsTidy (writeBedrock s o v) :=
  .ite hs.bedCmd (.ite hs.putCfg (.ite hs.putCfg (.ite hs.parts hs)))

/-! ### The definitions of Machine/Query -/

protected theorem IsTidy.serveTimeSet {ring seq sec ns frac} (hs : IsTidy s) : IsTidy (serveTimeSet s ring seq sec ns frac) :=
  .ite hs.done (.ite hs.refuseTime.done (.ite hs.done hs.parts.done))

protected theorem IsTidy.serveTimeAdjust {ring seq valid incr offset boundNs servo} (hs : IsTidy s) :
    IsTidy (serveTimeAdjust s ring seq valid incr offset boundNs servo) :=
  .ite hs.done (.ite (.done (.ite hs.refuseTime hs)) (.ite hs.refuseTime.done hs.parts.done))

protected theorem IsTidy.serveQuery {ring seq what index count dest len} (hs : IsTidy s) :
    IsTidy (serveQuery s ring seq what index count dest len) := by
  unfold serveQuery
  dsimp only
  split
  · exact hs.done
  · split
    · exact .ite hs.done (.ite hs.done hs.memWrite.done)
    · split
      · exact hs.parts.done
      · exact hs.memWrite.done

protected theorem IsTidy.serveDrain {ring seq classes dest len} (hs : IsTidy s) : IsTidy (serveDrain s ring seq classes dest len) :=
  .ite hs.done hs.parts.memWrite.done

protected theorem IsTidy.serveQuote {ring seq nonce dest len} (hs : IsTidy s) : IsTidy (serveQuote s ring seq nonce dest len) :=
  .ite hs.done (.ite hs.done hs.memWrite.parts.logEv.done)

/-! ### The definitions of Machine/Serve -/

protected theorem IsTidy.park {ring seq cmd} (hs : IsTidy s) : IsTidy (park s ring seq cmd) := hs.parts

protected theorem IsTidy.serveOpenPlot {ring seq b view} (hs : IsTidy s) : IsTidy (serveOpenPlot s ring seq b view) := by
  unfold serveOpenPlot
  split
  · exact .done (.ite hs.logOutOfService hs)
  · split
    · exact .ite hs.openRead hs.park
    · exact hs.park

protected theorem IsTidy.serveDebugGrant {ring seq addr length view} (hs : IsTidy s) :
    IsTidy (serveDebugGrant s ring seq addr length view) := by
  unfold serveDebugGrant
  split
  · next hg => exact hs.debugGrantAtOnce hg
  · split
    · exact .ite hs.debugGrantRead hs.park
    · exact hs.park

protected theorem IsTidy.serveCmd {ring seq c view} (hs : IsTidy s) : IsTidy (serveCmd s ring seq c view) := by
  unfold serveCmd
  split
  · exact hs.serveOpenPlot
  · exact hs.serveClose
  · exact hs.serveScrub
  · exact hs.serveLoadSheet
  · exact hs.serveFlip
  · exact hs.serveArm
  · exact hs.serveCommit
  · exact hs.serveAdmit
  · exact hs.serveCancel
  · exact hs.servePause
  · exact hs.serveResume
  · exact hs.serveSetDeadline
  · exact hs.serveCheckpoint
  · exact hs.serveRestore
  · exact hs.serveTimeSet
  · exact hs.serveTimeAdjust
  · exact hs.serveQuery
  · exact hs.serveDrain
  · exact hs.serveFence
  · exact hs.serveUnfence
  · exact hs.serveLoadManifest
  · exact hs.serveLoadBlock
  · exact hs.serveActivate
  · exact hs.serveUpdateBegin
  · exact hs.serveUpdateBlock
  · exact hs.serveUpdateActivate
  · exact hs.serveUpdateConfirm
  · exact hs.serveQuote
  · exact hs.serveDebugGrant
  · exact hs.done
  · exact hs.done

protected theorem IsTidy.submit {ring seq c view} (hs : IsTidy s) : IsTidy (submit s ring seq c view) := .ite hs.serveCmd hs.modRing

protected theorem IsTidy.takeEntry {ring} (hs : IsTidy s) : IsTidy (takeEntry s ring) := hs.modRing

protected theorem IsTidy.readEntry {ring e view} (hs : IsTidy s) : IsTidy (readEntry s ring e view) :=
  .ite hs.takeEntry.submit hs.takeEntry.complete

protected theorem IsTidy.stall {ring found} (hs : IsTidy s) : IsTidy (stall s ring found) := hs.modRing.logEv

protected theorem IsTidy.readOver {x} (hs : IsTidy s) : IsTidy (readOver s x) := hs.parts

protected theorem IsTidy.entryLost {r} (hs : IsTidy s) : IsTidy (entryLost s r) := hs.drawFree.takeEntry.complete

protected theorem IsTidy.readOn {ring view m} (hs : IsTidy s) : IsTidy (readOn s ring view m) := by
  fun_induction readOn s ring view m with
  | case1 => exact hs
  | case2 => exact hs
  | case3 => exact hs.modRing
  | case4 _ _ _ _ _ _ _ ih => exact ih hs.readOver.entryLost
  | case5 => exact hs.stall
  | case6 _ _ _ _ _ _ _ _ ih => exact ih hs.readEntry

protected theorem IsTidy.doorbellOn {ring tail view} (hs : IsTidy s) : IsTidy (doorbellOn s ring tail view) :=
  .ite hs (.ite (.ite hs.modRing.readOn hs.modRing) hs.logEv)

protected theorem IsTidy.execDoorbell {ring tail host} (hs : IsTidy s) : answers (execDoorbell ring tail host s) IsTidy :=
  .next (.ite hs.doorbellOn hs)

protected theorem IsTidy.execRingWaitResume {ring host} (hs : IsTidy s) : answers (execRingWaitResume ring host s) IsTidy :=
  .next (.ite hs.modRing.readOn hs)

protected theorem IsTidy.rowCmd {ring c view} (hs : IsTidy s) : answers (rowCmd ring c view s) IsTidy :=
  .next (.ite hs hs.modRing.takeEntry.submit)

protected theorem IsTidy.execOpenPlot {ring b host} (hs : IsTidy s) : answers (execOpenPlot ring b host s) IsTidy := hs.rowCmd

protected theorem IsTidy.execClosePlot {ring flags} (hs : IsTidy s) : answers (execClosePlot ring flags s) IsTidy := hs.rowCmd

protected theorem IsTidy.execScrub {ring} (hs : IsTidy s) : answers (execScrub ring s) IsTidy := hs.rowCmd

protected theorem IsTidy.execLoadSheet {ring host length digest} (hs : IsTidy s) :
    answers (execLoadSheet ring host length digest s) IsTidy :=
  hs.rowCmd

protected theorem IsTidy.execFlipSheet {ring} (hs : IsTidy s) : answers (execFlipSheet ring s) IsTidy := hs.rowCmd

protected theorem IsTidy.execArm {ring digest r} (hs : IsTidy s) : answers (execArm ring digest r s) IsTidy := hs.rowCmd

protected theorem IsTidy.execCommit {ring sec ns} (hs : IsTidy s) : answers (execCommit ring sec ns s) IsTidy := hs.rowCmd

protected theorem IsTidy.execAdmit {ring b} (hs : IsTidy s) : answers (execAdmit ring b s) IsTidy := hs.rowCmd

protected theorem IsTidy.execCancel {ring slot rid} (hs : IsTidy s) : answers (execCancel ring slot rid s) IsTidy := hs.rowCmd

protected theorem IsTidy.execPause {ring slot rid} (hs : IsTidy s) : answers (execPause ring slot rid s) IsTidy := hs.rowCmd

protected theorem IsTidy.execResume {ring slot rid} (hs : IsTidy s) : answers (execResume ring slot rid s) IsTidy := hs.rowCmd

protected theorem IsTidy.execSetDeadline {ring slot rid sec ns} (hs : IsTidy s) :
    answers (execSetDeadline ring slot rid sec ns s) IsTidy :=
  hs.rowCmd

protected theorem IsTidy.execCheckpoint {ring step kind addr len} (hs : IsTidy s) :
    answers (execCheckpoint ring step kind addr len s) IsTidy :=
  hs.rowCmd

protected theorem IsTidy.execRestore {ring kind addr len digest} (hs : IsTidy s) :
    answers (execRestore ring kind addr len digest s) IsTidy :=
  hs.rowCmd

protected theorem IsTidy.execTimeSet {ring sec ns frac} (hs : IsTidy s) : answers (execTimeSet ring sec ns frac s) IsTidy :=
  hs.rowCmd

protected theorem IsTidy.execTimeAdjust {ring valid incr offset boundNs servo} (hs : IsTidy s) :
    answers (execTimeAdjust ring valid incr offset boundNs servo s) IsTidy :=
  hs.rowCmd

protected theorem IsTidy.execQuery {ring what index count dest len} (hs : IsTidy s) :
    answers (execQuery ring what index count dest len s) IsTidy :=
  hs.rowCmd

protected theorem IsTidy.execBlotterDrain {ring classes dest len} (hs : IsTidy s) :
    answers (execBlotterDrain ring classes dest len s) IsTidy :=
  hs.rowCmd

protected theorem IsTidy.execFencePort {ring port sub} (hs : IsTidy s) : answers (execFencePort ring port sub s) IsTidy := hs.rowCmd

protected theorem IsTidy.execUnfencePort {ring port sub} (hs : IsTidy s) : answers (execUnfencePort ring port sub s) IsTidy :=
  hs.rowCmd

protected theorem IsTidy.execLoadManifest {ring b} (hs : IsTidy s) : answers (execLoadManifest ring b s) IsTidy := hs.rowCmd

protected theorem IsTidy.execLoadBlock {ring epoch block host length} (hs : IsTidy s) :
    answers (execLoadBlock ring epoch block host length s) IsTidy :=
  hs.rowCmd

protected theorem IsTidy.execActivateEpoch {ring epoch mode} (hs : IsTidy s) : answers (execActivateEpoch ring epoch mode s) IsTidy :=
  hs.rowCmd

protected theorem IsTidy.execUpdateBegin {ring target version length blocks digest} (hs : IsTidy s) :
    answers (execUpdateBegin ring target version length blocks digest s) IsTidy :=
  hs.rowCmd

protected theorem IsTidy.execUpdateBlock {ring index host length digest} (hs : IsTidy s) :
    answers (execUpdateBlock ring index host length digest s) IsTidy :=
  hs.rowCmd

protected theorem IsTidy.execUpdateActivate {ring target} (hs : IsTidy s) : answers (execUpdateActivate ring target s) IsTidy :=
  hs.rowCmd

protected theorem IsTidy.execUpdateConfirm {ring} (hs : IsTidy s) : answers (execUpdateConfirm ring s) IsTidy := hs.rowCmd

protected theorem IsTidy.execAttestQuote {ring nonce dest len} (hs : IsTidy s) : answers (execAttestQuote ring nonce dest len s) IsTidy :=
  hs.rowCmd

protected theorem IsTidy.execDebugGrant {ring addr length host} (hs : IsTidy s) :
    answers (execDebugGrant ring addr length host s) IsTidy :=
  hs.rowCmd

protected theorem IsTidy.serveRing {r view m} (hs : IsTidy s) : IsTidy (serveRing s r view m) := by
  fun_induction serveRing s r view m with
  | case1 => exact hs
  | case2 => exact hs
  | case3 _ _ _ _ _ _ ih => exact ih hs.modRing.serveCmd

protected theorem IsTidy.serveRings {view xs} (hs : IsTidy s) : IsTidy (serveRings s view xs) := by
  fun_induction serveRings s view xs with
  | case1 => exact hs
  | case2 _ _ _ _ ih => exact ih hs.serveRing

protected theorem IsTidy.flipAtBoundary (hs : IsTidy s) : IsTidy (flipAtBoundary s) :=
  .ite (.ite hs.applyFlip.sendDigest hs.applyFlip) hs

protected theorem IsTidy.applyBlocks {xs} (hs : IsTidy s) : IsTidy (applyBlocks s xs) := by
  fun_induction applyBlocks s xs with
  | case1 => exact hs
  | case2 _ _ _ _ _ _ _ _ _ ih => exact ih hs.updateBlockRead
  | case3 _ _ _ _ _ ih => exact ih hs

protected theorem IsTidy.applyCame (hs : IsTidy s) : IsTidy (applyCame s) := hs.parts.applyBlocks

protected theorem IsTidy.execStepBoundary {host} (hs : IsTidy s) : answers (execStepBoundary host s) IsTidy := by
  unfold execStepBoundary
  extract_lets s1
  have h1 : IsTidy s1 := hs.applyDisables.applyCame.serveRings.flipAtBoundary
  exact .next (.ite hs (.ite hs.finishBoundary (.ite h1.parts.finishBoundary h1)))

/-! ### The definitions of Machine/HostAcc -/

protected theorem IsTidy.regWrite {o v} (hs : IsTidy s) : IsTidy (regWrite s o v) := by
  unfold regWrite
  split
  · exact hs.writeBedrock
  · split
    · exact hs.doorbellOn
    · exact .ite hs.dropWrite hs.regWriteCore
  · exact hs

protected theorem IsTidy.execRegisterWrite {offset value} (hs : IsTidy s) : answers (execRegisterWrite offset value s) IsTidy :=
  .next hs.regWrite

protected theorem IsTidy.writePart {o part} (hs : IsTidy s) : IsTidy (writePart s o part) := .ite hs.rateReqOn hs.regWrite

protected theorem IsTidy.writePacket {o data m} (hs : IsTidy s) : IsTidy (writePacket s o data m) := by
  fun_induction writePacket s o data m with
  | case1 => exact hs
  | case2 => exact hs
  | case3 _ _ _ _ _ _ ih => exact ih hs.writePart

protected theorem IsTidy.hostAnswer {r} (hs : IsTidy s) : IsTidy (hostAnswer s r) := hs.parts

protected theorem IsTidy.refuseAccess {a} (hs : IsTidy s) : IsTidy (refuseAccess s a) := hs.hostAnswer.logEv

protected theorem IsTidy.windowWrite {a data} (hs : IsTidy s) : IsTidy (windowWrite s a data) :=
  .ite hs.memWrite.hostAnswer hs.refuseAccess

protected theorem IsTidy.overLogs {a bs} (hs : IsTidy s) : IsTidy (overLogs s a bs) :=
  { hs with matrix := keysRise_mapVals _ _ hs.matrix, vector := keysRise_mapVals _ _ hs.vector }

protected theorem IsTidy.directWrite {a bs} (hs : IsTidy s) : IsTidy (directWrite s a bs) := by
  unfold directWrite
  extract_lets _ s1 _
  have hm : IsTidy (memWrite s a (slotted s a bs)) := hs.memWrite
  have h1 : IsTidy s1 := .overLogs { hm with overlay := twf_overlayOver _ _ hs.overlay }
  exact .ite h1.parts h1

protected theorem IsTidy.stratumAccess {write a data ue} (hs : IsTidy s) : IsTidy (stratumAccess s write a data ue) :=
  .ite (.ite hs.refuseAccess.refuseLive hs.refuseAccess)
    (.ite hs.hostAnswer
      (.ite (.ite hs.hostAnswer.refuseLive hs.directWrite.hostAnswer) (.ite hs.noteUncorrectable.hostAnswer hs.hostAnswer)))

protected theorem IsTidy.hostAccess {write a data ue} (hs : IsTidy s) : IsTidy (hostAccess s write a data ue) := by
  unfold hostAccess
  split
  · exact .ite hs.writePacket.hostAnswer (.ite hs.parts hs.regReadEffect.hostAnswer)
  · exact hs.hostAnswer
  · exact .ite hs.hostAnswer (.ite (.ite hs.windowWrite hs.hostAnswer) hs.stratumAccess)

protected theorem IsTidy.execHostAccess {write addr data uncorrectable} (hs : IsTidy s) :
    answers (execHostAccess write addr data uncorrectable s) IsTidy :=
  .next (.ite hs.hostAccess hs)

protected theorem IsTidy.execHostWritePacket {addr data} (hs : IsTidy s) : answers (execHostWritePacket addr data s) IsTidy :=
  .next (.ite hs.hostAccess hs)

protected theorem IsTidy.execHostLinkDown (hs : IsTidy s) : answers (execHostLinkDown s) IsTidy := .next hs.parts

protected theorem IsTidy.execHostLinkUp {width} (hs : IsTidy s) : answers (execHostLinkUp width s) IsTidy :=
  .next (.ite hs (.ite (.ite hs.parts hs) hs.parts.flushSeals.roomCame))

protected theorem IsTidy.adapterTrains (hs : IsTidy s) : IsTidy (adapterTrains s) := .ite (.ite hs.drawFree.parts hs.drawFree) hs

protected theorem IsTidy.idle (hs : IsTidy s) : IsTidy (idle s) := hs.tick.adapterTrains

protected theorem IsTidy.dropRead {ring seq} (hs : IsTidy s) : IsTidy (dropRead s ring seq) := hs.parts

protected theorem IsTidy.dataCame {r host} (hs : IsTidy s) : IsTidy (dataCame s r host) := by
  unfold dataCame
  dsimp only
  split
  · exact hs.dropRead.openRead
  · exact .ite hs.dropRead.updateBlockRead hs.dropRead.parts
  · exact hs.dropRead.debugGrantRead
  · exact hs.dropRead.done

protected theorem IsTidy.execHostReadComplete {ring seq host} (hs : IsTidy s) :
    answers (execHostReadComplete ring seq host s) IsTidy := by
  unfold execHostReadComplete
  refine .next ?_
  split
  · exact hs
  · split
    · exact hs.dataCame
    · split
      · exact hs.manifestRead
      · split
        · exact hs.blockRead
        · exact hs

protected theorem IsTidy.longTimeout {ring seq} (hs : IsTidy s) : IsTidy (longTimeout s ring seq) :=
  .ite hs.parts.complete (.ite hs.ckptEnd (.ite hs.restoreFail hs))

protected theorem IsTidy.execLinkTimeout {ring seq} (hs : IsTidy s) : answers (execLinkTimeout ring seq s) IsTidy := by
  unfold execLinkTimeout
  refine .next ?_
  split
  · exact hs
  · split
    · exact hs.dropRead.done
    · split
      · exact hs.parts.done
      · split
        · exact hs.failJob
        · exact hs.longTimeout

protected theorem IsTidy.commandLost {a} (hs : IsTidy s) : IsTidy (commandLost s a) := by
  unfold commandLost
  dsimp only
  split
  · exact .ite hs.restoreFail hs.parts
  · split
    · exact hs.dropManifest.nackUnsent.complete
    · exact .ite hs.ckptEnd hs.parts

protected theorem IsTidy.mpReadFails {a} (hs : IsTidy s) : IsTidy (mpReadFails s a) := by
  unfold mpReadFails
  split
  · exact hs.entryLost
  · exact hs.commandLost

protected theorem IsTidy.execMemoryUncorrectable {addr requester index} (hs : IsTidy s) :
    answers (execMemoryUncorrectable addr requester index s) IsTidy := by
  unfold execMemoryUncorrectable
  extract_lets a k noted
  have hn : IsTidy noted := hs.noteUncorrectable
  exact .next (.ite hs (.ite (.ite hs hn.hostAnswer) (.ite (.ite hn.mpReadFails hs) (.ite (.ite hn hs)
    (.ite (.ite hn.failUncorrectable hs) (.ite (.ite hn.promptFails hs) (.ite (.ite hn.failUncorrectable hs)
      (.ite (.ite hs hn) hs.readCorrected))))))))

/-! ### The definitions of Machine/UnitWin -/

protected theorem IsTidy.statusRow {c j w} (hs : IsTidy s) : IsTidy (statusRow s c j w).2 := by
  unfold statusRow
  dsimp only
  split
  · exact hs
  · dsimp only
    split
    · exact hs
    · exact hs.drawFree

protected theorem IsTidy.windowRow {c j o} (hs : IsTidy s) : IsTidy (windowRow s c j o).2 := by
  unfold windowRow
  dsimp only
  split
  · exact hs.statusRow
  · split
    · exact hs
    · split
      · exact hs
      · split
        · exact hs
        · split
          · exact hs
          · split
            · exact hs
            · split
              · exact hs
              · exact hs

protected theorem IsTidy.windowGet {o} {r : BitVec 64 × State} (hs : IsTidy s) (hr : windowGet s o = some r) : IsTidy r.2 := by
  unfold windowGet at hr
  split at hr
  · cases hr
  · cases hr
    exact hs.drawFree
  · cases hr
    exact hs.windowRow

protected theorem IsTidy.putScribeRow {c w v} (hs : IsTidy s) : IsTidy (putScribeRow s c w v) :=
  .ite hs (.ite hs.setScribe (.ite hs.setScribe (.ite hs.setScribe hs.setScribe)))

protected theorem IsTidy.putXferRow {k o v} (hs : IsTidy s) : IsTidy (putXferRow s k o v) := by
  unfold putXferRow
  dsimp only
  split
  · exact hs.setXfer
  · exact hs

protected theorem IsTidy.putQueueRow {k i h v} (hs : IsTidy s) : IsTidy (putQueueRow s k i h v) := hs.modUnit

protected theorem IsTidy.putVectorRow {k o v} (hs : IsTidy s) : IsTidy (putVectorRow s k o v) :=
  .ite hs.setVector (.ite hs.setVector (.ite hs.setVector hs))

protected theorem IsTidy.putMatrixRow {k o v} (hs : IsTidy s) : IsTidy (putMatrixRow s k o v) :=
  .ite hs.setMatrix (.ite hs.setMatrix (.ite hs.setMatrix hs))

protected theorem IsTidy.putWindowRow {c j o v} (hs : IsTidy s) : IsTidy (putWindowRow s c j o v) :=
  .ite (.ite hs.putScribeRow hs) (.ite hs.putXferRow (.ite hs.putQueueRow (.ite hs.putVectorRow (.ite hs.putMatrixRow hs))))

protected theorem IsTidy.windowPut {o v} {t : State} (hs : IsTidy s) (ht : windowPut s o v = some t) : IsTidy t := by
  unfold windowPut at ht
  split at ht
  · cases ht
  · split at ht
    · cases ht
    · cases ht
      exact hs
    · dsimp only at ht
      split at ht
      · cases ht
        exact hs.putWindowRow
      · cases ht

/-! ### The definitions of Machine/Debug -/

protected theorem IsTidy.runLocator {reach core} (hs : IsTidy s) : IsTidy (runLocator s reach core).2 := by
  unfold runLocator
  dsimp only
  exact hs.drawFree.drawFree.drawFree

protected theorem IsTidy.haltOn {reach core} (hs : IsTidy s) : IsTidy (haltOn s reach core) := hs.runLocator.haltWith

protected theorem IsTidy.resumeUnits {xs} (hs : IsTidy s) : IsTidy (resumeUnits s xs) := by
  fun_induction resumeUnits s xs with
  | case1 => exact hs
  | case2 _ _ _ ih => exact ih hs.modUnit

protected theorem IsTidy.resumeOn {reach core} (hs : IsTidy s) : IsTidy (resumeOn s reach core) :=
  .ite hs.runLocator.resumeUnits.logEv.afterResume hs

/-- What an answer makes of a state keeps the tables' form where the answer does. -/
protected theorem IsTidy.outState {o : Out} (ho : answers o IsTidy) : IsTidy (outState o s) := by
  obtain ⟨t, rfl, ht⟩ := ho
  exact ht

protected theorem IsTidy.runScribeWord {c w} (hs : IsTidy s) : IsTidy (runScribeWord s c w) := by
  refine .outState ?_
  split
  · exact hs.unitRow (i := .scribeWait ..) rfl
  · exact hs.unitRow (i := .alu ..) rfl
  · exact hs.unitRow (i := .alui ..) rfl
  · exact hs.unitRow (i := .movi ..) rfl
  · exact hs.unitRow (i := .ld ..) rfl
  · exact hs.unitRow (i := .st ..) rfl
  · exact hs.unitRow (i := .ldc ..) rfl
  · exact hs.unitRow (i := .jmp ..) rfl
  · exact hs.unitRow (i := .br ..) rfl
  · exact hs.unitRow (i := .lset ..) rfl
  · exact hs.unitRow (i := .lend ..) rfl
  · exact hs.unitRow (i := .endOp ..) rfl
  · exact hs.unitRow (i := .push ..) rfl
  · exact hs.unitRow (i := .pushr ..) rfl
  · exact hs.unitRow (i := .xwr ..) rfl
  · exact hs.unitRow (i := .csend ..) rfl
  · exact hs.unitRow (i := .cwait ..) rfl
  · exact hs.unitRow (i := .tread ..) rfl
  · exact hs.unitRow (i := .note ..) rfl
  · exact .next hs

protected theorem IsTidy.runUnit {c j} (hs : IsTidy s) : IsTidy (runUnit s c j) := by
  unfold runUnit
  split
  · split
    · exact hs.resumeScribe
    · split
      · exact hs.runScribeWord
      · exact hs
  · exact hs.resumeTile

protected theorem IsTidy.stepOn {c j kind} (hs : IsTidy s) : IsTidy (stepOn s c j kind) := .ite hs.modUnit.runUnit hs

protected theorem IsTidy.execDebugHalt {reach core} (hs : IsTidy s) : answers (execDebugHalt reach core s) IsTidy :=
  .next (.ite hs.haltOn hs)

protected theorem IsTidy.execDebugResume {reach core} (hs : IsTidy s) : answers (execDebugResume reach core s) IsTidy :=
  .next (.ite hs.resumeOn hs)

protected theorem IsTidy.execDebugStep {core tile kind} (hs : IsTidy s) : answers (execDebugStep core tile kind s) IsTidy :=
  .next (.ite hs.stepOn hs)

protected theorem IsTidy.discardAll {ks} (hs : IsTidy s) : IsTidy (discardAll s ks).1 := by
  induction ks generalizing s with
  | nil => exact hs
  | cons k ks ih => exact ih hs.blotDiscard

protected theorem IsTidy.downAll {xs} (hs : IsTidy s) : IsTidy (downAll s xs) := by
  fun_induction downAll s xs with
  | case1 => exact hs
  | case2 _ _ _ _ ih => exact ih hs.blotDown

protected theorem IsTidy.execHaltDryExpiry (hs : IsTidy s) : answers (execHaltDryExpiry s) IsTidy :=
  .next (.ite hs.parts.discardAll.failHere.endHaltHold.downAll hs)

protected theorem IsTidy.writeRunCtl {v} (hs : IsTidy s) : IsTidy (writeRunCtl s v) := by
  unfold writeRunCtl
  dsimp only
  split
  · exact hs.refuseRange
  · split
    · exact hs.haltOn
    · exact hs.resumeOn
    · exact hs.stepOn
    · exact hs

protected theorem IsTidy.writeBpCtl {i v} (hs : IsTidy s) : IsTidy (writeBpCtl s i v) := .ite hs.refuseRange hs.parts

protected theorem IsTidy.writeDbg {o v} {t : State} (hs : IsTidy s) (ht : writeDbg s o v = some t) : IsTidy t := by
  unfold writeDbg at ht
  dsimp only at ht
  split at ht
  · split at ht
    · cases ht
      exact hs.writeRunCtl
    · cases ht
  · split at ht
    · split at ht
      · cases ht
        exact .ite hs.writeBpCtl hs.parts
      · cases ht
    · split at ht
      · cases ht
      · split at ht
        · cases ht
          exact .ite hs.parts hs.refuseRange
        · split at ht
          · exact hs.windowPut ht
          · split at ht
            · cases ht
              exact hs
            · cases ht
              exact hs.dropWrite

protected theorem IsTidy.xferDone {result data} (hs : IsTidy s) : IsTidy (xferDone s result data) := hs.tapSelect.parts

protected theorem IsTidy.xferRefused {a} (hs : IsTidy s) : IsTidy (xferRefused s a) := hs.xferDone.logEv

protected theorem IsTidy.controlGet {o} {r : BitVec 64 × State} (hs : IsTidy s) (hr : controlGet s o = some r) : IsTidy r.2 := by
  unfold controlGet at hr
  split at hr
  · exact hs.windowGet hr
  · obtain rfl := Option.some.inj hr
    exact hs.regReadEffect

protected theorem IsTidy.execXferRead {addr} (hs : IsTidy s) : answers (execXferRead addr s) IsTidy := by
  unfold execXferRead
  refine .next ?_
  split
  · exact hs.xferRefused
  · split
    · exact hs.xferDone
    · split
      · split
        · next hg => exact .xferDone (hs.controlGet hg)
        · exact hs.xferDone
      · exact .ite hs.xferDone hs.xferDone

protected theorem IsTidy.debugWrote {a v} (hs : IsTidy s) : IsTidy (debugWrote s a v) := hs.logEv.parts.xferDone

protected theorem IsTidy.controlPut {o v} {t : State} (hs : IsTidy s) (ht : controlPut s o v = some t) : IsTidy t := by
  unfold controlPut at ht
  split at ht
  · exact hs.writeDbg ht
  · split at ht
    · cases ht
    · split at ht
      · cases ht
        exact hs.doorbellOn
      · dsimp only at ht
        split at ht
        · cases ht
          exact hs.dropWrite
        · cases ht
          exact hs.regWriteCore

protected theorem IsTidy.execXferWrite {addr value} (hs : IsTidy s) : answers (execXferWrite addr value s) IsTidy := by
  unfold execXferWrite
  refine .next ?_
  split
  · exact hs.xferRefused
  · split
    · exact hs.xferDone
    · split
      · split
        · next hp => exact .debugWrote (hs.controlPut hp)
        · exact hs.xferDone
      · exact .ite hs.xferRefused (.ite hs.xferDone (.ite hs.refuseLive.xferDone hs.directWrite.debugWrote))

protected theorem IsTidy.execExtest {pins} (hs : IsTidy s) : answers (execExtest pins s) IsTidy :=
  .next (.ite hs.tapSelect.parts hs.tapSelect)

protected theorem IsTidy.execTapReset (hs : IsTidy s) : answers (execTapReset s) IsTidy := .next hs.tapSelect

/-! ### The definitions of Machine/Mgmt -/

protected theorem IsTidy.execCoalesceWindowClose {cls cause locator} (hs : IsTidy s) :
    answers (execCoalesceWindowClose cls cause locator s) IsTidy := by
  unfold execCoalesceWindowClose
  refine .next ?_
  split
  · exact hs
  · exact .ite hs.parts hs.parts.blotWrite

protected theorem IsTidy.execTelemetryFlushTimer (hs : IsTidy s) : answers (execTelemetryFlushTimer s) IsTidy :=
  .next hs.telemetrySend

protected theorem IsTidy.mctpAnswer {bs} (hs : IsTidy s) : IsTidy (mctpAnswer s bs) := hs.parts

protected theorem IsTidy.mctpServe {f} (hs : IsTidy s) (hf : ∀ {t}, IsTidy t → IsTidy (f t)) : answers (mctpServe s f) IsTidy :=
  .next (.ite (hf hs) hs)

protected theorem IsTidy.mpServe {f} (hs : IsTidy s) (hf : ∀ {t}, IsTidy t → IsTidy (f t)) : answers (mpServe s f) IsTidy :=
  .next (.ite (hf hs) hs)

protected theorem IsTidy.execSetdasa {static dynamic} (hs : IsTidy s) : answers (execSetdasa static dynamic s) IsTidy :=
  (hs.mctpServe (fun ht => .ite ht.parts ht))

protected theorem IsTidy.execSetEndpointId {eid} (hs : IsTidy s) : answers (execSetEndpointId eid s) IsTidy :=
  (hs.mctpServe (fun ht => .ite ht.mctpAnswer ht.parts.mctpAnswer))

protected theorem IsTidy.execGetEndpointId (hs : IsTidy s) : answers (execGetEndpointId s) IsTidy :=
  (hs.mctpServe (fun ht => ht.freeBytes.mctpAnswer))

protected theorem IsTidy.execGetMctpVersionSupport {msgType} (hs : IsTidy s) : answers (execGetMctpVersionSupport msgType s) IsTidy :=
  (hs.mctpServe (fun ht => .ite ht.freeBytes.mctpAnswer ht.mctpAnswer))

protected theorem IsTidy.execGetMessageTypeSupport (hs : IsTidy s) : answers (execGetMessageTypeSupport s) IsTidy :=
  (hs.mctpServe (fun ht => ht.mctpAnswer))

protected theorem IsTidy.execGetVendorDefinedMessageSupport {selector} (hs : IsTidy s) :
    answers (execGetVendorDefinedMessageSupport selector s) IsTidy :=
  (hs.mctpServe (fun ht => .ite ht.freeBytes.mctpAnswer ht.mctpAnswer))

protected theorem IsTidy.execMctpRead (hs : IsTidy s) : answers (execMctpRead s) IsTidy :=
  (hs.mpServe (fun ht => ht.parts.mctpAnswer))

protected theorem IsTidy.execMctpCounts {cls} (hs : IsTidy s) : answers (execMctpCounts cls s) IsTidy :=
  (hs.mpServe (fun ht => ht.mctpAnswer))

protected theorem IsTidy.execMctpStatus (hs : IsTidy s) : answers (execMctpStatus s) IsTidy := (hs.mpServe (fun ht => ht.mctpAnswer))

/-! ### The definitions of Machine/Ptp -/

protected theorem IsTidy.modPtp {k f} (hs : IsTidy s) : IsTidy (modPtp s k f) := { hs with ptp := keysRise_tset _ _ _ _ hs.ptp }

protected theorem IsTidy.ptpDiscard {n u} (hs : IsTidy s) : IsTidy (ptpDiscard s n u) := hs.modPtp

protected theorem IsTidy.ptpCountEvent {n u} (hs : IsTidy s) : IsTidy (ptpCountEvent s n u) := hs.modPtp

protected theorem IsTidy.ptpReceive {n u h event f} (hs : IsTidy s) (hf : ∀ {t}, IsTidy t → IsTidy (f t)) :
    IsTidy (ptpReceive s n u h event f) := by
  have hc : IsTidy (if event then ptpCountEvent s n u else s) := .ite hs.ptpCountEvent hs
  unfold ptpReceive
  generalize (if event then ptpCountEvent s n u else s) = c at hc ⊢
  split
  · exact hs
  · exact hc.ptpDiscard
  · exact hf hc

protected theorem IsTidy.servoRun {k} (hs : IsTidy s) : IsTidy (servoRun s k) :=
  .ite hs hs.parts.drawFree.drawFree.drawFree.drawFree.parts

protected theorem IsTidy.syncDone {n u d} (hs : IsTidy s) : IsTidy (syncDone s n u d) := hs.modPtp.servoRun

protected theorem IsTidy.execPtpSync {port sub h origin} (hs : IsTidy s) : answers (execPtpSync port sub h origin s) IsTidy :=
  .next (hs.ptpReceive (fun ht => .ite ht (.ite ht.modPtp ht.syncDone)))

protected theorem IsTidy.execPtpFollowUp {port sub h origin} (hs : IsTidy s) : answers (execPtpFollowUp port sub h origin s) IsTidy := by
  unfold execPtpFollowUp
  refine .next ?_
  refine hs.ptpReceive fun ht => ?_
  split
  · exact .ite ht.syncDone ht
  · exact ht

protected theorem IsTidy.ptpSend {n u kind seq t corr clock rport} (hs : IsTidy s) : IsTidy (ptpSend s n u kind seq t corr clock rport) :=
  hs.parts

protected theorem IsTidy.execPtpDelayReq {port sub h} (hs : IsTidy s) : answers (execPtpDelayReq port sub h s) IsTidy :=
  .next (hs.ptpReceive (fun ht => .ite ht.ptpSend ht))

protected theorem IsTidy.setMean {k d} (hs : IsTidy s) : IsTidy (setMean s k d) := hs.modPtp

protected theorem IsTidy.execPtpDelayResp {port sub h receive reqClock reqPort} (hs : IsTidy s) :
    answers (execPtpDelayResp port sub h receive reqClock reqPort s) IsTidy := by
  unfold execPtpDelayResp
  refine .next ?_
  refine hs.ptpReceive fun ht => ?_
  split
  · exact .ite ht.modPtp.setMean ht
  · exact ht

protected theorem IsTidy.execPtpPdelayReq {port sub h} (hs : IsTidy s) : answers (execPtpPdelayReq port sub h s) IsTidy :=
  .next (hs.ptpReceive (fun ht => .ite ht.ptpSend ht))

protected theorem IsTidy.execPtpPdelayResp {port sub h receipt reqClock reqPort} (hs : IsTidy s) :
    answers (execPtpPdelayResp port sub h receipt reqClock reqPort s) IsTidy := by
  unfold execPtpPdelayResp
  refine .next ?_
  refine hs.ptpReceive fun ht => ?_
  dsimp only
  split
  · exact .ite (.ite ht.modPtp.modPtp ht.modPtp.setMean) ht
  · exact ht

protected theorem IsTidy.execPtpPdelayRespFollowUp {port sub h origin reqClock reqPort} (hs : IsTidy s) :
    answers (execPtpPdelayRespFollowUp port sub h origin reqClock reqPort s) IsTidy := by
  unfold execPtpPdelayRespFollowUp
  refine .next ?_
  refine hs.ptpReceive fun ht => ?_
  split
  · exact .ite ht.modPtp.setMean ht
  · exact ht

protected theorem IsTidy.execPtpAnnounce {port sub h b} (hs : IsTidy s) : answers (execPtpAnnounce port sub h b s) IsTidy :=
  .next (hs.ptpReceive (fun ht => .ite ht ht.modPtp))

protected theorem IsTidy.execPtpUnsupported {port sub} (hs : IsTidy s) : answers (execPtpUnsupported port sub s) IsTidy :=
  .next (.ite hs.ptpDiscard hs)

protected theorem IsTidy.execPtpSyncTimer {port sub} (hs : IsTidy s) : answers (execPtpSyncTimer port sub s) IsTidy :=
  .next (.ite hs.ptpSend.modPtp hs)

protected theorem IsTidy.execPtpDelayReqTimer {port sub} (hs : IsTidy s) : answers (execPtpDelayReqTimer port sub s) IsTidy :=
  .next (.ite hs.ptpSend.modPtp hs)

protected theorem IsTidy.ownAnnounce (hs : IsTidy s) : IsTidy (ownAnnounce s).2 := by
  unfold ownAnnounce
  dsimp only
  split
  · exact hs
  · dsimp only
    exact hs.drawFree.drawFree

protected theorem IsTidy.execPtpAnnounceTimer {port sub} (hs : IsTidy s) : answers (execPtpAnnounceTimer port sub s) IsTidy :=
  .next (.ite hs.ownAnnounce.parts.modPtp hs)

/-! ### One step -/

/-- Every command keeps the tables in their one form. -/
protected theorem IsTidy.exec {i} (hs : IsTidy s) : answers (exec i s) IsTidy := by
  cases i with
  | launchTick => exact hs.execLaunchTick
  | localEnd => exact hs.execLocalEnd
  | stepCommit => exact hs.execStepCommit
  | stepBoundary => exact hs.execStepBoundary
  | epochReloadDone => exact hs.execEpochReloadDone
  | stepVoid => exact hs.execStepVoid
  | stepReexecute => exact hs.execStepReexecute
  | memoryUncorrectable => exact hs.execMemoryUncorrectable
  | watchdogExpiry => exact hs.execWatchdogExpiry
  | census => exact hs.execCensus
  | censusWaitExpiry => exact hs.execCensusWaitExpiry
  | digest => exact hs.execDigest
  | commitMessage => exact hs.execCommitMessage
  | endNotice => exact hs.execEndNotice
  | hold => exact hs.execHold
  | holdEnd => exact hs.execHoldEnd
  | holdLapse => exact hs.execHoldLapse
  | staged => exact hs.execStaged
  | armExpiry => exact hs.execArmExpiry
  | timeSetLoad => exact hs.execTimeSetLoad
  | phaseStepApply => exact hs.execPhaseStepApply
  | tbaseNowRead => exact hs.execTbaseNowRead
  | refFail => exact hs.execRefFail
  | refPass => exact hs.execRefPass
  | holdoverBoundTick => exact hs.execHoldoverBoundTick
  | regionStopEnd => exact hs.execRegionStopEnd
  | ppsInEdge => exact hs.execPpsInEdge
  | ppsStuck => exact hs.execPpsStuck
  | ppsOutSecond => exact hs.execPpsOutSecond
  | ppsOutFall => exact hs.execPpsOutFall
  | ptpSync => exact hs.execPtpSync
  | ptpFollowUp => exact hs.execPtpFollowUp
  | ptpDelayReq => exact hs.execPtpDelayReq
  | ptpDelayResp => exact hs.execPtpDelayResp
  | ptpPdelayReq => exact hs.execPtpPdelayReq
  | ptpPdelayResp => exact hs.execPtpPdelayResp
  | ptpPdelayRespFollowUp => exact hs.execPtpPdelayRespFollowUp
  | ptpAnnounce => exact hs.execPtpAnnounce
  | ptpUnsupported => exact hs.execPtpUnsupported
  | ptpSyncTimer => exact hs.execPtpSyncTimer
  | ptpDelayReqTimer => exact hs.execPtpDelayReqTimer
  | ptpAnnounceTimer => exact hs.execPtpAnnounceTimer
  | paceFreeUpdate => exact hs.execPaceFreeUpdate
  | avsReadback => exact hs.execAvsReadback
  | trainingComplete => exact hs.execTrainingComplete
  | penHolderWaitExpiry => exact hs.execPenHolderWaitExpiry
  | handshake => exact hs.execHandshake
  | handshakeTimer => exact hs.execHandshakeTimer
  | laneFault => exact hs.execLaneFault
  | narrowReq => exact hs.execNarrowReq
  | narrow => exact hs.execNarrow
  | narrowDone => exact hs.execNarrowDone
  | linkRetrain => exact hs.execLinkRetrain
  | widenReq => exact hs.execWidenReq
  | linkOpRepeatTimer => exact hs.execLinkOpRepeatTimer
  | realignDone => exact hs.execRealignDone
  | retrain => exact hs.execRetrain
  | widen => exact hs.execWiden
  | spanFrame => exact hs.execSpanFrame
  | data => exact hs.execData
  | commitGrain _ _ _ _ count => exact hs.execCommitGrain (count := count)
  | void _ _ _ _ attempt => exact hs.execVoid (attempt := attempt)
  | credit => exact hs.execCredit
  | launch => exact hs.execLaunch
  | telemetry => exact hs.execTelemetry
  | bulkStart => exact hs.execBulkStart
  | bulkData => exact hs.execBulkData
  | bulkAck => exact hs.execBulkAck
  | bulkNack => exact hs.execBulkNack
  | frameSend => exact hs.execFrameSend
  | ackTimer => exact hs.execAckTimer
  | replayTimer => exact hs.execReplayTimer
  | replayCaughtUp => exact hs.execReplayCaughtUp
  | flushTimer => exact hs.execFlushTimer
  | keepaliveTimer => exact hs.execKeepaliveTimer
  | keepaliveExpiry => exact hs.execKeepaliveExpiry
  | linkDown => exact hs.execLinkDown
  | linkUp => exact hs.execLinkUp
  | dryTimeExpiry => exact hs.execDryTimeExpiry
  | fencePort => exact hs.execFencePort
  | unfencePort => exact hs.execUnfencePort
  | stackStepDown => exact hs.execStackStepDown
  | stackStepUp => exact hs.execStackStepUp
  | ddrThermal => exact hs.execDdrThermal
  | ddrRetrain => exact hs.execDdrRetrain
  | patrolRead => exact hs.execPatrolRead
  | rateReq => exact hs.execRateReq
  | hostLinkDown => exact hs.execHostLinkDown
  | hostLinkUp => exact hs.execHostLinkUp
  | linkTimeout => exact hs.execLinkTimeout
  | hostWritePacket => exact hs.execHostWritePacket
  | hostAccess => exact hs.execHostAccess
  | doorbell => exact hs.execDoorbell
  | ringWaitResume => exact hs.execRingWaitResume
  | irqClear => exact hs.execIrqClear
  | openPlot => exact hs.execOpenPlot
  | closePlot => exact hs.execClosePlot
  | scrub => exact hs.execScrub
  | scrubComplete => exact hs.execScrubComplete
  | loadSheet => exact hs.execLoadSheet
  | loadSheetComplete => exact hs.execLoadSheetComplete
  | flipSheet => exact hs.execFlipSheet
  | arm => exact hs.execArm
  | commit => exact hs.execCommit
  | admitReq => exact hs.execAdmit
  | cancel => exact hs.execCancel
  | pause => exact hs.execPause
  | resume => exact hs.execResume
  | setDeadline => exact hs.execSetDeadline
  | evictTimer => exact hs.execEvictTimer
  | drainLimitExpiry => exact hs.execDrainLimitExpiry
  | sealSigned => exact hs.execSealSigned
  | checkpoint => exact hs.execCheckpoint
  | checkpointWritten => exact hs.execCheckpointWritten
  | restore => exact hs.execRestore
  | timeSet => exact hs.execTimeSet
  | timeAdjust => exact hs.execTimeAdjust
  | query => exact hs.execQuery
  | blotterDrain => exact hs.execBlotterDrain
  | loadManifest => exact hs.execLoadManifest
  | manifestTimeout => exact hs.execManifestTimeout
  | loadBlock => exact hs.execLoadBlock
  | activateEpoch => exact hs.execActivateEpoch
  | updateBegin => exact hs.execUpdateBegin
  | updateBlock => exact hs.execUpdateBlock
  | updateActivate => exact hs.execUpdateActivate
  | updateConfirm => exact hs.execUpdateConfirm
  | firmwareReady => exact hs.execFirmwareReady
  | trialReadyTimeout => exact hs.execTrialReadyTimeout
  | attestQuote => exact hs.execAttestQuote
  | debugGrant => exact hs.execDebugGrant
  | grantExpiry => exact hs.execGrantExpiry
  | saltWrite => exact hs.execSaltWrite
  | bedrockBegin => exact hs.execBedrockBegin
  | bedrockChunk => exact hs.execBedrockChunk
  | bedrockEnd => exact hs.execBedrockEnd
  | bedrockRestart => exact hs.execBedrockRestart
  | coalesceWindowClose => exact hs.execCoalesceWindowClose
  | alarmClear => exact hs.execAlarmClear
  | clearCounts => exact hs.execClearCounts
  | telemetryFlushTimer => exact hs.execTelemetryFlushTimer
  | setdasa => exact hs.execSetdasa
  | setEndpointId => exact hs.execSetEndpointId
  | getEndpointId => exact hs.execGetEndpointId
  | getMctpVersionSupport => exact hs.execGetMctpVersionSupport
  | getMessageTypeSupport => exact hs.execGetMessageTypeSupport
  | getVendorDefinedMessageSupport => exact hs.execGetVendorDefinedMessageSupport
  | mctpRead => exact hs.execMctpRead
  | mctpCounts => exact hs.execMctpCounts
  | mctpStatus => exact hs.execMctpStatus
  | tapGrant => exact hs.execTapGrant
  | xferRead => exact hs.execXferRead
  | xferWrite => exact hs.execXferWrite
  | extest => exact hs.execExtest
  | tapReset => exact hs.execTapReset
  | debugHalt => exact hs.execDebugHalt
  | debugResume => exact hs.execDebugResume
  | debugStep => exact hs.execDebugStep
  | haltDryExpiry => exact hs.execHaltDryExpiry
  | registerWrite => exact hs.execRegisterWrite
  | powerUp => exact hs.execPowerUp
  | pwrgoodAssert => exact hs.execPwrgoodAssert
  | resetNRelease => exact hs.execResetNRelease
  | referenceWaitAlert => exact hs.execReferenceWaitAlert
  | warmReset => exact hs.execWarmReset
  | pwrgoodFall => exact hs.execPwrgoodFall
  | railFault rail => exact hs.execRailFault (rail := rail)
  | thermalTrip => exact hs.execThermalTrip
  | openPlotWaitExpiry => exact hs.execOpenPlotWaitExpiry
  | restoreComplete => exact hs.execRestoreComplete
  | hostReadComplete => exact hs.execHostReadComplete
  | controllerLost => exact hs.execControllerLost
  | selfTest => exact hs.execSelfTest
  | _ => exact hs.unitRow rfl

end Sys2Proof.Machine
end

section
/-! PROOFS. How a step ends: what local end and commit leave of it (R23, R65, R67, R70). -/

namespace Sys2Proof.Machine

set_option Elab.async false

/-! ### What leaves the step as it is -/

theorem step_of_loggedOnly {s t : State} (h : LoggedOnly s t) : t.step = s.step := by
  obtain ⟨⟨_, _, _, _, _, _, _, _, _, rfl⟩, -, -⟩ := h
  rfl

theorem unitStore_step (s : State) (c a : Nat) (bs : Bytes) : (unitStore s c a bs).step = s.step := by
  unfold unitStore
  split
  · split <;> rfl
  · rfl

theorem flushSlab_step (s : State) (c : Nat) (ws : List SlabWrite) : (flushSlab s c ws).step = s.step := by
  induction ws generalizing s with
  | nil => rfl
  | cons w ws ih => exact (ih _).trans (unitStore_step s c w.addr w.bytes)

theorem flushUnits_step (s : State) (ks : List Nat) : (flushUnits s ks).step = s.step := by
  induction ks generalizing s with
  | nil => rfl
  | cons k ks ih => exact (ih _).trans ((flushSlab_step _ _ _).trans (flushSlab_step _ _ _))

theorem logDispatch_step (s : State) : (logDispatch s).step = s.step := by
  unfold logDispatch
  split
  · rfl
  · exact step_of_loggedOnly (loggedOnly_logEv s _)

theorem sendCommits_step (s : State) : (sendCommits s).step = s.step := by
  unfold sendCommits
  generalize outSpans s = spans
  induction spans generalizing s with
  | nil => rfl
  | cons e spans ih => exact (ih _).trans rfl

theorem modSub_step (s : State) (k : Nat) (f : SubSt → SubSt) : (modSub s k f).step = s.step := rfl

theorem creditBack_step (s : State) (k sc n : Nat) : (creditBack s k sc n).step = s.step := by
  unfold creditBack
  split
  · rfl
  · exact modSub_step _ _ _

theorem creditLeft_step (s : State) (k sc : Nat) : (creditLeft s k sc).step = s.step := by
  unfold creditLeft
  dsimp only
  split
  · rfl
  · exact (modSub_step _ _ _).trans (creditBack_step s k sc _)

theorem creditAll_step (s : State) (spans : List (Nat × Nat × Nat)) : (creditAll s spans).step = s.step := by
  induction spans generalizing s with
  | nil => rfl
  | cons e spans ih => exact (ih _).trans (creditLeft_step s _ _)

/-- Discarding leftovers notes RESIDUE and DEFECTIVE in the step and leaves the rest of it (R69). -/
theorem discardResidue_step (s : State) : ∃ conds defective, (discardResidue s).step = { s.step with conds, defective } := by
  unfold discardResidue
  split
  · exact ⟨_, true, by rw [raiseCond, creditAll_step]⟩
  · exact ⟨_, _, rfl⟩

theorem discardResidue_of_no_residue {s : State} (h : residue s = false) : discardResidue s = s := by
  simp [discardResidue, h]

/-! ### What ends with the step -/

/-- `t` has the step, the memory, the step copies, the channels and the mailbox of `s`. -/
structure KeepsEnded (s t : State) : Prop where
  step : t.step = s.step
  mem : t.mem = s.mem
  overlay : t.overlay = s.overlay
  chans : t.chans = s.chans
  mbox : t.mbox = s.mbox

protected theorem KeepsEnded.refl (s : State) : KeepsEnded s s := ⟨rfl, rfl, rfl, rfl, rfl⟩

protected theorem KeepsEnded.trans {s t u : State} (h : KeepsEnded s t) (g : KeepsEnded t u) : KeepsEnded s u :=
  ⟨g.step.trans h.step, g.mem.trans h.mem, g.overlay.trans h.overlay, g.chans.trans h.chans, g.mbox.trans h.mbox⟩

theorem keepsEnded_of_loggedOnly {s t : State} (h : LoggedOnly s t) : KeepsEnded s t := by
  obtain ⟨⟨_, _, _, _, _, _, _, _, _, rfl⟩, -, -⟩ := h
  exact ⟨rfl, rfl, rfl, rfl, rfl⟩

theorem keepsEnded_flashWrite (s : State) (a : Nat) (bs : Bytes) : KeepsEnded s (flashWrite s a bs) := ⟨rfl, rfl, rfl, rfl, rfl⟩

theorem keepsEnded_flashErase (s : State) (a n : Nat) : KeepsEnded s (flashErase s a n) := ⟨rfl, rfl, rfl, rfl, rfl⟩

theorem keepsEnded_retireWrite (s : State) (h i : Nat) (es : List RetireEnt) : KeepsEnded s (retireWrite s h i es) := by
  induction es generalizing s i with
  | nil => exact .refl s
  | cons e es ih => exact (keepsEnded_flashWrite s _ _).trans (ih _ (i + 1))

theorem keepsEnded_retire (s : State) (e : RetireEnt) : KeepsEnded s (retire s e) := by
  unfold retire
  dsimp only
  split
  · exact keepsEnded_retireWrite _ _ _ _
  · exact (keepsEnded_retireWrite _ _ _ _).trans (keepsEnded_flashErase _ _ _)

theorem keepsEnded_evictAll (s : State) (slots : List Nat) :
    KeepsEnded s (eachSlot s (fun i s => logEvicted (decide_ s i endEvicted) i) slots) := by
  induction slots generalizing s with
  | nil => exact .refl s
  | cons i slots ih =>
    have hd : KeepsEnded s (decide_ s i endEvicted) := ⟨rfl, rfl, rfl, rfl, rfl⟩
    have he : KeepsEnded s (logEvicted (decide_ s i endEvicted) i) := hd.trans (keepsEnded_of_loggedOnly (loggedOnly_logEv _ _))
    exact he.trans (ih _)

theorem keepsEnded_evictSpilledOn (s : State) (m : Nat) : KeepsEnded s (evictSpilledOn s m) := by
  unfold evictSpilledOn
  split
  · exact .refl s
  · exact keepsEnded_evictAll s _

theorem keepsEnded_disableDdr (s : State) (m : Nat) (cause : BitVec 4) : KeepsEnded s (disableDdr s m cause) := by
  unfold disableDdr
  extract_lets d s1 s2
  have h1 : KeepsEnded s s1 := ⟨rfl, rfl, rfl, rfl, rfl⟩
  have h2 : KeepsEnded s s2 := h1.trans (keepsEnded_of_loggedOnly (loggedOnly_logEv _ _))
  split
  · exact .refl s
  · exact (h2.trans (keepsEnded_retire _ _)).trans (keepsEnded_evictSpilledOn _ _)

theorem keepsEnded_applyDisables (s : State) (ms : List Nat) : KeepsEnded s (applyDisables s ms) := by
  induction ms generalizing s with
  | nil => exact .refl s
  | cons m ms ih =>
    refine .trans ?_ (ih _)
    split
    · exact keepsEnded_disableDdr _ _ _
    · exact .refl s

/-- The step without the lists that do not outlive it. -/
def outlived (t : StepSt) : StepSt := { t with retained := [], carried := [], consumed := [] }

/-- After an ended step its record stands, memory is as it was, and no step copy and no drop is left. -/
theorem keepsEnded_afterStep (s : State) :
    KeepsEnded { s with overlay := [], chans := [], step := outlived s.step } (afterStep s) := by
  unfold afterStep
  extract_lets st _ _ s1
  have hr : KeepsEnded { s with overlay := [], chans := [], step := outlived s.step } (resetUnits s1) := ⟨rfl, rfl, rfl, rfl, rfl⟩
  exact hr.trans (keepsEnded_applyDisables _ _)

/-- The step as it stands once its record is kept (R65). -/
def recorded (t : StepSt) (r : StepRecord) : StepSt :=
  { t with
    running := false, voided := false, localEnded := false, reload := none, lastEnded := r.step, lastStatus := r.status
    lastMask := r.mask, lastAttempts := r.attempts, lastStrokes := r.strokes, lastSkips := r.skips
    records := (t.records ++ [r]).drop (t.records.length + 1 - 256) }

theorem keepsEnded_keepRecord (s : State) (r : StepRecord) : KeepsEnded { s with step := recorded s.step r } (keepRecord s r) := by
  unfold keepRecord
  extract_lets _ s1
  split
  · exact .refl s1
  · exact keepsEnded_of_loggedOnly (loggedOnly_logEv s1 _)

theorem commitServing_of_not_serving {s : State} (h : s.sec.serving = false) : commitServing s = s := by
  simp [commitServing, h]

theorem ckptAtEnd_of_none {s : State} (h : s.mbox.ckpt = none) (committed : Bool) : ckptAtEnd s committed = s := by
  simp [ckptAtEnd, h]

/-! ### The two clauses -/

theorem execLocalEnd_strokes {s : State} (hrun : s.step.running = true) (hvoid : s.step.voided = false)
    (hend : s.step.localEnded = false) (hret : allRetired s = true) :
    answers (execLocalEnd s) fun t =>
      t.step.running = true ∧ t.step.localEnded = true ∧
      t.step.strokes = strokeLength (flushUnits s (s.matrix.map Prod.fst ++ s.vector.map Prod.fst)) := by
  unfold execLocalEnd
  rw [if_pos (by simp [hrun, hvoid, hend, hret])]
  refine .next ?_
  extract_lets s1 _ s2
  obtain ⟨conds, defective, ht⟩ := discardResidue_step (sendCommits (logDispatch s2))
  have h1 : s1.step = s.step := flushUnits_step s _
  rw [ht, sendCommits_step, logDispatch_step]
  exact ⟨(congrArg StepSt.running h1).trans hrun, rfl, rfl⟩

theorem keepsEnded_addStepSeal (s : State) (r : StepRecord) :
    ∃ seals, KeepsEnded { s with step := { s.step with seals } } (addStepSeal s r) := by
  unfold addStepSeal
  split
  · exact ⟨_, .refl _⟩
  · exact ⟨s.step.seals, .refl s⟩

theorem execStepCommit_ends {s : State} (hrun : s.step.running = true) (hend : s.step.localEnded = true)
    (hcommits : commitsComplete s = true) (hres : residue s = false) (hserv : s.sec.serving = false) (hckpt : s.mbox.ckpt = none) :
    answers (execStepCommit s) fun t =>
      t.step.running = false ∧ t.step.lastEnded = s.step.number ∧ t.step.lastMask = s.step.conds ||| s.step.kept ∧
      t.step.lastStrokes = s.step.strokes ∧ t.mem = overlayMerge s.mem s.overlay ∧ t.overlay = [] ∧ t.chans = [] := by
  unfold execStepCommit
  rw [if_pos (by simp [hrun, hend, hcommits]), discardResidue_of_no_residue hres]
  extract_lets s1 mask r s2 s3
  refine .next ?_
  have h2 : s2 = { s with mem := overlayMerge s.mem s.overlay, overlay := [] } := commitServing_of_not_serving hserv
  obtain ⟨seals, hseal⟩ := keepsEnded_addStepSeal s2 r
  have hkeep : KeepsEnded _ s3 := keepsEnded_keepRecord (addStepSeal s2 r) r
  have hafter := keepsEnded_afterStep s3
  have hstep : (afterStep s3).step = outlived (recorded { s2.step with seals } r) := by
    rw [hafter.step, hkeep.step, hseal.step]
  have hmem : (afterStep s3).mem = s2.mem := hafter.mem.trans (hkeep.mem.trans hseal.mem)
  have hmbox : (afterStep s3).mbox = s2.mbox := hafter.mbox.trans (hkeep.mbox.trans hseal.mbox)
  rw [ckptAtEnd_of_none (by rw [hmbox, h2, hckpt]), hstep, hmem, h2]
  exact ⟨rfl, rfl, rfl, rfl, rfl, hafter.overlay, hafter.chans⟩

end Sys2Proof.Machine
end

section
/-! PROOFS. What is shown of the obligations: the form of the tables, the end of a step, the frame of the rows of units. -/

namespace Sys2Proof.Proofs

open Machine

/-- Settles O57: each command's own lemma says that it keeps the one form, and so does a tick with no command waiting. -/
theorem stepKeepsTidy : Obligations.StepKeepsTidy := by
  intro s t hs ht
  rw [tidy_iff] at hs ⊢
  unfold Machine.step at ht
  split at ht
  · cases ht
    exact hs.idle
  · next i rest _ =>
    have hq : IsTidy { s with pending := rest } := hs.parts
    obtain ⟨t', ht', h⟩ := hq.exec (i := i)
    cases ht'.symm.trans ht
    exact h

/-- Settles O60: the frame of the rows of engines, scribes and die movers is `UnitStep`, which every such row keeps. -/
theorem unitsLeaveTheDevice : Obligations.UnitsLeaveTheDevice := by
  intro i s t hi ht
  obtain ⟨t', ht', h⟩ := exec_unitStep i s hi
  cases ht'.symm.trans ht
  exact ⟨h.boot, h.flash, h.regs, h.stackTbl, h.ddrs, h.sheets, h.time, h.ptp, h.ptpOut, h.pace, h.ports, h.load, h.mbox,
    h.sec, h.free, h.serv, h.step, h.dbg, h.launch⟩

/-- Settles O21: local end leaves the step it closes as it is, and what follows a commit leaves record, memory and channels as they are. -/
theorem stepEndsAndCommits : Obligations.StepEndsAndCommits := fun _ =>
  ⟨fun hrun hvoid hend hret => execLocalEnd_strokes hrun hvoid hend hret,
    fun hrun hend hcommits hres hserv hckpt => execStepCommit_ends hrun hend hcommits hres hserv hckpt⟩

end Sys2Proof.Proofs
end

section
/-! PROOFS. What a tile does with WAIT and where its stroke was stretched, and what a scribe's push does to a tile's queue (R46, R48, R50, R150). -/

namespace Sys2Proof.Machine

set_option Elab.async false

variable {s : State} {c : BitVec 6} {j : BitVec 5}

/-! ### Tiles -/

/-- A WAIT of `n` strokes retires after them with no other effect (R48). -/
theorem runTile_wait {n : BitVec 16} (hn : n ≠ 0) (h : tileAt s c j (waitWord n.toNat) n.toNat) :
    runTile s c.toNat j.toNat (waitWord n.toNat) (planWait n.toNat) = retired (issued s c j) c j n.toNat := by
  have hn' : n.toNat ≠ 0 := fun e => hn (BitVec.eq_of_toNat_eq e)
  exact runTile_quiet s c j _ (planWait n.toNat) (issued s c j) [] h (if_neg hn') (gather_nil _ _) rfl

theorem runMatrix_of_matrixTile {w : CmdWord} {p : Plan} (hj : matrixTile j = true) :
    runMatrix s c j w p = .next (runTile s c.toNat j.toNat w p) := by
  rw [runMatrix, if_pos (show isMatrixTile j.toNat = true from hj)]

theorem runVector_of_vectorTile {w : CmdWord} {p : Plan} (hj : vectorTile j = true) :
    runVector s c j w p = .next (runTile s c.toNat j.toNat w p) := by
  rw [runVector, if_pos (show isVectorTile j.toNat = true from hj)]

theorem runTransfer_of_transferTile {w : CmdWord} {p : Plan} (hj : transferTile j = true) :
    runTransfer s c j w p = .next (runTile s c.toNat j.toNat w p) := by
  rw [runTransfer, if_pos (show isTransferTile j.toNat = true from hj)]

/-- WAIT_RESUME of an engine tile that may go on lets it go on. -/
theorem waitResume_tile (hj : engineTile j = true) (h : mayGoOn s (tileKey c.toNat j.toNat) = true) :
    exec (.waitResume (.tile c j)) s = .next (resumeTile s c.toNat j.toNat) := by
  have hj' : j.toNat < 24 := of_decide_eq_true hj
  show execWaitResume (.tile c j) s = _
  simp only [execWaitResume, h, hj', decide_true, Bool.and_self, if_true]

/-- A unit inside a stroke meets no breakpoint before it goes on (R427). -/
theorem goOn_of_midStroke {k idx : Nat} {f : State → State} (h : midStroke (getUnit s k) = true) : goOn s k idx f = f s := by
  simp [goOn, h]

/-- A command whose inputs are in and whose outputs have room retires (R50). -/
theorem advance_retires {k : Nat} {b : Blocked} {p : Plan} (hstop : stopAt s k (getUnit s k) p.strokes = p.strokes)
    (hin : (gather s p.demand b.got).2.2 = none)
    (hroom : let g := gather s p.demand b.got
      let e := planEffect p (getUnit s k).strokes.toNat g.2.1 (asIssued g.1 k (getUnit s k))
      room e.1 (e.2.drop b.moved)) :
    let g := gather s p.demand b.got
    let e := planEffect p (getUnit s k).strokes.toNat g.2.1 (asIssued g.1 k (getUnit s k))
    advance s k b p = retireUnit (pump e.1 (e.2.drop b.moved)).1 k p.strokes := by
  unfold advance
  exact if_pos ⟨hstop, hin, hroom⟩

/-- A tile's stretched command other than XMOV goes on by its plan. -/
theorem resumeTile_blocked {b : Blocked} (hb : (getUnit s (tileKey c.toNat j.toNat)).blocked = some b)
    (hm : midStroke (getUnit s (tileKey c.toNat j.toNat)) = true) (hx : isXmov b.word = false) :
    resumeTile s c.toNat j.toNat = advance s (tileKey c.toNat j.toNat) b (wordPlan s c.toNat j.toNat b.word) := by
  simp only [resumeTile, hb, goOn_of_midStroke hm, hx, Bool.and_false, Bool.false_eq_true, if_false]

/-- A tile with nothing in its queue whose turn it is waits on it (R46, R162). -/
theorem resumeTile_empty (hb : (getUnit s (tileKey c.toNat j.toNat)).blocked = none)
    (hq : (getUnit s (tileKey c.toNat j.toNat)).queue = []) (hi : canIssue s (tileKey c.toNat j.toNat) = true) :
    resumeTile s c.toNat j.toNat =
      setUnit s (tileKey c.toNat j.toNat) { getUnit s (tileKey c.toNat j.toNat) with waiting := some .emptyQueue } := by
  simp only [resumeTile, hb, hq, List.head?_nil, hi, if_true]

/-! ### Scribes -/

/-- The scribe runs the instruction it has come to, once its earlier register writes have landed. -/
theorem runScribe_at {w : BitVec 64} {n m : Nat} {body : State → State} (h : scribeAt s c w n) :
    runScribe s c w m body = .next (body (scribeNow s c)) := by
  obtain ⟨hissue, hcode, hbp, -⟩ := h
  simp only [runScribe, hissue, hcode, hbp, beq_self_eq_true, Bool.and_self, if_true, scribeNow]

theorem exec_push_at {tpl : BitVec 14} {sa sb sc : BitVec 7} {n : Nat}
    (h : scribeAt s c (sWord [(8, 0x20), (5, j.toNat), (14, tpl.toNat), (7, sa.toNat), (7, sb.toNat), (7, sc.toNat)]) n) :
    exec (.push c j tpl sa sb sc) s = .next (doPush (scribeNow s c) c.toNat j.toNat tpl.toNat sa.toNat sb.toNat sc.toNat) :=
  runScribe_at (m := 1) (body := fun s => doPush s c.toNat j.toNat tpl.toNat sa.toNat sb.toNat sc.toNat) h

theorem exec_pushr_at {ga : BitVec 5} {n : Nat} (h : scribeAt s c (sWord [(8, 0x21), (5, j.toNat), (5, ga.toNat)]) n) :
    exec (.pushr c j ga) s = .next (doPushr (scribeNow s c) c.toNat j.toNat ga.toNat) :=
  runScribe_at (m := 1) (body := fun s => doPushr s c.toNat j.toNat ga.toNat) h

theorem exec_xwr_at {x : BitVec 2} {reg : BitVec 8} {sa : BitVec 7} {n : Nat}
    (h : scribeAt s c (sWord [(8, 0x28), (2, x.toNat), (8, reg.toNat), (7, sa.toNat)]) n) :
    exec (.xwr c x reg sa) s = .next (doXwr (scribeNow s c) c.toNat x.toNat reg.toNat sa.toNat) :=
  runScribe_at (m := 1) (body := fun s => doXwr s c.toNat x.toNat reg.toNat sa.toNat) h

theorem selBad_of_plain {sel : BitVec 7} (h : plainSel sel) : selBad sel.toNat = false := by
  have : sel.toNat < 0x68 := h
  simp only [selBad, decide_eq_false_iff_not]
  omega

theorem selO_of_plain {sel : BitVec 7} (h : plainSel sel) : selO sel.toNat = false := by
  have : sel.toNat < 0x68 := h
  simp only [selO, Bool.and_eq_false_iff, decide_eq_false_iff_not]
  omega

/-- Checks on sources that are plain pass (R62, R156). -/
theorem withSources_of_plain {sels : List (BitVec 7)} {n : Nat} {k : Unit → State} (h : ∀ a ∈ sels, plainSel a) :
    withSources s c.toNat false (sels.map BitVec.toNat) n k = k () := by
  have hbad : (sels.map BitVec.toNat).any selBad = false := by simpa using fun a ha => selBad_of_plain (h a ha)
  have ho : (sels.map BitVec.toNat).any selO = false := by simpa using fun a ha => selO_of_plain (h a ha)
  simp [withSources, hbad, ho]

/-- Landing the scribe's earlier writes leaves its PC. -/
theorem scribePc_scribeNow (hs : tidy s = true) : scribePc (scribeNow s c) c.toNat = scribePc s c.toNat := by
  simp only [scribePc, scribeNow, beginScribe, setScribe, getScribe, tget_tset_self _ _ _ _ (tidy_iff.mp hs).scribes]

/-- The queue of tile `j` of the scribe's core, and what it holds. -/
def tileQueue (s : State) (c : BitVec 6) (j : Nat) : List CmdWord := (getUnit (scribeNow s c) (tileKey c.toNat j)).queue

/-- A command is placed at the back of a tile's queue (R46). -/
def pushed (s : State) (c : BitVec 6) (j : Nat) (w : CmdWord) : State :=
  let u := getUnit (scribeNow s c) (tileKey c.toNat j)
  setUnit (scribeNow s c) (tileKey c.toNat j) { u with queue := u.queue ++ [w], entered := u.entered + 1 }

/-- A command enters a queue of fewer than 64, and the scribe goes on (R46). -/
theorem enqueueOrWait_space {t : Nat} {w : CmdWord} (hs : tidy s = true) (h : (tileQueue s c t).length < 64) :
    .next (enqueueOrWait (scribeNow s c) c.toNat t w) = scribeDone (pushed s c t w) c 1 (scribePc s c.toNat + 1) := by
  have hfull : ¬ 64 ≤ (getUnit (scribeNow s c) (tileKey c.toNat t)).queue.length := Nat.not_le.mpr h
  have hpc := scribePc_scribeNow (c := c) hs
  simp only [enqueueOrWait, ge_iff_le, hfull, if_false, nextScribe, scribeDone, pushed]
  rw [← hpc]
  rfl

theorem toNat_append_64 (x y : BitVec 64) : BitVec.ofNat 128 (y.toNat + 2 ^ 64 * x.toNat) = x ++ y := by
  refine BitVec.eq_of_toNat_eq ?_
  rw [BitVec.toNat_append, ← Nat.shiftLeft_add_eq_or_of_lt y.isLt, Nat.shiftLeft_eq, BitVec.toNat_ofNat]
  have := x.isLt
  have := y.isLt
  omega

/-- PUSH of a template that its values fit (R150). -/
theorem doPush_space {tpl : Nat} {sa sb sc : BitVec 7} {t : BitVec 256} {w : Nat} (hs : tidy s = true) (hj : engineTile j = true)
    (ha : plainSel sa) (hb : plainSel sb) (hc : plainSel sc) (ht : (liveCore s c.toNat).templates[tpl]? = some t)
    (hw : patchWord (t.toNat % 2 ^ 128)
      [(patchOf t.toNat 128, (scribeSrc s c sa.toNat).toNat), (patchOf t.toNat 144, (scribeSrc s c sb.toNat).toNat),
       (patchOf t.toNat 160, (scribeSrc s c sc.toNat).toNat)] = some w)
    (h : (tileQueue s c j.toNat).length < 64) :
    .next (doPush (scribeNow s c) c.toNat j.toNat tpl sa.toNat sb.toNat sc.toNat) =
      scribeDone (pushed s c j.toNat (BitVec.ofNat 128 w)) c 1 (scribePc s c.toNat + 1) := by
  have hj' : ¬ 23 < j.toNat := by have : j.toNat < 24 := of_decide_eq_true hj; omega
  have hlive : (liveCore (scribeNow s c) c.toNat).templates[tpl]? = some t := ht
  have hget : (liveCore (scribeNow s c) c.toNat).templates.getD tpl 0 = t := by simp [List.getD, hlive]
  have hplain : ∀ a ∈ [sa, sb, sc], plainSel a := by simp [ha, hb, hc]
  have hsrc := fun k => withSources_of_plain (s := scribeNow s c) (c := c) (n := 1) (k := k) hplain
  simp only [List.map_cons, List.map_nil] at hsrc
  simp only [scribeSrc] at hw
  rw [doPush, hlive, hget, Option.isNone_some, hsrc]
  simp only [hw, gt_iff_lt, hj', if_false]
  exact enqueueOrWait_space hs h

/-- PUSHR of an even register (R150). -/
theorem doPushr_space {ga : Nat} (hs : tidy s = true) (hj : engineTile j = true) (hg : ga % 2 = 0)
    (h : (tileQueue s c j.toNat).length < 64) :
    .next (doPushr (scribeNow s c) c.toNat j.toNat ga) =
      scribeDone (pushed s c j.toNat (scribeSrc s c (ga + 1) ++ scribeSrc s c ga)) c 1 (scribePc s c.toNat + 1) := by
  have hok : ¬ (j.toNat > 23 ∨ ga % 2 = 1) := by have : j.toNat < 24 := of_decide_eq_true hj; omega
  rw [doPushr, if_neg hok, toNat_append_64]
  exact enqueueOrWait_space hs h

/-- XWR of a value that its register takes (R153). -/
theorem doXwr_space {x reg : Nat} {sa : BitVec 7} (hs : tidy s = true) (ha : plainSel sa)
    (hreg : xregBad reg (scribeSrc s c sa.toNat).toNat = false) (h : (tileQueue s c (20 + x)).length < 64) :
    .next (doXwr (scribeNow s c) c.toNat x reg sa.toNat) =
      scribeDone (pushed s c (20 + x) (xregWord reg (scribeSrc s c sa.toNat).toNat)) c 1 (scribePc s c.toNat + 1) := by
  have hsrc := fun k => withSources_of_plain (s := scribeNow s c) (c := c) (n := 1) (k := k) (sels := [sa]) (by simp [ha])
  simp only [List.map_cons, List.map_nil] at hsrc
  simp only [scribeSrc] at hreg
  rw [doXwr, hsrc]
  simp only [hreg, Bool.false_eq_true, if_false]
  exact enqueueOrWait_space hs h

end Sys2Proof.Machine
end

section
/-! PROOFS. What a void and the failure of a step leave of it and of memory (R66, R71, R74, R76, R330). -/

namespace Sys2Proof.Machine

set_option Elab.async false

/-! ### What changes only sub-ports, or sub-ports and channels -/

/-- `t` is `s` but for its sub-ports. -/
def SubsOnly (s t : State) : Prop := ∃ subs, t = { s with subs }

protected theorem SubsOnly.refl (s : State) : SubsOnly s s := ⟨_, rfl⟩

protected theorem SubsOnly.trans {s t u : State} (h : SubsOnly s t) (g : SubsOnly t u) : SubsOnly s u := by
  obtain ⟨_, rfl⟩ := h
  obtain ⟨subs, rfl⟩ := g
  exact ⟨subs, rfl⟩

theorem subsOnly_modSub (s : State) (k : Nat) (f : SubSt → SubSt) : SubsOnly s (modSub s k f) := ⟨_, rfl⟩

theorem subsOnly_creditBack (s : State) (k sc n : Nat) : SubsOnly s (creditBack s k sc n) := by
  unfold creditBack
  split
  · exact .refl s
  · exact subsOnly_modSub _ _ _

theorem subsOnly_creditLeft (s : State) (k sc : Nat) : SubsOnly s (creditLeft s k sc) := by
  unfold creditLeft
  dsimp only
  split
  · exact .refl s
  · exact (subsOnly_creditBack _ _ _ _).trans (subsOnly_modSub _ _ _)

theorem subsOnly_creditAll (s : State) (spans : List (Nat × Nat × Nat)) : SubsOnly s (creditAll s spans) := by
  induction spans generalizing s with
  | nil => exact .refl s
  | cons e spans ih => exact (subsOnly_creditLeft s _ _).trans (ih _)

theorem subsOnly_unpaid (s : State) (spans : List (Nat × Nat × Nat)) : SubsOnly s (unpaid s spans) := by
  induction spans generalizing s with
  | nil => exact .refl s
  | cons e spans ih =>
    refine .trans ?_ (ih _)
    split
    · exact .refl s
    · exact subsOnly_modSub _ _ _

/-- `t` is `s` but for its sub-ports and channels. -/
def SpansOnly (s t : State) : Prop := ∃ subs chans, t = { s with subs, chans }

protected theorem SpansOnly.refl (s : State) : SpansOnly s s := ⟨_, _, rfl⟩

protected theorem SpansOnly.trans {s t u : State} (h : SpansOnly s t) (g : SpansOnly t u) : SpansOnly s u := by
  obtain ⟨_, _, rfl⟩ := h
  obtain ⟨subs, chans, rfl⟩ := g
  exact ⟨subs, chans, rfl⟩

theorem SubsOnly.spansOnly {s t : State} (h : SubsOnly s t) : SpansOnly s t := by
  obtain ⟨subs, rfl⟩ := h
  exact ⟨subs, _, rfl⟩

theorem spansOnly_dropUnsent (s : State) (ch k sc : Nat) : SpansOnly s (dropUnsent s ch k sc) := ⟨_, _, rfl⟩

theorem spansOnly_voidOut (s : State) (ch k sc : Nat) : SpansOnly s (voidOut s ch k sc) := ⟨_, _, rfl⟩

theorem spansOnly_eachOut {f : State → Nat → Nat → Nat → State} (hf : ∀ s ch k sc, SpansOnly s (f s ch k sc)) (s : State)
    (spans : List (Nat × Nat × Nat)) : SpansOnly s (eachOut s f spans) := by
  induction spans generalizing s with
  | nil => exact .refl s
  | cons e spans ih => exact (hf s _ _ _).trans (ih _)

/-! ### What the notices of a device change -/

/-- `t` is `s` but for the blotter, host memory, units, sub-ports, and the holds and notices of the debug port and the launch logic. -/
def NoticesOnly (s t : State) : Prop :=
  ∃ blot bps sent units subs holds held seen host, t = { s with
    blot, units, subs, host, dbg := { s.dbg with bps, holdSent := sent }, launch := { s.launch with holds, heldSince := held, seen } }

theorem noticesOnly_of_loggedOnly {s t : State} (h : LoggedOnly s t) : NoticesOnly s t := h.1

theorem noticesOnly_sendEnd (s : State) (n : BitVec 64) (code : Nat) : NoticesOnly s (sendEnd s n code) := (loggedOnly_originate s _ _).1

/-- The halts of a step end with the step: units run on, and the hold announced ends (R431). -/
theorem noticesOnly_endHalts (s : State) : NoticesOnly s (endHalts s) := by
  unfold endHalts endHaltHold
  split
  · exact (LoggedOnly.rfl s).1
  · split
    · obtain ⟨blot, bps, sent, units, subs, holds, held, seen, host, h⟩ :=
        (loggedOnly_endHold { clearHalts s with dbg := { (clearHalts s).dbg with holdSent := false } } 0xFF 0xFF (haltDry (clearHalts s)) 0).1
      exact ⟨blot, bps, sent, units, subs, holds, held, seen, host, h⟩
    · exact ⟨_, _, _, _, _, _, _, _, _, rfl⟩

/-! ### What leaves the running step, memory, the mailbox and the plot -/

/-- `t` has the step, the memory, the mailbox and the plot of `s`. -/
structure KeepsRun (s t : State) : Prop where
  step : t.step = s.step
  mem : t.mem = s.mem
  mbox : t.mbox = s.mbox
  sec : t.sec = s.sec

protected theorem KeepsRun.refl (s : State) : KeepsRun s s := ⟨rfl, rfl, rfl, rfl⟩

protected theorem KeepsRun.trans {s t u : State} (h : KeepsRun s t) (g : KeepsRun t u) : KeepsRun s u :=
  ⟨g.step.trans h.step, g.mem.trans h.mem, g.mbox.trans h.mbox, g.sec.trans h.sec⟩

theorem SpansOnly.keepsRun {s t : State} (h : SpansOnly s t) : KeepsRun s t := by
  obtain ⟨_, _, rfl⟩ := h
  exact ⟨rfl, rfl, rfl, rfl⟩

theorem NoticesOnly.keepsRun {s t : State} (h : NoticesOnly s t) : KeepsRun s t := by
  obtain ⟨_, _, _, _, _, _, _, _, _, rfl⟩ := h
  exact ⟨rfl, rfl, rfl, rfl⟩

theorem keepsRun_logEv (s : State) (e : Ev) : KeepsRun s (logEv s e) := (noticesOnly_of_loggedOnly (loggedOnly_logEv s e)).keepsRun

theorem keepsRun_logDispatch (s : State) : KeepsRun s (logDispatch s) := by
  unfold logDispatch
  split
  · exact .refl s
  · exact keepsRun_logEv _ _

theorem keepsRun_keepRecord (s : State) (r : StepRecord) : KeepsRun { s with step := recorded s.step r } (keepRecord s r) := by
  unfold keepRecord
  extract_lets _ s1
  split
  · exact .refl s1
  · exact keepsRun_logEv s1 _

/-- What fails in serving with a step is the head's alone (R222). -/
theorem keepsRun_failServing {s : State} (h : s.sec.serving = false) : KeepsRun s (failServing s) := by
  have hh : isHead s = false := by simp [isHead, h]
  simp only [failServing, hh, Bool.not_false, if_true]
  exact ⟨rfl, rfl, rfl, rfl⟩

theorem keepsRun_logWaiting (s : State) (us : List (Nat × UnitSt)) : KeepsRun s (logWaiting s us) := by
  induction us generalizing s with
  | nil => exact .refl s
  | cons e us ih => exact (keepsRun_logEv s _).trans (ih _)

theorem keepsRun_countError (s : State) (a : Nat) (ue : Bool) : KeepsRun s (countError s a ue) := by
  unfold countError
  split <;> exact ⟨rfl, rfl, rfl, rfl⟩

theorem keepsRun_countUe (s : State) (a : Nat) : KeepsRun s (countUe s a) := by
  unfold countUe
  split
  · dsimp only
    split
    · unfold disableSoon
      split <;> exact ⟨rfl, rfl, rfl, rfl⟩
    · exact ⟨rfl, rfl, rfl, rfl⟩
  · exact .refl s

theorem keepsRun_retireWrite (s : State) (h i : Nat) (es : List RetireEnt) : KeepsRun s (retireWrite s h i es) := by
  induction es generalizing s i with
  | nil => exact .refl s
  | cons e es ih =>
    have hw : KeepsRun s (flashWrite s (retireHalf h + 32 * i) (retireBytes e)) := ⟨rfl, rfl, rfl, rfl⟩
    exact hw.trans (ih _ (i + 1))

theorem keepsRun_retire (s : State) (e : RetireEnt) : KeepsRun s (retire s e) := by
  unfold retire
  dsimp only
  split
  · exact keepsRun_retireWrite _ _ _ _
  · exact (keepsRun_retireWrite s _ _ _).trans ⟨rfl, rfl, rfl, rfl⟩

theorem keepsRun_makePending (s : State) (a : Nat) : KeepsRun s (makePending s a) := by
  have hs : ∀ k f, KeepsRun s (modStack s k f) := fun _ _ => ⟨rfl, rfl, rfl, rfl⟩
  have hd : ∀ m f, KeepsRun s (modDdr s m f) := fun _ _ => ⟨rfl, rfl, rfl, rfl⟩
  unfold makePending
  split
  · dsimp only
    split
    · exact .refl s
    · exact ((hs _ _).trans (keepsRun_retire _ _)).trans (keepsRun_logEv _ _)
  · dsimp only
    split
    · exact .refl s
    · exact ((hd _ _).trans (keepsRun_retire _ _)).trans (keepsRun_logEv _ _)
  · exact .refl s

/-- An uncorrectable read is counted, logged and its row pending: the running step and memory stand (R330). -/
theorem keepsRun_noteUncorrectable (s : State) (a kind index : Nat) : KeepsRun s (noteUncorrectable s a kind index) :=
  ((keepsRun_countError s a true).trans (keepsRun_countUe _ a)).trans ((keepsRun_logEv _ _).trans (keepsRun_makePending _ a))

/-! ### The failure of a step -/

/-- The step with `n` among those known to have failed. -/
def withFailed (t : StepSt) (n : BitVec 64) : StepSt := { t with failed := n :: t.failed }

/-- The running step of `s` has ended with the mask of conditions `m`, and memory is as it was. -/
structure EndedWith (s : State) (m : BitVec 16) (t : State) : Prop where
  running : t.step.running = false
  lastEnded : t.step.lastEnded = s.step.number
  lastMask : t.step.lastMask = m
  overlay : t.overlay = []
  mem : t.mem = s.mem

theorem EndedWith.notices {s t u : State} {m : BitVec 16} (h : EndedWith s m t) (g : NoticesOnly t u) : EndedWith s m u := by
  obtain ⟨_, _, _, _, _, _, _, _, _, rfl⟩ := g
  exact ⟨h.running, h.lastEnded, h.lastMask, h.overlay, h.mem⟩

/-- A step that fails, with neither serving nor a checkpoint in progress, leaves its record and memory as it was (R74). -/
theorem endStepFailed_ends {s : State} {mask : BitVec 16} (hserv : s.sec.serving = false) (hckpt : s.mbox.ckpt = none) :
    EndedWith s (s.step.conds ||| mask) (endStepFailed s mask) := by
  unfold endStepFailed
  extract_lets m strokes s0 s1 r s2 _ s3
  have h0 : KeepsRun s s0 := by
    unfold s0
    split
    · exact .refl s
    · exact keepsRun_logDispatch s
  have h1 : KeepsRun s s1 :=
    h0.trans ((subsOnly_creditAll s0 _).spansOnly.trans (spansOnly_eachOut spansOnly_dropUnsent _ _)).keepsRun
  have h2 : KeepsRun { s1 with step := recorded s1.step r } s2 := keepsRun_keepRecord s1 r
  have h3 : KeepsRun _ s3 := keepsRun_failServing (by rw [h2.sec, h1.sec, hserv])
  have h4 := keepsEnded_afterStep s3
  have hstep : (afterStep s3).step = outlived (withFailed (recorded s1.step r) r.step) :=
    h4.step.trans (congrArg outlived (h3.step.trans (congrArg (withFailed · r.step) h2.step)))
  have hmbox : (afterStep s3).mbox = s.mbox := by rw [h4.mbox, h3.mbox, h2.mbox, h1.mbox]
  rw [ckptAtEnd_of_none (by rw [hmbox, hckpt])]
  refine EndedWith.notices ?_ (noticesOnly_endHalts _)
  exact {
    running := by rw [hstep]; rfl
    lastEnded := by rw [hstep]; exact congrArg StepSt.number h1.step
    lastMask := by rw [hstep]; rfl
    overlay := h4.overlay
    mem := by rw [h4.mem, h3.mem, h2.mem, h1.mem] }

/-- The device fails its running step with a condition (R74). -/
theorem failHere_ends {s : State} (code : Nat) (hrun : s.step.running = true) (hserv : s.sec.serving = false)
    (hckpt : s.mbox.ckpt = none) : EndedWith s (s.step.conds ||| BitVec.ofNat 16 (2 ^ code)) (failHere s code) := by
  rw [failHere, if_pos hrun]
  have h := endStepFailed_ends (s := { s with step := { s.step with origin := true } }) (mask := BitVec.ofNat 16 (2 ^ code)) hserv hckpt
  exact .notices ⟨h.running, h.lastEnded, h.lastMask, h.overlay, h.mem⟩ (noticesOnly_sendEnd _ _ _)

/-- The same from a state that has the running step, memory, mailbox and plot of `s`. -/
theorem failHere_ends_of_kept {s s1 : State} (code : Nat) (h1 : KeepsRun s s1) (hrun : s.step.running = true)
    (hserv : s.sec.serving = false) (hckpt : s.mbox.ckpt = none) :
    EndedWith s (s.step.conds ||| BitVec.ofNat 16 (2 ^ code)) (failHere s1 code) := by
  have h := failHere_ends (s := s1) code (by rw [h1.step, hrun]) (by rw [h1.sec, hserv]) (by rw [h1.mbox, hckpt])
  rw [h1.step] at h
  exact ⟨h.running, h.lastEnded.trans (congrArg StepSt.number h1.step), h.lastMask, h.overlay, h.mem.trans h1.mem⟩

/-! ### The void of a step, and its re-execution -/

/-- The running step of `s` is voided: what it did is gone, and memory is as it was (R71 steps 1 to 3). -/
structure VoidedFrom (s t : State) : Prop where
  step : t.step = { s.step with voided := true, localEnded := false }
  overlay : t.overlay = []
  matrix : t.matrix = []
  vector : t.vector = []
  xfer : t.xfer = []
  chans : t.chans = []
  mem : t.mem = s.mem

theorem VoidedFrom.notices {s t u : State} (h : VoidedFrom s t) (g : NoticesOnly t u) : VoidedFrom s u := by
  obtain ⟨_, _, _, _, _, _, _, _, _, rfl⟩ := g
  exact ⟨h.step, h.overlay, h.matrix, h.vector, h.xfer, h.chans, h.mem⟩

theorem voidStep_voids (s : State) : VoidedFrom s (voidStep s) := by
  unfold voidStep
  extract_lets s1 s2
  obtain ⟨subs, chans, h⟩ := (spansOnly_eachOut spansOnly_voidOut s (outSpans s)).trans
    ((subsOnly_creditAll s1 (inSpans s1)).trans (subsOnly_unpaid _ (inSpans s1))).spansOnly
  have h2 : s2 = resetUnits { s with subs, chans } := congrArg resetUnits h
  clear_value s2
  subst h2
  refine .notices ?_ (noticesOnly_endHalts _)
  exact ⟨rfl, rfl, rfl, rfl, rfl, rfl, rfl⟩

/-- The first void of a step voids it (R71). -/
theorem execStepVoid_first {s : State} (addr : DevAddr) (hrun : s.step.running = true) (hvoid : s.step.voided = false)
    (hend : s.step.localEnded = false) (hown : s.step.ownVoids = 0) :
    answers (execStepVoid addr s) fun t =>
      ∃ s1 reload, KeepsRun s s1 ∧
        VoidedFrom { s1 with step := { s1.step with ownVoids := s1.step.ownVoids + 1, kept := s1.step.kept ||| 4, reload } } t := by
  have hgo : (s.step.running && !s.step.voided && !s.step.localEnded) = true := by simp [hrun, hvoid, hend]
  have hfirst : decide (1 ≤ s.step.ownVoids) = false := by simp [hown]
  unfold execStepVoid
  dsimp only
  rw [if_pos hgo, hfirst]
  exact .next ⟨_, _, keepsRun_logEv s _, voidStep_voids _⟩

/-- A second void fails the step with PARITY (R71). -/
theorem execStepVoid_second {s : State} (addr : DevAddr) (hrun : s.step.running = true) (hvoid : s.step.voided = false)
    (hend : s.step.localEnded = false) (hown : 1 ≤ s.step.ownVoids) (hserv : s.sec.serving = false) (hckpt : s.mbox.ckpt = none) :
    answers (execStepVoid addr s) (EndedWith s (s.step.conds ||| 8)) := by
  have hgo : (s.step.running && !s.step.voided && !s.step.localEnded) = true := by simp [hrun, hvoid, hend]
  have hsecond : decide (1 ≤ s.step.ownVoids) = true := by simp [hown]
  unfold execStepVoid
  dsimp only
  rw [if_pos hgo, hsecond]
  exact .next (failHere_ends_of_kept 3 (keepsRun_logEv s _) hrun hserv hckpt)

/-- A voided step with no WEIGHT block to reload runs again at once (R71 step 5). -/
theorem execStepReexecute_again {s : State} (hrun : s.step.running = true) (hvoid : s.step.voided = true) (hreload : s.step.reload = none) :
    execStepReexecute s = .next (refill { resetUnits s with step := { s.step with
      voided := false, conds := 0, attempts := s.step.attempts + 1, skips := 0, firstSkip := 0, defective := false
      saturated := false, localEnded := false, strokes := 0, consumed := [], dispatchDrops := 0, dispatchUnit := none, notes := [] } }
      s.step.retained) := by
  unfold execStepReexecute
  rw [if_pos (by simp [hrun, hvoid]), hreload]
  dsimp only
  rw [← hreload]
  rfl

/-! ### Other ends of a step, and its boundary -/

/-- The step that runs when the watchdog expires fails with condition 6 (R76). -/
theorem execWatchdogExpiry_ends {s : State} (hrun : s.step.running = true) (hdry : dryHold s = false) (hhalt : anyHalted s = false)
    (hserv : s.sec.serving = false) (hckpt : s.mbox.ckpt = none) :
    answers (execWatchdogExpiry s) (EndedWith s (s.step.conds ||| 64)) := by
  unfold execWatchdogExpiry
  rw [if_pos (by simp [hrun, hdry, hhalt])]
  extract_lets w s1
  have h1 : KeepsRun s s1 := keepsRun_logWaiting s _
  refine .next ?_
  have h := failHere_ends (s := { s1 with step := { s1.step with
    waiting := BitVec.ofNat 32 w.length, firstWait := match w with | (k, u) :: _ => waitLocator k u | [] => 0 } }) 6
    (by rw [h1.step, hrun]) (by rw [h1.sec, hserv]) (by rw [h1.mbox, hckpt])
  have hnum : s1.step.number = s.step.number := congrArg StepSt.number h1.step
  have hmask : s1.step.conds ||| 64 = s.step.conds ||| 64 := congrArg (·.conds ||| 64) h1.step
  exact ⟨h.running, h.lastEnded.trans hnum, h.lastMask.trans hmask, h.overlay, h.mem.trans h1.mem⟩

/-- A unit's uncorrectable read fails the running step with condition 8 (R75, R330). -/
theorem execMemoryUncorrectable_unit_ends {s : State} (addr : DevAddr) (index : BitVec 32) (hin : inMemory s addr.toNat = true)
    (hrun : s.step.running = true) (hvoid : s.step.voided = false) (hserv : s.sec.serving = false) (hckpt : s.mbox.ckpt = none) :
    answers (execMemoryUncorrectable addr 3 index s) (EndedWith s (s.step.conds ||| 256)) := by
  have h : execMemoryUncorrectable addr 3 index s = .next (failUncorrectable (noteUncorrectable s addr.toNat 3 index.toNat)) := by
    simp [execMemoryUncorrectable, hin, hrun, hvoid]
  rw [h]
  exact .next (failHere_ends_of_kept 8 (keepsRun_noteUncorrectable s _ _ _) hrun hserv hckpt)

/-- The marker step may launch once the weights are those of the new epoch (R221); with no manifest there are none to reload. -/
theorem execEpochReloadDone_ready {s : State} (hrel : s.launch.reloading = true) (hman : s.load.liveManifest = none) :
    execEpochReloadDone s = .next { s with launch := { s.launch with
      reloading := false
      ready := if s.launch.boundaryDone && launching s && hasRoom s then some s.time.now else none
      short := if s.launch.boundaryDone && launching s then !hasRoom s else s.launch.short } } := by
  have hload (l : LaunchSt) : reloadWeights { s with launch := l } = { s with launch := l } := by
    unfold reloadWeights
    rw [hman]
  have hlaunch : launching { s with launch := { s.launch with reloading := false, ready := none } } = launching s := rfl
  have hroom : hasRoom { s with launch := { s.launch with reloading := false, ready := none } } = hasRoom s := rfl
  unfold execEpochReloadDone
  simp only [hrel, if_true, hload, hlaunch, markReady, hroom]
  cases s.launch.boundaryDone && launching s
  · rfl
  · cases hasRoom s <;> rfl

theorem applyDisables_of_no_ddrs {s : State} (h : s.ddrs = []) (ms : List Nat) : applyDisables s ms = s := by
  have hd (m : Nat) : (getDdr s m).disableAt = none := by rw [getDdr, h]; rfl
  induction ms with
  | nil => rfl
  | cons m ms ih => rw [applyDisables, hd]; exact ih

theorem applyCame_of_none {s : State} (h : s.mbox.came = []) : applyCame s = s := by
  rw [applyCame, h, applyBlocks, ← h]

/-- A boundary serves nothing from rings that hold nothing. -/
theorem serveRings_of_no_rings {s : State} (h : s.mbox.rings = []) (view : Option HostView) : serveRings s view (budgets s) = s := by
  have hp (r : Nat) : (getRing s r).pend = [] := by rw [getRing, h]; rfl
  have hb : budgets s = (List.range 16).map fun r => (r, 0) := by simp [budgets, hp]
  rw [hb]
  induction List.range 16 with
  | nil => rfl
  | cons r rs ih => exact ih

/-- With nothing to disable, apply or serve, and no step to launch, a boundary puts the pending flip in force (R81, R159). -/
theorem execStepBoundary_flips {s : State} (host : HostView) (hin : inService s = true) (hrun : s.step.running = false)
    (hl : launching s = false) (hflip : s.sheets.flipPending = true) (hddrs : s.ddrs = []) (hrings : s.mbox.rings = [])
    (hcame : s.mbox.came = []) : execStepBoundary host s = .next (applyFlip s) := by
  have hl' : launching (applyFlip s) = false := by rw [applyFlip, if_pos hflip]; exact hl
  have hf : flipAtBoundary s = applyFlip s := by simp [flipAtBoundary, hflip, hl']
  simp [execStepBoundary, hin, hrun, hl, applyDisables_of_no_ddrs hddrs, applyCame_of_none hcame, serveRings_of_no_rings hrings, hf, hl']

end Sys2Proof.Machine
end

section
/-! PROOFS. A command read from a ring and served at once, and what LOAD_SHEET, FLIP_SHEET, ARM and COMMIT then do (R80, R81, R264-R269, R343). -/

namespace Sys2Proof.Machine

set_option Elab.async false

variable {s : State} {ring : BitVec 4}

/-! ### Rows of the mailbox -/

theorem atDoorbell_entryRead (c : MboxCmd) : atDoorbell (entryRead s ring) c = atDoorbell s c := rfl

/-- A command that is served at its doorbell is served in the state that has read its entry (R342, R343). -/
theorem rowCmd_served {c : MboxCmd} {view : Option HostView} (h : servedNow s ring c) :
    rowCmd ring c view s = .next (serveCmd (entryRead s ring) ring.toNat (seqDue s ring) c view) := by
  obtain ⟨hin, hwaits, hdoor⟩ := h
  have hd : atDoorbell (takeEntry (modRing s ring.toNat announce) ring.toNat) c = true := (atDoorbell_entryRead c).trans hdoor
  simp only [rowCmd, hin, hwaits, submit, hd, Bool.not_true, Bool.or_self, Bool.false_eq_true, if_false, if_true, entryRead, seqDue]

/-! ### Sheets -/

/-- LOAD_SHEET begins the load; a slot whose flip is pending keeps what it holds (R81). -/
theorem serveLoadSheet_begins {r : Nat} {seq length : BitVec 32} {host : BitVec 64} {digest : Digest} (hl : s.sheets.loading = none)
    (hscrub : s.sec.scrubState ≠ 1) :
    serveLoadSheet s r seq host length digest = { s with sheets := { s.sheets with
      loading := some { ring := r, seq, host, length, digest }, shadowValid := s.sheets.flipPending && s.sheets.shadowValid } } := by
  have hv : (if s.sheets.flipPending then s.sheets.shadowValid else false) = (s.sheets.flipPending && s.sheets.shadowValid) := by
    cases s.sheets.flipPending <;> rfl
  simp only [serveLoadSheet, hl, hscrub, hv, Option.isSome_none, Bool.false_eq_true, if_false]

/-- While no step can run, FLIP_SHEET puts a valid shadow in force at once (R81, R343). -/
theorem serveFlip_at_once {r : Nat} {seq : BitVec 32} (hv : s.sheets.shadowValid = true) (hstep : noStep s = true)
    (harmed : s.launch.state ≠ .armed) (hcommitted : s.launch.state ≠ .committed) :
    serveFlip s r seq = done { s with sheets := { s.sheets with
      live := s.sheets.shadow, shadow := s.sheets.live, liveSlot := s.sheets.liveSlot + 1, shadowValid := false, flipPending := false } }
      r seq .flipSheet errOk (bytesOf 8 (upcoming s)) := by
  have hrefused : (!s.sheets.shadowValid || s.launch.state == .armed || s.launch.state == .committed) = false := by
    simp [hv, harmed, hcommitted]
  have hno : noStep { s with sheets := { s.sheets with flipPending := true } } = true := hstep
  unfold serveFlip
  rw [hrefused]
  simp only [Bool.false_eq_true, if_false, hno, if_true, applyFlip]

/-- The state in which the image of a LOAD_SHEET is checked. -/
def unloading (s : State) : State := { s with sheets := { s.sheets with loading := none, shadowValid := false } }

/-- What the loader's verdict on its image makes of a LOAD_SHEET (R61, R80, R347). -/
def loadEnds (s : State) (l : SheetLoad) : (Nat × Nat) ⊕ Sheet → State
  | .inl (0, _) => done s l.ring l.seq (.loadSheet l.host l.length l.digest) errVersion []
  | .inl (cause, unit) =>
    done s l.ring l.seq (.loadSheet l.host l.length l.digest) errRefused ([BitVec.ofNat 8 cause, 0, 0, 0] ++ natLe 4 unit)
  | .inr sh =>
    done { s with
      sheets := { s.sheets with shadow := some sh, shadowValid := true }
      mem := clearSlots s.mem (1 - s.sheets.liveSlot.toNat) (List.range 64) }
      l.ring l.seq (.loadSheet l.host l.length l.digest) errOk []

/-- Once its image has come, a LOAD_SHEET ends by the loader's verdict (R80, R166). -/
theorem execLoadSheetComplete_checked {host : HostView} {l : SheetLoad} (hl : s.sheets.loading = some l)
    (hflip : s.sheets.flipPending = false) (hlink : s.mbox.link = 2) :
    execLoadSheetComplete host s =
      .next (loadEnds (unloading s) l (checkImage (unloading s) (hostView host l.host.toNat l.length.toNat) l.digest)) := by
  have hgo : ¬ (s.sheets.flipPending = true ∨ s.mbox.link ≠ 2) := by simp [hflip, hlink]
  unfold execLoadSheetComplete
  rw [hl]
  dsimp only
  rw [if_neg hgo]
  unfold unloading
  rcases checkImage _ _ _ with ⟨cause, unit⟩ | sh
  · cases cause <;> rfl
  · rfl

/-! ### ARM and COMMIT -/

/-- `t` has the step of `s`, and its launch logic but for digests, censuses and the ARM that awaits them. -/
structure KeepsArm (s t : State) : Prop where
  step : t.step = s.step
  launch : ∃ digests censusA censusB censusOk armWaiter,
    t.launch = { s.launch with digests, censusA, censusB, censusOk, armWaiter }

protected theorem KeepsArm.refl (s : State) : KeepsArm s s := ⟨rfl, _, _, _, _, _, rfl⟩

protected theorem KeepsArm.trans {s t u : State} (h : KeepsArm s t) (g : KeepsArm t u) : KeepsArm s u := by
  obtain ⟨hs, _, _, _, _, _, hl⟩ := h
  obtain ⟨gs, d, a, b, ok, w, gl⟩ := g
  exact ⟨gs.trans hs, d, a, b, ok, w, by rw [gl, hl]⟩

theorem subsOnly_sendLaunch (s : State) (k : Nat) (m : LaunchMsg) : SubsOnly s (sendLaunch s k m) := by
  unfold sendLaunch
  split
  · exact subsOnly_modSub _ _ _
  · exact .refl s

theorem subsOnly_sendAll (s : State) (m : LaunchMsg) (ks : List Nat) : SubsOnly s (sendAll s m ks) := by
  induction ks generalizing s with
  | nil => exact .refl s
  | cons k ks ih => exact (subsOnly_sendLaunch s k m).trans (ih _)

theorem SubsOnly.keepsArm {s t : State} (h : SubsOnly s t) : KeepsArm s t := by
  obtain ⟨_, rfl⟩ := h
  exact ⟨rfl, _, _, _, _, _, rfl⟩

theorem keepsArm_complete (s : State) (r : Nat) (seq : BitVec 32) (code err : Nat) (res : Bytes) :
    KeepsArm s (complete s r seq code err res) := ⟨rfl, _, _, _, _, _, rfl⟩

theorem keepsArm_sendDigest (s : State) (step : BitVec 64) : KeepsArm s (sendDigest s step) := by
  unfold sendDigest
  split
  · exact ⟨rfl, _, _, _, _, _, rfl⟩
  · extract_lets m s1
    have h1 : KeepsArm s s1 := by
      unfold s1
      split
      · exact (subsOnly_sendLaunch _ _ _).keepsArm
      · exact .refl s
    split
    · exact h1.trans (subsOnly_sendLaunch _ _ _).keepsArm
    · exact h1

theorem keepsArm_setCensus (s : State) (a : Nat) (c : CensusAcc) : KeepsArm s (setCensus s a c) := by
  unfold setCensus
  split <;> exact ⟨rfl, _, _, _, _, _, rfl⟩

theorem keepsArm_completeArm (s : State) : KeepsArm s (completeArm s) := by
  unfold completeArm
  extract_lets a b
  split
  · exact .refl s
  · split
    · refine .trans (?_ : KeepsArm s _) (keepsArm_complete _ _ _ _ _ _)
      exact ⟨rfl, _, _, _, _, _, rfl⟩
    · exact .refl s

theorem keepsArm_sendCensus (s : State) (a : Nat) : KeepsArm s (sendCensus s a) := by
  unfold sendCensus
  extract_lets c t s1
  have h1 : KeepsArm s s1 := keepsArm_setCensus s a t
  split
  · exact h1.trans (keepsArm_completeArm s1)
  · exact h1.trans (subsOnly_sendLaunch _ _ _).keepsArm

theorem keepsArm_tryCensus (s : State) (a : Nat) : KeepsArm s (tryCensus s a) := by
  unfold tryCensus
  split
  · exact keepsArm_sendCensus s a
  · exact .refl s

/-- `t` has taken an ARM of record `r`, and runs the step of `s` (R264-R266). -/
structure ArmedBy (s : State) (r : ArmRecord) (t : State) : Prop where
  step : t.step = s.step
  state : t.launch.state = .armed
  armRec : t.launch.armRec = r
  taken : t.launch.taken = false
  nextStep : t.launch.nextStep = r.firstStep
  paced : t.launch.paced = (r.mode == 1)
  refusedWith : t.launch.refusedWith = 0

theorem ArmedBy.of_keepsArm {s t u : State} {r : ArmRecord} (h : ArmedBy s r t) (g : KeepsArm t u) : ArmedBy s r u := by
  obtain ⟨gs, _, _, _, _, _, hl⟩ := g
  exact ⟨gs.trans h.step, by rw [hl, h.state], by rw [hl, h.armRec], by rw [hl, h.taken], by rw [hl, h.nextStep], by rw [hl, h.paced],
    by rw [hl, h.refusedWith]⟩

/-- An ARM to which no reason applies arms the device, whatever its censuses come to (R266, R267). -/
theorem serveArm_arms {rg : Nat} {seq : BitVec 32} {digest : Digest} {r : ArmRecord} (hopen : s.sec.isOpen = true)
    (hmode : r.mode = 0 ∨ (r.mode = 1 ∧ 1000 ≤ r.periodNs.toNat ∧ r.periodNs.toNat ≤ 4000000000)) (hwhy : armReasons s digest r = 0)
    (hwait : s.launch.armWaiter = none) : ArmedBy s r (serveArm s rg seq digest r) := by
  have hclosed : ¬ (!s.sec.isOpen) = true := by simp [hopen]
  have hfield : ¬ (r.mode.toNat > 1 ∨ (r.mode = 1 ∧ (r.periodNs.toNat < 1000 ∨ 4000000000 < r.periodNs.toNat))) := by
    rcases hmode with h | ⟨h, hlo, hhi⟩
    · simp [h]
    · have h1 : r.mode.toNat = 1 := congrArg BitVec.toNat h
      omega
  have hbusy : ¬ s.launch.armWaiter.isSome = true := by simp [hwait]
  unfold serveArm
  extract_lets fin why isRoot _ s1 _ s2 s3
  rw [if_neg hclosed, if_neg hfield, if_neg hbusy]
  have hwhy0 : why = 0 := hwhy
  have h2 : ArmedBy s r s2 := by
    unfold s2
    rw [if_pos hwhy0]
    refine .of_keepsArm ?_ (keepsArm_sendDigest _ _)
    refine ⟨rfl, rfl, rfl, rfl, rfl, rfl, ?_⟩
    exact congrArg (BitVec.ofNat 8) hwhy0
  have h3 : ArmedBy s r s3 := by
    unfold s3
    rw [if_pos hwhy0]
    split
    · exact h2
    · exact h2.of_keepsArm (keepsArm_complete _ _ _ _ _ _)
  exact h3.of_keepsArm (((keepsArm_tryCensus s3 0).trans (keepsArm_tryCensus _ 1)).trans (keepsArm_completeArm _))

/-- A COMMIT is accepted before its start without a step recorded as failed (R270). -/
theorem acceptCommit_in_time {sec : BitVec 64} {ns : BitVec 32} (h : nowNs s < sec.toNat * 1000000000 + ns.toNat) :
    acceptCommit s sec ns = { s with launch := { s.launch with
      state := .committed, startS := BitVec.ofNat 48 sec.toNat, startNs := ns, ready := none, short := false, boundaryDone := false
      nextStep := s.launch.armRec.firstStep, prevTick := none, taken := true } } := by
  unfold acceptCommit
  exact if_pos h

/-- `t` has taken the COMMIT of the launch that `s` is armed for, and runs the step of `s` (R269, R270). -/
structure CommittedBy (s : State) (sec : BitVec 64) (ns : BitVec 32) (t : State) : Prop where
  state : t.launch.state = .committed
  startS : t.launch.startS = sec.setWidth 48
  startNs : t.launch.startNs = ns
  nextStep : t.launch.nextStep = s.launch.armRec.firstStep
  step : t.step = s.step

/-- A COMMIT in time of a start still to come commits the launch (R269, R270). -/
theorem serveCommit_commits {r : Nat} {seq : BitVec 32} {sec : BitVec 64} {ns : BitVec 32} (hopen : s.sec.isOpen = true)
    (hpos : s.sec.position = 0) (hok : s.launch.censusOk = true) (hst : s.launch.state = .armed) (hsec : sec.toNat < 2 ^ 48)
    (hns : ns.toNat < 1000000000)
    (hlead : nowUnits s + nsUnits (cfg s offLead 31 0 * 1000) ≤ nsUnits (sec.toNat * 1000000000 + ns.toNat))
    (hfar : nsUnits (sec.toNat * 1000000000 + ns.toNat) ≤ nowUnits s + nsUnits 10000000000)
    (hnow : nowNs s < sec.toNat * 1000000000 + ns.toNat) : CommittedBy s sec ns (serveCommit s r seq sec ns) := by
  have hclosed : ¬ (!s.sec.isOpen) = true := by simp [hopen]
  have hroot : ¬ s.sec.position ≠ 0 := by simp [hpos]
  have harmed : ¬ (s.launch.censusOk = false ∨ s.launch.state ≠ .armed) := by simp [hok, hst]
  have htime : ¬ (sec.toNat ≥ 2 ^ 48 ∨ ns.toNat ≥ 1000000000
      ∨ nsUnits (sec.toNat * 1000000000 + ns.toNat) < nowUnits s + nsUnits (cfg s offLead 31 0 * 1000)
      ∨ nowUnits s + nsUnits 10000000000 < nsUnits (sec.toNat * 1000000000 + ns.toNat)) := by omega
  unfold serveCommit
  extract_lets fin t m s1 tag _ s2
  rw [if_neg hclosed, if_neg hroot, if_neg harmed, if_neg htime]
  obtain ⟨subs, h1⟩ : SubsOnly s s1 := (subsOnly_sendAll s _ _).trans (subsOnly_sendAll _ _ _)
  clear_value s1
  subst h1
  rw [acceptCommit_in_time (s := done s2 r seq (.commit sec ns) errOk) hnow]
  exact ⟨rfl, BitVec.ofNat_toNat 48 sec, rfl, rfl, rfl⟩

end Sys2Proof.Machine
end

section
/-! PROOFS. How a step is launched: what leads up to it, what enters with it, and the state of its units (R67, R276-R280, R305, R427). -/

namespace Sys2Proof.Machine

set_option Elab.async false

/-! ### Blotted sub-ports -/

/-- The table lists a sub-port that is DOWN after a blot under key `k` (R314). -/
def BlottedIn (subs : Tbl SubSt) (k : Nat) : Prop := ∃ b, (k, b) ∈ subs ∧ b.state = .down ∧ b.blotted = true

/-- No sub-port is DOWN after a blot in `t` that was not in `s`. -/
def KeepsBlots (s t : State) : Prop := ∀ k, BlottedIn t.subs k → BlottedIn s.subs k

protected theorem KeepsBlots.refl (s : State) : KeepsBlots s s := fun _ h => h

protected theorem KeepsBlots.trans {s t u : State} (h : KeepsBlots s t) (g : KeepsBlots t u) : KeepsBlots s u := fun k hk => h k (g k hk)

protected theorem KeepsBlots.ite {c : Prop} [Decidable c] {s t u : State} (ht : KeepsBlots s t) (hu : KeepsBlots s u) :
    KeepsBlots s (if c then t else u) := by
  split
  · exact ht
  · exact hu

theorem mem_tdel {α : Type} {t : Tbl α} {i : Nat} {e : Nat × α} (h : e ∈ tdel t i) : e ∈ t := by
  induction t with
  | nil => exact h
  | cons x t ih =>
    simp only [tdel] at h
    split at h
    · exact .tail _ h
    · split at h
      · exact h
      · rcases List.mem_cons.mp h with rfl | h
        · exact .head _
        · exact .tail _ (ih h)

theorem mem_tput {α : Type} {t : Tbl α} {i : Nat} {v : α} {e : Nat × α} (h : e ∈ tput t i v) : e = (i, v) ∨ e ∈ t := by
  induction t with
  | nil => exact .inl (List.mem_singleton.mp h)
  | cons x t ih =>
    simp only [tput] at h
    split at h
    · exact (List.mem_cons.mp h).imp_right (.tail _)
    · split at h
      · exact List.mem_cons.mp h
      · rcases List.mem_cons.mp h with rfl | h
        · exact .inr (.head _)
        · exact (ih h).imp_right (.tail _)

theorem mem_tset {α : Type} [DecidableEq α] {d : α} {t : Tbl α} {i : Nat} {v : α} {e : Nat × α} (h : e ∈ tset d t i v) :
    e = (i, v) ∨ e ∈ t := by
  unfold tset at h
  split at h
  · exact .inr (mem_tdel h)
  · exact mem_tput h

/-- A value that is not the default is listed. -/
theorem mem_of_tget_ne {α : Type} {d : α} {t : Tbl α} {i : Nat} (h : tget d t i ≠ d) : (i, tget d t i) ∈ t := by
  induction t with
  | nil => exact absurd rfl h
  | cons x t ih =>
    simp only [tget] at h ⊢
    split
    · next hk => exact hk ▸ .head _
    · next hk =>
      rw [if_neg hk] at h
      split
      · next hi => exact absurd (if_pos hi) h
      · next hi =>
        rw [if_neg hi] at h
        exact .tail _ (ih h)

/-- A change of a sub-port that leaves STATE and the blot adds no blotted one. -/
theorem keepsBlots_modSub (s : State) (k : Nat) {f : SubSt → SubSt} (hf : ∀ b, (f b).state = b.state ∧ (f b).blotted = b.blotted) :
    KeepsBlots s (modSub s k f) := by
  rintro i ⟨b, hb, hdown, hblot⟩
  rcases mem_tset hb with h | h
  · obtain ⟨rfl, rfl⟩ := Prod.mk.inj h
    obtain ⟨hst, hbl⟩ := hf (getSub s i)
    rw [hst] at hdown
    rw [hbl] at hblot
    have hne : tget ({} : SubSt) s.subs i ≠ {} := fun e => by
      have hoff : (getSub s i).state = .off := congrArg SubSt.state e
      exact absurd (hoff.symm.trans hdown) (by decide)
    exact ⟨_, mem_of_tget_ne hne, hdown, hblot⟩
  · exact ⟨b, h, hdown, hblot⟩

theorem blottedPort_of_keepsBlots {s t : State} (hsheets : t.sheets = s.sheets) (h : KeepsBlots s t) (hs : blottedPort s = false) :
    blottedPort t = false := by
  rw [← Bool.not_eq_true] at hs ⊢
  refine fun ht => hs ?_
  unfold blottedPort at ht ⊢
  rw [hsheets] at ht
  simp only [List.any_eq_true, Bool.and_eq_true, beq_iff_eq] at ht ⊢
  obtain ⟨e, he, ⟨hport, hdown⟩, hblot⟩ := ht
  obtain ⟨b, hb, hdown', hblot'⟩ := h e.1 ⟨e.2, he, hdown, hblot⟩
  exact ⟨(e.1, b), hb, ⟨hport, hdown'⟩, hblot'⟩

/-! ### Notices queue at sub-ports, and leave their state -/

theorem keepsBlots_sendLaunch (s : State) (k : Nat) (m : LaunchMsg) : KeepsBlots s (sendLaunch s k m) :=
  .ite (keepsBlots_modSub s k fun _ => ⟨rfl, rfl⟩) (.refl s)

theorem keepsBlots_sendAll (s : State) (m : LaunchMsg) (ks : List Nat) : KeepsBlots s (sendAll s m ks) := by
  induction ks generalizing s with
  | nil => exact .refl s
  | cons k ks ih => exact (keepsBlots_sendLaunch s k m).trans (ih _)

theorem keepsBlots_flood (s : State) (m : LaunchMsg) (o : Option Nat) : KeepsBlots s (flood s m o) :=
  (keepsBlots_sendAll s _ _).trans (keepsBlots_sendAll _ _ _)

theorem keepsBlots_beginHold (s : State) (p u : Nat) (d : BitVec 32) : KeepsBlots s (beginHold s p u d) := by
  unfold beginHold originate
  refine .trans ?_ (keepsBlots_flood _ _ _)
  exact .refl s

theorem keepsBlots_telemetryRoute (s : State) (p : BitVec 2048) : KeepsBlots s (telemetryRoute s p).1 := by
  unfold telemetryRoute
  split
  · exact keepsBlots_modSub s _ fun _ => ⟨rfl, rfl⟩
  · exact .refl s

theorem keepsBlots_sinkWrite (s : State) (p : BitVec 2048) : KeepsBlots s (sinkWrite s p) :=
  .ite (.refl s) (.ite (.refl s) (.refl s))

theorem keepsBlots_telemetrySend (s : State) : KeepsBlots s (telemetrySend s) :=
  .ite (.refl s) (.ite (keepsBlots_sinkWrite _ _) (.ite (keepsBlots_telemetryRoute _ _) (keepsBlots_telemetryRoute _ _)))

theorem keepsBlots_inbandTake (s : State) (e : BlotEntry) : KeepsBlots s (inbandTake s e) := by
  unfold inbandTake
  refine .ite (.refl s) ?_
  extract_lets s0 debt _ charged s1
  have h0 : KeepsBlots s s0 := .ite (keepsBlots_telemetrySend s) (.refl s)
  exact .ite h0 (.ite (h0.trans (keepsBlots_telemetrySend s1)) h0)

theorem keepsBlots_blotWrite (s : State) (e : BlotEntry) : KeepsBlots s (blotWrite s e) := by
  unfold blotWrite
  extract_lets r _ s1
  exact (keepsBlots_inbandTake s1 r.2).trans (.ite (.refl _) (.ite (.refl _) (.refl _)))

theorem keepsBlots_logRaw (s : State) (e : Ev) : KeepsBlots s (logRaw s e) := by
  unfold logRaw
  extract_lets ent ck _ s1 bump _ s2
  have h2 : KeepsBlots s s2 := .ite (.refl s) (.refl s)
  exact .ite (.ite (.refl s) (h2.trans (keepsBlots_blotWrite s2 ent))) (keepsBlots_blotWrite s1 ent)

theorem keepsBlots_haltUnits (s : State) (ks : List Nat) : KeepsBlots s (haltUnits s ks) := by
  induction ks generalizing s with
  | nil => exact .refl s
  | cons k ks ih => exact ih (modUnit s k _)

theorem keepsBlots_bpHits (s : State) (is : List Nat) : KeepsBlots s (bpHits s is) := by
  induction is generalizing s with
  | nil => exact .refl s
  | cons i is ih => exact ih { s with dbg := _ }

theorem keepsBlots_haltWith (s : State) (us : List Nat) (loc : BitVec 64) (bp : Nat) : KeepsBlots s (haltWith s us loc bp) := by
  unfold haltWith
  extract_lets first s1 met s2
  have h1 : KeepsBlots s s1 := (keepsBlots_haltUnits s us).trans (keepsBlots_logRaw _ _)
  have h2 : KeepsBlots s s2 := .ite h1 (h1.trans ((keepsBlots_bpHits _ _).trans (keepsBlots_haltUnits _ _)))
  refine .ite (.trans ?_ (keepsBlots_beginHold _ _ _ _)) h2
  exact h2

theorem keepsBlots_logEv (s : State) (e : Ev) : KeepsBlots s (logEv s e) := by
  unfold logEv blotBreak
  dsimp only
  refine (keepsBlots_logRaw s e).trans ?_
  split
  · exact .refl _
  · exact (keepsBlots_bpHits _ _).trans (keepsBlots_haltWith _ _ _ _)

/-! ### What leads up to a launch -/

/-- `t` has the time, the memory, the sheets, and the state and next step of the launch logic of `s`, and no more blotted sub-ports. -/
structure KeepsLaunch (s t : State) : Prop where
  time : t.time = s.time
  mem : t.mem = s.mem
  sheets : t.sheets = s.sheets
  state : t.launch.state = s.launch.state
  nextStep : t.launch.nextStep = s.launch.nextStep
  blots : KeepsBlots s t

protected theorem KeepsLaunch.refl (s : State) : KeepsLaunch s s := ⟨rfl, rfl, rfl, rfl, rfl, .refl s⟩

protected theorem KeepsLaunch.trans {s t u : State} (h : KeepsLaunch s t) (g : KeepsLaunch t u) : KeepsLaunch s u :=
  ⟨g.time.trans h.time, g.mem.trans h.mem, g.sheets.trans h.sheets, g.state.trans h.state, g.nextStep.trans h.nextStep,
    h.blots.trans g.blots⟩

theorem keepsLaunch_of_loggedOnly {s t : State} (h : LoggedOnly s t) (hb : KeepsBlots s t) : KeepsLaunch s t := by
  obtain ⟨⟨_, _, _, _, _, _, _, _, _, rfl⟩, -, -⟩ := h
  exact ⟨rfl, rfl, rfl, rfl, rfl, hb⟩

theorem keepsLaunch_logEv (s : State) (e : Ev) : KeepsLaunch s (logEv s e) := keepsLaunch_of_loggedOnly (loggedOnly_logEv s e) (keepsBlots_logEv s e)

theorem keepsLaunch_lateRecord (s : State) (n : BitVec 64) (slack : Int) (ready : Nat) : KeepsLaunch s (lateRecord s n slack ready).1 := by
  unfold lateRecord
  dsimp only
  split <;> exact ⟨rfl, rfl, rfl, rfl, rfl, .refl s⟩

theorem keepsLaunch_countLate (s : State) (slack : Int) : KeepsLaunch s (countLate s slack) := by
  unfold countLate
  split <;> exact ⟨rfl, rfl, rfl, rfl, rfl, .refl s⟩

theorem keepsLaunch_lateRunAfter (s : State) (slack : Int) (upstream : Bool) : KeepsLaunch s (lateRunAfter s slack upstream) := by
  have hp : ∀ p : PaceSt, KeepsLaunch s { s with pace := p } := fun _ => ⟨rfl, rfl, rfl, rfl, rfl, .refl s⟩
  unfold lateRunAfter
  split
  · dsimp only
    split
    · exact (hp _).trans (keepsLaunch_logEv _ _)
    · exact hp _
  · exact hp _

theorem keepsLaunch_paceMove (s : State) (v : Nat) (forced : Bool) : KeepsLaunch s (paceMove s v forced) := by
  unfold paceMove
  dsimp only
  split <;> exact ⟨rfl, rfl, rfl, rfl, rfl, .refl s⟩

theorem keepsLaunch_paceAfterLaunch (s : State) (slack : Int) (upstream : Bool) : KeepsLaunch s (paceAfterLaunch s slack upstream) := by
  unfold paceAfterLaunch
  dsimp only
  split
  · exact .refl s
  · split
    · exact keepsLaunch_paceMove _ _ _
    · split
      · exact keepsLaunch_paceMove _ _ _
      · split
        · exact keepsLaunch_paceMove _ _ _
        · exact .refl s

theorem keepsLaunch_logLateDigests (s : State) (n : BitVec 64) (ps : List Nat) : KeepsLaunch s (logLateDigests s n ps) := by
  induction ps generalizing s with
  | nil => exact .refl s
  | cons p ps ih =>
    refine .trans ?_ (ih _)
    split
    · exact .refl s
    · exact keepsLaunch_logEv _ _

/-! ### What enters with the step -/

/-- `t` is `s` but for sub-ports, channels and what the step keeps of its spans, with no more blotted sub-ports. -/
structure EntersOnly (s t : State) : Prop where
  form : ∃ subs chans retained carried restored, t = { s with subs, chans, step := { s.step with retained, carried, restored } }
  blots : KeepsBlots s t

protected theorem EntersOnly.refl (s : State) : EntersOnly s s := ⟨⟨_, _, _, _, _, rfl⟩, .refl s⟩

protected theorem EntersOnly.trans {s t u : State} (h : EntersOnly s t) (g : EntersOnly t u) : EntersOnly s u := by
  refine ⟨?_, h.blots.trans g.blots⟩
  obtain ⟨⟨_, _, _, _, _, rfl⟩, -⟩ := h
  obtain ⟨⟨subs, chans, retained, carried, restored, rfl⟩, -⟩ := g
  exact ⟨subs, chans, retained, carried, restored, rfl⟩

theorem entersOnly_modSub (s : State) (k : Nat) {f : SubSt → SubSt} (hf : ∀ b, (f b).state = b.state ∧ (f b).blotted = b.blotted) :
    EntersOnly s (modSub s k f) :=
  ⟨⟨_, _, _, _, _, rfl⟩, keepsBlots_modSub s k hf⟩

theorem entersOnly_freeBuffer (s : State) (k cls : Nat) : EntersOnly s (freeBuffer s k cls) := entersOnly_modSub s k fun _ => ⟨rfl, rfl⟩

theorem entersOnly_enterDrops (s : State) (ch k sc : Nat) (ds : List Drop) : EntersOnly s (enterDrops s ch k sc ds) := by
  unfold enterDrops
  extract_lets key _ s1 s2
  have h2 : EntersOnly s s2 := by
    unfold s2
    split
    · exact ⟨⟨_, _, _, _, _, rfl⟩, .refl s⟩
    · exact ⟨⟨_, _, _, _, _, rfl⟩, .refl s⟩
  refine h2.trans (.trans ?_ (entersOnly_freeBuffer _ _ _))
  exact entersOnly_modSub s2 k fun _ => ⟨rfl, rfl⟩

theorem entersOnly_creditBack (s : State) (k sc n : Nat) : EntersOnly s (creditBack s k sc n) := by
  unfold creditBack
  split
  · exact .refl s
  · exact entersOnly_modSub s k fun _ => ⟨rfl, rfl⟩

theorem entersOnly_discardDrops (s : State) (k sc : Nat) : EntersOnly s (discardDrops s k sc) :=
  (entersOnly_creditBack s k sc 4).trans (entersOnly_freeBuffer _ _ _)

theorem entersOnly_enterWaiting (s : State) (k : Nat) (w : List (Nat × BitVec 64 × List Drop)) : EntersOnly s (enterWaiting s k w) := by
  induction w generalizing s with
  | nil => exact .refl s
  | cons e w ih =>
    unfold enterWaiting
    split
    · refine .trans ?_ (ih _)
      split
      · exact entersOnly_enterDrops _ _ _ _ _
      · exact entersOnly_discardDrops _ _ _
    · split
      · exact (entersOnly_discardDrops _ _ _).trans (ih _)
      · refine .trans ?_ (ih _)
        exact entersOnly_modSub s k fun _ => ⟨rfl, rfl⟩

theorem entersOnly_enterPools (s : State) (ks : List Nat) : EntersOnly s (enterPools s ks) := by
  induction ks generalizing s with
  | nil => exact .refl s
  | cons k ks ih =>
    unfold enterPools
    refine .trans (.trans ?_ (entersOnly_enterWaiting _ _ _)) (ih _)
    exact entersOnly_modSub s k fun _ => ⟨rfl, rfl⟩

theorem entersOnly_enterRestored (s : State) (w : List (Nat × Nat × BitVec 64 × List Drop)) : EntersOnly s (enterRestored s w) := by
  induction w generalizing s with
  | nil => exact .refl s
  | cons e w ih =>
    unfold enterRestored
    split
    · refine .trans ?_ (ih _)
      split
      · refine .trans (?_ : EntersOnly s _) (entersOnly_modSub _ _ fun _ => ⟨rfl, rfl⟩)
        exact ⟨⟨_, _, _, _, _, rfl⟩, .refl s⟩
      · exact .refl s
    · split
      · exact ih _
      · refine .trans ?_ (ih _)
        exact ⟨⟨_, _, _, _, _, rfl⟩, .refl s⟩

/-! ### Stroke 0 -/

/-- A unit after a reset of units: at stroke 0, with an empty queue (R67). -/
theorem getUnit_resetUnits (s : State) (k : Nat) :
    (getUnit (resetUnits s) k).strokes = 0 ∧ (getUnit (resetUnits s) k).issued = 0 ∧ (getUnit (resetUnits s) k).queue = [] := by
  by_cases h : tget ({} : UnitSt) (resetUnits s).units k = {}
  · rw [getUnit, h]
    exact ⟨rfl, rfl, rfl⟩
  · obtain ⟨e, -, he⟩ := List.mem_filterMap.mp (mem_of_tget_ne h)
    split at he
    · cases he
    · have hu : freshUnit e.2 = getUnit (resetUnits s) k := congrArg Prod.snd (Option.some.inj he)
      rw [← hu]
      exact ⟨rfl, rfl, rfl⟩

/-- The step that runs from `n`'s stroke 0 at time `now`, as attempt 1 with no condition. -/
structure AtStrokeZero (n : BitVec 64) (now : TimeVal) (t : State) : Prop where
  running : t.step.running = true
  number : t.step.number = n
  attempts : t.step.attempts = 1
  conds : t.step.conds = 0
  launchTime : t.step.launchTime = now
  units : ∀ k, (getUnit t k).strokes = 0 ∧ (getUnit t k).issued = 0 ∧ (getUnit t k).queue = []
  matrix : t.matrix = []
  vector : t.vector = []
  xfer : t.xfer = []

theorem beginStep_at_zero (s : State) (n : BitVec 64) :
    AtStrokeZero n s.time.now (beginStep (resetUnits s) n) ∧ KeepsLaunch s (beginStep (resetUnits s) n) := by
  unfold beginStep
  extract_lets t s1
  obtain ⟨⟨_, _, _, _, _, h⟩, hb⟩ := (entersOnly_enterRestored s1 t.restored).trans (entersOnly_enterPools _ (subKeys (resetUnits s)))
  refine ⟨?_, ?_⟩
  · rw [h]
    exact ⟨rfl, rfl, rfl, rfl, rfl, getUnit_resetUnits s, rfl, rfl, rfl⟩
  · refine ⟨?_, ?_, ?_, ?_, ?_, hb⟩
    all_goals rw [h]; rfl

theorem loggedOnly_launchBps (s : State) : LoggedOnly s (launchBps s) := by
  unfold launchBps
  dsimp only
  split
  · exact .rfl s
  · exact (loggedOnly_bpHits _ _).trans (loggedOnly_haltWith _ _ _ _)

theorem keepsBlots_launchBps (s : State) : KeepsBlots s (launchBps s) := by
  unfold launchBps
  dsimp only
  split
  · exact .refl s
  · exact (keepsBlots_bpHits _ _).trans (keepsBlots_haltWith _ _ _ _)

theorem AtStrokeZero.of_loggedOnly {s t : State} {n : BitVec 64} {now : TimeVal} (h : AtStrokeZero n now s) (g : LoggedOnly s t) :
    AtStrokeZero n now t := by
  obtain ⟨⟨_, _, _, _, _, _, _, _, _, ht⟩, -, hunits⟩ := g
  refine ⟨?_, ?_, ?_, ?_, ?_, fun k => ?_, ?_, ?_, ?_⟩
  case refine_6 =>
    obtain ⟨_, hk⟩ := hunits k
    rw [hk]
    exact h.units k
  all_goals rw [ht]
  exacts [h.running, h.number, h.attempts, h.conds, h.launchTime, h.matrix, h.vector, h.xfer]

/-- A launch with no blotted sub-port among the sheet's begins its step at stroke 0 (R67 events 1 to 3). -/
theorem launchStep_at_zero {s : State} {n : BitVec 64} {ready : TimeVal} (hb : blottedPort s = false) :
    AtStrokeZero n s.time.now (launchStep s n ready) ∧ (launchStep s n ready).launch.nextStep = n + 1 ∧
      (launchStep s n ready).launch.state = .running ∧ (launchStep s n ready).mem = s.mem := by
  unfold launchStep
  extract_lets slack upstream l s1 _ _ s2 s3a s3b s3 s4
  have h1 : KeepsLaunch s s1 := (keepsLaunch_lateRecord s n slack _).trans (keepsLaunch_countLate _ _)
  have hpace : KeepsLaunch s2 s3b := by
    refine (keepsLaunch_lateRunAfter s2 slack upstream).trans ?_
    unfold s3b
    split
    · exact keepsLaunch_paceAfterLaunch s3a _ _
    · exact .refl s3a
  have h3 : KeepsLaunch s2 s3 := by
    refine hpace.trans ?_
    unfold s3
    split
    · exact keepsLaunch_logLateDigests s3b _ _
    · exact .refl s3b
  obtain ⟨hzero, hkeep⟩ := beginStep_at_zero s3 n
  have h4 : KeepsLaunch s2 s4 :=
    (h3.trans hkeep).trans (keepsLaunch_of_loggedOnly (loggedOnly_launchBps _) (keepsBlots_launchBps _))
  have hbegun : AtStrokeZero n s.time.now s4 := by
    have htime : s3.time.now = s.time.now := congrArg TimeSt.now (h3.time.trans h1.time)
    exact htime ▸ hzero.of_loggedOnly (loggedOnly_launchBps _)
  have hblots : KeepsBlots s s4 := h1.blots.trans h4.blots
  rw [blottedPort_of_keepsBlots (h4.sheets.trans h1.sheets) hblots hb, if_neg Bool.false_ne_true]
  exact ⟨hbegun, h4.nextStep, h4.state, h4.mem.trans h1.mem⟩

/-- LAUNCH_TICK launches the next step of a device that is ready, at or after the step's tick (R276). -/
theorem execLaunchTick_launches {s : State} {r : TimeVal} (hopen : s.sec.isOpen = true) (hrun : s.step.running = false)
    (hlock : s.time.relock = false) (hhalt : anyHalted s = false) (hst : s.launch.state = .committed ∨ s.launch.state = .running)
    (hend : endFor s s.launch.nextStep = none) (hready : s.launch.ready = some r) (htick : tickReached s s.launch.nextStep = true)
    (hrel : s.launch.reloading = false) : execLaunchTick s = .next (launchStep s s.launch.nextStep r) := by
  have hst' : (s.launch.state == .committed || s.launch.state == .running) = true := by simpa using hst
  simp [execLaunchTick, hopen, hrun, hlock, hhalt, hst', hend, hready, htick, hrel]

end Sys2Proof.Machine
end

section
/-! PROOFS. What the grains of a plot's span channels do (R73, R195, R235, R303-R305). -/

namespace Sys2Proof.Machine

set_option Elab.async false

variable {s : State} {k sc ch : Nat}

/-! ### Sub-ports and channels after a write -/

theorem getSub_modSub_self {f : SubSt → SubSt} (h : keysRise 0 s.subs = true) : getSub (modSub s k f) k = f (getSub s k) :=
  tget_tset_self _ _ _ _ h

theorem keysRise_subs_modSub {f : SubSt → SubSt} (h : keysRise 0 s.subs = true) : keysRise 0 (modSub s k f).subs = true :=
  keysRise_tset _ _ _ _ h

theorem getSub_freeBuffer_self {cls : Nat} (h : keysRise 0 s.subs = true) :
    getSub (freeBuffer s k cls) k = { getSub s k with freed := (getSub s k).freed.modify cls fun x => (x + 1) % 65536 } :=
  getSub_modSub_self h

theorem getChan_setChan_self {ds : List Drop} (h : keysRise 0 s.chans = true) : getChan (setChan s ch ds) ch = ds :=
  tget_tset_self _ _ _ _ h

theorem getChan_setChan_ne {c : Nat} {ds : List Drop} (h : keysRise 0 s.chans = true) (hc : c ≠ ch) :
    getChan (setChan s ch ds) c = getChan s c :=
  tget_tset_ne _ _ _ _ _ h hc

/-! ### Rows of grains -/

theorem grainRow_of_carriesPlot {port : BitVec 6} {sub : BitVec 3} {f : Nat → State → State}
    (h : carriesPlot s (subKey port.toNat sub.toNat) = true) : grainRow port sub s f = .next (f (subKey port.toNat sub.toNat) s) := by
  rw [grainRow, if_pos h]

theorem onChannel_of_inSpanChan {ty : Nat} {f : State → State} (h : inSpanChan s k sc = some ch) : onChannel s k sc ty f = f s := by
  rw [onChannel, h, Option.isSome_some, if_pos rfl]

/-- The row of a grain of an inbound span channel of the live sheet. -/
theorem channelRow {port : BitVec 6} {sub : BitVec 3} {chan : BitVec 12} {ty : Nat} {f : Nat → State → State}
    (hplot : carriesPlot s (subKey port.toNat sub.toNat) = true) (hch : inSpanChan s (subKey port.toNat sub.toNat) chan.toNat = some ch) :
    grainRow port sub s (fun k s => onChannel s k chan.toNat ty (f k)) = .next (f (subKey port.toNat sub.toNat) s) :=
  (grainRow_of_carriesPlot hplot).trans (congrArg _ (onChannel_of_inSpanChan hch))

/-! ### Drops -/

/-- Drops `ds` have entered channel `ch` from sub-port `k` in the running step of `s` (R68, R303, R305). -/
structure Entered (s : State) (ch k : Nat) (ds : List Drop) (t : State) : Prop where
  chan : getChan t ch = getChan s ch ++ ds
  others : ∀ c, c ≠ ch → getChan t c = getChan s c
  retained : t.step.retained = tmod [] s.step.retained ch (· ++ ds)
  freed : (getSub t k).freed = (getSub s k).freed.modify 1 fun x => (x + 1) % 65536
  mem : t.mem = s.mem

theorem enterDrops_entered {ds : List Drop} (hs : IsTidy s) (hvoid : s.step.voided = false) :
    Entered s ch k ds (enterDrops s ch k sc ds) := by
  unfold enterDrops
  extract_lets key _ s1 s2
  have h2 : s2 = setChan s1 ch (getChan s1 ch ++ ds) := if_neg (by simp [hvoid])
  have hsubs : keysRise 0 s2.subs = true := by rw [h2]; exact hs.subs
  clear_value s2
  subst h2
  exact {
    chan := getChan_setChan_self hs.chans
    others := fun c hc => getChan_setChan_ne hs.chans hc
    retained := rfl
    freed := by rw [getSub_freeBuffer_self (keysRise_subs_modSub hsubs), getSub_modSub_self hsubs]; rfl
    mem := rfl }

/-- Drops of the running step enter their channel (R305). -/
theorem dataOn_running {ds : List Drop} (hch : inSpanChan s k sc = some ch) (hrun : s.step.running = true)
    (hr : senderStep s k sc + BitVec.ofNat 64 (lagOf s k sc) = s.step.number) : dataOn s k sc ds = enterDrops s ch k sc ds := by
  simp [dataOn, hch, hrun, hr]

/-- Drops of a step to come wait in the pool (R305). -/
theorem dataOn_waits {ds : List Drop} (hch : inSpanChan s k sc = some ch) (hrun : s.step.running = false)
    (hr : s.launch.nextStep.toNat ≤ (senderStep s k sc + BitVec.ofNat 64 (lagOf s k sc)).toNat) :
    dataOn s k sc ds = modSub s k fun b =>
      { b with waitPool := b.waitPool ++ [(sc, senderStep s k sc + BitVec.ofNat 64 (lagOf s k sc), ds)] } := by
  simp only [dataOn, hch, hrun, Bool.false_and, Bool.false_eq_true, if_false, decide_eq_true hr, if_true]

/-! ### Commits -/

theorem hasCommit_commitOn {t : BitVec 64} (hs : IsTidy s) : hasCommit (commitOn s k sc t) k sc t = true := by
  unfold commitOn hasCommit
  extract_lets late s1 _
  have h1 : getSub s1 k = _ := getSub_modSub_self hs.subs
  have hrise : keysRise 0 s1.subs = true := keysRise_subs_modSub hs.subs
  rw [getSub_freeBuffer_self (by exact hrise)]
  show (getSub s1 k).commits.contains (sc, t) = true
  rw [h1]
  simp

/-- While a step runs, no commit grain lets a boundary go on. -/
theorem finishBoundary_of_running (h : s.step.running = true) : finishBoundary s = s := by
  simp [finishBoundary, h]

theorem ckptFill_of_no_parts (h : s.mbox.ckptParts = none) : ckptFill s = s := by
  unfold ckptFill
  rw [h]
  split
  · next h' => cases h'
  · rfl

/-- What a commit grain brings is kept by a follower; a head keeps no record of it while there is no report (R195, R235). -/
theorem servingGrain_passes {t : BitVec 64} {rec : Option Descriptor} {report : Option PassReport} (h : isHead s = false ∨ report = none) :
    servingGrain s t rec report =
      if isHead s = false ∧ isFollower s = true ∧ (rec.isSome = true ∨ report.isSome = true) then pass s t rec report else s := by
  unfold servingGrain
  rcases hh : isHead s
  · simp
  · rcases h with h | h
    · exact absurd (hh.symm.trans h) (by decide)
    · simp [h]

/-- A COMMIT grain is kept for its step, and of the step only the lateness of the upstream can change (R67, R278). -/
theorem commitOn_keeps (s : State) (k sc : Nat) (t : BitVec 64) :
    ∃ subs upstreamLate, commitOn s k sc t = { s with subs, step := { s.step with upstreamLate } } := ⟨_, _, rfl⟩

theorem pass_keeps (s : State) (t : BitVec 64) (rec : Option Descriptor) (report : Option PassReport) :
    ∃ received, pass s t rec report = { s with serv := { s.serv with received } } := ⟨_, rfl⟩

theorem hasCommit_pass (s : State) {t n : BitVec 64} {rec : Option Descriptor} {report : Option PassReport} :
    hasCommit (pass s t rec report) k sc n = hasCommit s k sc n := rfl

theorem pass_serv_of_serv {u : State} {t : BitVec 64} {rec : Option Descriptor} {report : Option PassReport} (h : u.serv = s.serv) :
    (pass u t rec report).serv = (pass s t rec report).serv := by
  simp only [pass, passedAt, h]

/-- While a step runs, a commit grain is kept with what it brings for serving, and nothing else. -/
theorem commitGrainOn_running {t : BitVec 64} {rec : Option Descriptor} {report : Option PassReport} (hs : IsTidy s)
    (hrun : s.step.running = true) (hrep : isHead s = false ∨ report = none) (hparts : s.mbox.ckptParts = none) :
    let u := commitGrainOn s k sc t rec report
    hasCommit u k sc t = true ∧ u.mem = s.mem ∧ u.chans = s.chans ∧
      u.serv = (if isHead s = false ∧ isFollower s = true ∧ (rec.isSome = true ∨ report.isSome = true)
        then (pass s t rec report).serv else s.serv) := by
  have hcommit : hasCommit (commitOn s k sc t) k sc t = true := hasCommit_commitOn hs
  have hgrain : servingGrain (commitOn s k sc t) t rec report =
      if isHead s = false ∧ isFollower s = true ∧ (rec.isSome = true ∨ report.isSome = true) then pass (commitOn s k sc t) t rec report
      else commitOn s k sc t := servingGrain_passes hrep
  have hidle : ∀ u : State, u.mbox = s.mbox → u.step.running = s.step.running → finishBoundary (ckptFill u) = u := by
    intro u hm hr
    rw [ckptFill_of_no_parts (by rw [hm, hparts]), finishBoundary_of_running (by rw [hr, hrun])]
  obtain ⟨subs, late, hc⟩ := commitOn_keeps s k sc t
  unfold commitGrainOn
  rw [hgrain]
  split
  · have hserv := pass_serv_of_serv (t := t) (rec := rec) (report := report) (show (commitOn s k sc t).serv = s.serv by rw [hc])
    rw [← hasCommit_pass (rec := rec) (report := report) (t := t)] at hcommit
    obtain ⟨_, hp⟩ := pass_keeps (commitOn s k sc t) t rec report
    rw [hidle _ (by rw [hp, hc]) (by rw [hp, hc])]
    exact ⟨hcommit, by rw [hp, hc], by rw [hp, hc], hserv⟩
  · rw [hidle _ (by rw [hc]) (by rw [hc])]
    exact ⟨hcommit, by rw [hc], by rw [hc], by rw [hc]⟩

/-! ### Voids and credits -/

theorem subsOnly_freeBuffer (s : State) (k cls : Nat) : SubsOnly s (freeBuffer s k cls) := subsOnly_modSub s k _

theorem subsOnly_discardDrops (s : State) (k sc : Nat) : SubsOnly s (discardDrops s k sc) :=
  (subsOnly_creditBack s k sc 4).trans (subsOnly_freeBuffer _ _ _)

theorem subsOnly_discardAll {α : Type} (gone : List α) (s : State) (k sc : Nat) :
    SubsOnly s (gone.foldl (fun s _ => discardDrops s k sc) s) := by
  induction gone generalizing s with
  | nil => exact .refl s
  | cons e gone ih => exact (subsOnly_discardDrops s k sc).trans (ih _)

/-- A VOID grain of the running step takes back what has come on its channel, while no unit has taken of it (R73). -/
theorem voidOn_takes_back {t : BitVec 64} (hs : IsTidy s) (hch : inSpanChan s k sc = some ch) (hrun : s.step.running = true)
    (hr : t + BitVec.ofNat 64 (lagOf s k sc) = s.step.number) (hcons : s.step.consumed.contains (spanKey k sc) = false) :
    getChan (voidOn s k sc t) ch = [] ∧
      (voidOn s k sc t).step = { s.step with
        retained := tset [] s.step.retained ch [], carried := s.step.carried.filter (· != spanKey k sc) } ∧
      (voidOn s k sc t).mem = s.mem := by
  unfold voidOn
  extract_lets r gone s0 s1
  obtain ⟨subs, h1⟩ : SubsOnly s s1 :=
    (subsOnly_modSub s k _).trans ((subsOnly_discardAll gone s0 k sc).trans (subsOnly_freeBuffer _ _ _))
  clear_value s1
  subst h1
  have hch' : inSpanChan { s with subs } k sc = some ch := hch
  rw [hch']
  dsimp only
  rw [if_pos ⟨hrun, hr⟩, hcons, Bool.false_and, if_neg Bool.false_ne_true]
  obtain ⟨subs', h2⟩ := subsOnly_creditLeft (setChan { s with subs, step := { s.step with
    retained := tset [] s.step.retained ch [], carried := s.step.carried.filter (· != spanKey k sc) } } ch []) k sc
  rw [h2]
  exact ⟨tget_tset_self (α := List Drop) [] s.chans ch [] hs.chans, rfl, rfl⟩

/-- One entry of a CREDIT grain adds to its channel's credits, and the grain's buffer is freed (R303, R304). -/
theorem getSub_creditOn_one {e : BitVec 32} (hs : IsTidy s) (he : e ≠ 0) :
    getSub (creditOn s k [e]) k = { getSub s k with
      credits := tmod 0 (getSub s k).credits (bitsOf e.toNat 11 0) (· + (BitVec.ofNat 20 (bitsOf e.toNat 31 12)).toInt)
      freed := (getSub s k).freed.modify 0 fun x => (x + 1) % 65536 } := by
  simp only [creditOn, creditEntry, he, if_false]
  rw [getSub_freeBuffer_self (keysRise_subs_modSub hs.subs), getSub_modSub_self hs.subs]

end Sys2Proof.Machine
end

section
/-! PROOFS. No function of the model changes the queue of the commands that wait (R62, R346).

One rule per function, for `simp`; a function that is given another asks that the other keep the queue too. The rules that hold by definition are
proved by `(rfl)`, in brackets, for `simp` to rewrite with them and not to unfold: only so can it prove such a hypothesis with them. -/

namespace Sys2Proof.Machine

set_option Elab.async false

variable {s : State}

/-! ### What the rules below rest on -/

@[simp] theorem pending_ite {c : Prop} [Decidable c] {t u : State} :
    (if c then t else u).pending = if c then t.pending else u.pending := apply_ite ..

@[simp] theorem answers_next {P : State → Prop} {t : State} : answers (.next t) P ↔ P t :=
  ⟨fun ⟨_, h, ht⟩ => by cases h; exact ht, answers.next⟩

/-- A fold keeps the queue where each of its steps does. -/
@[simp] theorem foldl_pending {α : Type} {f : State → α → State} {l : List α} (hf : ∀ s a, (f s a).pending = s.pending) :
    (l.foldl f s).pending = s.pending := by
  induction l generalizing s with
  | nil => rfl
  | cons a l ih => exact ih.trans (hf s a)

/-! ### The definitions of Machine/RegMap -/

@[simp] theorem putField_pending {off hi lo v} : (putField s off hi lo v).pending = s.pending := (rfl)

/-! ### The definitions of Machine/Ops -/

@[simp] theorem drawFree_pending {w} : (drawFree w s).2.pending = s.pending := (rfl)

@[simp] theorem freeBytes_pending {n} : (freeBytes n s).2.pending = s.pending := (rfl)

@[simp] theorem modSub_pending {k f} : (modSub s k f).pending = s.pending := (rfl)

@[simp] theorem sinkWrite_pending {payload} : (sinkWrite s payload).pending = s.pending := by simp [sinkWrite]

@[simp] theorem telemetryRoute_pending {payload} : (telemetryRoute s payload).1.pending = s.pending := by
  unfold telemetryRoute
  split <;> simp

@[simp] theorem telemetrySend_pending : (telemetrySend s).pending = s.pending := by simp [telemetrySend]

@[simp] theorem inbandTake_pending {e} : (inbandTake s e).pending = s.pending := by simp [inbandTake]

@[simp] theorem oobTake_pending {e} : (oobTake s e).pending = s.pending := by simp [oobTake]

@[simp] theorem blotWrite_pending {e} : (blotWrite s e).pending = s.pending := by simp [blotWrite]

@[simp] theorem logRaw_pending {e} : (logRaw s e).pending = s.pending := by simp [logRaw]

@[simp] theorem modUnit_pending {k f} : (modUnit s k f).pending = s.pending := (rfl)

/-! ### The definitions of Machine/LaunchOps -/

@[simp] theorem sendLaunch_pending {k m} : (sendLaunch s k m).pending = s.pending := by simp [sendLaunch]

@[simp] theorem sendAll_pending {m x0} : (sendAll s m x0).pending = s.pending := by fun_induction sendAll <;> simp_all

@[simp] theorem flood_pending {m source} : (flood s m source).pending = s.pending := by simp [flood]

@[simp] theorem originate_pending {step body} : (originate s step body).pending = s.pending := by simp [originate]

@[simp] theorem sendEnd_pending {step status} : (sendEnd s step status).pending = s.pending := by simp [sendEnd]

@[simp] theorem beginHold_pending {port sub dryMs} : (beginHold s port sub dryMs).pending = s.pending := by simp [beginHold]

@[simp] theorem endHold_pending {port sub dryMs outcome} : (endHold s port sub dryMs outcome).pending = s.pending := by simp [endHold]

@[simp] theorem raiseCond_pending {code} : (raiseCond s code).pending = s.pending := (rfl)

@[simp] theorem haltUnits_pending {x0} : (haltUnits s x0).pending = s.pending := by fun_induction haltUnits <;> simp_all

@[simp] theorem clearHalts_pending : (clearHalts s).pending = s.pending := (rfl)

@[simp] theorem endHaltHold_pending {outcome} : (endHaltHold s outcome).pending = s.pending := by simp [endHaltHold]

@[simp] theorem endHalts_pending : (endHalts s).pending = s.pending := by simp [endHalts]

@[simp] theorem bpHits_pending {x0} : (bpHits s x0).pending = s.pending := by fun_induction bpHits <;> simp_all

@[simp] theorem haltWith_pending {units loc bp} : (haltWith s units loc bp).pending = s.pending := by simp [haltWith]

@[simp] theorem bpFire_pending {c loc fired} : (bpFire s c loc fired).pending = s.pending := by simp [bpFire]

@[simp] theorem blotBreak_pending {cls written} : (blotBreak s cls written).pending = s.pending := by
  unfold blotBreak
  split <;> simp

@[simp] theorem logEv_pending {e} : (logEv s e).pending = s.pending := by simp [logEv]

/-! ### The definitions of Machine/Engine -/

@[simp] theorem noteTaken_pending {ch n} : (noteTaken s ch n).pending = s.pending := by
  unfold noteTaken
  split <;> simp

@[simp] theorem takeDrops_pending {ch n} : (takeDrops s ch n).2.pending = s.pending := by simp [takeDrops]

@[simp] theorem gather_pending {ds got} : (gather s ds got).1.pending = s.pending := by
  induction ds generalizing s got with
  | nil => rfl
  | cons d ds ih => simp [gather, ih]

@[simp] theorem pump_pending {x0} : (pump s x0).1.pending = s.pending := by fun_induction pump <;> simp_all

@[simp] theorem unitStore_pending {c a bs} : (unitStore s c a bs).pending = s.pending := by
  unfold unitStore
  split <;> simp

@[simp] theorem settleSlab_pending {c r x0} : (settleSlab s c r x0).1.pending = s.pending := by fun_induction settleSlab <;> simp_all

@[simp] theorem flushSlab_pending {c x0} : (flushSlab s c x0).pending = s.pending := by fun_induction flushSlab <;> simp_all

@[simp] theorem noteSkip_pending {c tile cause index} : (noteSkip s c tile cause index).pending = s.pending := by simp [noteSkip]

/-- The effect of the plan keeps the queue, whatever state and drops it meets. -/
structure PlanLeavesQueue (p : Plan) : Prop where
  effect : ∀ t got (s : State), (p.effect t got s).1.pending = s.pending

@[simp] theorem planLeavesQueue_ite {c : Prop} [Decidable c] {p q : Plan} (hp : PlanLeavesQueue p) (hq : PlanLeavesQueue q) :
    PlanLeavesQueue (if c then p else q) := by
  split <;> assumption

@[simp] theorem planEffect_pending {p i got} (hp : PlanLeavesQueue p) : (planEffect p i got s).1.pending = s.pending := by
  unfold planEffect
  split
  · rfl
  · exact hp.effect ..

@[simp] theorem fireAt_pending {k idx fired} : (fireAt s k idx fired).pending = s.pending := by simp [fireAt]

@[simp] theorem pauseUnit_pending {k idx x w b} : (pauseUnit s k idx x w b).pending = s.pending := by simp [pauseUnit]

@[simp] theorem goOn_pending {k idx f} (hf : (f s).pending = s.pending) : (goOn s k idx f).pending = s.pending := by simp [goOn, hf]

@[simp] theorem retireUnit_pending {k n} : (retireUnit s k n).pending = s.pending := (rfl)

@[simp] theorem keepBefore_pending {k t} : (keepBefore s k t).pending = s.pending := (rfl)

@[simp] theorem partEffect_pending {e k t} : (partEffect s e k t).pending = e.pending := (rfl)

@[simp] theorem asIssued_pending {k u} : (asIssued s k u).pending = s.pending := by simp [asIssued]

@[simp] theorem advancePart_pending {k b p lim} (hp : PlanLeavesQueue p) : (advancePart s k b p lim).pending = s.pending := by
  simp [advancePart, hp]

@[simp] theorem advance_pending {k b p} (hp : PlanLeavesQueue p) : (advance s k b p).pending = s.pending := by simp [advance, hp]

@[simp] theorem issueTile_pending {c j w p go} (hgo : ∀ t b, (go t b).pending = t.pending) :
    (issueTile s c j w p go).pending = s.pending := by
  unfold issueTile
  dsimp only
  split <;> simp [hgo]

@[simp] theorem runTileWith_pending {c j w p go} (hgo : ∀ t b, (go t b).pending = t.pending) :
    (runTileWith s c j w p go).pending = s.pending := by
  unfold runTileWith
  dsimp only
  repeat' split
  all_goals simp [hgo]

@[simp] theorem runTile_pending {c j w p} (hp : PlanLeavesQueue p) : (runTile s c j w p).pending = s.pending := by simp [runTile, hp]

@[simp] theorem illegalPlan_leavesQueue : PlanLeavesQueue illegalPlan := ⟨fun _ _ _ => rfl⟩

@[simp] theorem planWait_leavesQueue {n} : PlanLeavesQueue (planWait n) := ⟨fun _ _ _ => rfl⟩

/-! ### The definitions of Machine/Mover -/

@[simp] theorem moverStore_pending {m a bs} : (moverStore s m a bs).pending = s.pending := by
  unfold moverStore
  split <;> simp

@[simp] theorem moverGo_pending {m e a skip ch n i} : (moverGo m e a skip ch n i s).1.pending = s.pending := by
  induction n generalizing s i with
  | zero => rfl
  | succ n ih =>
    unfold moverGo
    repeat' split
    all_goals simp [ih]

@[simp] theorem moverMove_pending {m i e b} : (moverMove s m i e b).pending = s.pending := by
  unfold moverMove
  dsimp only
  repeat' split
  all_goals simp

@[simp] theorem noteMoverSkip_pending {m i e b} : (noteMoverSkip s m i e b).pending = s.pending := by
  unfold noteMoverSkip
  split <;> simp

@[simp] theorem moverAdvance_pending {m i e b} : (moverAdvance s m i e b).pending = s.pending := by
  unfold moverAdvance
  repeat' split
  all_goals simp

@[simp] theorem runMover_pending {m op} : (runMover s m op).pending = s.pending := by
  unfold runMover
  dsimp only
  split <;> simp

@[simp] theorem execMoverRead_pending {m} : answers (execMoverRead m s) fun t => t.pending = s.pending := by simp [execMoverRead]

@[simp] theorem execMoverWrite_pending {m} : answers (execMoverWrite m s) fun t => t.pending = s.pending := by simp [execMoverWrite]

/-! ### The definitions of Machine/ServOps -/

@[simp] theorem setSlot_pending {i v} : (setSlot s i v).pending = s.pending := (rfl)

@[simp] theorem modSlot_pending {i f} : (modSlot s i f).pending = s.pending := (rfl)

@[simp] theorem eachSlot_pending {f is} (hf : ∀ i t, (f i t).pending = t.pending) : (eachSlot s f is).pending = s.pending := by
  induction is generalizing s with
  | nil => rfl
  | cons i is ih => exact ih.trans (hf i s)

@[simp] theorem decide__pending {i code} : (decide_ s i code).pending = s.pending := (rfl)

@[simp] theorem setFolio_pending {i f} : (setFolio s i f).pending = s.pending := (rfl)

@[simp] theorem sieveRemove_pending {idx} : (sieveRemove s idx).pending = s.pending := by
  unfold sieveRemove
  split <;> simp

@[simp] theorem sieveRemoveAll_pending {x0} : (sieveRemoveAll s x0).pending = s.pending := by fun_induction sieveRemoveAll <;> simp_all

@[simp] theorem takeRun_pending {slot base n} : (takeRun s slot base n).pending = s.pending := by
  induction n with
  | zero => rfl
  | succ n ih => simp [takeRun, ih]

@[simp] theorem giveRun_pending {slot base n} : (giveRun s slot base n).pending = s.pending := by simp [giveRun]

@[simp] theorem freeRun_pending {i} : (freeRun s i).pending = s.pending := by simp [freeRun]

@[simp] theorem freeSpill_pending {i} : (freeSpill s i).pending = s.pending := (rfl)

@[simp] theorem freeRuns_pending {i} : (freeRuns s i).pending = s.pending := by simp [freeRuns]

@[simp] theorem markLane_pending {l token} : (markLane s l token).pending = s.pending := by
  unfold markLane
  split <;> simp

@[simp] theorem markRecords_pending {base a bs n} : (markRecords s base a bs n).pending = s.pending := by
  induction n with
  | zero => rfl
  | succ n ih => simp [markRecords, ih]

@[simp] theorem markEmit_pending {a bs} : (markEmit s a bs).pending = s.pending := by simp [markEmit]

/-! ### The definitions of Machine/MboxOps -/

@[simp] theorem modRing_pending {r f} : (modRing s r f).pending = s.pending := (rfl)

@[simp] theorem complete_pending {ring seq code err result} : (complete s ring seq code err result).pending = s.pending := (rfl)

@[simp] theorem done_pending {ring seq c err result} : (done s ring seq c err result).pending = s.pending := by simp [done]

@[simp] theorem putToken_pending {rec16} : (putToken s rec16).pending = s.pending := (rfl)

/-! ### The definitions of Machine/Loading -/

@[simp] theorem fillTarget_pending {e} : (fillTarget s e).pending = s.pending := by simp [fillTarget]

@[simp] theorem fillAnchors_pending {all x0} : (fillAnchors s all x0).pending = s.pending := by fun_induction fillAnchors <;> simp_all

@[simp] theorem reloadWeights_pending : (reloadWeights s).pending = s.pending := by
  unfold reloadWeights
  split <;> simp

@[simp] theorem switchEpoch_pending {epoch} : (switchEpoch s epoch).pending = s.pending := (rfl)

@[simp] theorem modManifest_pending {epoch adapter f} : (modManifest s epoch adapter f).pending = s.pending := (rfl)

@[simp] theorem loadDone_pending {epoch adapter} : (loadDone s epoch adapter).pending = s.pending := by
  unfold loadDone
  repeat' split
  all_goals simp

@[simp] theorem dropManifest_pending {epoch adapter} : (dropManifest s epoch adapter).pending = s.pending := (rfl)

@[simp] theorem sendBulk_pending {k bs} : (sendBulk s k bs).pending = s.pending := (rfl)

@[simp] theorem sendData_pending {k bs x0} : (sendData s k bs x0).pending = s.pending := by fun_induction sendData <;> simp_all

@[simp] theorem sendBlock_pending {t} : (sendBlock s t).pending = s.pending := by
  unfold sendBlock
  split <;> simp

@[simp] theorem pumpTx_pending {x0} : (pumpTx s x0).pending = s.pending := by fun_induction pumpTx <;> simp_all

@[simp] theorem dropTx_pending {epoch block} : (dropTx s epoch block).pending = s.pending := (rfl)

@[simp] theorem ackUp_pending {epoch block} : (ackUp s epoch block).pending = s.pending := by
  unfold ackUp
  repeat' split
  all_goals simp

@[simp] theorem takeBlock_pending {m block e bytes} : (takeBlock s m block e bytes).pending = s.pending := by simp [takeBlock]

@[simp] theorem failJob_pending {j err res} : (failJob s j err res).pending = s.pending := (rfl)

@[simp] theorem blockError_pending {j position} : (blockError s j position).1.pending = s.pending := by
  unfold blockError
  dsimp only
  repeat' split
  all_goals rfl

@[simp] theorem readAgain_pending {j position} : (readAgain s j position).pending = s.pending := by simp [readAgain]

@[simp] theorem nackUp_pending {epoch block position} : (nackUp s epoch block position).pending = s.pending := by
  unfold nackUp
  repeat' split
  all_goals simp

@[simp] theorem nackUnsent_pending {epoch} : (nackUnsent s epoch).pending = s.pending := by simp [nackUnsent]

@[simp] theorem bulkStartOn_pending {k epoch block length} : (bulkStartOn s k epoch block length).pending = s.pending := by
  unfold bulkStartOn
  repeat' split
  all_goals simp

@[simp] theorem bulkDataOn_pending {k payload} : (bulkDataOn s k payload).pending = s.pending := by
  unfold bulkDataOn
  dsimp only
  repeat' split
  all_goals simp

@[simp] theorem bulkAckOn_pending {k epoch block} : (bulkAckOn s k epoch block).pending = s.pending := by simp [bulkAckOn]

@[simp] theorem bulkNackOn_pending {k epoch block position} : (bulkNackOn s k epoch block position).pending = s.pending := by
  unfold bulkNackOn
  repeat' split
  all_goals simp

@[simp] theorem resendBlocks_pending {x0} : (resendBlocks s x0).pending = s.pending := by fun_induction resendBlocks <;> simp_all

@[simp] theorem serveLoadManifest_pending {ring seq b} : (serveLoadManifest s ring seq b).pending = s.pending := by simp [serveLoadManifest]

@[simp] theorem manifestRead_pending {ring seq b host} : (manifestRead s ring seq b host).pending = s.pending := by
  unfold manifestRead
  dsimp only
  split <;> simp

@[simp] theorem serveLoadBlock_pending {ring seq epoch block host length} :
    (serveLoadBlock s ring seq epoch block host length).pending = s.pending := by
  unfold serveLoadBlock
  repeat' split
  all_goals simp

@[simp] theorem blockRead_pending {j host} : (blockRead s j host).pending = s.pending := by
  unfold blockRead
  repeat' split
  all_goals simp

@[simp] theorem execManifestTimeout_pending {epoch adapter} : answers (execManifestTimeout epoch adapter s) fun t => t.pending = s.pending := by
  unfold execManifestTimeout
  dsimp only
  repeat' split
  all_goals simp

/-! ### The definitions of Machine/Seals -/

@[simp] theorem deliverSeal_pending {slot rid output addr bs} : (deliverSeal s slot rid output addr bs).pending = s.pending := (rfl)

@[simp] theorem holdSeal_pending {h} : (holdSeal s h).pending = s.pending := by simp [holdSeal]

@[simp] theorem flushSeals_pending {x0} : (flushSeals s x0).pending = s.pending := by fun_induction flushSeals <;> simp_all

@[simp] theorem execSealSigned_pending {slot} : answers (execSealSigned slot s) fun t => t.pending = s.pending := by
  unfold execSealSigned
  split <;> simp

/-! ### The definitions of Machine/Serving -/

@[simp] theorem useEntries_pending {step is} : (useEntries s step is).pending = s.pending := by
  induction is generalizing s with
  | nil => rfl
  | cons i is ih =>
    rw [useEntries, ih]
    split <;> rfl

@[simp] theorem logEvicted_pending {i} : (logEvicted s i).pending = s.pending := by simp [logEvicted]

@[simp] theorem evictNow_pending {i} : (evictNow s i).pending = s.pending := by simp [evictNow]

@[simp] theorem strike_pending {i} : (strike s i).pending = s.pending := by
  unfold strike
  dsimp only
  split <;> simp

@[simp] theorem strikeAll_pending {x0} : (strikeAll s x0).pending = s.pending := by fun_induction strikeAll <;> simp_all

theorem allocate_pending {n align hits t b} (h : allocate s n align hits = some (t, b)) : t.pending = s.pending := by
  unfold allocate at h
  split at h
  · cases h; rfl
  · split at h
    · cases h
    · cases h; simp

@[simp] theorem serveAdmit_pending {ring seq b} : (serveAdmit s ring seq b).pending = s.pending := by
  unfold serveAdmit
  dsimp only
  repeat' split
  all_goals simp
  all_goals exact allocate_pending ‹_›

@[simp] theorem retryRuns_pending {is} : (retryRuns s is).pending = s.pending := by
  induction is generalizing s with
  | nil => rfl
  | cons i is ih =>
    rw [retryRuns, ih]
    split <;> simp

@[simp] theorem recordCancel_pending {i code} : (recordCancel s i code).pending = s.pending := by simp [recordCancel]

@[simp] theorem serveCancel_pending {ring seq slot rid} : (serveCancel s ring seq slot rid).pending = s.pending := by
  unfold serveCancel
  split <;> simp

@[simp] theorem servePause_pending {ring seq slot rid} : (servePause s ring seq slot rid).pending = s.pending := by
  unfold servePause
  split <;> simp

@[simp] theorem serveResume_pending {ring seq slot rid} : (serveResume s ring seq slot rid).pending = s.pending := by
  unfold serveResume
  split <;> simp

@[simp] theorem serveSetDeadline_pending {ring seq slot rid sec ns} : (serveSetDeadline s ring seq slot rid sec ns).pending = s.pending := by
  unfold serveSetDeadline
  split <;> simp

@[simp] theorem execEvictTimer_pending {slot} : answers (execEvictTimer slot s) fun t => t.pending = s.pending := by simp [execEvictTimer]

@[simp] theorem retireOld_pending {epoch} : (retireOld s epoch).pending = s.pending := by simp [retireOld]

@[simp] theorem execDrainLimitExpiry_pending : answers (execDrainLimitExpiry s) fun t => t.pending = s.pending := by simp [execDrainLimitExpiry]

@[simp] theorem serveActivate_pending {ring seq epoch mode} : (serveActivate s ring seq epoch mode).pending = s.pending := by
  unfold serveActivate
  repeat' split
  all_goals simp

@[simp] theorem switchAtMarker_pending {epoch} : (switchAtMarker s epoch).pending = s.pending := (rfl)

@[simp] theorem fillLanes_pending {room pauseMax margin x0 x1 x2} :
    (fillLanes s room pauseMax margin x0 x1 x2).1.pending = s.pending := by fun_induction fillLanes <;> simp_all

@[simp] theorem fillGroup_pending {group} : (fillGroup s group).1.pending = s.pending := by simp [fillGroup]

@[simp] theorem fetchRun_pending {i} : (fetchRun s i).1.pending = s.pending := by
  unfold fetchRun
  dsimp only
  split
  · simpa using allocate_pending ‹_›
  · exact allocate_pending ‹_›
  · rfl

@[simp] theorem takeLane_pending {group i d} : (takeLane s group i d).1.pending = s.pending := by
  unfold takeLane
  dsimp only
  repeat' split
  all_goals simp

@[simp] theorem takeLanes_pending {group d is} : (takeLanes s group d is).1.pending = s.pending := by
  induction is generalizing s d with
  | nil => rfl
  | cons i is ih =>
    unfold takeLanes
    dsimp only
    repeat' split
    all_goals simp [ih]

@[simp] theorem decideDeadlines_pending : (decideDeadlines s).pending = s.pending := by simp [decideDeadlines]

@[simp] theorem applyPauses_pending : (applyPauses s).pending = s.pending := by simp [applyPauses]

@[simp] theorem headSwitch_pending : (headSwitch s).1.pending = s.pending := by
  unfold headSwitch
  split <;> simp

@[simp] theorem writeLanes_pending {d} : (writeLanes s d).pending = s.pending := (rfl)

@[simp] theorem headDescriptor_pending : (headDescriptor s).pending = s.pending := by simp [headDescriptor]

@[simp] theorem mirrorLane_pending {epoch l e} : (mirrorLane s epoch l e).pending = s.pending := (rfl)

@[simp] theorem mirrorSlots_pending {d} : (mirrorSlots s d).pending = s.pending :=
  (foldl_pending fun _ _ => mirrorLane_pending).trans (eachSlot_pending fun _ _ => modSlot_pending)

@[simp] theorem pass_pending {t record report} : (pass s t record report).pending = s.pending := (rfl)

@[simp] theorem useRecord_pending {d} : (useRecord s d).pending = s.pending := by simp [useRecord]

@[simp] theorem takeRecord_pending {failed} : (takeRecord s failed).pending = s.pending := by
  unfold takeRecord
  split <;> simp

@[simp] theorem takeReport_pending {d r} : (takeReport s d r).pending = s.pending := by
  unfold takeReport
  refine (foldl_pending fun t n => ?_).trans (foldl_pending fun t e => ?_)
  · split
    · split <;> rfl
    · rfl
  · split <;> rfl

@[simp] theorem sieveInsert_pending {i k} : (sieveInsert s i k).pending = s.pending := by
  unfold sieveInsert
  dsimp only
  repeat' split
  all_goals simp

@[simp] theorem sieveInsertRun_pending {i k x0} : (sieveInsertRun s i k x0).pending = s.pending := by fun_induction sieveInsertRun <;> simp_all

@[simp] theorem commitPass_pending {i rid w} : (commitPass s i rid w).pending = s.pending := by
  unfold commitPass
  split <;> simp

@[simp] theorem postEnd_pending {i} : (postEnd s i).pending = s.pending := by simp [postEnd]

@[simp] theorem commitSlot_pending {i} : (commitSlot i s).pending = s.pending := by simp [commitSlot]

@[simp] theorem countDrain_pending : (countDrain s).pending = s.pending := by simp [countDrain]

@[simp] theorem markerCommit_pending : (markerCommit s).pending = s.pending := by simp [markerCommit]

@[simp] theorem commitServing_pending : (commitServing s).pending = s.pending := by simp [commitServing]

@[simp] theorem failSlot_pending {i} : (failSlot i s).pending = s.pending := by simp [failSlot]

@[simp] theorem failServing_pending : (failServing s).pending = s.pending := by simp [failServing]

@[simp] theorem closeSlots_pending : (closeSlots s).1.pending = s.pending := by
  unfold closeSlots
  split <;> simp

@[simp] theorem evictSpilledOn_pending {m} : (evictSpilledOn s m).pending = s.pending := by simp [evictSpilledOn]

@[simp] theorem execSaltWrite_pending {tenant salt} : answers (execSaltWrite tenant salt s) fun t => t.pending = s.pending := by simp [execSaltWrite]

/-! ### The definitions of Machine/MemOps -/

@[simp] theorem flashWrite_pending {a bs} : (flashWrite s a bs).pending = s.pending := (rfl)

@[simp] theorem flashErase_pending {a n} : (flashErase s a n).pending = s.pending := (rfl)

@[simp] theorem retireWrite_pending {h i x0} : (retireWrite s h i x0).pending = s.pending := by fun_induction retireWrite <;> simp_all

@[simp] theorem retire_pending {e} : (retire s e).pending = s.pending := by simp [retire]

@[simp] theorem modStack_pending {k f} : (modStack s k f).pending = s.pending := (rfl)

@[simp] theorem modDdr_pending {m f} : (modDdr s m f).pending = s.pending := (rfl)

@[simp] theorem countError_pending {a ue} : (countError s a ue).pending = s.pending := by
  unfold countError
  split <;> simp

@[simp] theorem makePending_pending {a} : (makePending s a).pending = s.pending := by
  unfold makePending
  split <;> simp

@[simp] theorem correctedRow_pending {a} : (correctedRow s a).pending = s.pending := by
  unfold correctedRow
  split <;> simp

@[simp] theorem disableDdr_pending {m cause} : (disableDdr s m cause).pending = s.pending := by simp [disableDdr]

@[simp] theorem disableSoon_pending {m cause} : (disableSoon s m cause).pending = s.pending := by simp [disableSoon]

@[simp] theorem applyDisables_pending {ms} : (applyDisables s ms).pending = s.pending := by
  induction ms generalizing s with
  | nil => rfl
  | cons m ms ih =>
    rw [applyDisables, ih]
    split <;> simp

@[simp] theorem countUe_pending {a} : (countUe s a).pending = s.pending := by
  unfold countUe
  split <;> simp

@[simp] theorem noteUncorrectable_pending {a kind index} : (noteUncorrectable s a kind index).pending = s.pending := by simp [noteUncorrectable]

/-! ### The definitions of Machine/Firmware -/

@[simp] theorem setHdr_pending {c h} : (setHdr s c h).pending = s.pending := (rfl)

@[simp] theorem writeHdr_pending {h} : (writeHdr s h).pending = s.pending := (rfl)

@[simp] theorem takeIdentity_pending {k} : (takeIdentity s k).pending = s.pending := (rfl)

@[simp] theorem writeLoam_pending {i img} : (writeLoam s i img).pending = s.pending := (rfl)

/-! ### The definitions of Machine/SpanOps -/

@[simp] theorem flushOut_pending {ch k sc} : (flushOut s ch k sc).pending = s.pending := (rfl)

@[simp] theorem commitOut_pending {k sc} : (commitOut s k sc).pending = s.pending := (rfl)

@[simp] theorem dropUnsent_pending {ch k sc} : (dropUnsent s ch k sc).pending = s.pending := (rfl)

@[simp] theorem voidOut_pending {ch k sc} : (voidOut s ch k sc).pending = s.pending := (rfl)

@[simp] theorem eachOut_pending {f l} (hf : ∀ t ch k sc, (f t ch k sc).pending = t.pending) : (eachOut s f l).pending = s.pending := by
  induction l generalizing s with
  | nil => rfl
  | cons e l ih => exact ih.trans (hf ..)

@[simp] theorem sendCommits_pending : (sendCommits s).pending = s.pending := by simp [sendCommits]

@[simp] theorem freeBuffer_pending {k cls} : (freeBuffer s k cls).pending = s.pending := (rfl)

@[simp] theorem creditBack_pending {k sc n} : (creditBack s k sc n).pending = s.pending := by simp [creditBack]

@[simp] theorem creditLeft_pending {k sc} : (creditLeft s k sc).pending = s.pending := by simp [creditLeft]

@[simp] theorem enterDrops_pending {ch k sc ds} : (enterDrops s ch k sc ds).pending = s.pending := by simp [enterDrops]

@[simp] theorem discardDrops_pending {k sc} : (discardDrops s k sc).pending = s.pending := (rfl)

@[simp] theorem dataOn_pending {k sc ds} : (dataOn s k sc ds).pending = s.pending := by
  unfold dataOn
  split <;> simp

@[simp] theorem enterWaiting_pending {k l} : (enterWaiting s k l).pending = s.pending := by
  induction l generalizing s with
  | nil => rfl
  | cons e l ih =>
    unfold enterWaiting
    repeat' split
    all_goals simp [ih]

@[simp] theorem enterPools_pending {x0} : (enterPools s x0).pending = s.pending := by fun_induction enterPools <;> simp_all

@[simp] theorem enterRestored_pending {l} : (enterRestored s l).pending = s.pending := by
  induction l generalizing s with
  | nil => rfl
  | cons e l ih =>
    unfold enterRestored
    repeat' split
    all_goals simp [ih]

@[simp] theorem commitOn_pending {k sc t} : (commitOn s k sc t).pending = s.pending := (rfl)

@[simp] theorem creditEntry_pending {k e} : (creditEntry s k e).pending = s.pending := by simp [creditEntry]

@[simp] theorem creditOn_pending {k x0} : (creditOn s k x0).pending = s.pending := by fun_induction creditOn <;> simp_all

/-! ### The definitions of Machine/Ckpt -/

@[simp] theorem restoreHead_pending {bs} : (restoreHead s bs).pending = s.pending := (rfl)

@[simp] theorem writeRanges_pending {bs x0} : (writeRanges s bs x0).pending = s.pending := by fun_induction writeRanges <;> simp_all

@[simp] theorem serveCheckpoint_pending {ring seq step kind addr len} :
    (serveCheckpoint s ring seq step kind addr len).pending = s.pending := by simp [serveCheckpoint]

@[simp] theorem ckptEnd_pending {err} : (ckptEnd s err).pending = s.pending := by
  unfold ckptEnd
  split <;> simp

@[simp] theorem ckptFill_pending : (ckptFill s).pending = s.pending := by
  unfold ckptFill
  split <;> simp

@[simp] theorem ckptAtEnd_pending {committed} : (ckptAtEnd s committed).pending = s.pending := by
  unfold ckptAtEnd
  split <;> simp

@[simp] theorem execCheckpointWritten_pending : answers (execCheckpointWritten s) fun t => t.pending = s.pending := by
  unfold execCheckpointWritten
  split <;> simp

@[simp] theorem serveRestore_pending {ring seq kind addr len digest} :
    (serveRestore s ring seq kind addr len digest).pending = s.pending := by simp [serveRestore]

@[simp] theorem restoreHeld_pending {bs} : (restoreHeld s bs).pending = s.pending := foldl_pending fun _ _ => modSub_pending

@[simp] theorem noState_pending : (noState s).pending = s.pending := (rfl)

@[simp] theorem restoreFail_pending {ring seq err} : (restoreFail s ring seq err).pending = s.pending := (rfl)

@[simp] theorem placeImage_pending {img} : (placeImage s img).pending = s.pending := by simp [placeImage]

@[simp] theorem execRestoreComplete_pending {host} : answers (execRestoreComplete host s) fun t => t.pending = s.pending := by
  unfold execRestoreComplete
  dsimp only
  repeat' split
  all_goals simp

/-! ### The definitions of Machine/Pace -/

@[simp] theorem setRail_pending {v byPower byTemp} : (setRail s v byPower byTemp).pending = s.pending := (rfl)

@[simp] theorem paceMove_pending {v forced} : (paceMove s v forced).pending = s.pending := by simp [paceMove]

@[simp] theorem paceAfterLaunch_pending {slack upstream} : (paceAfterLaunch s slack upstream).pending = s.pending := by simp [paceAfterLaunch]

@[simp] theorem lateRunAfter_pending {slack upstream} : (lateRunAfter s slack upstream).pending = s.pending := by simp [lateRunAfter]

@[simp] theorem execPaceFreeUpdate_pending : answers (execPaceFreeUpdate s) fun t => t.pending = s.pending := by simp [execPaceFreeUpdate]

@[simp] theorem logSilent_pending {x0} : (logSilent s x0).pending = s.pending := by fun_induction logSilent <;> simp_all

@[simp] theorem execAvsReadback_pending {oks powerW tjC} : answers (execAvsReadback oks powerW tjC s) fun t => t.pending = s.pending := by
  simp [execAvsReadback]

/-! ### The definitions of Machine/StepLife -/

@[simp] theorem resetUnits_pending : (resetUnits s).pending = s.pending := (rfl)

@[simp] theorem keepRecord_pending {r} : (keepRecord s r).pending = s.pending := by simp [keepRecord]

@[simp] theorem afterStep_pending : (afterStep s).pending = s.pending := by simp [afterStep]

@[simp] theorem creditAll_pending {x0} : (creditAll s x0).pending = s.pending := by fun_induction creditAll <;> simp_all

@[simp] theorem logDispatch_pending : (logDispatch s).pending = s.pending := by
  unfold logDispatch
  split <;> simp

@[simp] theorem endStepFailed_pending {mask} : (endStepFailed s mask).pending = s.pending := by simp [endStepFailed]

@[simp] theorem failStep_pending {code} : (failStep s code).pending = s.pending := by simp [failStep]

@[simp] theorem failHere_pending {code} : (failHere s code).pending = s.pending := by simp [failHere]

@[simp] theorem recordUnlaunched_pending {n code origin} : (recordUnlaunched s n code origin).pending = s.pending := by simp [recordUnlaunched]

@[simp] theorem lateRecord_pending {n slack ready} : (lateRecord s n slack ready).1.pending = s.pending := by
  unfold lateRecord
  split <;> simp

@[simp] theorem countLate_pending {slack} : (countLate s slack).pending = s.pending := by simp [countLate]

@[simp] theorem beginStep_pending {n} : (beginStep s n).pending = s.pending := by simp [beginStep]

@[simp] theorem logLateDigests_pending {n x0} : (logLateDigests s n x0).pending = s.pending := by fun_induction logLateDigests <;> simp_all

@[simp] theorem launchBps_pending : (launchBps s).pending = s.pending := by
  unfold launchBps
  dsimp only
  split <;> simp

@[simp] theorem launchStep_pending {n ready} : (launchStep s n ready).pending = s.pending := by simp [launchStep]

@[simp] theorem execLaunchTick_pending : answers (execLaunchTick s) fun t => t.pending = s.pending := by
  unfold execLaunchTick
  dsimp only
  repeat' split
  all_goals simp

@[simp] theorem flushUnits_pending {ks} : (flushUnits s ks).pending = s.pending := by
  induction ks generalizing s with
  | nil => rfl
  | cons k ks ih => simp [flushUnits, ih]

@[simp] theorem discardResidue_pending : (discardResidue s).pending = s.pending := by simp [discardResidue]

@[simp] theorem execLocalEnd_pending : answers (execLocalEnd s) fun t => t.pending = s.pending := by simp [execLocalEnd]

@[simp] theorem addStepSeal_pending {r} : (addStepSeal s r).pending = s.pending := by simp [addStepSeal]

@[simp] theorem execStepCommit_pending : answers (execStepCommit s) fun t => t.pending = s.pending := by simp [execStepCommit]

@[simp] theorem unpaid_pending {x0} : (unpaid s x0).pending = s.pending := by fun_induction unpaid <;> simp_all

@[simp] theorem voidStep_pending : (voidStep s).pending = s.pending := by simp [voidStep]

@[simp] theorem execStepVoid_pending {addr} : answers (execStepVoid addr s) fun t => t.pending = s.pending := by simp [execStepVoid]

@[simp] theorem reloadBlock_pending {a} : (reloadBlock s a).pending = s.pending := by
  unfold reloadBlock
  repeat' split
  all_goals simp

@[simp] theorem refill_pending {x0} : (refill s x0).pending = s.pending := by fun_induction refill <;> simp_all

@[simp] theorem execStepReexecute_pending : answers (execStepReexecute s) fun t => t.pending = s.pending := by
  unfold execStepReexecute
  repeat' split
  all_goals simp

@[simp] theorem voidOn_pending {k sc t} : (voidOn s k sc t).pending = s.pending := by
  have hg : ∀ (t : State) (gone : List (Nat × BitVec 64 × List Drop)),
      (gone.foldl (fun s _ => discardDrops s k sc) t).pending = t.pending := fun _ _ => foldl_pending fun _ _ => discardDrops_pending
  unfold voidOn
  dsimp only
  repeat' split
  all_goals simp [hg]

@[simp] theorem logWaiting_pending {x0} : (logWaiting s x0).pending = s.pending := by fun_induction logWaiting <;> simp_all

@[simp] theorem execWatchdogExpiry_pending : answers (execWatchdogExpiry s) fun t => t.pending = s.pending := by simp [execWatchdogExpiry]

@[simp] theorem failUncorrectable_pending : (failUncorrectable s).pending = s.pending := by simp [failUncorrectable]

@[simp] theorem patchCores_pending {n x0} : (patchCores s n x0).pending = s.pending := by fun_induction patchCores <;> simp_all

@[simp] theorem applyFlip_pending : (applyFlip s).pending = s.pending := by simp [applyFlip]

@[simp] theorem markReady_pending : (markReady s).pending = s.pending := by simp [markReady]

@[simp] theorem roomCame_pending : (roomCame s).pending = s.pending := by simp [roomCame]

@[simp] theorem finishBoundary_pending : (finishBoundary s).pending = s.pending := by simp [finishBoundary]

@[simp] theorem execEpochReloadDone_pending : answers (execEpochReloadDone s) fun t => t.pending = s.pending := by simp [execEpochReloadDone]

/-! ### The definitions of Machine/Memc -/

@[simp] theorem stackRate_pending {k tempC down} : (stackRate s k tempC down).pending = s.pending := by simp [stackRate]

@[simp] theorem stackTemp_pending {k tempC} : (stackTemp s k tempC).pending = s.pending := (rfl)

@[simp] theorem execStackStepDown_pending {k tempC} :
    answers (execStackStepDown k tempC s) fun t => t.pending = s.pending := by simp [execStackStepDown]

@[simp] theorem execStackStepUp_pending {k tempC} : answers (execStackStepUp k tempC s) fun t => t.pending = s.pending := by simp [execStackStepUp]

@[simp] theorem execDdrThermal_pending {m} : answers (execDdrThermal m s) fun t => t.pending = s.pending := by simp [execDdrThermal]

@[simp] theorem retrainFailed_pending {m} : (retrainFailed s m).pending = s.pending := by simp [retrainFailed]

@[simp] theorem execDdrRetrain_pending {m ok} : answers (execDdrRetrain m ok s) fun t => t.pending = s.pending := by simp [execDdrRetrain]

@[simp] theorem rateReqOn_pending {m r} : (rateReqOn s m r).pending = s.pending := by
  unfold rateReqOn
  dsimp only
  repeat' split
  · exact logEv_pending
  · exact putField_pending
  · exact modDdr_pending.trans putField_pending

@[simp] theorem execRateReq_pending {m rate} : answers (execRateReq m rate s) fun t => t.pending = s.pending := by simp [execRateReq]

@[simp] theorem readCorrected_pending {a} : (readCorrected s a).pending = s.pending := by simp [readCorrected]

@[simp] theorem execPatrolRead_pending {addr outcome} : answers (execPatrolRead addr outcome s) fun t => t.pending = s.pending := by
  unfold execPatrolRead
  split <;> simp

@[simp] theorem promptFails_pending {slot} : (promptFails s slot).pending = s.pending := by simp [promptFails]

/-! ### The definitions of Machine/RegRead -/

@[simp] theorem latchNow_pending : (latchNow s).pending = s.pending := (rfl)

@[simp] theorem regReadEffect_pending {o n} : (regReadEffect s o n).pending = s.pending := by simp [regReadEffect]

/-! ### The definitions of Machine/Mapping -/

@[simp] theorem disablePorts_pending {x0} : (disablePorts s x0).pending = s.pending := by fun_induction disablePorts <;> simp_all

@[simp] theorem mapDevice_pending : (mapDevice s).pending = s.pending := by simp [mapDevice]

/-! ### The definitions of Machine/LaunchMsgs -/

@[simp] theorem setCensus_pending {a c} : (setCensus s a c).pending = s.pending := by simp [setCensus]

@[simp] theorem completeArm_pending : (completeArm s).pending = s.pending := by
  unfold completeArm
  split <;> simp

@[simp] theorem sendCensus_pending {a} : (sendCensus s a).pending = s.pending := by
  unfold sendCensus
  dsimp only
  split <;> simp

@[simp] theorem tryCensus_pending {a} : (tryCensus s a).pending = s.pending := by simp [tryCensus]

@[simp] theorem sendDigest_pending {step} : (sendDigest s step).pending = s.pending := by
  unfold sendDigest
  dsimp only
  repeat' split
  all_goals simp

@[simp] theorem serveArm_pending {ring seq digest r} : (serveArm s ring seq digest r).pending = s.pending := by simp [serveArm]

@[simp] theorem censusOn_pending {k h m} : (censusOn s k h m).pending = s.pending := by simp [censusOn]

@[simp] theorem execCensusWaitExpiry_pending {tree} :
    answers (execCensusWaitExpiry tree s) fun t => t.pending = s.pending := by simp [execCensusWaitExpiry]

@[simp] theorem digestOn_pending {h d} : (digestOn s h d).pending = s.pending := by
  unfold digestOn
  repeat' split
  all_goals simp

@[simp] theorem lateRecords_pending {n x0} : (lateRecords s n x0).pending = s.pending := by fun_induction lateRecords <;> simp_all

@[simp] theorem acceptCommit_pending {sec ns} : (acceptCommit s sec ns).pending = s.pending := by simp [acceptCommit]

@[simp] theorem serveCommit_pending {ring seq sec ns} : (serveCommit s ring seq sec ns).pending = s.pending := by simp [serveCommit]

@[simp] theorem discardLaunch_pending {k ty origin} : (discardLaunch s k ty origin).pending = s.pending := by simp [discardLaunch]

@[simp] theorem commitMsgOn_pending {k h tag sec ns} : (commitMsgOn s k h tag sec ns).pending = s.pending := by simp [commitMsgOn]

@[simp] theorem execArmExpiry_pending : answers (execArmExpiry s) fun t => t.pending = s.pending := by simp [execArmExpiry]

theorem floodOn_pending {k m t} (h : floodOn s k m = some t) : t.pending = s.pending := by
  unfold floodOn at h
  split at h
  · cases h
  · cases h; simp

@[simp] theorem endOn_pending {step count status} : (endOn s step count status).pending = s.pending := by simp [endOn]

@[simp] theorem noticeEffect_pending {m} : (noticeEffect s m).pending = s.pending := by
  unfold noticeEffect
  split <;> simp

@[simp] theorem launchOn_pending {k m} : (launchOn s k m).pending = s.pending := by
  unfold launchOn
  repeat' split
  all_goals simp
  exact floodOn_pending ‹_›

@[simp] theorem launchPayloadOn_pending {k p} : (launchPayloadOn s k p).pending = s.pending := by
  unfold launchPayloadOn
  split <;> simp

@[simp] theorem launchRow_pending {port sub h body} : answers (launchRow port sub h body s) fun t => t.pending = s.pending := by simp [launchRow]

@[simp] theorem execCensus_pending {port sub h tag armed refused reasons firstRefused maxBound} :
    answers (execCensus port sub h tag armed refused reasons firstRefused maxBound s) fun t => t.pending = s.pending := by simp [execCensus]

@[simp] theorem execDigest_pending {port sub h d} : answers (execDigest port sub h d s) fun t => t.pending = s.pending := by simp [execDigest]

@[simp] theorem execCommitMessage_pending {port sub h tag sec ns} :
    answers (execCommitMessage port sub h tag sec ns s) fun t => t.pending = s.pending := by simp [execCommitMessage]

@[simp] theorem execEndNotice_pending {port sub h count status} :
    answers (execEndNotice port sub h count status s) fun t => t.pending = s.pending := by simp [execEndNotice]

@[simp] theorem execHold_pending {port sub h hport hsub dryMs} :
    answers (execHold port sub h hport hsub dryMs s) fun t => t.pending = s.pending := by simp [execHold]

@[simp] theorem execHoldEnd_pending {port sub h hport hsub dryMs outcome} :
    answers (execHoldEnd port sub h hport hsub dryMs outcome s) fun t => t.pending = s.pending := by simp [execHoldEnd]

@[simp] theorem execHoldLapse_pending {origin step hport hsub} :
    answers (execHoldLapse origin step hport hsub s) fun t => t.pending = s.pending := ⟨_, rfl, rfl⟩

@[simp] theorem execStaged_pending {port sub h epoch adapter} :
    answers (execStaged port sub h epoch adapter s) fun t => t.pending = s.pending := by simp [execStaged]

/-! ### The definitions of Machine/SheetLoad -/

@[simp] theorem serveLoadSheet_pending {ring seq host length digest} :
    (serveLoadSheet s ring seq host length digest).pending = s.pending := by simp [serveLoadSheet]

@[simp] theorem execLoadSheetComplete_pending {host} : answers (execLoadSheetComplete host s) fun t => t.pending = s.pending := by
  unfold execLoadSheetComplete
  dsimp only
  repeat' split
  all_goals simp

@[simp] theorem serveFlip_pending {ring seq} : (serveFlip s ring seq).pending = s.pending := by simp [serveFlip]

/-! ### The definitions of Machine/SpanLink -/

@[simp] theorem sendFrame_pending {k link body} : (sendFrame s k link body).pending = s.pending := (rfl)

@[simp] theorem queueLink_pending {k op mask width opNum rx} : (queueLink s k op mask width opNum rx).pending = s.pending := (rfl)

@[simp] theorem sendHandshake_pending {k} : (sendHandshake s k).pending = s.pending := (rfl)

@[simp] theorem drawStart_pending : (drawStart s).2.pending = s.pending := (rfl)

@[simp] theorem startShake_pending {k reset} : (startShake s k reset).pending = s.pending := by
  unfold startShake
  dsimp only
  split <;> simp

@[simp] theorem leavePlot_pending {k} : (leavePlot s k).pending = s.pending := by simp [leavePlot]

@[simp] theorem oweReset_pending {x0} : (oweReset s x0).pending = s.pending := by fun_induction oweReset <;> simp_all

@[simp] theorem leaveAll_pending {x0} : (leaveAll s x0).pending = s.pending := by fun_induction leaveAll <;> simp_all

@[simp] theorem forgetPlot_pending {scrubbed} : (forgetPlot s scrubbed).pending = s.pending := by simp [forgetPlot]

@[simp] theorem failOpen_pending {k} : (failOpen s k).pending = s.pending := by
  unfold failOpen
  split <;> simp

@[simp] theorem checkOpen_pending : (checkOpen s).pending = s.pending := by
  unfold checkOpen
  split <;> simp

@[simp] theorem tryOpen_pending : (tryOpen s).pending = s.pending := by
  unfold tryOpen
  split <;> simp

@[simp] theorem enterPlot_pending {k goesOn} : (enterPlot s k goesOn).pending = s.pending := by simp [enterPlot]

@[simp] theorem enterMiswired_pending {k e} : (enterMiswired s k e).pending = s.pending := by simp [enterMiswired]

@[simp] theorem settle_pending {k goesOn} : (settle s k goesOn).pending = s.pending := by
  unfold settle
  split <;> simp

@[simp] theorem finishShake_pending {k} : (finishShake s k).pending = s.pending := by simp [finishShake]

@[simp] theorem handshakeOn_pending {k m} : (handshakeOn s k m).pending = s.pending := by simp [handshakeOn]

@[simp] theorem linkDownOn_pending {k reason} : (linkDownOn s k reason).pending = s.pending := by simp [linkDownOn]

@[simp] theorem blotDiscard_pending {k} : (blotDiscard s k).1.pending = s.pending := (rfl)

@[simp] theorem blotDown_pending {k after n} : (blotDown s k after n).pending = s.pending := by simp [blotDown]

@[simp] theorem blot_pending {k after} : (blot s k after).pending = s.pending := by simp [blot]

@[simp] theorem startTraining_pending {k} : (startTraining s k).pending = s.pending := (rfl)

@[simp] theorem noteLanes_pending {n mine termFault inverted reversed} : (noteLanes s n mine termFault inverted reversed).pending = s.pending := (rfl)

@[simp] theorem execTrainingComplete_pending {port sub ok reversed termFault inverted} :
    answers (execTrainingComplete port sub ok reversed termFault inverted s) fun t => t.pending = s.pending := by simp [execTrainingComplete]

@[simp] theorem execPenHolderWaitExpiry_pending {port sub} :
    answers (execPenHolderWaitExpiry port sub s) fun t => t.pending = s.pending := by simp [execPenHolderWaitExpiry]

@[simp] theorem execHandshake_pending {port sub m} : answers (execHandshake port sub m s) fun t => t.pending = s.pending := by simp [execHandshake]

@[simp] theorem execHandshakeTimer_pending {port sub} :
    answers (execHandshakeTimer port sub s) fun t => t.pending = s.pending := by simp [execHandshakeTimer]

@[simp] theorem beginLanes_pending {k lanes w opNum linkOp} : (beginLanes s k lanes w opNum linkOp).pending = s.pending := by simp [beginLanes]

@[simp] theorem penLanes_pending {k cap} : (penLanes s k cap).pending = s.pending := by simp [penLanes]

@[simp] theorem penNarrow_pending {k} : (penNarrow s k).pending = s.pending := by simp [penNarrow]

@[simp] theorem execLaneFault_pending {port sub lanes} :
    answers (execLaneFault port sub lanes s) fun t => t.pending = s.pending := by simp [execLaneFault]

@[simp] theorem narrowReqOn_pending {k lanes} : (narrowReqOn s k lanes).pending = s.pending := by simp [narrowReqOn]

@[simp] theorem narrowOn_pending {k lanes width opNum} : (narrowOn s k lanes width opNum).pending = s.pending := by simp [narrowOn]

@[simp] theorem resumeLanes_pending {k} : (resumeLanes s k).pending = s.pending := by simp [resumeLanes]

@[simp] theorem narrowDoneOn_pending {k opNum rx} : (narrowDoneOn s k opNum rx).pending = s.pending := by simp [narrowDoneOn]

@[simp] theorem execNarrowReq_pending {port sub lanes} :
    answers (execNarrowReq port sub lanes s) fun t => t.pending = s.pending := by simp [execNarrowReq]

@[simp] theorem execNarrow_pending {port sub lanes width opNum} :
    answers (execNarrow port sub lanes width opNum s) fun t => t.pending = s.pending := by simp [execNarrow]

@[simp] theorem execNarrowDone_pending {port sub opNum rxExpect} :
    answers (execNarrowDone port sub opNum rxExpect s) fun t => t.pending = s.pending := by simp [execNarrowDone]

@[simp] theorem execRealignDone_pending {port sub ok} :
    answers (execRealignDone port sub ok s) fun t => t.pending = s.pending := by simp [execRealignDone]

@[simp] theorem execLinkOpRepeatTimer_pending {port sub} :
    answers (execLinkOpRepeatTimer port sub s) fun t => t.pending = s.pending := by simp [execLinkOpRepeatTimer]

@[simp] theorem execLinkRetrain_pending {port sub} : answers (execLinkRetrain port sub s) fun t => t.pending = s.pending := by simp [execLinkRetrain]

@[simp] theorem refuseSubCtl_pending {n u v} : (refuseSubCtl s n u v).pending = s.pending := by simp [refuseSubCtl]

@[simp] theorem retrainOn_pending {n u} : (retrainOn s n u).pending = s.pending := by simp [retrainOn]

@[simp] theorem execRetrain_pending {port sub} : answers (execRetrain port sub s) fun t => t.pending = s.pending := by simp [execRetrain]

@[simp] theorem penWiden_pending {k mask} : (penWiden s k mask).pending = s.pending := by simp [penWiden]

@[simp] theorem widenOn_pending {n u} : (widenOn s n u).pending = s.pending := by simp [widenOn]

@[simp] theorem execWiden_pending {port sub} : answers (execWiden port sub s) fun t => t.pending = s.pending := by simp [execWiden]

@[simp] theorem execWidenReq_pending {port sub lanes} :
    answers (execWidenReq port sub lanes s) fun t => t.pending = s.pending := by simp [execWidenReq]

@[simp] theorem execLinkDown_pending {port sub} : answers (execLinkDown port sub s) fun t => t.pending = s.pending := by simp [execLinkDown]

@[simp] theorem execKeepaliveExpiry_pending {port sub} :
    answers (execKeepaliveExpiry port sub s) fun t => t.pending = s.pending := by simp [execKeepaliveExpiry]

@[simp] theorem execLinkUp_pending {port sub} : answers (execLinkUp port sub s) fun t => t.pending = s.pending := by simp [execLinkUp]

@[simp] theorem execDryTimeExpiry_pending {port sub} :
    answers (execDryTimeExpiry port sub s) fun t => t.pending = s.pending := by simp [execDryTimeExpiry]

@[simp] theorem serveFence_pending {ring seq port sub} : (serveFence s ring seq port sub).pending = s.pending := by simp [serveFence]

@[simp] theorem serveUnfence_pending {ring seq port sub} : (serveUnfence s ring seq port sub).pending = s.pending := by simp [serveUnfence]

/-! ### The definitions of Machine/SpanFrames -/

@[simp] theorem rejectGrain_pending {k header} : (rejectGrain s k header).pending = s.pending := by simp [rejectGrain]

@[simp] theorem telemetryOn_pending {k payload} : (telemetryOn s k payload).pending = s.pending := by simp [telemetryOn]

@[simp] theorem bulkOn_pending {k payload} : (bulkOn s k payload).pending = s.pending := by
  unfold bulkOn
  dsimp only
  repeat' split
  all_goals simp

@[simp] theorem servingGrain_pending {t rec_ report} : (servingGrain s t rec_ report).pending = s.pending := by
  unfold servingGrain
  repeat' split
  all_goals simp

@[simp] theorem commitGrainOn_pending {k sc t rec_ report} : (commitGrainOn s k sc t rec_ report).pending = s.pending := by simp [commitGrainOn]

@[simp] theorem onChannel_pending {k sc ty f} (hf : (f s).pending = s.pending) : (onChannel s k sc ty f).pending = s.pending := by
  simp [onChannel, hf]

@[simp] theorem grainOn_pending {k g} : (grainOn s k g).pending = s.pending := by
  unfold grainOn
  dsimp only
  repeat' split
  all_goals simp

@[simp] theorem linkGrainOn_pending {k mac g} : (linkGrainOn s k mac g).pending = s.pending := by simp [linkGrainOn]

@[simp] theorem dropGrain_pending {k} : (dropGrain s k).pending = s.pending := (rfl)

@[simp] theorem grainsOn_pending {k link mac gs} : (grainsOn s k link mac gs).pending = s.pending := by
  induction gs generalizing s with
  | nil => rfl
  | cons g gs ih => simp [grainsOn, ih]

@[simp] theorem execSpanFrame_pending {port sub f} : answers (execSpanFrame port sub f s) fun t => t.pending = s.pending := by simp [execSpanFrame]

@[simp] theorem grainRow_pending {port sub f} (hf : ∀ k, (f k s).pending = s.pending) :
    answers (grainRow port sub s f) fun t => t.pending = s.pending := by
  simp [grainRow, hf]

@[simp] theorem execData_pending {port sub chan drops} : answers (execData port sub chan drops s) fun t => t.pending = s.pending := by simp [execData]

@[simp] theorem execCommitGrain_pending {port sub chan step _count rec_ report} :
    answers (execCommitGrain port sub chan step _count rec_ report s) fun t => t.pending = s.pending := by simp [execCommitGrain]

@[simp] theorem execVoid_pending {port sub chan step _attempt} :
    answers (execVoid port sub chan step _attempt s) fun t => t.pending = s.pending := by simp [execVoid]

@[simp] theorem execCredit_pending {port sub entries} : answers (execCredit port sub entries s) fun t => t.pending = s.pending := by simp [execCredit]

@[simp] theorem execLaunch_pending {port sub payload} : answers (execLaunch port sub payload s) fun t => t.pending = s.pending := by simp [execLaunch]

@[simp] theorem execTelemetry_pending {port sub payload} :
    answers (execTelemetry port sub payload s) fun t => t.pending = s.pending := by simp [execTelemetry]

@[simp] theorem execBulkStart_pending {port sub epoch block length} :
    answers (execBulkStart port sub epoch block length s) fun t => t.pending = s.pending := by simp [execBulkStart]

@[simp] theorem execBulkData_pending {port sub payload} :
    answers (execBulkData port sub payload s) fun t => t.pending = s.pending := by simp [execBulkData]

@[simp] theorem execBulkAck_pending {port sub epoch block} :
    answers (execBulkAck port sub epoch block s) fun t => t.pending = s.pending := by simp [execBulkAck]

@[simp] theorem execBulkNack_pending {port sub epoch block position} :
    answers (execBulkNack port sub epoch block position s) fun t => t.pending = s.pending := by simp [execBulkNack]

theorem offerQueue_pending {k n q put t} (h : offerQueue s k n q put = some t) : t.pending = s.pending := by
  unfold offerQueue at h
  dsimp only at h
  split at h
  · cases h
  · cases h; simp

theorem offerControl_pending {k t} (h : offerControl s k = some t) : t.pending = s.pending := by
  unfold offerControl at h
  dsimp only at h
  repeat' split at h
  all_goals cases h
  all_goals simp

@[simp] theorem packFull_pending {k sc} : (packFull s k sc).pending = s.pending := by
  unfold packFull
  split <;> simp

theorem offerChan_pending {k sc n t} (h : offerChan s k sc n = some t) : t.pending = s.pending := by
  unfold offerChan at h
  dsimp only at h
  split at h
  · cases h
  · cases h; simp

theorem offer_pending {k r t} (h : offer s k r = some t) : t.pending = s.pending := by
  cases r with
  | control => exact offerControl_pending h
  | chan sc n => exact offerChan_pending (Option.ite_none_right_eq_some.mp h).2
  | telemetry n => exact offerQueue_pending (Option.ite_none_right_eq_some.mp h).2
  | bulk n => exact offerQueue_pending (Option.ite_none_right_eq_some.mp h).2

@[simp] theorem rotate_pending {k rot i n} : (rotate s k rot i n).pending = s.pending := by
  induction n generalizing s i with
  | zero => rfl
  | succ n ih =>
    unfold rotate
    dsimp only
    split
    · simpa using offer_pending ‹_›
    · simp [ih]

@[simp] theorem execFrameSend_pending {port sub} : answers (execFrameSend port sub s) fun t => t.pending = s.pending := by simp [execFrameSend]

@[simp] theorem execAckTimer_pending {port sub} : answers (execAckTimer port sub s) fun t => t.pending = s.pending := by simp [execAckTimer]

@[simp] theorem execReplayTimer_pending {port sub} : answers (execReplayTimer port sub s) fun t => t.pending = s.pending := by simp [execReplayTimer]

@[simp] theorem execReplayCaughtUp_pending {port sub} :
    answers (execReplayCaughtUp port sub s) fun t => t.pending = s.pending := by simp [execReplayCaughtUp]

@[simp] theorem execFlushTimer_pending {port sub chan} : answers (execFlushTimer port sub chan s) fun t => t.pending = s.pending := by
  unfold execFlushTimer
  dsimp only
  split <;> simp

@[simp] theorem execKeepaliveTimer_pending {port sub} :
    answers (execKeepaliveTimer port sub s) fun t => t.pending = s.pending := by simp [execKeepaliveTimer]

/-! ### The definitions of Machine/Plot -/

@[simp] theorem logOutOfService_pending : (logOutOfService s).pending = s.pending := by simp [logOutOfService]

@[simp] theorem shakeAll_pending {es} : (shakeAll s es).pending = s.pending := by
  induction es generalizing s with
  | nil => rfl
  | cons e es ih => simp [shakeAll, ih]

@[simp] theorem acceptOpen_pending {b es} : (acceptOpen s b es).pending = s.pending := by simp [acceptOpen]

@[simp] theorem openRead_pending {ring seq b host} : (openRead s ring seq b host).pending = s.pending := by
  unfold openRead
  dsimp only
  repeat' split
  all_goals simp

@[simp] theorem execOpenPlotWaitExpiry_pending : answers (execOpenPlotWaitExpiry s) fun t => t.pending = s.pending := by
  unfold execOpenPlotWaitExpiry
  repeat' split
  all_goals simp

@[simp] theorem dropPending_pending {r} : (dropPending s r).pending = s.pending := by simp [dropPending]

@[simp] theorem dropAllPending_pending {x0} : (dropAllPending s x0).pending = s.pending := by fun_induction dropAllPending <;> simp_all

@[simp] theorem dropLoads_pending : (dropLoads s).pending = s.pending := by
  unfold dropLoads
  refine (foldl_pending fun _ _ => failJob_pending).trans ((foldl_pending fun t m => ?_).trans (foldl_pending fun _ _ => complete_pending))
  split
  · simp
  · rfl

@[simp] theorem dropSheetLoad_pending : (dropSheetLoad s).pending = s.pending := by
  unfold dropSheetLoad
  split <;> simp

@[simp] theorem dropWaiters_pending : (dropWaiters s).pending = s.pending := by
  unfold dropWaiters
  dsimp only
  repeat' split
  all_goals simp

@[simp] theorem abortStep_pending : (abortStep s).pending = s.pending := by simp [abortStep]

@[simp] theorem sendQueued_pending {k n} : (sendQueued s k n).pending = s.pending := by
  induction n generalizing s with
  | zero => rfl
  | succ n ih =>
    unfold sendQueued
    dsimp only
    split
    · split
      · exact ih.trans (offerQueue_pending ‹_›)
      · rfl
    · rfl

@[simp] theorem sendNotices_pending {x0} : (sendNotices s x0).pending = s.pending := by fun_induction sendNotices <;> simp_all

@[simp] theorem serveClose_pending {ring seq flags} : (serveClose s ring seq flags).pending = s.pending := by simp [serveClose]

@[simp] theorem repairRow_pending {kind k row st} : (repairRow s kind k row st).pending = s.pending := by simp [repairRow]

@[simp] theorem repairRows_pending {kind k st x0} : (repairRows s kind k st x0).pending = s.pending := by fun_induction repairRows <;> simp_all

@[simp] theorem repairPending_pending {kind st x0} : (repairPending s kind st x0).pending = s.pending := by fun_induction repairPending <;> simp_all

@[simp] theorem serveScrub_pending {ring seq} : (serveScrub s ring seq).pending = s.pending := by simp [serveScrub]

@[simp] theorem eraseTenant_pending : (eraseTenant s).pending = s.pending := (rfl)

@[simp] theorem execScrubComplete_pending {ms badChannel} : answers (execScrubComplete ms badChannel s) fun t => t.pending = s.pending := by
  unfold execScrubComplete
  repeat' split
  all_goals simp

/-! ### The definitions of Machine/Timebase -/

@[simp] theorem refSwitch_pending {r} : (refSwitch s r).pending = s.pending := by simp [refSwitch]

@[simp] theorem refRevert_pending : (refRevert s).pending = s.pending := by simp [refRevert]

@[simp] theorem tickWatch_pending : (tickWatch s).pending = s.pending := by simp [tickWatch]

@[simp] theorem tick_pending : (tick s).pending = s.pending := by simp [tick]

@[simp] theorem execTimeSetLoad_pending : answers (execTimeSetLoad s) fun t => t.pending = s.pending := by simp [execTimeSetLoad]

@[simp] theorem execPhaseStepApply_pending : answers (execPhaseStepApply s) fun t => t.pending = s.pending := by simp [execPhaseStepApply]

@[simp] theorem execTbaseNowRead_pending : answers (execTbaseNowRead s) fun t => t.pending = s.pending := by simp [execTbaseNowRead]

@[simp] theorem answerTimeReads_pending : (answerTimeReads s).pending = s.pending := by
  unfold answerTimeReads
  dsimp only
  split <;> simp

@[simp] theorem refuseTime_pending {off val} : (refuseTime s off val).pending = s.pending := by simp [refuseTime]

@[simp] theorem execRefFail_pending {r} : answers (execRefFail r s) fun t => t.pending = s.pending := by simp [execRefFail]

@[simp] theorem execRefPass_pending {r} : answers (execRefPass r s) fun t => t.pending = s.pending := by simp [execRefPass]

@[simp] theorem execHoldoverBoundTick_pending : answers (execHoldoverBoundTick s) fun t => t.pending = s.pending := by simp [execHoldoverBoundTick]

@[simp] theorem logStop_pending {region ns} : (logStop s region ns).pending = s.pending := by simp [logStop]

@[simp] theorem relockEnd_pending {ns} : (relockEnd s ns).pending = s.pending := by simp [relockEnd]

@[simp] theorem execRegionStopEnd_pending {region ns} :
    answers (execRegionStopEnd region ns s) fun t => t.pending = s.pending := by simp [execRegionStopEnd]

@[simp] theorem ppsFault_pending {st} : (ppsFault s st).pending = s.pending := by simp [ppsFault]

@[simp] theorem execPpsInEdge_pending : answers (execPpsInEdge s) fun t => t.pending = s.pending := by simp [execPpsInEdge]

@[simp] theorem execPpsStuck_pending : answers (execPpsStuck s) fun t => t.pending = s.pending := by simp [execPpsStuck]

@[simp] theorem execPpsOutSecond_pending : answers (execPpsOutSecond s) fun t => t.pending = s.pending := by simp [execPpsOutSecond]

@[simp] theorem execPpsOutFall_pending : answers (execPpsOutFall s) fun t => t.pending = s.pending := by simp [execPpsOutFall]

/-! ### The definitions of Machine/RegWrite -/

@[simp] theorem dropWrite_pending {off v} : (dropWrite s off v).pending = s.pending := by simp [dropWrite]

@[simp] theorem refuseRange_pending {off v} : (refuseRange s off v).pending = s.pending := by simp [refuseRange]

@[simp] theorem refuseSpan_pending {n off v} : (refuseSpan n s off v).pending = s.pending := by simp [refuseSpan]

@[simp] theorem refuseNoUnit_pending {cause} : (refuseNoUnit s cause).pending = s.pending := by simp [refuseNoUnit]

@[simp] theorem refuseRws_pending : (refuseRws s).pending = s.pending := by simp [refuseRws]

@[simp] theorem refuseLive_pending : (refuseLive s).pending = s.pending := by simp [refuseLive]

@[simp] theorem putCfg_pending {off v} : (putCfg s off v).pending = s.pending := (rfl)

@[simp] theorem writeRws_pending {off v ok out} (ho : (out s off v).pending = s.pending) : (writeRws s off v ok out).pending = s.pending := by
  simp [writeRws, ho]

@[simp] theorem irqClear_pending {v} : (irqClear s v).pending = s.pending := (rfl)

@[simp] theorem execIrqClear_pending {mask} : answers (execIrqClear mask s) fun t => t.pending = s.pending := ⟨_, rfl, rfl⟩

@[simp] theorem writeMbox_pending {o v} : (writeMbox s o v).pending = s.pending := by simp [writeMbox]

@[simp] theorem writeTimeCtl_pending {v} : (writeTimeCtl s v).pending = s.pending := by simp [writeTimeCtl]

@[simp] theorem writeServo_pending {o v owner} : (writeServo s o v owner).pending = s.pending := by simp [writeServo]

@[simp] theorem writeTbase_pending {o v owner} : (writeTbase s o v owner).pending = s.pending := by simp [writeTbase]

@[simp] theorem writePace_pending {o v} : (writePace s o v).pending = s.pending := by simp [writePace]

@[simp] theorem writeLaunch_pending {o v} : (writeLaunch s o v).pending = s.pending := by simp [writeLaunch]

@[simp] theorem trainSubs_pending {n us} : (trainSubs s n us).pending = s.pending := by
  induction us generalizing s with
  | nil => rfl
  | cons u us ih => simp [trainSubs, ih]

@[simp] theorem disableSubs_pending {n us} : (disableSubs s n us).pending = s.pending := by
  induction us generalizing s with
  | nil => rfl
  | cons u us ih => simp [disableSubs, ih]

@[simp] theorem writeSpanCfg_pending {n v} : (writeSpanCfg s n v).pending = s.pending := by simp [writeSpanCfg]

@[simp] theorem writeSubCtl_pending {n u v} : (writeSubCtl s n u v).pending = s.pending := by simp [writeSubCtl]

@[simp] theorem writeSpan_pending {n o v} : (writeSpan s n o v).pending = s.pending := by simp [writeSpan]

@[simp] theorem writeLedger_pending {o v} : (writeLedger s o v).pending = s.pending := by simp [writeLedger]

@[simp] theorem saltWrite_pending {t salt} : (saltWrite s t salt).pending = s.pending := by
  obtain ⟨u, hu, hp⟩ := execSaltWrite_pending (s := s) (tenant := BitVec.ofNat 12 t) (salt := salt)
  simp [saltWrite, hu, hp]

@[simp] theorem writeSieve_pending {o v} : (writeSieve s o v).pending = s.pending := by simp [writeSieve]

@[simp] theorem writeDdrCtl_pending {m v} : (writeDdrCtl s m v).pending = s.pending := by
  unfold writeDdrCtl
  dsimp only
  repeat' split
  all_goals simp only [refuseRws_pending, refuseRange_pending, rateReqOn_pending, putCfg_pending]

@[simp] theorem writeMemc_pending {o v} : (writeMemc s o v).pending = s.pending := by simp [writeMemc]

@[simp] theorem alarmClear_pending {mask} : (alarmClear s mask).pending = s.pending := (rfl)

@[simp] theorem execAlarmClear_pending {mask} : answers (execAlarmClear mask s) fun t => t.pending = s.pending := ⟨_, rfl, rfl⟩

@[simp] theorem clearCounts_pending : (clearCounts s).pending = s.pending := (rfl)

@[simp] theorem execClearCounts_pending : answers (execClearCounts s) fun t => t.pending = s.pending := ⟨_, rfl, rfl⟩

@[simp] theorem blotPut_pending {off v w ok} : (blotPut s off v w ok).pending = s.pending := by simp [blotPut]

@[simp] theorem writeBlot_pending {o v} : (writeBlot s o v).pending = s.pending := by simp [writeBlot]

@[simp] theorem regWriteCore_pending {o v owner} : (regWriteCore s o v owner).pending = s.pending := by simp [regWriteCore]

/-! ### The definitions of Machine/Update -/

@[simp] theorem startImage_pending {t bank ready} : (startImage s t bank ready).pending = s.pending := by simp [startImage]

@[simp] theorem startTrial_pending {t} : (startTrial s t).pending = s.pending := by simp [startTrial]

@[simp] theorem fallBackHdr_pending {t} : (fallBackHdr s t).pending = s.pending := by simp [fallBackHdr]

@[simp] theorem readLoam_pending : (readLoam s).pending = s.pending := by
  unfold readLoam
  dsimp only
  split <;> simp

@[simp] theorem retrainAll_pending {x0} : (retrainAll s x0).pending = s.pending := by fun_induction retrainAll <;> simp_all

@[simp] theorem fallBack_pending {t} : (fallBack s t).pending = s.pending := by
  unfold fallBack
  dsimp only
  split <;> simp

@[simp] theorem convertRecs_pending {fmt room rs} : (convertRecs s fmt room rs).2.pending = s.pending := by
  induction rs generalizing s room with
  | nil => rfl
  | cons r rs ih =>
    unfold convertRecs
    dsimp only
    split <;> simp [ih]

@[simp] theorem convertLoam_pending : (convertLoam s).pending = s.pending := by simp [convertLoam]

@[simp] theorem execFirmwareReady_pending {target} : answers (execFirmwareReady target s) fun t => t.pending = s.pending := by
  unfold execFirmwareReady
  dsimp only
  repeat' split
  all_goals simp

@[simp] theorem execTrialReadyTimeout_pending {target} :
    answers (execTrialReadyTimeout target s) fun t => t.pending = s.pending := by simp [execTrialReadyTimeout]

@[simp] theorem serveUpdateBegin_pending {ring seq target version length blocks digest} :
    (serveUpdateBegin s ring seq target version length blocks digest).pending = s.pending := by simp [serveUpdateBegin]

@[simp] theorem closeUpdate_pending : (closeUpdate s).pending = s.pending := (rfl)

theorem applyBlock_pending {u i b t} (h : applyBlock s u i b = .inr t) : t.pending = s.pending := by
  unfold applyBlock at h
  dsimp only at h
  repeat' split at h
  all_goals cases h
  all_goals simp

@[simp] theorem serveUpdateBlock_pending {ring seq index host length digest} :
    (serveUpdateBlock s ring seq index host length digest).pending = s.pending := by
  unfold serveUpdateBlock
  split <;> simp

@[simp] theorem updateBlockRead_pending {ring seq index host length digest view} :
    (updateBlockRead s ring seq index host length digest view).pending = s.pending := by
  unfold updateBlockRead
  dsimp only
  repeat' split
  all_goals simp
  exact applyBlock_pending ‹_›

@[simp] theorem activateImage_pending {ring seq target} : (activateImage s ring seq target).pending = s.pending := by simp [activateImage]

@[simp] theorem activateLoamImage_pending {ring seq u} : (activateLoamImage s ring seq u).pending = s.pending := by simp [activateLoamImage]

@[simp] theorem serveUpdateActivate_pending {ring seq target} : (serveUpdateActivate s ring seq target).pending = s.pending := by
  unfold serveUpdateActivate
  repeat' split
  all_goals simp

@[simp] theorem serveUpdateConfirm_pending {ring seq} : (serveUpdateConfirm s ring seq).pending = s.pending := by simp [serveUpdateConfirm]

/-! ### The definitions of Machine/Boot -/

theorem bootBank_pending {t bank u} (h : bootBank s t bank = some u) : u.pending = s.pending := by
  unfold bootBank at h
  repeat' split at h
  all_goals cases h
  all_goals simp

@[simp] theorem bootHeader_pending {t} : (bootHeader s t).pending = s.pending := by simp [bootHeader]

theorem bootTarget_pending {t u} (h : bootTarget s t = some u) : u.pending = s.pending := by
  unfold bootTarget at h
  split at h
  · cases h; simp
  · exact bootBank_pending h

@[simp] theorem bootTargets_pending {ts} : (bootTargets s ts).1.pending = s.pending := by
  induction ts generalizing s with
  | nil => rfl
  | cons t ts ih =>
    unfold bootTargets
    split
    · exact (ih.trans (bootTarget_pending ‹_›)).trans bootHeader_pending
    · exact bootHeader_pending

@[simp] theorem namedImages_pending : (namedImages s).pending = s.pending := by simp [namedImages]

@[simp] theorem loamResets_pending : (loamResets s).pending = s.pending := (rfl)

@[simp] theorem loamPorts_pending {p x0} : (loamPorts p s x0).pending = s.pending := by fun_induction loamPorts <;> simp_all

@[simp] theorem loamMacs_pending {base x0} : (loamMacs base s x0).pending = s.pending := by fun_induction loamMacs <;> simp_all

@[simp] theorem loamApply_pending {r} : (loamApply s r).pending = s.pending := by
  unfold loamApply
  split <;> simp

@[simp] theorem bootLoam_pending : (bootLoam s).pending = s.pending := by simp [bootLoam]

@[simp] theorem linkTrained_pending {width} : (linkTrained s width).pending = s.pending := (rfl)

@[simp] theorem bootRails_pending {ok} : (bootRails s ok).pending = s.pending := by simp [bootRails]

@[simp] theorem bootPolicy_pending : (bootPolicy s).pending = s.pending := (rfl)

@[simp] theorem bootStack_pending {k v} : (bootStack s k v).pending = s.pending := by simp [bootStack]

@[simp] theorem bootStacks_pending {k x0} : (bootStacks s k x0).pending = s.pending := by fun_induction bootStacks <;> simp_all

@[simp] theorem bootDimm_pending {m v} : (bootDimm s m v).pending = s.pending := by simp [bootDimm]

@[simp] theorem bootDimms_pending {m x0} : (bootDimms s m x0).pending = s.pending := by fun_induction bootDimms <;> simp_all

@[simp] theorem trainPart_pending {old m} : (trainPart s old m).2.pending = s.pending := by
  unfold trainPart
  dsimp only
  repeat' split
  all_goals simp

@[simp] theorem trainParts_pending {old m n} : (trainParts s old m n).2.pending = s.pending := by
  induction n generalizing s m with
  | zero => rfl
  | succ n ih => simp [trainParts, ih]

@[simp] theorem storeTraining_pending : (storeTraining s).pending = s.pending := by
  unfold storeTraining
  dsimp only
  split <;> simp

@[simp] theorem recordFailing_pending {x0} : (recordFailing s x0).pending = s.pending := by fun_induction recordFailing <;> simp_all

@[simp] theorem execSelfTest_pending {failing} : answers (execSelfTest failing s) fun t => t.pending = s.pending := by simp [execSelfTest]

@[simp] theorem enterBedrock_pending {v cause} : (enterBedrock s v cause).pending = s.pending := (rfl)

@[simp] theorem trainPorts_pending {x0} : (trainPorts s x0).pending = s.pending := by fun_induction trainPorts <;> simp_all

@[simp] theorem noteOutOfService_pending : (noteOutOfService s).pending = s.pending := by simp [noteOutOfService]

@[simp] theorem bootService_pending {v} : (bootService s v).pending = s.pending := by simp [bootService]

@[simp] theorem bootRom_pending {v} : (bootRom s v).pending = s.pending := by
  unfold bootRom
  split
  · exact enterBedrock_pending
  · extract_lets s1
    split
    · simp [s1]
    · extract_lets s2 _ s3 _ s4 s5
      have h5 : s5.1.pending = s.pending := by simp [s5, s4, s3, s2, s1]
      split
      · simp [s2, s1]
      · split
        · simp [s3, s2, s1]
        · split <;> simp [h5]

@[simp] theorem execResetNRelease_pending {v} : answers (execResetNRelease v s) fun t => t.pending = s.pending := by
  unfold execResetNRelease
  dsimp only
  split
  · simp
  · split
    · simp
    · split <;> simp

@[simp] theorem execReferenceWaitAlert_pending : answers (execReferenceWaitAlert s) fun t => t.pending = s.pending := by simp [execReferenceWaitAlert]

/-! ### The definitions of Machine/Grants -/

@[simp] theorem shakeBlotted_pending {x0} : (shakeBlotted s x0).pending = s.pending := by fun_induction shakeBlotted <;> simp_all

@[simp] theorem afterResume_pending : (afterResume s).pending = s.pending := by simp [afterResume]

@[simp] theorem takeGrant_pending {b} : (takeGrant s b).1.pending = s.pending := by
  unfold takeGrant
  split <;> simp

@[simp] theorem endGrant_pending {why} : (endGrant s why).pending = s.pending := by simp [endGrant]

@[simp] theorem execGrantExpiry_pending : answers (execGrantExpiry s) fun t => t.pending = s.pending := by simp [execGrantExpiry]

@[simp] theorem tapSelect_pending {ir} : (tapSelect s ir).pending = s.pending := (rfl)

@[simp] theorem execTapGrant_pending {grant} : answers (execTapGrant grant s) fun t => t.pending = s.pending := by simp [execTapGrant]

@[simp] theorem debugGrantRead_pending {ring seq addr length view} :
    (debugGrantRead s ring seq addr length view).pending = s.pending := by simp [debugGrantRead]

theorem debugGrantAtOnce_pending {ring seq addr length t} (h : debugGrantAtOnce s ring seq addr length = some t) : t.pending = s.pending := by
  unfold debugGrantAtOnce at h
  repeat' split at h
  all_goals cases h
  all_goals simp

/-! ### The definitions of Machine/Power -/

@[simp] theorem resetDevice_pending {mem phase pwrgood} : (resetDevice s mem phase pwrgood).pending = s.pending := (rfl)

@[simp] theorem execPowerUp_pending : answers (execPowerUp s) fun t => t.pending = s.pending := ⟨_, rfl, rfl⟩

@[simp] theorem execPwrgoodAssert_pending : answers (execPwrgoodAssert s) fun t => t.pending = s.pending := by simp [execPwrgoodAssert]

@[simp] theorem execPwrgoodFall_pending : answers (execPwrgoodFall s) fun t => t.pending = s.pending := ⟨_, rfl, rfl⟩

@[simp] theorem poweredReset_pending : (poweredReset s).pending = s.pending := by simp [poweredReset]

@[simp] theorem execRailFault_pending {_rail} : answers (execRailFault _rail s) fun t => t.pending = s.pending := by simp [execRailFault]

@[simp] theorem execWarmReset_pending : answers (execWarmReset s) fun t => t.pending = s.pending := by simp [execWarmReset]

@[simp] theorem execThermalTrip_pending {sensor tempC} :
    answers (execThermalTrip sensor tempC s) fun t => t.pending = s.pending := by simp [execThermalTrip]

@[simp] theorem execControllerLost_pending {target die} :
    answers (execControllerLost target die s) fun t => t.pending = s.pending := by simp [execControllerLost]

@[simp] theorem bedDone_pending {err} : (bedDone s err).pending = s.pending := (rfl)

@[simp] theorem bedBegin_pending {item} : (bedBegin s item).pending = s.pending := by simp [bedBegin]

@[simp] theorem bedChunk_pending {item} : (bedChunk s item).pending = s.pending := by
  unfold bedChunk
  split <;> simp

@[simp] theorem bedEnd_pending {item} : (bedEnd s item).pending = s.pending := by
  unfold bedEnd
  repeat' split
  all_goals simp

@[simp] theorem execBedrockBegin_pending {item} : answers (execBedrockBegin item s) fun t => t.pending = s.pending := by simp [execBedrockBegin]

@[simp] theorem execBedrockChunk_pending {item} : answers (execBedrockChunk item s) fun t => t.pending = s.pending := by simp [execBedrockChunk]

@[simp] theorem execBedrockEnd_pending {item} : answers (execBedrockEnd item s) fun t => t.pending = s.pending := by simp [execBedrockEnd]

@[simp] theorem execBedrockRestart_pending : answers (execBedrockRestart s) fun t => t.pending = s.pending := by simp [execBedrockRestart]

@[simp] theorem bedCmd_pending {v} : (bedCmd s v).pending = s.pending := by
  unfold bedCmd
  split <;> simp

@[simp] theorem writeBedrock_pending {o v} : (writeBedrock s o v).pending = s.pending := by simp [writeBedrock]

/-! ### The definitions of Machine/Query -/

@[simp] theorem serveTimeSet_pending {ring seq sec ns frac} : (serveTimeSet s ring seq sec ns frac).pending = s.pending := by simp [serveTimeSet]

@[simp] theorem serveTimeAdjust_pending {ring seq valid incr offset boundNs servo} :
    (serveTimeAdjust s ring seq valid incr offset boundNs servo).pending = s.pending := by simp [serveTimeAdjust]

@[simp] theorem serveQuery_pending {ring seq what index count dest len} :
    (serveQuery s ring seq what index count dest len).pending = s.pending := by
  unfold serveQuery
  repeat' split
  all_goals simp

@[simp] theorem serveDrain_pending {ring seq classes dest len} : (serveDrain s ring seq classes dest len).pending = s.pending := by simp [serveDrain]

@[simp] theorem serveQuote_pending {ring seq nonce dest len} : (serveQuote s ring seq nonce dest len).pending = s.pending := by simp [serveQuote]

/-! ### The definitions of Machine/Serve -/

@[simp] theorem park_pending {ring seq cmd} : (park s ring seq cmd).pending = s.pending := (rfl)

@[simp] theorem serveOpenPlot_pending {ring seq b view} : (serveOpenPlot s ring seq b view).pending = s.pending := by
  unfold serveOpenPlot
  repeat' split
  all_goals simp

@[simp] theorem serveDebugGrant_pending {ring seq addr length view} : (serveDebugGrant s ring seq addr length view).pending = s.pending := by
  unfold serveDebugGrant
  repeat' split
  · exact debugGrantAtOnce_pending ‹_›
  all_goals simp

@[simp] theorem serveCmd_pending {ring seq c view} : (serveCmd s ring seq c view).pending = s.pending := by
  unfold serveCmd
  split <;> simp

@[simp] theorem submit_pending {ring seq c view} : (submit s ring seq c view).pending = s.pending := by simp [submit]

@[simp] theorem takeEntry_pending {ring} : (takeEntry s ring).pending = s.pending := (rfl)

@[simp] theorem readEntry_pending {ring e view} : (readEntry s ring e view).pending = s.pending := by simp [readEntry]

@[simp] theorem stall_pending {ring found} : (stall s ring found).pending = s.pending := by simp [stall]

@[simp] theorem readOver_pending {x} : (readOver s x).pending = s.pending := (rfl)

@[simp] theorem entryLost_pending {r} : (entryLost s r).pending = s.pending := (rfl)

@[simp] theorem readOn_pending {ring view x0} : (readOn s ring view x0).pending = s.pending := by fun_induction readOn <;> simp_all

@[simp] theorem doorbellOn_pending {ring tail view} : (doorbellOn s ring tail view).pending = s.pending := by simp [doorbellOn]

@[simp] theorem execDoorbell_pending {ring tail host} :
    answers (execDoorbell ring tail host s) fun t => t.pending = s.pending := by simp [execDoorbell]

@[simp] theorem execRingWaitResume_pending {ring host} :
    answers (execRingWaitResume ring host s) fun t => t.pending = s.pending := by simp [execRingWaitResume]

@[simp] theorem rowCmd_pending {ring c view} : answers (rowCmd ring c view s) fun t => t.pending = s.pending := by simp [rowCmd]

@[simp] theorem execOpenPlot_pending {ring b host} : answers (execOpenPlot ring b host s) fun t => t.pending = s.pending := by simp [execOpenPlot]

@[simp] theorem execClosePlot_pending {ring flags} : answers (execClosePlot ring flags s) fun t => t.pending = s.pending := by simp [execClosePlot]

@[simp] theorem execScrub_pending {ring} : answers (execScrub ring s) fun t => t.pending = s.pending := by simp [execScrub]

@[simp] theorem execLoadSheet_pending {ring host length digest} :
    answers (execLoadSheet ring host length digest s) fun t => t.pending = s.pending := by simp [execLoadSheet]

@[simp] theorem execFlipSheet_pending {ring} : answers (execFlipSheet ring s) fun t => t.pending = s.pending := by simp [execFlipSheet]

@[simp] theorem execArm_pending {ring digest r} : answers (execArm ring digest r s) fun t => t.pending = s.pending := by simp [execArm]

@[simp] theorem execCommit_pending {ring sec ns} : answers (execCommit ring sec ns s) fun t => t.pending = s.pending := by simp [execCommit]

@[simp] theorem execAdmit_pending {ring b} : answers (execAdmit ring b s) fun t => t.pending = s.pending := by simp [execAdmit]

@[simp] theorem execCancel_pending {ring slot rid} : answers (execCancel ring slot rid s) fun t => t.pending = s.pending := by simp [execCancel]

@[simp] theorem execPause_pending {ring slot rid} : answers (execPause ring slot rid s) fun t => t.pending = s.pending := by simp [execPause]

@[simp] theorem execResume_pending {ring slot rid} : answers (execResume ring slot rid s) fun t => t.pending = s.pending := by simp [execResume]

@[simp] theorem execSetDeadline_pending {ring slot rid sec ns} :
    answers (execSetDeadline ring slot rid sec ns s) fun t => t.pending = s.pending := by simp [execSetDeadline]

@[simp] theorem execCheckpoint_pending {ring step kind addr len} :
    answers (execCheckpoint ring step kind addr len s) fun t => t.pending = s.pending := by simp [execCheckpoint]

@[simp] theorem execRestore_pending {ring kind addr len digest} :
    answers (execRestore ring kind addr len digest s) fun t => t.pending = s.pending := by simp [execRestore]

@[simp] theorem execTimeSet_pending {ring sec ns frac} :
    answers (execTimeSet ring sec ns frac s) fun t => t.pending = s.pending := by simp [execTimeSet]

@[simp] theorem execTimeAdjust_pending {ring valid incr offset boundNs servo} :
    answers (execTimeAdjust ring valid incr offset boundNs servo s) fun t => t.pending = s.pending := by simp [execTimeAdjust]

@[simp] theorem execQuery_pending {ring what index count dest len} :
    answers (execQuery ring what index count dest len s) fun t => t.pending = s.pending := by simp [execQuery]

@[simp] theorem execBlotterDrain_pending {ring classes dest len} :
    answers (execBlotterDrain ring classes dest len s) fun t => t.pending = s.pending := by simp [execBlotterDrain]

@[simp] theorem execFencePort_pending {ring port sub} :
    answers (execFencePort ring port sub s) fun t => t.pending = s.pending := by simp [execFencePort]

@[simp] theorem execUnfencePort_pending {ring port sub} :
    answers (execUnfencePort ring port sub s) fun t => t.pending = s.pending := by simp [execUnfencePort]

@[simp] theorem execLoadManifest_pending {ring b} : answers (execLoadManifest ring b s) fun t => t.pending = s.pending := by simp [execLoadManifest]

@[simp] theorem execLoadBlock_pending {ring epoch block host length} :
    answers (execLoadBlock ring epoch block host length s) fun t => t.pending = s.pending := by simp [execLoadBlock]

@[simp] theorem execActivateEpoch_pending {ring epoch mode} :
    answers (execActivateEpoch ring epoch mode s) fun t => t.pending = s.pending := by simp [execActivateEpoch]

@[simp] theorem execUpdateBegin_pending {ring target version length blocks digest} :
    answers (execUpdateBegin ring target version length blocks digest s) fun t => t.pending = s.pending := by simp [execUpdateBegin]

@[simp] theorem execUpdateBlock_pending {ring index host length digest} :
    answers (execUpdateBlock ring index host length digest s) fun t => t.pending = s.pending := by simp [execUpdateBlock]

@[simp] theorem execUpdateActivate_pending {ring target} :
    answers (execUpdateActivate ring target s) fun t => t.pending = s.pending := by simp [execUpdateActivate]

@[simp] theorem execUpdateConfirm_pending {ring} : answers (execUpdateConfirm ring s) fun t => t.pending = s.pending := by simp [execUpdateConfirm]

@[simp] theorem execAttestQuote_pending {ring nonce dest len} :
    answers (execAttestQuote ring nonce dest len s) fun t => t.pending = s.pending := by simp [execAttestQuote]

@[simp] theorem execDebugGrant_pending {ring addr length host} :
    answers (execDebugGrant ring addr length host s) fun t => t.pending = s.pending := by simp [execDebugGrant]

@[simp] theorem serveRing_pending {r view x0} : (serveRing s r view x0).pending = s.pending := by fun_induction serveRing <;> simp_all

@[simp] theorem serveRings_pending {view x0} : (serveRings s view x0).pending = s.pending := by fun_induction serveRings <;> simp_all

@[simp] theorem flipAtBoundary_pending : (flipAtBoundary s).pending = s.pending := by simp [flipAtBoundary]

@[simp] theorem applyBlocks_pending {x0} : (applyBlocks s x0).pending = s.pending := by fun_induction applyBlocks <;> simp_all

@[simp] theorem applyCame_pending : (applyCame s).pending = s.pending := by simp [applyCame]

@[simp] theorem execStepBoundary_pending {host} : answers (execStepBoundary host s) fun t => t.pending = s.pending := by simp [execStepBoundary]

/-! ### The definitions of Machine/HostAcc -/

@[simp] theorem regWrite_pending {o v} : (regWrite s o v).pending = s.pending := by
  unfold regWrite
  repeat' split
  all_goals simp

@[simp] theorem execRegisterWrite_pending {offset value} :
    answers (execRegisterWrite offset value s) fun t => t.pending = s.pending := by simp [execRegisterWrite]

@[simp] theorem writePart_pending {o part} : (writePart s o part).pending = s.pending := by simp [writePart]

@[simp] theorem writePacket_pending {o data x0} : (writePacket s o data x0).pending = s.pending := by fun_induction writePacket <;> simp_all

@[simp] theorem hostAnswer_pending {r} : (hostAnswer s r).pending = s.pending := (rfl)

@[simp] theorem refuseAccess_pending {a} : (refuseAccess s a).pending = s.pending := by simp [refuseAccess]

@[simp] theorem windowWrite_pending {a data} : (windowWrite s a data).pending = s.pending := by simp [windowWrite]

@[simp] theorem overLogs_pending {a bs} : (overLogs s a bs).pending = s.pending := (rfl)

@[simp] theorem directWrite_pending {a bs} : (directWrite s a bs).pending = s.pending := by simp [directWrite]

@[simp] theorem stratumAccess_pending {write a data ue} : (stratumAccess s write a data ue).pending = s.pending := by
  unfold stratumAccess
  repeat' split
  all_goals simp only [refuseLive_pending, refuseAccess_pending, hostAnswer_pending, directWrite_pending, noteUncorrectable_pending]

@[simp] theorem hostAccess_pending {write a data ue} : (hostAccess s write a data ue).pending = s.pending := by
  unfold hostAccess
  split <;> simp

@[simp] theorem execHostAccess_pending {write addr data uncorrectable} :
    answers (execHostAccess write addr data uncorrectable s) fun t => t.pending = s.pending := by simp [execHostAccess]

@[simp] theorem execHostWritePacket_pending {addr data} :
    answers (execHostWritePacket addr data s) fun t => t.pending = s.pending := by simp [execHostWritePacket]

@[simp] theorem execHostLinkDown_pending : answers (execHostLinkDown s) fun t => t.pending = s.pending := ⟨_, rfl, rfl⟩

@[simp] theorem execHostLinkUp_pending {width} : answers (execHostLinkUp width s) fun t => t.pending = s.pending := by simp [execHostLinkUp]

@[simp] theorem adapterTrains_pending : (adapterTrains s).pending = s.pending := by simp [adapterTrains]

@[simp] theorem dropRead_pending {ring seq} : (dropRead s ring seq).pending = s.pending := (rfl)

@[simp] theorem dataCame_pending {r host} : (dataCame s r host).pending = s.pending := by
  unfold dataCame
  split <;> simp

@[simp] theorem execHostReadComplete_pending {ring seq host} : answers (execHostReadComplete ring seq host s) fun t => t.pending = s.pending := by
  unfold execHostReadComplete
  dsimp only
  repeat' split
  all_goals simp

@[simp] theorem longTimeout_pending {ring seq} : (longTimeout s ring seq).pending = s.pending := by simp [longTimeout]

@[simp] theorem execLinkTimeout_pending {ring seq} : answers (execLinkTimeout ring seq s) fun t => t.pending = s.pending := by
  unfold execLinkTimeout
  dsimp only
  repeat' split
  all_goals simp

@[simp] theorem commandLost_pending {a} : (commandLost s a).pending = s.pending := by
  unfold commandLost
  repeat' split
  all_goals simp

@[simp] theorem mpReadFails_pending {a} : (mpReadFails s a).pending = s.pending := by
  unfold mpReadFails
  split <;> simp

@[simp] theorem execMemoryUncorrectable_pending {addr requester index} :
    answers (execMemoryUncorrectable addr requester index s) fun t => t.pending = s.pending := by simp [execMemoryUncorrectable]

/-! ### The definitions of Machine/Transfer -/

theorem xmovTake_pending {x v skip inp i r} (h : xmovTake x v skip inp i s = some r) : r.2.pending = s.pending := by
  unfold xmovTake at h
  split at h
  · split at h
    · cases h
    · cases h
      exact takeDrops_pending
  · cases h
    rfl

theorem xmovGive_pending {c x v skip outp i d t} (h : xmovGive c x v skip outp i d s = some t) : t.pending = s.pending := by
  unfold xmovGive at h
  dsimp only at h
  repeat' split at h
  all_goals cases h
  all_goals simp

@[simp] theorem xmovGo_pending {c x v skip inp outp n i h} : (xmovGo c x v skip inp outp n i h s).1.pending = s.pending := by
  induction n generalizing s i h with
  | zero => rfl
  | succ n ih =>
    unfold xmovGo
    split
    · rfl
    · next d s1 hd =>
      have h1 : s1.pending = s.pending := by
        split at hd
        · cases hd; rfl
        · exact xmovTake_pending hd
      split
      · exact h1
      · exact ih.trans ((xmovGive_pending ‹_›).trans h1)

@[simp] theorem xmovAdvance_pending {c j x b} : (xmovAdvance s c j x b).pending = s.pending := by
  unfold xmovAdvance
  dsimp only
  repeat' split
  all_goals simp

@[simp] theorem xmovFlip_pending {k x skip} : (xmovFlip s k x skip).pending = s.pending := by simp [xmovFlip]

@[simp] theorem planXmov_leavesQueue {c j x} : PlanLeavesQueue (planXmov s c j x) := ⟨fun _ _ _ => rfl⟩

@[simp] theorem runXmov_pending {c j x} : (runXmov s c j x).pending = s.pending := by simp [runXmov]

@[simp] theorem planXreg_leavesQueue {c j reg value} : PlanLeavesQueue (planXreg c j reg value) := ⟨fun _ _ _ => rfl⟩

@[simp] theorem planXflip_leavesQueue {c j mask} : PlanLeavesQueue (planXflip c j mask) := ⟨fun _ _ _ => rfl⟩

@[simp] theorem transferPlan_leavesQueue {c j w} : PlanLeavesQueue (transferPlan c j w) := by
  unfold transferPlan
  dsimp only
  split <;> simp

@[simp] theorem runTransfer_pending {c j w p} (hp : PlanLeavesQueue p) : answers (runTransfer s c j w p) fun t => t.pending = s.pending := by
  simp [runTransfer, hp]

@[simp] theorem execTransferWait_pending {c j n} : answers (execTransferWait c j n s) fun t => t.pending = s.pending := by simp [execTransferWait]

@[simp] theorem execXmov_pending {c j set flip rows drops soff doff done cport} :
    answers (execXmov c j set flip rows drops soff doff done cport s) fun t => t.pending = s.pending := by simp [execXmov]

@[simp] theorem execXreg_pending {c j reg value} : answers (execXreg c j reg value s) fun t => t.pending = s.pending := by simp [execXreg]

@[simp] theorem execXflip_pending {c j mask} : answers (execXflip c j mask s) fun t => t.pending = s.pending := by simp [execXflip]

/-! ### The definitions of Machine/Scribe -/

@[simp] theorem putG_pending {c t lat gd v} : (putG s c t lat gd v).pending = s.pending := by simp [putG]

@[simp] theorem retireScribe_pending {c n pc} : (retireScribe s c n pc).pending = s.pending := (rfl)

@[simp] theorem nextScribe_pending {c n} : (nextScribe s c n).pending = s.pending := (rfl)

@[simp] theorem pauseScribe_pending {c x w spent} : (pauseScribe s c x w spent).pending = s.pending := by simp [pauseScribe]

@[simp] theorem finishScribe_pending {c x n} : (finishScribe s c x n).pending = s.pending := by simp [finishScribe]

@[simp] theorem skipScribe_pending {c cause n} : (skipScribe s c cause n).pending = s.pending := by simp [skipScribe]

@[simp] theorem waitScribe_pending {c w moved} : (waitScribe s c w moved).pending = s.pending := (rfl)

@[simp] theorem beginScribe_pending {c} : (beginScribe s c).pending = s.pending := (rfl)

@[simp] theorem runScribe_pending {c word n body} (hb : ∀ t, (body t).pending = t.pending) :
    answers (runScribe s c word n body) fun t => t.pending = s.pending := by
  unfold runScribe
  dsimp only
  split
  · split <;> simp [hb]
  · simp

@[simp] theorem withSources_pending {c illegal sels n k} (hk : (k ()).pending = s.pending) :
    (withSources s c illegal sels n k).pending = s.pending := by
  simp [withSources, hk]

@[simp] theorem execScribeWait_pending {c n} : answers (execScribeWait c n s) fun t => t.pending = s.pending := by simp [execScribeWait]

@[simp] theorem execAlu_pending {c op gd sa sb} : answers (execAlu c op gd sa sb s) fun t => t.pending = s.pending := by simp [execAlu]

@[simp] theorem execAlui_pending {c op gd sa imm} : answers (execAlui c op gd sa imm s) fun t => t.pending = s.pending := by simp [execAlui]

@[simp] theorem execMovi_pending {c gd imm} : answers (execMovi c gd imm s) fun t => t.pending = s.pending := by simp [execMovi]

@[simp] theorem execLd_pending {c gd sa off w} : answers (execLd c gd sa off w s) fun t => t.pending = s.pending := by
  refine runScribe_pending fun t => withSources_pending ?_
  dsimp only
  split <;> simp

@[simp] theorem execSt_pending {c ss sa off w} : answers (execSt c ss sa off w s) fun t => t.pending = s.pending := by
  refine runScribe_pending fun t => withSources_pending ?_
  dsimp only
  split <;> simp

@[simp] theorem execLdc_pending {c gd idx} : answers (execLdc c gd idx s) fun t => t.pending = s.pending := by
  refine runScribe_pending fun t => ?_
  split <;> simp

@[simp] theorem execJmp_pending {c target} : answers (execJmp c target s) fun t => t.pending = s.pending := by simp [execJmp]

@[simp] theorem execBr_pending {c cond sa sb target} : answers (execBr c cond sa sb target s) fun t => t.pending = s.pending := by simp [execBr]

@[simp] theorem putL_pending {c lk v} : (putL s c lk v).pending = s.pending := (rfl)

@[simp] theorem execLset_pending {c lk sa imm} : answers (execLset c lk sa imm s) fun t => t.pending = s.pending := by simp [execLset]

@[simp] theorem execLend_pending {c lk target} : answers (execLend c lk target s) fun t => t.pending = s.pending := by simp [execLend]

@[simp] theorem execEnd_pending {c} : answers (execEnd c s) fun t => t.pending = s.pending := by simp [execEnd]

@[simp] theorem enqueueOrWait_pending {c j w} : (enqueueOrWait s c j w).pending = s.pending := by simp [enqueueOrWait]

@[simp] theorem doPush_pending {c j tpl sa sb sc} : (doPush s c j tpl sa sb sc).pending = s.pending := by
  refine withSources_pending ?_
  dsimp only
  repeat' split
  all_goals simp

@[simp] theorem execPush_pending {c j tpl sa sb sc} : answers (execPush c j tpl sa sb sc s) fun t => t.pending = s.pending := by simp [execPush]

@[simp] theorem doPushr_pending {c j ga} : (doPushr s c j ga).pending = s.pending := by simp [doPushr]

@[simp] theorem execPushr_pending {c j ga} : answers (execPushr c j ga s) fun t => t.pending = s.pending := by simp [execPushr]

@[simp] theorem doXwr_pending {c x reg sa} : (doXwr s c x reg sa).pending = s.pending := by simp [doXwr]

@[simp] theorem execXwr_pending {c x reg sa} : answers (execXwr c x reg sa s) fun t => t.pending = s.pending := by simp [execXwr]

@[simp] theorem doCsend_pending {c port ga} : (doCsend s c port ga).pending = s.pending := by
  unfold doCsend
  split <;> simp

@[simp] theorem execCsend_pending {c port ga} : answers (execCsend c port ga s) fun t => t.pending = s.pending := by simp [execCsend]

@[simp] theorem doCwait_pending {c port n moved} : (doCwait s c port n moved).pending = s.pending := by
  unfold doCwait
  split <;> simp

@[simp] theorem execCwait_pending {c port n} : answers (execCwait c port n s) fun t => t.pending = s.pending := by simp [execCwait]

@[simp] theorem doTread_pending {c od what} : (doTread s c od what).pending = s.pending := by simp [doTread]

@[simp] theorem execTread_pending {c od what} : answers (execTread c od what s) fun t => t.pending = s.pending := by simp [execTread]

@[simp] theorem execNote_pending {c dest tag sa sb} : answers (execNote c dest tag sa sb s) fun t => t.pending = s.pending := by simp [execNote]

@[simp] theorem resumeScribe_pending {c} : (resumeScribe s c).pending = s.pending := by
  unfold resumeScribe
  split
  · refine goOn_pending ?_
    dsimp only
    repeat' split
    all_goals simp
  · rfl

/-! ### The definitions of Machine/Matrix -/

@[simp] theorem beginMatrix_pending {c k t} : (beginMatrix s c k t).pending = s.pending := by simp [beginMatrix]

@[simp] theorem noteSat_pending {b} : (noteSat s b).pending = s.pending := by simp [noteSat]

@[simp] theorem planMldw_leavesQueue {c j bank fmtW src} : PlanLeavesQueue (planMldw s c j bank fmtW src) :=
  planLeavesQueue_ite illegalPlan_leavesQueue ⟨fun _ _ _ => by simp⟩

@[simp] theorem planManc_leavesQueue {c j row0 nr fmtA fmtW q asrc wsrc} : PlanLeavesQueue (planManc s c j row0 nr fmtA fmtW q asrc wsrc) :=
  planLeavesQueue_ite illegalPlan_leavesQueue ⟨fun _ _ _ => by simp⟩

@[simp] theorem planMacc_leavesQueue {c j row0 nr fmtA bank asrc next nfmt nsrc} :
    PlanLeavesQueue (planMacc s c j row0 nr fmtA bank asrc next nfmt nsrc) :=
  planLeavesQueue_ite illegalPlan_leavesQueue ⟨fun _ _ _ => by simp⟩

@[simp] theorem planMwout_leavesQueue {c j row0 nr fmtO cols aen dst adst} : PlanLeavesQueue (planMwout s c j row0 nr fmtO cols aen dst adst) :=
  planLeavesQueue_ite illegalPlan_leavesQueue ⟨fun _ _ _ => by simp⟩

@[simp] theorem planMwexp_leavesQueue {c j row0 nr dst} : PlanLeavesQueue (planMwexp s c j row0 nr dst) :=
  planLeavesQueue_ite illegalPlan_leavesQueue ⟨fun _ _ _ => by simp⟩

@[simp] theorem planMwadd_leavesQueue {c j row0 nr src} : PlanLeavesQueue (planMwadd s c j row0 nr src) :=
  planLeavesQueue_ite illegalPlan_leavesQueue ⟨fun _ _ _ => by simp⟩

@[simp] theorem matrixPlan_leavesQueue {c j w} : PlanLeavesQueue (matrixPlan s c j w) := by
  unfold matrixPlan
  dsimp only
  split <;> simp

@[simp] theorem runMatrix_pending {c j w p} (hp : PlanLeavesQueue p) : answers (runMatrix s c j w p) fun t => t.pending = s.pending := by
  simp [runMatrix, hp]

@[simp] theorem execMatrixWait_pending {c j n} : answers (execMatrixWait c j n s) fun t => t.pending = s.pending := by simp [execMatrixWait]

@[simp] theorem execMldw_pending {c j bank fmtW src} : answers (execMldw c j bank fmtW src s) fun t => t.pending = s.pending := by simp [execMldw]

@[simp] theorem execManc_pending {c j row0 nr fmtA fmtW q asrc wsrc} :
    answers (execManc c j row0 nr fmtA fmtW q asrc wsrc s) fun t => t.pending = s.pending := by simp [execManc]

@[simp] theorem execMacc_pending {c j row0 nr fmtA bank asrc next nfmt nsrc} :
    answers (execMacc c j row0 nr fmtA bank asrc next nfmt nsrc s) fun t => t.pending = s.pending := by simp [execMacc]

@[simp] theorem execMwout_pending {c j row0 nr fmtO cols aen dst adst} :
    answers (execMwout c j row0 nr fmtO cols aen dst adst s) fun t => t.pending = s.pending := by simp [execMwout]

@[simp] theorem execMwexp_pending {c j row0 nr dst} : answers (execMwexp c j row0 nr dst s) fun t => t.pending = s.pending := by simp [execMwexp]

@[simp] theorem execMwadd_pending {c j row0 nr src} : answers (execMwadd c j row0 nr src s) fun t => t.pending = s.pending := by simp [execMwadd]

/-! ### The definitions of Machine/Vector -/

@[simp] theorem beginVector_pending {c k t} : (beginVector s c k t).pending = s.pending := by simp [beginVector]

@[simp] theorem putRegs_pending {k lat w rs} : (putRegs s k lat w rs).pending = s.pending := (rfl)

@[simp] theorem putMask_pending {k w kd bits} : (putMask s k w kd bits).pending = s.pending := (rfl)

@[simp] theorem putTerms_pending {k t l} : (putTerms s k t l).pending = s.pending := by
  induction l generalizing s with
  | nil => rfl
  | cons e l ih => simp [putTerms, ih]

@[simp] theorem vwaddAll_pending {k e row rs} : (vwaddAll s k e row rs).pending = s.pending := by
  induction rs generalizing s with
  | nil => rfl
  | cons r rs ih => simp [vwaddAll, ih]

@[simp] theorem noteDropped_pending {k n} : (noteDropped s k n).pending = s.pending := by simp [noteDropped]

@[simp] theorem regPlan_leavesQueue {c j n ill bad} {eff : Nat → State → Nat → VectorSt → State}
    (he : ∀ t s k v, (eff t s k v).pending = s.pending) : PlanLeavesQueue (regPlan c j n ill bad eff) :=
  planLeavesQueue_ite illegalPlan_leavesQueue ⟨fun _ _ _ => by simp [he]⟩

@[simp] theorem loadPlan_leavesQueue {c j n d src ill bad} {eff : Nat → Bytes → State → Nat → VectorSt → State}
    (he : ∀ t bs s k v, (eff t bs s k v).pending = s.pending) : PlanLeavesQueue (loadPlan s c j n d src ill bad eff) :=
  planLeavesQueue_ite illegalPlan_leavesQueue ⟨fun _ _ _ => by simp [he]⟩

@[simp] theorem storePlan_leavesQueue {c j n d dst ill bad} {eff : Nat → State → Nat → VectorSt → List OutPiece × State}
    (he : ∀ t s k v, (eff t s k v).2.pending = s.pending) : PlanLeavesQueue (storePlan s c j n d dst ill bad eff) :=
  planLeavesQueue_ite illegalPlan_leavesQueue ⟨fun _ _ _ => by simp [he]⟩

theorem atStrokes_leavesQueue {f p} (hp : PlanLeavesQueue p) : PlanLeavesQueue (atStrokes f p) := ⟨hp.effect⟩

@[simp] theorem planVfn_leavesQueue {c j fn ti tt vd va km} : PlanLeavesQueue (planVfn c j fn ti tt vd va km) :=
  regPlan_leavesQueue fun _ _ _ _ => putRegs_pending

@[simp] theorem planVcmp_leavesQueue {c j cmp ty kd va vb km} : PlanLeavesQueue (planVcmp c j cmp ty kd va vb km) :=
  regPlan_leavesQueue fun _ _ _ _ => putMask_pending

@[simp] theorem planVsel_leavesQueue {c j vd va vb ks} : PlanLeavesQueue (planVsel c j vd va vb ks) :=
  regPlan_leavesQueue fun _ _ _ _ => putRegs_pending

@[simp] theorem planVkop_leavesQueue {c j kop kd ka kb} : PlanLeavesQueue (planVkop c j kop kd ka kb) :=
  regPlan_leavesQueue fun _ _ _ _ => putMask_pending

@[simp] theorem planVimm_leavesQueue {c j vd imm km} : PlanLeavesQueue (planVimm c j vd imm km) :=
  regPlan_leavesQueue fun _ _ _ _ => putRegs_pending

@[simp] theorem planViota_leavesQueue {c j vd base} : PlanLeavesQueue (planViota c j vd base) :=
  regPlan_leavesQueue fun _ _ _ _ => putRegs_pending

@[simp] theorem planVcvt_leavesQueue {c j ti tt vd va km} : PlanLeavesQueue (planVcvt c j ti tt vd va km) :=
  regPlan_leavesQueue fun _ _ _ _ => putRegs_pending

@[simp] theorem planVld_leavesQueue {c j vd ty src} : PlanLeavesQueue (planVld s c j vd ty src) :=
  loadPlan_leavesQueue fun _ _ _ _ _ => putRegs_pending

@[simp] theorem planVldx_leavesQueue {c j vd vx base limit} : PlanLeavesQueue (planVldx s c j vd vx base limit) :=
  planLeavesQueue_ite illegalPlan_leavesQueue ⟨fun _ _ _ => by simp⟩

@[simp] theorem planVstx_leavesQueue {c j va vx base limit} : PlanLeavesQueue (planVstx s c j va vx base limit) :=
  planLeavesQueue_ite illegalPlan_leavesQueue ⟨fun _ _ _ => by simp⟩

@[simp] theorem planVldq_leavesQueue {c j vd nr kc fmt src} : PlanLeavesQueue (planVldq s c j vd nr kc fmt src) :=
  atStrokes_leavesQueue (loadPlan_leavesQueue fun _ _ _ _ _ => putRegs_pending)

@[simp] theorem planVqnt_leavesQueue {c j va nr kc fmtO row0 vx dst} : PlanLeavesQueue (planVqnt s c j va nr kc fmtO row0 vx dst) :=
  atStrokes_leavesQueue (storePlan_leavesQueue fun _ _ _ _ => putRegs_pending)

@[simp] theorem planVlda_leavesQueue {c j vd src} : PlanLeavesQueue (planVlda s c j vd src) :=
  loadPlan_leavesQueue fun _ _ _ _ _ => putRegs_pending

@[simp] theorem planVsta_leavesQueue {c j va dst} : PlanLeavesQueue (planVsta s c j va dst) :=
  storePlan_leavesQueue fun _ _ _ _ => rfl

@[simp] theorem planVwanc_leavesQueue {c j row mode bc vx vy} : PlanLeavesQueue (planVwanc c j row mode bc vx vy) :=
  regPlan_leavesQueue fun _ _ _ _ => setVector_pending _ _ _

@[simp] theorem planVrsum_leavesQueue {c j row dir ty va km} : PlanLeavesQueue (planVrsum c j row dir ty va km) :=
  regPlan_leavesQueue fun _ _ _ _ => putTerms_pending

@[simp] theorem planVrdot_leavesQueue {c j row dir ty va vb km} : PlanLeavesQueue (planVrdot c j row dir ty va vb km) :=
  regPlan_leavesQueue fun _ _ _ _ => putTerms_pending

@[simp] theorem planVwout_leavesQueue {c j vd row ty km} : PlanLeavesQueue (planVwout c j vd row ty km) :=
  regPlan_leavesQueue fun _ _ _ _ => putRegs_pending

@[simp] theorem planVwexp_leavesQueue {c j row dst} : PlanLeavesQueue (planVwexp s c j row dst) :=
  planLeavesQueue_ite illegalPlan_leavesQueue ⟨fun _ _ _ => by simp⟩

@[simp] theorem planVwadd_leavesQueue {c j row src} : PlanLeavesQueue (planVwadd s c j row src) :=
  planLeavesQueue_ite illegalPlan_leavesQueue ⟨fun _ _ _ => by simp⟩

@[simp] theorem planVanch_leavesQueue {c j vd va ty hm mg km} : PlanLeavesQueue (planVanch c j vd va ty hm mg km) :=
  regPlan_leavesQueue fun _ _ _ _ => putRegs_pending

@[simp] theorem planVrmax_leavesQueue {c j vd va ty km} : PlanLeavesQueue (planVrmax c j vd va ty km) :=
  regPlan_leavesQueue fun _ _ _ _ => putRegs_pending

@[simp] theorem planVtopk_leavesQueue {c j lv li va vi kk init km} : PlanLeavesQueue (planVtopk c j lv li va vi kk init km) :=
  regPlan_leavesQueue fun _ _ _ _ => putRegs_pending

@[simp] theorem planVsamp_leavesQueue {c j vd lv li vp kk} : PlanLeavesQueue (planVsamp c j vd lv li vp kk) :=
  regPlan_leavesQueue fun _ _ _ _ => putRegs_pending

@[simp] theorem planVrng_leavesQueue {c j vd vt vq vs stream wd} : PlanLeavesQueue (planVrng c j vd vt vq vs stream wd) :=
  regPlan_leavesQueue fun _ _ _ _ => putRegs_pending

@[simp] theorem planVdisp_leavesQueue {c j vs vf ve vcap nc nt cont} : PlanLeavesQueue (planVdisp c j vs vf ve vcap nc nt cont) :=
  regPlan_leavesQueue fun _ _ _ _ => noteDropped_pending.trans putRegs_pending

@[simp] theorem planVop_leavesQueue {c j op ty vd va vb vc km} : PlanLeavesQueue (planVop c j op ty vd va vb vc km) := by
  unfold planVop
  exact regPlan_leavesQueue fun _ _ _ _ => putRegs_pending

@[simp] theorem planVst_leavesQueue {c j va ty dst km} : PlanLeavesQueue (planVst s c j va ty dst km) := by
  refine storePlan_leavesQueue fun _ _ _ _ => ?_
  dsimp only
  repeat' split
  all_goals rfl

@[simp] theorem vectorPlan_leavesQueue {c j w} : PlanLeavesQueue (vectorPlan s c j w) := by
  unfold vectorPlan
  dsimp only
  split <;> simp

@[simp] theorem runVector_pending {c j w p} (hp : PlanLeavesQueue p) : answers (runVector s c j w p) fun t => t.pending = s.pending := by
  simp [runVector, hp]

@[simp] theorem execVectorWait_pending {c j n} : answers (execVectorWait c j n s) fun t => t.pending = s.pending := by simp [execVectorWait]

@[simp] theorem execVop_pending {c j op ty vd va vb vc km} :
    answers (execVop c j op ty vd va vb vc km s) fun t => t.pending = s.pending := by simp [execVop]

@[simp] theorem execVfn_pending {c j fn ti tt vd va km} :
    answers (execVfn c j fn ti tt vd va km s) fun t => t.pending = s.pending := by simp [execVfn]

@[simp] theorem execVcmp_pending {c j cmp ty kd va vb km} :
    answers (execVcmp c j cmp ty kd va vb km s) fun t => t.pending = s.pending := by simp [execVcmp]

@[simp] theorem execVsel_pending {c j vd va vb ks} : answers (execVsel c j vd va vb ks s) fun t => t.pending = s.pending := by simp [execVsel]

@[simp] theorem execVkop_pending {c j kop kd ka kb} : answers (execVkop c j kop kd ka kb s) fun t => t.pending = s.pending := by simp [execVkop]

@[simp] theorem execVimm_pending {c j vd imm km} : answers (execVimm c j vd imm km s) fun t => t.pending = s.pending := by simp [execVimm]

@[simp] theorem execViota_pending {c j vd base} : answers (execViota c j vd base s) fun t => t.pending = s.pending := by simp [execViota]

@[simp] theorem execVcvt_pending {c j ti tt vd va km} : answers (execVcvt c j ti tt vd va km s) fun t => t.pending = s.pending := by simp [execVcvt]

@[simp] theorem execVld_pending {c j vd ty src} : answers (execVld c j vd ty src s) fun t => t.pending = s.pending := by simp [execVld]

@[simp] theorem execVst_pending {c j va ty dst km} : answers (execVst c j va ty dst km s) fun t => t.pending = s.pending := by simp [execVst]

@[simp] theorem execVldx_pending {c j vd vx base limit} :
    answers (execVldx c j vd vx base limit s) fun t => t.pending = s.pending := by simp [execVldx]

@[simp] theorem execVstx_pending {c j va vx base limit} :
    answers (execVstx c j va vx base limit s) fun t => t.pending = s.pending := by simp [execVstx]

@[simp] theorem execVldq_pending {c j vd nr kc fmt src} :
    answers (execVldq c j vd nr kc fmt src s) fun t => t.pending = s.pending := by simp [execVldq]

@[simp] theorem execVqnt_pending {c j va nr kc fmtO row0 vx dst} :
    answers (execVqnt c j va nr kc fmtO row0 vx dst s) fun t => t.pending = s.pending := by simp [execVqnt]

@[simp] theorem execVlda_pending {c j vd src} : answers (execVlda c j vd src s) fun t => t.pending = s.pending := by simp [execVlda]

@[simp] theorem execVsta_pending {c j va dst} : answers (execVsta c j va dst s) fun t => t.pending = s.pending := by simp [execVsta]

@[simp] theorem execVwanc_pending {c j row mode bc vx vy} :
    answers (execVwanc c j row mode bc vx vy s) fun t => t.pending = s.pending := by simp [execVwanc]

@[simp] theorem execVrsum_pending {c j row dir ty va km} :
    answers (execVrsum c j row dir ty va km s) fun t => t.pending = s.pending := by simp [execVrsum]

@[simp] theorem execVrdot_pending {c j row dir ty va vb km} :
    answers (execVrdot c j row dir ty va vb km s) fun t => t.pending = s.pending := by simp [execVrdot]

@[simp] theorem execVwout_pending {c j vd row ty km} : answers (execVwout c j vd row ty km s) fun t => t.pending = s.pending := by simp [execVwout]

@[simp] theorem execVwexp_pending {c j row dst} : answers (execVwexp c j row dst s) fun t => t.pending = s.pending := by simp [execVwexp]

@[simp] theorem execVwadd_pending {c j row src} : answers (execVwadd c j row src s) fun t => t.pending = s.pending := by simp [execVwadd]

@[simp] theorem execVanch_pending {c j vd va ty hm mg km} :
    answers (execVanch c j vd va ty hm mg km s) fun t => t.pending = s.pending := by simp [execVanch]

@[simp] theorem execVrmax_pending {c j vd va ty km} : answers (execVrmax c j vd va ty km s) fun t => t.pending = s.pending := by simp [execVrmax]

@[simp] theorem execVtopk_pending {c j lv li va vi k init km} :
    answers (execVtopk c j lv li va vi k init km s) fun t => t.pending = s.pending := by simp [execVtopk]

@[simp] theorem execVsamp_pending {c j vd lv li vp k} : answers (execVsamp c j vd lv li vp k s) fun t => t.pending = s.pending := by simp [execVsamp]

@[simp] theorem execVrng_pending {c j vd vt vq vs stream wd} :
    answers (execVrng c j vd vt vq vs stream wd s) fun t => t.pending = s.pending := by simp [execVrng]

@[simp] theorem execVdisp_pending {c j vs vf ve vcap nc nt cont} :
    answers (execVdisp c j vs vf ve vcap nc nt cont s) fun t => t.pending = s.pending := by simp [execVdisp]

/-! ### The definitions of Machine/Resume -/

@[simp] theorem wordPlan_leavesQueue {c j w} : PlanLeavesQueue (wordPlan s c j w) :=
  planLeavesQueue_ite matrixPlan_leavesQueue
    (planLeavesQueue_ite vectorPlan_leavesQueue (planLeavesQueue_ite planXmov_leavesQueue transferPlan_leavesQueue))

@[simp] theorem runAnyWord_pending {c j w} : (runAnyWord s c j w).pending = s.pending := by simp [runAnyWord]

@[simp] theorem resumeTile_pending {c j} : (resumeTile s c j).pending = s.pending := by
  unfold resumeTile
  dsimp only
  repeat' split
  all_goals simp

@[simp] theorem resumeMover_pending {m} : (resumeMover s m).pending = s.pending := by
  unfold resumeMover
  dsimp only
  split <;> simp

@[simp] theorem execWaitResume_pending {u} : answers (execWaitResume u s) fun t => t.pending = s.pending := by
  unfold execWaitResume
  split <;> simp

/-! ### The definitions of Machine/UnitWin -/

@[simp] theorem statusRow_pending {c j w} : (statusRow s c j w).2.pending = s.pending := by
  unfold statusRow
  dsimp only
  repeat' split
  all_goals simp

@[simp] theorem windowRow_pending {c j o} : (windowRow s c j o).2.pending = s.pending := by
  unfold windowRow
  repeat' split
  all_goals simp

theorem windowGet_pending {o r} (h : windowGet s o = some r) : r.2.pending = s.pending := by
  unfold windowGet at h
  split at h
  · cases h
  · cases h
    exact drawFree_pending
  · cases h
    exact windowRow_pending

@[simp] theorem putScribeRow_pending {c w v} : (putScribeRow s c w v).pending = s.pending := by simp [putScribeRow]

@[simp] theorem putXferRow_pending {k o v} : (putXferRow s k o v).pending = s.pending := by
  unfold putXferRow
  dsimp only
  split <;> simp

@[simp] theorem putQueueRow_pending {k i h v} : (putQueueRow s k i h v).pending = s.pending := (rfl)

@[simp] theorem putVectorRow_pending {k o v} : (putVectorRow s k o v).pending = s.pending := by simp [putVectorRow]

@[simp] theorem putMatrixRow_pending {k o v} : (putMatrixRow s k o v).pending = s.pending := by simp [putMatrixRow]

@[simp] theorem putWindowRow_pending {c j o v} : (putWindowRow s c j o v).pending = s.pending := by simp [putWindowRow]

theorem windowPut_pending {o v t} (h : windowPut s o v = some t) : t.pending = s.pending := by
  unfold windowPut at h
  dsimp only at h
  repeat' split at h
  all_goals cases h
  all_goals simp

/-! ### The definitions of Machine/Debug -/

@[simp] theorem runLocator_pending {reach core} : (runLocator s reach core).2.pending = s.pending := (rfl)

@[simp] theorem haltOn_pending {reach core} : (haltOn s reach core).pending = s.pending := by simp [haltOn]

@[simp] theorem resumeUnits_pending {x0} : (resumeUnits s x0).pending = s.pending := by fun_induction resumeUnits <;> simp_all

@[simp] theorem resumeOn_pending {reach core} : (resumeOn s reach core).pending = s.pending := by simp [resumeOn]

theorem outState_pending {o} (h : answers o fun t => t.pending = s.pending) : (outState o s).pending = s.pending := by
  obtain ⟨t, rfl, ht⟩ := h
  exact ht

@[simp] theorem runScribeWord_pending {c w} : (runScribeWord s c w).pending = s.pending := by
  unfold runScribeWord
  refine outState_pending ?_
  dsimp only
  split <;> simp

@[simp] theorem runUnit_pending {c j} : (runUnit s c j).pending = s.pending := by
  unfold runUnit
  repeat' split
  all_goals simp

@[simp] theorem stepOn_pending {c j kind} : (stepOn s c j kind).pending = s.pending := by simp [stepOn]

@[simp] theorem execDebugHalt_pending {reach core} : answers (execDebugHalt reach core s) fun t => t.pending = s.pending := by simp [execDebugHalt]

@[simp] theorem execDebugResume_pending {reach core} :
    answers (execDebugResume reach core s) fun t => t.pending = s.pending := by simp [execDebugResume]

@[simp] theorem execDebugStep_pending {core tile kind} :
    answers (execDebugStep core tile kind s) fun t => t.pending = s.pending := by simp [execDebugStep]

@[simp] theorem discardAll_pending {ks} : (discardAll s ks).1.pending = s.pending := by
  induction ks generalizing s with
  | nil => rfl
  | cons k ks ih => simp [discardAll, ih]

@[simp] theorem downAll_pending {x0} : (downAll s x0).pending = s.pending := by fun_induction downAll <;> simp_all

@[simp] theorem execHaltDryExpiry_pending : answers (execHaltDryExpiry s) fun t => t.pending = s.pending := by simp [execHaltDryExpiry]

@[simp] theorem writeRunCtl_pending {v} : (writeRunCtl s v).pending = s.pending := by
  unfold writeRunCtl
  dsimp only
  repeat' split
  all_goals simp

@[simp] theorem writeBpCtl_pending {i v} : (writeBpCtl s i v).pending = s.pending := by simp [writeBpCtl]

theorem writeDbg_pending {o v t} (h : writeDbg s o v = some t) : t.pending = s.pending := by
  unfold writeDbg at h
  dsimp only at h
  repeat' split at h
  case isFalse.isFalse.isFalse.isFalse.isTrue => exact windowPut_pending h
  all_goals cases h
  all_goals simp

@[simp] theorem xferDone_pending {result data} : (xferDone s result data).pending = s.pending := (rfl)

@[simp] theorem xferRefused_pending {a} : (xferRefused s a).pending = s.pending := by simp [xferRefused]

theorem controlGet_pending {o r} (h : controlGet s o = some r) : r.2.pending = s.pending := by
  unfold controlGet at h
  split at h
  · exact windowGet_pending h
  · cases h
    exact regReadEffect_pending

@[simp] theorem execXferRead_pending {addr} : answers (execXferRead addr s) fun t => t.pending = s.pending := by
  unfold execXferRead
  dsimp only
  repeat' split
  all_goals simp
  exact controlGet_pending ‹_›

@[simp] theorem debugWrote_pending {a v} : (debugWrote s a v).pending = s.pending := by simp [debugWrote]

theorem controlPut_pending {o v t} (h : controlPut s o v = some t) : t.pending = s.pending := by
  unfold controlPut at h
  dsimp only at h
  repeat' split at h
  case isTrue => exact writeDbg_pending h
  all_goals cases h
  all_goals simp

@[simp] theorem execXferWrite_pending {addr value} : answers (execXferWrite addr value s) fun t => t.pending = s.pending := by
  unfold execXferWrite
  dsimp only
  repeat' split
  all_goals simp
  exact controlPut_pending ‹_›

@[simp] theorem execExtest_pending {pins} : answers (execExtest pins s) fun t => t.pending = s.pending := by simp [execExtest]

@[simp] theorem execTapReset_pending : answers (execTapReset s) fun t => t.pending = s.pending := ⟨_, rfl, rfl⟩

/-! ### The definitions of Machine/Mgmt -/

@[simp] theorem execCoalesceWindowClose_pending {cls cause locator} :
    answers (execCoalesceWindowClose cls cause locator s) fun t => t.pending = s.pending := by
  unfold execCoalesceWindowClose
  split <;> simp

@[simp] theorem execTelemetryFlushTimer_pending : answers (execTelemetryFlushTimer s) fun t => t.pending = s.pending :=
  by simp [execTelemetryFlushTimer]

@[simp] theorem mctpAnswer_pending {bs} : (mctpAnswer s bs).pending = s.pending := (rfl)

@[simp] theorem mctpServe_pending {f} (hf : (f s).pending = s.pending) : answers (mctpServe s f) fun t => t.pending = s.pending := by
  simp [mctpServe, hf]

@[simp] theorem mpServe_pending {f} (hf : (f s).pending = s.pending) : answers (mpServe s f) fun t => t.pending = s.pending := by
  simp [mpServe, hf]

@[simp] theorem execSetdasa_pending {static dynamic} : answers (execSetdasa static dynamic s) fun t => t.pending = s.pending := by simp [execSetdasa]

@[simp] theorem execSetEndpointId_pending {eid} : answers (execSetEndpointId eid s) fun t => t.pending = s.pending := by simp [execSetEndpointId]

@[simp] theorem execGetEndpointId_pending : answers (execGetEndpointId s) fun t => t.pending = s.pending := by simp [execGetEndpointId]

@[simp] theorem execGetMctpVersionSupport_pending {msgType} :
    answers (execGetMctpVersionSupport msgType s) fun t => t.pending = s.pending := by simp [execGetMctpVersionSupport]

@[simp] theorem execGetMessageTypeSupport_pending : answers (execGetMessageTypeSupport s) fun t => t.pending = s.pending :=
  by simp [execGetMessageTypeSupport]

@[simp] theorem execGetVendorDefinedMessageSupport_pending {selector} :
    answers (execGetVendorDefinedMessageSupport selector s) fun t => t.pending = s.pending := by simp [execGetVendorDefinedMessageSupport]

@[simp] theorem execMctpRead_pending : answers (execMctpRead s) fun t => t.pending = s.pending := by simp [execMctpRead]

@[simp] theorem execMctpCounts_pending {cls} : answers (execMctpCounts cls s) fun t => t.pending = s.pending := by simp [execMctpCounts]

@[simp] theorem execMctpStatus_pending : answers (execMctpStatus s) fun t => t.pending = s.pending := by simp [execMctpStatus]

/-! ### The definitions of Machine/Ptp -/

@[simp] theorem modPtp_pending {k f} : (modPtp s k f).pending = s.pending := (rfl)

@[simp] theorem ptpDiscard_pending {n u} : (ptpDiscard s n u).pending = s.pending := (rfl)

@[simp] theorem ptpCountEvent_pending {n u} : (ptpCountEvent s n u).pending = s.pending := (rfl)

@[simp] theorem ptpReceive_pending {n u h event f} (hf : ∀ t, (f t).pending = t.pending) :
    (ptpReceive s n u h event f).pending = s.pending := by
  unfold ptpReceive
  dsimp only
  split <;> simp [hf]

@[simp] theorem servoRun_pending {k} : (servoRun s k).pending = s.pending := by simp [servoRun]

@[simp] theorem syncDone_pending {n u d} : (syncDone s n u d).pending = s.pending := by simp [syncDone]

@[simp] theorem execPtpSync_pending {port sub h origin} :
    answers (execPtpSync port sub h origin s) fun t => t.pending = s.pending := by simp [execPtpSync]

@[simp] theorem execPtpFollowUp_pending {port sub h origin} : answers (execPtpFollowUp port sub h origin s) fun t => t.pending = s.pending := by
  refine answers.next (ptpReceive_pending fun t => ?_)
  repeat' split
  all_goals simp

@[simp] theorem ptpSend_pending {n u kind seq t corr clock rport} : (ptpSend s n u kind seq t corr clock rport).pending = s.pending := (rfl)

@[simp] theorem execPtpDelayReq_pending {port sub h} :
    answers (execPtpDelayReq port sub h s) fun t => t.pending = s.pending := by simp [execPtpDelayReq]

@[simp] theorem setMean_pending {k d} : (setMean s k d).pending = s.pending := (rfl)

@[simp] theorem execPtpDelayResp_pending {port sub h receive reqClock reqPort} :
    answers (execPtpDelayResp port sub h receive reqClock reqPort s) fun t => t.pending = s.pending := by
  refine answers.next (ptpReceive_pending fun t => ?_)
  repeat' split
  all_goals simp

@[simp] theorem execPtpPdelayReq_pending {port sub h} :
    answers (execPtpPdelayReq port sub h s) fun t => t.pending = s.pending := by simp [execPtpPdelayReq]

@[simp] theorem execPtpPdelayResp_pending {port sub h receipt reqClock reqPort} :
    answers (execPtpPdelayResp port sub h receipt reqClock reqPort s) fun t => t.pending = s.pending := by
  refine answers.next (ptpReceive_pending fun t => ?_)
  dsimp only
  repeat' split
  all_goals simp

@[simp] theorem execPtpPdelayRespFollowUp_pending {port sub h origin reqClock reqPort} :
    answers (execPtpPdelayRespFollowUp port sub h origin reqClock reqPort s) fun t => t.pending = s.pending := by
  refine answers.next (ptpReceive_pending fun t => ?_)
  repeat' split
  all_goals simp

@[simp] theorem execPtpAnnounce_pending {port sub h b} :
    answers (execPtpAnnounce port sub h b s) fun t => t.pending = s.pending := by simp [execPtpAnnounce]

@[simp] theorem execPtpUnsupported_pending {port sub} :
    answers (execPtpUnsupported port sub s) fun t => t.pending = s.pending := by simp [execPtpUnsupported]

@[simp] theorem execPtpSyncTimer_pending {port sub} :
    answers (execPtpSyncTimer port sub s) fun t => t.pending = s.pending := by simp [execPtpSyncTimer]

@[simp] theorem execPtpDelayReqTimer_pending {port sub} :
    answers (execPtpDelayReqTimer port sub s) fun t => t.pending = s.pending := by simp [execPtpDelayReqTimer]

@[simp] theorem ownAnnounce_pending : (ownAnnounce s).2.pending = s.pending := by
  unfold ownAnnounce
  split <;> simp

@[simp] theorem execPtpAnnounceTimer_pending {port sub} :
    answers (execPtpAnnounceTimer port sub s) fun t => t.pending = s.pending := by simp [execPtpAnnounceTimer]

/-! ### The definitions of Machine/Dispatch -/

@[simp] theorem exec_pending {i} : answers (exec i s) fun t => t.pending = s.pending := by cases i <;> simp [exec]

end Sys2Proof.Machine
end

section
/-! PROOFS. What is shown of strokes, sheets and steps: a unit's strokes and waits, launch, void and failure of a step, sheets, a span's grains, and
the queue. -/

namespace Sys2Proof.Proofs

open Machine

/-- Settles O2: each class's row runs the WAIT word on its tile. -/
theorem waitTakesNStrokes : Obligations.WaitTakesNStrokes := fun _ _ _ _ hn h =>
  ⟨fun hj => (runMatrix_of_matrixTile hj).trans (congrArg _ (runTile_wait hn h)),
    fun hj => (runVector_of_vectorTile hj).trans (congrArg _ (runTile_wait hn h)),
    fun hj => (runTransfer_of_transferTile hj).trans (congrArg _ (runTile_wait hn h))⟩

/-- Settles O15: past its checks, each of the three places its word by `enqueueOrWait`. -/
theorem scribePushes : Obligations.ScribePushes := fun _ _ hs =>
  ⟨fun _ _ _ _ _ _ _ hj ha hb hc ht hw hsp hat => (exec_push_at hat).trans (doPush_space hs hj ha hb hc ht hw hsp),
    fun _ _ hj hg hsp hat => (exec_pushr_at hat).trans (doPushr_space hs hj hg hsp),
    fun _ _ _ ha hreg hsp hat => (exec_xwr_at hat).trans (doXwr_space hs ha hreg hsp)⟩

/-- Settles O19: a stretched command goes on by its plan to its end, and an empty queue is waited on. -/
theorem waitingTileGoesOn : Obligations.WaitingTileGoesOn := by
  intro s c j hj k u hgo
  constructor
  · intro b hb hm hx p g e hstop hin hroom
    rw [waitResume_tile hj hgo, resumeTile_blocked hb hm hx]
    exact congrArg _ (advance_retires hstop hin hroom)
  · intro hb hq hi
    rw [waitResume_tile hj hgo, resumeTile_empty hb hq hi]

/-- Settles O22: the first void is `voidStep`, the second the step's failure, and what a void has left runs again as at a launch. -/
theorem stepVoidAndReexecution : Obligations.StepVoidAndReexecution := by
  intro s addr
  refine ⟨fun hrun hvoid hend => ⟨fun hown => ?_, fun hown hserv hckpt => ?_⟩, execStepReexecute_again⟩
  · obtain ⟨t, ht, s1, reload, h1, hv⟩ := execStepVoid_first addr hrun hvoid hend hown
    refine ⟨t, ht, ?_, ?_, ?_, ?_, hv.overlay, hv.matrix, hv.vector, hv.xfer, hv.chans, hv.mem.trans h1.mem⟩
    · rw [hv.step, h1.step]; exact hrun
    · rw [hv.step]
    · rw [hv.step, h1.step]; exact congrArg (· + 1) hown
    · rw [hv.step, h1.step]
  · obtain ⟨t, ht, h⟩ := execStepVoid_second addr hrun hvoid hend hown hserv hckpt
    exact ⟨t, ht, h.running, h.lastEnded, h.lastMask, h.overlay, h.mem⟩

/-- Settles O23: both failures end the step as `failHere` does; the reload and the flip change what they name. -/
theorem stepFailuresAndBoundary : Obligations.StepFailuresAndBoundary := by
  intro s
  refine ⟨fun hrun hdry hhalt hserv hckpt => ?_, fun addr index hin hrun hvoid hserv hckpt => ?_, execEpochReloadDone_ready,
    fun host hin hrun hl hflip hddrs hrings hcame => ?_⟩
  · obtain ⟨t, ht, h⟩ := execWatchdogExpiry_ends hrun hdry hhalt hserv hckpt
    exact ⟨t, ht, h.running, h.lastEnded, h.lastMask, h.mem⟩
  · obtain ⟨t, ht, h⟩ := execMemoryUncorrectable_unit_ends addr index hin hrun hvoid hserv hckpt
    exact ⟨t, ht, h.running, h.lastEnded, h.lastMask, h.mem⟩
  · refine (execStepBoundary_flips host hin hrun hl hflip hddrs hrings hcame).trans ?_
    rw [applyFlip, if_pos hflip]

/-- Settles O43: each command is served as its entry is read, and the loader's verdict ends a load. -/
theorem sheetAndLaunchCommands : Obligations.SheetAndLaunchCommands := by
  intro s ring
  refine ⟨?_, ?_, ?_, ?_, ?_⟩
  · intro host length digest h hl hscrub
    exact (rowCmd_served h).trans (congrArg _ (serveLoadSheet_begins (s := entryRead s ring) hl hscrub))
  · intro host l hl hflip hlink s1 c
    have h := execLoadSheetComplete_checked (host := host) hl hflip hlink
    have hs1 : unloading s = s1 := rfl
    rw [hs1] at h
    rcases hv : checkImage s1 (hostView host l.host.toNat l.length.toNat) l.digest with ⟨cause, unit⟩ | sh
    · rw [hv] at h
      cases cause <;> exact h
    · rw [hv] at h
      exact ⟨_, h, rfl, rfl, rfl, rfl⟩
  · intro h hv hstep harmed hcommitted
    exact (rowCmd_served h).trans (congrArg _ (serveFlip_at_once (s := entryRead s ring) hv hstep harmed hcommitted))
  · intro digest r h hopen hmode hwhy hwait
    have ha := serveArm_arms (s := entryRead s ring) (rg := ring.toNat) (seq := seqDue s ring) hopen hmode hwhy hwait
    exact ⟨_, rowCmd_served h, ha.state, ha.armRec, ha.taken, ha.nextStep, ha.paced, ha.refusedWith, ha.step⟩
  · intro sec ns h hopen hpos hok hst hsec hns hlead hfar hnow
    have hc := serveCommit_commits (s := entryRead s ring) (r := ring.toNat) (seq := seqDue s ring) hopen hpos hok hst hsec hns hlead
      hfar hnow
    exact ⟨_, rowCmd_served h, hc.state, hc.startS, hc.startNs, hc.nextStep, hc.step⟩

/-- Settles O20: the tick launches the next step, and a launch begins it at stroke 0. -/
theorem launchTickStartsStep : Obligations.LaunchTickStartsStep := by
  intro s r hopen hrun hlock hhalt hst hend hready htick hrel _ hb
  obtain ⟨hz, hnext, hstate, hmem⟩ := launchStep_at_zero (n := s.launch.nextStep) (ready := r) hb
  exact ⟨_, execLaunchTick_launches hopen hrun hlock hhalt hst hend hready htick hrel, hz.running, hz.number, hz.attempts, hz.conds,
    hz.launchTime, hnext, hstate, hz.units, hz.matrix, hz.vector, hz.xfer, hmem⟩

/-- Settles O35: each grain's row does what its kind does on the channel that the live sheet binds. -/
theorem spanChannelGrains : Obligations.SpanChannelGrains := by
  intro s port sub sc ch ht k hplot hch
  have hs : IsTidy s := tidy_iff.mp ht
  refine ⟨fun ds hds => ⟨fun hrun hr hvoid => ?_, fun hrun hnext => ?_⟩, fun step count rec report hrun hrep hparts => ?_,
    fun step attempt hrun hr hcons => ?_, fun e he => ?_⟩
  · have h : exec (.data port sub sc ds) s = .next (dataOn s k sc.toNat (ds.take 4)) :=
      channelRow (f := fun k s => dataOn s k sc.toNat (ds.take 4)) hplot hch
    rw [List.take_of_length_le hds, dataOn_running hch hrun hr] at h
    have he : Entered s ch k ds _ := enterDrops_entered (sc := sc.toNat) hs hvoid
    exact ⟨_, h, he.chan, he.others, he.retained, he.freed, he.mem⟩
  · have h : exec (.data port sub sc ds) s = .next (dataOn s k sc.toNat (ds.take 4)) :=
      channelRow (f := fun k s => dataOn s k sc.toNat (ds.take 4)) hplot hch
    rw [h, List.take_of_length_le hds, dataOn_waits hch hrun hnext]
  · have h : exec (.commitGrain port sub sc step count rec report) s = .next (commitGrainOn s k sc.toNat step rec report) :=
      channelRow (f := fun k s => commitGrainOn s k sc.toNat step rec report) hplot hch
    exact ⟨_, h, commitGrainOn_running hs hrun hrep hparts⟩
  · have h : exec (.void port sub sc step attempt) s = .next (voidOn s k sc.toNat step) :=
      channelRow (f := fun k s => voidOn s k sc.toNat step) hplot hch
    exact ⟨_, h, voidOn_takes_back hs hch hrun hr hcons⟩
  · have h : exec (.credit port sub [e]) s = .next (creditOn s k [e]) :=
      grainRow_of_carriesPlot (f := fun k s => creditOn s k [e]) hplot
    have hg := getSub_creditOn_one (k := k) hs he
    exact ⟨_, h, by rw [hg], by rw [hg]⟩

/-- Settles O59: every command answers a next state, and in it the queue is as it was. -/
theorem commandsLeaveQueue : Obligations.CommandsLeaveQueue := fun _ _ => exec_pending

end Sys2Proof.Proofs
end

section
/-! PROOFS. The rows of the matrix engine as its plans say them: which plan passes the checks, and what its sources and its drops come to
(R62, R84, R103-R108). -/

namespace Sys2Proof.Machine

set_option Elab.async false

variable {s : State} {c : BitVec 6} {j : BitVec 5}

/-! ### Plans that pass the checks (R62) -/

/-- A plan that no check refuses is not the plan of an illegal encoding. -/
theorem plan_eq_of_cause_none {P : Prop} [Decidable P] {p : Plan} (h : (if P then illegalPlan else p).cause = none) :
    (if P then illegalPlan else p) = p := by
  split at h
  · cases h
  · exact if_neg ‹_›

/-- What passes every check passes check 6. -/
theorem not_bad_of_checkCause_none {a tile : Nat} {m : Names} {extra : Bool} (h : checkCause s a tile m extra = none) : m.bad = false := by
  by_contra hb
  rw [Bool.not_eq_false] at hb
  simp only [checkCause, hb, if_true] at h
  split_ifs at h

/-! ### A matrix command that nothing stops (R46, R50) -/

/-- A command of `n` strokes and sources `ls` whose checks pass retires with its effect on the state they are drained from. -/
theorem runMatrix_sources {w : CmdWord} {P : Prop} [Decidable P] {p : Plan} {n : Nat} (ls : List (LocRef × Nat)) (hj : matrixTile j = true)
    (hc : (if P then illegalPlan else p).cause = none) (hn : p.strokes = n) (h : tileAt s c j w n)
    (hd : p.demand = onInputs s c.toNat j.toNat (ls.flatMap fun l => srcPorts l.1 l.2)) (hf : fed (issued s c j) c j ls)
    (he : ∀ got g, (p.effect (strokeOf s c j) got g).2 = []) :
    runMatrix s c j w (if P then illegalPlan else p) =
      .next (retired (p.effect (strokeOf s c j) (drain (issued s c j) c j ls).2 (drain (issued s c j) c j ls).1).1 c j n) := by
  subst hn
  have hp := plan_eq_of_cause_none hc
  rw [hp] at hc ⊢
  rw [runMatrix_of_matrixTile hj, runTile_sources s c j w p ls h hc hd hf he]

/-- A command of `n` strokes and no sources whose checks pass gives its drops `out`, where they have room, and retires. -/
theorem runMatrix_gives {w : CmdWord} {P : Prop} [Decidable P] {p : Plan} {n : Nat} {b : State} {out : List (Nat × Drop)}
    (hj : matrixTile j = true) (hc : (if P then illegalPlan else p).cause = none) (hn : p.strokes = n) (h : tileAt s c j w n)
    (hd : p.demand = []) (he : p.effect (strokeOf s c j) [] (issued s c j) = (b, out)) (hr : room b out) :
    runMatrix s c j w (if P then illegalPlan else p) = .next (retired (pump b out).1 c j n) := by
  subst hn
  have hp := plan_eq_of_cause_none hc
  rw [hp] at hc ⊢
  have ht := runTile_done s c j w p (issued s c j) [] h hc (by rw [hd]; rfl)
  rw [List.map_nil, he] at ht
  rw [runMatrix_of_matrixTile hj, ht hr]

/-! ### Fields of the write-outs (R105, R106) -/

/-- The location of port `p`. -/
theorem locRef_port : ∀ p : BitVec 4, locRef (0x10000 + p.setWidth 17) = .port p.toNat := by decide

/-- COLS 3 is out of range (R107). -/
theorem cols_ne_three_of_planMwout {row0 nr fmtO aen : Nat} {cols : BitVec 2} {dst adst : BitVec 17}
    (h : (planMwout s c.toNat j.toNat row0 nr fmtO cols.toNat aen dst adst).cause = none) : cols ≠ 3 := by
  rintro rfl
  unfold planMwout at h
  dsimp only at h
  rw [plan_eq_of_cause_none h] at h
  dsimp only at h
  simpa using not_bad_of_checkCause_none h

/-- All 128 columns are written out where COLS is 0. -/
theorem outCols_length_eq_128 {cols : BitVec 2} (h : cols ≠ 3) : (outCols cols.toNat).length = 128 ↔ cols = 0 := by
  have hc : cols = 0 ∨ cols = 1 ∨ cols = 2 := by bv_omega
  obtain rfl | rfl | rfl := hc <;> simp [outCols]

/-- Strokes of an unscaled row: two where it is 128 columns of FP32 (R108). -/
theorem mwout_rowStrokes_eq {fmtO : BitVec 4} {cols : BitVec 2} (h : cols ≠ 3) :
    (if fmtO.toNat = 12 ∧ (outCols cols.toNat).length = 128 then 2 else 1) = if fmtO = 12 ∧ cols = 0 then 2 else 1 := by
  have hf : fmtO.toNat = 12 ↔ fmtO = 12 := by bv_omega
  simp only [hf, outCols_length_eq_128 h]

end Sys2Proof.Machine
end

section
/-! PROOFS. What is shown of the matrix engine: what its commands load, accumulate and write out. -/

namespace Sys2Proof.Proofs

open Machine

/-- Settles O3: each row is the effect of its plan on the state that its sources are drained from; a format field is the code its plan latches,
and MACC without a next tile takes the strokes of its rows alone. -/
theorem matrixLoadsAndAccumulates : Obligations.MatrixLoadsAndAccumulates := by
  intro s c j hj
  refine ⟨?mldw, ?manc, ?macc, ?maccNext, ?mwadd⟩
  case mldw =>
    intro bank fmtW src hc h d hf
    refine (runMatrix_sources _ hj hc rfl h (by simp [d]) hf fun _ _ => rfl).trans ?_
    rw [BitVec.ofNat_toNat, BitVec.setWidth_eq]
    rfl
  case manc =>
    intro row0 nr fmtA fmtW q asrc wsrc hc h ls hf
    exact runMatrix_sources ls hj hc rfl h (by simp [ls]) hf fun _ _ => rfl
  case macc =>
    intro row0 nr fmtA bank asrc nfmt nsrc hc fw kt sr h ls hf
    exact runMatrix_sources ls hj hc (Nat.max_zero _) h rfl hf fun _ _ => rfl
  case maccNext =>
    intro row0 nr fmtA bank asrc nfmt nsrc hc fw kt sr n h ls hf
    refine (runMatrix_sources ls hj hc rfl h (by simp [ls, kt, fw]) hf fun _ _ => rfl).trans ?_
    rw [BitVec.ofNat_toNat, BitVec.setWidth_eq]
    rfl
  case mwadd =>
    intro row0 nr src hc h ls hf
    exact runMatrix_sources ls hj hc rfl h (by simp [ls]) hf fun _ _ => rfl

/-- Settles O4: each row is the effect of its plan, which takes no drops, on the tile that has issued it; AEN says whether the anchor drop
comes after the lines, and MWEXP's location is its port. -/
theorem matrixWriteOuts : Obligations.MatrixWriteOuts := by
  intro s c j hj
  refine ⟨?mwout, ?mwexp⟩
  case mwout =>
    intro row0 nr fmtO cols aen dst adst hc
    rw [← mwout_rowStrokes_eq (cols_ne_three_of_planMwout hc)]
    intro cs o n h row ps e ea b' hr
    refine runMatrix_gives hj hc rfl h rfl ?_ hr
    obtain rfl | rfl : aen = 0 ∨ aen = 1 := by bv_omega
    · rfl
    · rfl
  case mwexp =>
    intro row0 nr p dst hc h out hr
    refine runMatrix_gives hj hc rfl h rfl ?_ hr
    simp only [dst, locRef_port]
    rfl

end Sys2Proof.Proofs
end

section
/-! PROOFS. The rows of the vector engine as their plans say them: what a plan on registers, a load and a store come to where nothing stops
the tile, and what the fields of a command are to its plan (R46, R50, R62, R109-R125). -/

namespace Sys2Proof.Machine

set_option Elab.async false

variable {s : State} {c : BitVec 6} {j : BitVec 5} {w : CmdWord} {n : Nat}

/-! ### A vector command that nothing stops (R46, R50) -/

/-- A command of `n` strokes and sources `ls` whose checks pass retires with its effect on the state they are drained from. -/
theorem runVector_sources {p : Plan} (ls : List (LocRef × Nat)) (hj : vectorTile j = true) (hc : p.cause = none) (hn : p.strokes = n)
    (h : tileAt s c j w n) (hd : p.demand = onInputs s c.toNat j.toNat (ls.flatMap fun l => srcPorts l.1 l.2))
    (hf : fed (issued s c j) c j ls) (he : ∀ got g, (p.effect (strokeOf s c j) got g).2 = []) :
    runVector s c j w p =
      .next (retired (p.effect (strokeOf s c j) (drain (issued s c j) c j ls).2 (drain (issued s c j) c j ls).1).1 c j n) := by
  subst hn
  rw [runVector_of_vectorTile hj, runTile_sources s c j w p ls h hc hd hf he]

/-- A command of `n` strokes and no sources whose checks pass gives its drops, where they have room, and retires. -/
theorem runVector_gives {p : Plan} {r : State × List (Nat × Drop)} (hj : vectorTile j = true) (hc : p.cause = none) (hn : p.strokes = n)
    (h : tileAt s c j w n) (hd : p.demand = []) (he : p.effect (strokeOf s c j) [] (issued s c j) = r) (hr : room r.1 r.2) :
    runVector s c j w p = vecStored c j n r := by
  subst hn
  have ht := runTile_done s c j w p (issued s c j) [] h hc (by rw [hd]; rfl)
  rw [List.map_nil, he] at ht
  rw [runVector_of_vectorTile hj, ht hr, vecStored]

/-- A command whose checks pass is its plan past them. -/
theorem runVector_checked {P : Prop} [Decidable P] {p : Plan} {out : Out} (hc : (if P then illegalPlan else p).cause = none)
    (h : p.cause = none → runVector s c j w p = out) : runVector s c j w (if P then illegalPlan else p) = out := by
  have hp := plan_eq_of_cause_none hc
  rw [hp] at hc ⊢
  exact h hc

/-- A command on the engine alone, which takes and gives no drops, is done with its effect on the engine as it issues. -/
theorem runVector_quiet {p : Plan} {eff : Nat → State → Nat → VectorSt → State} (hj : vectorTile j = true) (hc : p.cause = none)
    (hn : p.strokes = n) (h : tileAt s c j w n) (hd : p.demand = [])
    (he : p.effect (strokeOf s c j) [] (issued s c j) =
      (eff (strokeOf s c j) (vectorAt s c j []) (tileKey c.toNat j.toNat) (getVector (vectorAt s c j []) (tileKey c.toNat j.toNat)), [])) :
    runVector s c j w p = vecDone s c j n eff :=
  runVector_gives hj hc hn h hd he rfl

/-! ### Fields of a command and their numbers (R109-R113) -/

/-- A field is no number of its width other than its own. -/
theorem toNat_beq_false {k : Nat} {x y : BitVec k} (h : x ≠ y) : (x.toNat == y.toNat) = false := by
  rw [beq_eq_false_iff_ne]
  exact fun e => h (BitVec.eq_of_toNat_eq e)

theorem bit_toNat_eq_zero {x : BitVec 1} : x.toNat = 0 ↔ x = 0 := BitVec.toNat_inj (y := 0)

theorem bit_toNat_eq_one {x : BitVec 1} : x.toNat = 1 ↔ x = 1 := BitVec.toNat_inj (y := 1)

/-- A count other than 0 that passes its bound is in range (R133, R134, R138). -/
theorem count_in_range {k m : Nat} {x : BitVec k} (h0 : x ≠ 0) (h : x.toNat ≤ m) : (x.toNat == 0 || decide (x.toNat > m)) = false :=
  Bool.or_eq_false_iff.mpr ⟨toNat_beq_false h0, decide_eq_false (Nat.not_lt.mpr h)⟩

/-- VY is 0 where MODE 0 does not use it (R122). -/
theorem unused_vy_is_zero {mode : BitVec 1} {vy : BitVec 6} (h : mode = 0 → vy = 0) : (mode.toNat == 0 && vy.toNat != 0) = false := by
  obtain rfl | rfl : mode = 0 ∨ mode = 1 := by bv_omega
  · rw [h rfl]
    rfl
  · rfl

/-- KOP names its operation (R115). -/
theorem maskOp_toNat (kop : BitVec 2) (x y : BitVec 256) :
    maskOp kop.toNat x y = if kop = 0 then x &&& y else if kop = 1 then x ||| y else if kop = 2 then x ^^^ y else x &&& ~~~y := by
  obtain rfl | rfl | rfl | rfl : kop = 0 ∨ kop = 1 ∨ kop = 2 ∨ kop = 3 := by bv_omega
  all_goals rfl

/-- Two fields that name registers name one where they are equal (R133, R138; log 16). -/
theorem twoResults_toNat (x y : BitVec 6) (lx ly : List (BitVec 32)) :
    twoResults x.toNat y.toNat lx ly =
      if x = y then [(x.toNat, allLanes (List.zipWith Config.bothResults lx ly))] else [(x.toNat, allLanes lx), (y.toNat, allLanes ly)] := by
  simp only [twoResults, BitVec.toNat_inj]
  rfl

/-- The ceiling one above an anchor, as R122 gives it. -/
theorem ceiling_of_anchor (x : Int) : x - 127 + 1 = x - 126 := by omega

/-- The ceiling one above the sum of two anchors. -/
theorem ceiling_of_anchor_sum (x y : Int) : x + (y - 127) + 1 = x + (y - 126) := by omega

/-- VLD and VST take a stroke per 16 bits of a lane (R113, R119). -/
theorem vldStrokes_toNat : ∀ ty : BitVec 2, vldStrokes ty.toNat = if ty = 0 ∨ ty = 3 then 2 else 1 := by decide

theorem tyBytes_eq_two_mul_strokes (ty : Nat) : tyBytes ty = 2 * vldStrokes ty := by
  unfold vldStrokes tyBytes
  split <;> rfl

/-! ### The three shapes of a plan (R62, R112, R119) -/

/-- A plan on registers that is neither illegal nor out of range. -/
theorem runVector_regPlan {illegal bad : Bool} {eff : Nat → State → Nat → VectorSt → State} (hj : vectorTile j = true)
    (hi : illegal = false) (hb : bad = false) (h : tileAt s c j w n) :
    runVector s c j w (regPlan c.toNat j.toNat n illegal bad eff) = vecDone s c j n eff := by
  subst hi hb
  exact runVector_quiet hj rfl rfl h rfl rfl

/-- A plan on registers that passes the checks is neither illegal nor out of range. -/
theorem regPlan_passes {a b : Nat} {illegal bad : Bool} {eff : Nat → State → Nat → VectorSt → State}
    (h : (regPlan a b n illegal bad eff).cause = none) : illegal = false ∧ bad = false := by
  cases illegal
  · cases bad
    · exact ⟨rfl, rfl⟩
    · cases h
  · cases h

/-- A load that passes the checks, at whatever strokes its drops come, does its effect on the bytes of its location. -/
theorem runVector_loadPlan {d : Nat} {src : BitVec 17} {illegal bad : Bool} {eff : Nat → Bytes → State → Nat → VectorSt → State}
    {inAt : Nat → Nat → Nat} {outAt : Nat → Nat} (hj : vectorTile j = true)
    (hc : (loadPlan s c.toNat j.toNat n d src illegal bad eff).cause = none) (h : tileAt s c j w n)
    (hf : fed (issued s c j) c j [(locRef src, d)]) :
    runVector s c j w { loadPlan s c.toNat j.toNat n d src illegal bad eff with inAt, outAt } =
      vecLoaded s c j n d src fun t bs b k => eff t bs b k (getVector b k) := by
  have hp := plan_eq_of_cause_none hc
  rw [← loadPlan] at hp
  rw [hp] at hc ⊢
  exact runVector_sources [(locRef src, d)] hj hc rfl h (by simp) hf fun _ _ => rfl

/-- A store that passes the checks, at whatever strokes its drops leave, gives the pieces of its effect at its location. -/
theorem runVector_storePlan {d : Nat} {dst : BitVec 17} {illegal bad : Bool} {eff : Nat → State → Nat → VectorSt → List OutPiece × State}
    {inAt : Nat → Nat → Nat} {outAt : Nat → Nat} {ps : List OutPiece} {b : State} (hj : vectorTile j = true)
    (hc : (storePlan s c.toNat j.toNat n d dst illegal bad eff).cause = none) (h : tileAt s c j w n)
    (he : eff (strokeOf s c j) (vectorAt s c j []) (tileKey c.toNat j.toNat) (getVector (vectorAt s c j []) (tileKey c.toNat j.toNat)) =
      (ps, b))
    (hr : room (vecEmit b c j dst ps).1 (vecEmit b c j dst ps).2) :
    runVector s c j w { storePlan s c.toNat j.toNat n d dst illegal bad eff with inAt, outAt } = vecStored c j n (vecEmit b c j dst ps) := by
  have hp := plan_eq_of_cause_none hc
  rw [← storePlan] at hp
  rw [hp] at hc ⊢
  refine runVector_gives hj hc rfl h rfl ?_ hr
  exact congrArg (fun r : List OutPiece × State => vecEmit r.2 c j dst r.1) he

end Sys2Proof.Machine
end

section
/-! PROOFS. What is shown of the vector engine: its lane, mask, load, store, well and sampling commands. -/

namespace Sys2Proof.Proofs

open Machine

/-- Settles O5: each row is a plan on registers that its operands keep legal and in range; a field is the lane that its plan writes. -/
theorem vectorLaneCommands : Obligations.VectorLaneCommands := by
  intro s c j hj
  refine ⟨?vop, ?vfn, ?vcvt, ?vsel, ?vimm, ?viota⟩
  case vop =>
    intro op ty vd va vb vc km hc h
    obtain ⟨hi, hb⟩ := regPlan_passes hc
    exact runVector_regPlan hj hi hb h
  case vfn =>
    intro fn ti tt vd va km hti htt h
    exact runVector_regPlan hj rfl (Bool.or_eq_false_iff.mpr ⟨toNat_beq_false hti, toNat_beq_false htt⟩) h
  case vcvt =>
    intro ti tt vd va km hti htt h
    exact runVector_regPlan hj (by simp [hti, htt]) rfl h
  case vsel =>
    intro vd va vb ks h
    exact runVector_regPlan hj rfl rfl h
  case vimm =>
    intro vd imm km h
    refine (runVector_regPlan hj rfl rfl h).trans ?_
    simp only [lane, BitVec.ofNat_toNat, BitVec.setWidth_eq]
    rfl
  case viota =>
    intro vd base h
    refine (runVector_regPlan hj rfl rfl h).trans ?_
    simp only [lane, BitVec.ofNat_add, BitVec.ofNat_toNat, BitVec.setWidth_eq]
    rfl

/-- Settles O6: both rows are plans on registers, in range where KD is not K0 and CMP is listed; KOP names its operation. -/
theorem vectorMaskCommands : Obligations.VectorMaskCommands := by
  intro s c j hj
  constructor
  · intro cmp ty kd va vb km hcmp hkd h
    exact runVector_regPlan hj (toNat_beq_false hcmp) (toNat_beq_false hkd) h
  · intro kop kd ka kb hkd h
    refine (runVector_regPlan hj rfl (toNat_beq_false hkd) h).trans ?_
    simp only [maskOp_toNat]

/-- Settles O7: VLD, VLDQ and VLDA are load plans, VLDX acts on the engine alone, and VWADD takes the drops of its port. -/
theorem vectorLoads : Obligations.VectorLoads := by
  intro s c j hj
  refine ⟨?vld, ?vldx, ?vldq, ?vlda, ?vwadd⟩
  case vld =>
    intro vd ty src n hc h hf
    have hn : vldStrokes ty.toNat = n := vldStrokes_toNat ty
    have hd : 4 * tyBytes ty.toNat = 8 * n := by rw [tyBytes_eq_two_mul_strokes, hn]; omega
    clear_value n
    subst hn
    rw [← tyBytes_eq_two_mul_strokes, ← hd]
    rw [← hd] at hf
    exact runVector_loadPlan hj hc h hf
  case vldx =>
    intro vd vx base limit hc h
    exact runVector_checked hc fun hc => runVector_quiet hj hc rfl h rfl rfl
  case vldq =>
    intro vd nr kc fmt src hc kk n d h hf
    exact runVector_loadPlan hj hc h hf
  case vlda =>
    intro vd src hc h hf
    exact runVector_loadPlan hj hc h hf
  case vwadd =>
    intro row src hc h hf g
    exact runVector_checked hc fun hc => runVector_sources [(locRef src, 128)] hj hc rfl h (by simp) hf fun _ _ => rfl

/-- Settles O8: VST, VQNT and VSTA are store plans, VSTX logs its writes in the engine, and VWEXP gives the records to its port. -/
theorem vectorStores : Obligations.VectorStores := by
  intro s c j hj k t b v
  refine ⟨?vst, ?vstx, ?vqnt, ?vsta, ?vwexp⟩
  case vst =>
    intro va ty dst km hc n h ls m ps hr
    have hn : vldStrokes ty.toNat = n := vldStrokes_toNat ty
    clear_value n
    subst hn
    refine runVector_storePlan hj hc h ?_ hr
    simp only [ps, m, ls, t, v, b, k, tyBytes_eq_two_mul_strokes, beq_iff_eq]
    rcases locRef dst with off | p | _
    · dsimp only
      split <;> rfl
    · rfl
    · rfl
  case vstx =>
    intro va vx base limit hc h x a
    exact runVector_checked hc fun hc => runVector_gives hj hc rfl h rfl rfl rfl
  case vqnt =>
    intro va nr kc fmtO row0 vx dst hc kk n h row ps merged b' hr
    exact runVector_storePlan hj hc h rfl hr
  case vsta =>
    intro va dst hc h ps hr
    exact runVector_storePlan hj hc h rfl hr
  case vwexp =>
    intro row p dst hc h out hr
    refine runVector_checked hc fun hc => runVector_gives hj hc rfl h rfl ?_ hr
    simp only [dst, locRef_port]
    rfl

/-- Settles O9: each row is a plan on registers, in range where TY is a float and VY is used or 0. -/
theorem vectorWellsAndMaxima : Obligations.VectorWellsAndMaxima := by
  intro s c j hj
  refine ⟨?vwanc, ?vrsum, ?vrdot, ?vwout, ?vanch, ?vrmax⟩
  case vwanc =>
    intro row mode bc vx vy hy h
    refine (runVector_regPlan hj rfl (unused_vy_is_zero hy) h).trans ?_
    simp only [ceiling_of_anchor, ceiling_of_anchor_sum, Bool.or_eq_true, Bool.and_eq_true, beq_iff_eq, bit_toNat_eq_zero, bit_toNat_eq_one]
  case vrsum =>
    intro row dir ty va km hty h
    exact runVector_regPlan hj rfl (toNat_beq_false hty) h
  case vrdot =>
    intro row dir ty va vb km hty h
    exact runVector_regPlan hj rfl (toNat_beq_false hty) h
  case vwout =>
    intro vd row ty km hty h
    exact runVector_regPlan hj rfl (toNat_beq_false hty) h
  case vanch =>
    intro vd va ty hm mg km hty h
    refine (runVector_regPlan hj rfl (toNat_beq_false hty) h).trans ?_
    simp only [bit_toNat_eq_one]
    rfl
  case vrmax =>
    intro vd va ty km hty h
    exact runVector_regPlan hj rfl (toNat_beq_false hty) h

/-- Settles O10: each row is a plan on registers, in range where its counts and register numbers are; two results may name one register. -/
theorem vectorSelectAndSample : Obligations.VectorSelectAndSample := by
  intro s c j hj
  refine ⟨?vtopk, ?vsamp, ?vrng, ?vdisp⟩
  case vtopk =>
    intro lv li va vi kk init km hkk hle h
    refine (runVector_regPlan hj rfl (count_in_range hkk hle) h).trans ?_
    simp only [twoResults_toNat, bit_toNat_eq_one]
    rfl
  case vsamp =>
    intro vd lv li vp kk hkk hle h
    exact runVector_regPlan hj rfl (count_in_range hkk hle) h
  case vrng =>
    intro vd vt vq vs stream wd hq hs h
    refine (runVector_regPlan hj rfl (Bool.or_eq_false_iff.mpr ⟨decide_eq_false (by omega), decide_eq_false (by omega)⟩) h).trans ?_
    simp only [lane, BitVec.ofNat_toNat, bit_toNat_eq_zero]
    rfl
  case vdisp =>
    intro vs vf ve vcap nc nt cont hnc hnc8 hnt hle h
    have hbad := Bool.or_eq_false_iff.mpr
      ⟨Bool.or_eq_false_iff.mpr ⟨count_in_range hnc hnc8, toNat_beq_false hnt⟩, decide_eq_false (Nat.not_lt.mpr hle)⟩
    refine (runVector_regPlan hj rfl hbad h).trans ?_
    simp only [twoResults_toNat, bit_toNat_eq_one]
    rfl

end Sys2Proof.Proofs
end

section
/-! PROOFS. What an instruction of a scribe does once it has come to it: its checks pass, its effect keeps the PC, and it retires (R143-R156). -/

namespace Sys2Proof.Machine

variable {s t : State} {c : BitVec 6}

/-! ### The PC -/

theorem scribePc_of_scribes {c : Nat} (h : t.scribes = s.scribes) : scribePc t c = scribePc s c := by
  simp only [scribePc, getScribe, h]

theorem scribePc_setScribe {c : Nat} {x : ScribeSt} (h : keysRise 0 s.scribes = true) : scribePc (setScribe s c x) c = x.pc :=
  congrArg ScribeSt.pc (tget_tset_self _ _ _ _ h)

/-- Landing the scribe's earlier writes keeps the form of the scribes' table. -/
theorem scribeNow_keysRise (hs : tidy s = true) : keysRise 0 (scribeNow s c).scribes = true :=
  keysRise_tset _ _ _ _ (tidy_iff.mp hs).scribes

/-- A write of the scribe's record that keeps its PC leaves the PC where the instruction stands. -/
theorem scribePc_setScribe_now {x : ScribeSt} (hs : tidy s = true) (hx : x.pc = scribePc (scribeNow s c) c.toNat) :
    scribePc (setScribe (scribeNow s c) c.toNat x) c.toNat = scribePc s c.toNat :=
  (scribePc_setScribe (scribeNow_keysRise hs)).trans (hx.trans (scribePc_scribeNow hs))

/-- An effect on other parts of the state than the scribes leaves the PC where the instruction stands. -/
theorem scribePc_of_scribesNow (hs : tidy s = true) (h : t.scribes = (scribeNow s c).scribes) :
    scribePc t c.toNat = scribePc s c.toNat :=
  (scribePc_of_scribes h).trans (scribePc_scribeNow hs)

/-- An instruction whose effect keeps the PC retires with the PC advanced by 1 (R143). -/
theorem nextScribe_done {n : Nat} (h : scribePc t c.toNat = scribePc s c.toNat) :
    .next (nextScribe t c.toNat n) = scribeDone t c n (scribePc s c.toNat + 1) := by
  rw [nextScribe, h, scribeDone]

/-! ### What effects leave of the scribes -/

@[simp] theorem noteTaken_scribes (s : State) (ch n : Nat) : (noteTaken s ch n).scribes = s.scribes := by
  unfold noteTaken
  split
  · rfl
  · split <;> rfl

@[simp] theorem takeDrops_scribes (s : State) (ch n : Nat) : (takeDrops s ch n).2.scribes = s.scribes := noteTaken_scribes _ _ _

@[simp] theorem unitStore_scribes (s : State) (c a : Nat) (bs : Bytes) : (unitStore s c a bs).scribes = s.scribes := by
  unfold unitStore
  split
  · split <;> rfl
  · rfl

theorem scribes_of_loggedOnly (h : LoggedOnly s t) : t.scribes = s.scribes := by
  obtain ⟨⟨_, _, _, _, _, _, _, _, _, rfl⟩, -, -⟩ := h
  rfl

/-! ### G registers and loop counters -/

/-- The model's write of a G register is the claims' (R140, R147). -/
theorem putG_scribeNow {lat : Nat} {gd : BitVec 5} {v : BitVec 64} :
    putG (scribeNow s c) c.toNat (scribeT (scribeNow s c) c.toNat) lat gd.toNat v = wroteG s c lat gd v := by
  have hzero : gd.toNat = 0 ↔ gd = 0 := BitVec.toNat_inj (y := 0#5)
  simp only [putG, wroteG, hzero]

theorem scribePc_wroteG {lat : Nat} {gd : BitVec 5} {v : BitVec 64} (hs : tidy s = true) :
    scribePc (wroteG s c lat gd v) c.toNat = scribePc s c.toNat := by
  unfold wroteG
  split
  · exact scribePc_scribeNow hs
  · exact scribePc_setScribe_now hs rfl

/-- An instruction that writes a G register retires (R146). -/
theorem nextScribe_putG {lat : Nat} {gd : BitVec 5} {v : BitVec 64} (hs : tidy s = true) :
    .next (nextScribe (putG (scribeNow s c) c.toNat (scribeT (scribeNow s c) c.toNat) lat gd.toNat v) c.toNat 1) =
      scribeDone (wroteG s c lat gd v) c 1 (scribePc s c.toNat + 1) := by
  rw [putG_scribeNow, nextScribe_done (scribePc_wroteG hs)]

/-- An instruction that writes a loop counter and goes on retires (R146). -/
theorem nextScribe_putL {lk : Nat} {v : BitVec 32} (hs : tidy s = true) :
    .next (nextScribe (putL (scribeNow s c) c.toNat lk v) c.toNat 1) =
      scribeDone (putL (scribeNow s c) c.toNat lk v) c 1 (scribePc s c.toNat + 1) :=
  nextScribe_done (scribePc_setScribe_now hs rfl)

/-! ### The checks on sources -/

theorem withSources_plain {a : BitVec 7} {n : Nat} {k : Unit → State} (ha : plainSel a) :
    withSources s c.toNat false [a.toNat] n k = k () :=
  withSources_of_plain (sels := [a]) (by simpa using ha)

theorem withSources_plain_pair {a b : BitVec 7} {n : Nat} {k : Unit → State} (ha : plainSel a) (hb : plainSel b) :
    withSources s c.toNat false [a.toNat, b.toNat] n k = k () :=
  withSources_of_plain (sels := [a, b]) (by simp [ha, hb])

/-- An illegal encoding is skipped before its sources are looked at (R62). -/
theorem withSources_illegal {sels : List Nat} {n : Nat} {k : Unit → State} :
    withSources s c.toNat true sels n k = skipScribe s c.toNat 4 1 := rfl

/-- NOTE's sources, observation registers among them, are no reserved selectors (R156). -/
theorem selBad_of_lt {sel : BitVec 7} (h : sel.toNat < 0x70) : selBad sel.toNat = false := decide_eq_false (Nat.not_le.mpr h)

/-! ### Strokes -/

/-- Whether a unit waits does not bear on where it stops when it begins a command: one that is halted may begin it for one stroke at most. -/
theorem stopAt_waiting_irrelevant {k n : Nat} (h : canIssue s k = true) :
    stopAt s k { getUnit s k with stepped := 0 } n = stopAt s k { getUnit s k with stepped := 0, waiting := none } n := by
  have hgo : ((getUnit s k).halted = false ∨ (getUnit s k).oneMore = true) ∨ (getUnit s k).oneStroke = true := by
    simp only [canIssue, Bool.and_eq_true, Bool.or_eq_true, Bool.not_eq_true'] at h
    exact h.1.1.1.2
  rcases hgo with (hgo | hgo) | hgo <;> simp [stopAt, hgo]

/-- Nothing stops the instruction that the scribe has come to within its strokes (R427). -/
theorem scribeStop_scribeNow {w : BitVec 64} {n : Nat} (h : scribeAt s c w n) : scribeStop (scribeNow s c) c.toNat 0 n = n := by
  obtain ⟨hissue, -, -, hstop⟩ := h
  exact (stopAt_waiting_irrelevant hissue).trans hstop

/-- An instruction that only takes strokes takes all `n` of them where nothing stops it (R48). -/
theorem finishScribe_done {w : BitVec 64} {n : Nat} (hs : tidy s = true) (h : scribeAt s c w n) :
    .next (finishScribe (scribeNow s c) c.toNat 0 n) = scribeDone (scribeNow s c) c n (scribePc s c.toNat + 1) := by
  rw [finishScribe, scribeStop_scribeNow h, if_pos rfl, nextScribe_done (scribePc_scribeNow hs)]

/-! ### Branches -/

theorem exec_br_at {cond : BitVec 3} {sa sb : BitVec 7} {target : BitVec 24} {n : Nat}
    (h : scribeAt s c (sWord [(8, 0x11), (3, cond.toNat), (7, sa.toNat), (7, sb.toNat), (24, target.toNat)]) n) :
    exec (.br c cond sa sb target) s =
      .next (withSources (scribeNow s c) c.toNat (decide (cond.toNat ≥ 6)) [sa.toNat, sb.toNat] 1 fun _ =>
        if brCond cond.toNat (scribeSrc s c sa.toNat) (scribeSrc s c sb.toNat) then retireScribe (scribeNow s c) c.toNat 1 target
        else nextScribe (scribeNow s c) c.toNat 1) := by
  show execBr c cond sa sb target s = _
  rw [execBr, runScribe_at h]
  rfl

/-- A branch whose condition is defined goes by it (R145). -/
theorem exec_br_plain {cond : BitVec 3} {sa sb : BitVec 7} {target : BitVec 24} {n : Nat} (hs : tidy s = true)
    (hc : cond.toNat < 6) (ha : plainSel sa) (hb : plainSel sb)
    (h : scribeAt s c (sWord [(8, 0x11), (3, cond.toNat), (7, sa.toNat), (7, sb.toNat), (24, target.toNat)]) n) :
    exec (.br c cond sa sb target) s =
      if brCond cond.toNat (scribeSrc s c sa.toNat) (scribeSrc s c sb.toNat) then scribeDone (scribeNow s c) c 1 target
      else scribeDone (scribeNow s c) c 1 (scribePc s c.toNat + 1) := by
  rw [exec_br_at h, decide_eq_false (Nat.not_le.mpr hc), withSources_plain_pair ha hb, ← nextScribe_done (scribePc_scribeNow hs)]
  split <;> rfl

/-! ### Channels and observation -/

/-- CSEND into a channel with room gives one drop of eight registers (R154). -/
theorem doCsend_room {port ga ch : Nat} (hs : tidy s = true) (hch : outChan s c.toNat 0x1F port = some ch) (hg : ga % 8 = 0)
    (hroom : (getChan s ch).length < chanDepth s ch) :
    .next (doCsend (scribeNow s c) c.toNat port ga) =
      scribeDone (setChan (scribeNow s c) ch (getChan s ch ++
        [wordOf 512 ((List.range 8).flatMap fun i => bytesOf 8 (scribeSrc s c (ga + i)))])) c 1 (scribePc s c.toNat + 1) := by
  have hch' : outChan (scribeNow s c) c.toNat 0x1F port = some ch := hch
  have hroom' : (getChan (scribeNow s c) ch).length < chanDepth (scribeNow s c) ch := hroom
  simp only [doCsend, hch', hg, ne_eq, not_true_eq_false, if_false, hroom', if_true]
  exact nextScribe_done (scribePc_of_scribesNow hs rfl)

/-- CWAIT with its drops there takes them in as many strokes (R154). -/
theorem doCwait_fed {w : BitVec 64} {port n ch : Nat} (hs : tidy s = true) (hch : inChan s c.toNat 0x1F port = some ch) (hn : n ≠ 0)
    (hlen : n ≤ (getChan s ch).length) (h : scribeAt s c w n) :
    .next (doCwait (scribeNow s c) c.toNat port n 0) =
      scribeDone (takeDrops (scribeNow s c) ch n).2 c n (scribePc s c.toNat + 1) := by
  have hch' : inChan (scribeNow s c) c.toNat 0x1F port = some ch := hch
  have htaken : (takeDrops (scribeNow s c) ch n).1.length = n := List.length_take_of_le hlen
  simp only [doCwait, hch', hn, if_false, scribeStop_scribeNow h, Nat.sub_zero, Nat.zero_add, htaken, Nat.lt_irrefl]
  exact nextScribe_done (scribePc_of_scribesNow hs (takeDrops_scribes _ _ _))

/-- WHAT selects the time or the launch time, its seconds or the rest (R155). -/
theorem treadVal_what (s : State) (what : BitVec 2) :
    treadVal s what.toNat = if what = 0 then s.time.now.sec.setWidth 64 else if what = 1 then timeSub s.time.now
      else if what = 2 then s.step.launchTime.sec.setWidth 64 else timeSub s.step.launchTime := by
  have hwhat : what = 0 ∨ what = 1 ∨ what = 2 ∨ what = 3 := by revert what; decide
  rcases hwhat with rfl | rfl | rfl | rfl <;> rfl

/-- TREAD's stroke is stretched while the timebase relocks (R255). -/
theorem doTread_relock {od what : Nat} (h : s.time.relock = true) :
    doTread (scribeNow s c) c.toNat od what = waitScribe (scribeNow s c) c.toNat .relock 0 := if_pos h

/-- TREAD writes an observation register (R155). -/
theorem doTread_locked {od what : Nat} (hs : tidy s = true) (h : s.time.relock = false) :
    let x := getScribe (scribeNow s c) c.toNat
    .next (doTread (scribeNow s c) c.toNat od what) =
      scribeDone (setScribe (scribeNow s c) c.toNat { x with
        olog := x.olog ++ [{ stroke := scribeT (scribeNow s c) c.toNat, lat := 2, reg := od, val := treadVal s what }] }) c 1
        (scribePc s c.toNat + 1) := by
  have hlock : ¬ (scribeNow s c).time.relock = true := Bool.eq_false_iff.mp h
  rw [doTread, if_neg hlock]
  exact nextScribe_done (scribePc_setScribe_now hs rfl)

/-- NOTE of readable sources does as DEST says, and retires (R156). -/
theorem exec_note_at {dest : BitVec 1} {tag : BitVec 16} {sa sb : BitVec 7} {n : Nat} (hs : tidy s = true)
    (ha : sa.toNat < 0x70) (hb : sb.toNat < 0x70)
    (h : scribeAt s c (sWord [(8, 0x39), (1, dest.toNat), (16, tag.toNat), (7, sa.toNat), (7, sb.toNat)]) n) :
    exec (.note c dest tag sa sb) s =
      let b := scribeNow s c
      scribeDone (if dest = 0 then
        logEv b { cls := 7, cause := 1, loc := skipLocator 0 c.toNat 0x1F (scribePc s c.toNat).toNat, a0 := scribeSrc s c sa.toNat
                  a1 := scribeSrc s c sb.toNat, die := c.toNat / 16, tag }
        else { b with step := { b.step with
          notes := b.step.notes ++ [{ tag, emitted := 0, sa := scribeSrc s c sa.toNat, sb := scribeSrc s c sb.toNat }] } })
        c 1 (scribePc s c.toNat + 1) := by
  show execNote c dest tag sa sb s = _
  rw [execNote, runScribe_at h, selBad_of_lt ha, selBad_of_lt hb, scribePc_scribeNow hs]
  refine nextScribe_done (scribePc_of_scribesNow hs ?_)
  split
  · exact scribes_of_loggedOnly (loggedOnly_logEv _ _)
  · rfl

end Sys2Proof.Machine
end

section
/-! PROOFS. What is shown of scribes: arithmetic, memory, control flow, branches, channels and observation. -/

namespace Sys2Proof.Proofs

open Machine

/-- Settles O11: past its checks, each row writes one G register under its contract, or nothing. -/
theorem scribeArithmetic : Obligations.ScribeArithmetic := by
  intro s c hs pc
  refine ⟨?wait, ?alu, ?alui, ?movi, ?ldc⟩
  case wait =>
    intro n hn h
    show execScribeWait c n s = _
    rw [execScribeWait, runScribe_at h, if_neg hn, finishScribe_done hs h]
  case alu =>
    intro op gd sa sb hop ha hb h
    show execAlu c op gd sa sb s = _
    rw [execAlu, runScribe_at h, decide_eq_false (Nat.not_le.mpr hop), withSources_plain_pair ha hb]
    exact nextScribe_putG hs
  case alui =>
    intro op gd sa imm hop ha h
    show execAlui c op gd sa imm s = _
    rw [execAlui, runScribe_at h, decide_eq_false (Nat.not_le.mpr hop), withSources_plain ha]
    exact nextScribe_putG hs
  case movi =>
    intro gd imm h
    show execMovi c gd imm s = _
    rw [execMovi, runScribe_at h]
    exact nextScribe_putG hs
  case ldc =>
    intro gd idx v hv h
    have hv' : (liveCore (scribeNow s c) c.toNat).consts[idx.toNat]? = some v := hv
    show execLdc c gd idx s = _
    rw [execLdc, runScribe_at h, hv']
    exact nextScribe_putG hs

/-- Settles O12: past their checks, LD is a write of a G register and ST a store of the unit, which leaves the scribes. -/
theorem scribeMemory : Obligations.ScribeMemory := by
  intro s c sa off w hs ha b base a pc
  refine ⟨?ld, ?st⟩
  case ld =>
    intro gd hcause h
    have hcause' : memCause (scribeNow s c) c.toNat (memBase (srcNow (scribeNow s c) c.toNat sa.toNat) off) w.toNat false = none := hcause
    show execLd c gd sa off w s = _
    rw [execLd, runScribe_at h, withSources_plain ha]
    simp only [hcause']
    exact nextScribe_putG hs
  case st =>
    intro ss hss hcause h
    have hcause' : memCause (scribeNow s c) c.toNat (memBase (srcNow (scribeNow s c) c.toNat sa.toNat) off) w.toNat true = none := hcause
    show execSt c ss sa off w s = _
    rw [execSt, runScribe_at h, withSources_plain_pair hss ha]
    simp only [hcause']
    exact nextScribe_done (scribePc_of_scribesNow hs (unitStore_scribes _ _ _ _))

/-- Settles O13: JMP and END retire with the PC they name, LSET and LEND write a loop counter first. -/
theorem scribeControlFlow : Obligations.ScribeControlFlow := by
  intro s c hs b pc
  refine ⟨?jmp, ?lset, ?lend, ?endOp⟩
  case jmp =>
    intro target h
    exact runScribe_at (m := 1) (body := fun s => retireScribe s c.toNat 1 target) h
  case lset =>
    intro lk sa imm ha v hv h
    show execLset c lk sa imm s = _
    rw [execLset, runScribe_at h, withSources_plain ha]
    exact (congrArg _ (if_neg (Nat.not_le.mpr hv))).trans (nextScribe_putL hs)
  case lend =>
    intro lk target h n
    show execLend c lk target s = _
    rw [execLend, runScribe_at h]
    by_cases hn : n.toNat > 1
    · exact (congrArg _ (if_pos hn)).trans (if_pos hn).symm
    · exact (congrArg _ (if_neg hn)).trans ((nextScribe_putL hs).trans (if_neg hn).symm)
  case endOp =>
    intro h
    show execEnd c s = _
    rw [execEnd, runScribe_at h, scribePc_scribeNow hs]

/-- Settles O14: a defined condition is what `brCond` computes, and an undefined one is an illegal encoding. -/
theorem branchConditions : Obligations.BranchConditions := by
  intro s c cond sa sb target hs h x y goes
  constructor
  · intro ha hb
    have goes_iff {p : Prop} (hc : cond.toNat < 6) (hp : brCond cond.toNat x y = true ↔ p) : goes p := by
      have hexec := exec_br_plain hs hc ha hb h
      exact ⟨fun hyes => hexec.trans (if_pos (hp.mpr hyes)), fun hno => hexec.trans (if_neg (mt hp.mp hno))⟩
    refine ⟨?eq, ?ne, ?ltU, ?geU, ?ltS, ?geS⟩
    case eq => rintro rfl; exact goes_iff (by decide) beq_iff_eq
    case ne => rintro rfl; exact goes_iff (by decide) bne_iff_ne
    case ltU => rintro rfl; exact goes_iff (by decide) decide_eq_true_iff
    case geU => rintro rfl; exact goes_iff (by decide) decide_eq_true_iff
    case ltS => rintro rfl; exact goes_iff (by decide) decide_eq_true_iff
    case geS => rintro rfl; exact goes_iff (by decide) decide_eq_true_iff
  · intro hc
    rw [exec_br_at h, decide_eq_true hc, withSources_illegal]

/-- Settles O16: past its checks, each row moves drops, or writes an observation register, the log or the step's notes, and retires. -/
theorem scribeChannelsAndObservation : Obligations.ScribeChannelsAndObservation := by
  intro s c hs b pc
  refine ⟨?csend, ?cwait, ?tread, ?trace, ?sealNote⟩
  case csend =>
    intro port ga ch hch hg hroom h
    show execCsend c port ga s = _
    rw [execCsend, runScribe_at h, doCsend_room hs hch hg hroom]
  case cwait =>
    intro port n ch hch hn hlen h
    have hn' : n.toNat ≠ 0 := fun e => hn (BitVec.eq_of_toNat_eq e)
    show execCwait c port n s = _
    rw [execCwait, runScribe_at h, doCwait_fed hs hch hn' hlen h]
  case tread =>
    intro od what h x v
    have hexec : exec (.tread c od what) s = .next (doTread (scribeNow s c) c.toNat od.toNat what.toNat) :=
      runScribe_at (m := 1) (body := fun s => doTread s c.toNat od.toNat what.toNat) h
    refine ⟨fun hr => ?_, fun hr => ?_⟩
    · rw [hexec, doTread_relock hr]
    · rw [hexec, doTread_locked hs hr, treadVal_what]
  case trace =>
    intro tag sa sb ha hb h
    exact exec_note_at hs ha hb h
  case sealNote =>
    intro tag sa sb ha hb h
    exact exec_note_at hs ha hb h

end Sys2Proof.Proofs
end

section
/-! PROOFS. The transfer engine and the die movers where nothing stops them: what a command or an entry that has its drops and its room comes
to (R50, R173-R186). -/

namespace Sys2Proof.Machine

variable {s t : State} {c : BitVec 6} {j : BitVec 5}

/-! ### What drops that move leave as it is (R34, R51) -/

/-- Channels of outputs are bound by the live sheet alone. -/
theorem outChan_of_sheets (h : t.sheets = s.sheets) (c tile p : Nat) : outChan t c tile p = outChan s c tile p := by
  simp only [outChan, liveChans, h]

/-- Channels of a mover's inputs are bound by the live sheet alone. -/
theorem moverIn_of_sheets (h : t.sheets = s.sheets) (m p : Nat) : moverIn t m p = moverIn s m p := by
  simp only [moverIn, liveChans, h]

/-- Channels of a mover's outputs are bound by the live sheet alone. -/
theorem moverOut_of_sheets (h : t.sheets = s.sheets) (m p : Nat) : moverOut t m p = moverOut s m p := by
  simp only [moverOut, liveChans, h]

/-- What backs an address rests on the DIMMs alone (R34). -/
theorem backedRange_of_ddrs (h : t.ddrs = s.ddrs) (a n : Nat) : backedRange t a n = backedRange s a n := by
  have hd (m : Nat) : dimmBytes t m = dimmBytes s m := by unfold dimmBytes getDdr; rw [h]
  simp only [backedRange, hd]

/-- The checks of an entry rest on the live sheet and the DIMMs (R186). -/
theorem moverCause_of_unitStep (h : UnitStep s t) (m : Nat) (e : MoverEntry) (a : Nat) : moverCause t m e a = moverCause s m e a := by
  have hr (n : Nat) : moverRange t m a n (moverWrites e) = moverRange s m a n (moverWrites e) := by
    simp only [moverRange, moverList, h.sheets]
  unfold moverCause
  dsimp only
  rw [hr, backedRange_of_ddrs h.ddrs]

/-- An entry's done drop goes where the live sheet binds its port (R183). -/
theorem moverDone_of_sheets (h : t.sheets = s.sheets) (m i : Nat) (e : MoverEntry) (skip : Bool) :
    moverDone t m i e skip = moverDone s m i e skip := by
  simp only [moverDone, moverOut_of_sheets h]

/-- An XMOV's done drop goes where the live sheet binds its port (R182). -/
theorem xmovLast_of_sheets (h : t.sheets = s.sheets) (c j : Nat) (x : Xmov) (skip : Bool) (index : Nat) :
    xmovLast t c j x skip index = xmovLast s c j x skip index := by
  simp only [xmovLast, outChan_of_sheets h]

/-! ### Transfer commands that nothing stops (R46, R175) -/

/-- A transfer command of `n` strokes that takes and gives no drops retires with its effect on the tile that has issued it. -/
theorem runTransfer_quiet {w : CmdWord} {p : Plan} {n : Nat} {b : State} (hj : transferTile j = true) (hc : p.cause = none)
    (hn : p.strokes = n) (h : tileAt s c j w n) (hd : p.demand = []) (he : p.effect (strokeOf s c j) [] (issued s c j) = (b, [])) :
    runTransfer s c j w p = .next (retired b c j n) := by
  subst hn
  have hq := runTile_quiet s c j w p (issued s c j) [] h hc (by rw [hd]; rfl)
  rw [List.map_nil, he] at hq
  rw [runTransfer_of_transferTile hj, hq rfl]

/-! ### XMOV (R176, R177, R182) -/

/-- An XMOV that no breakpoint and no channel stops retires once its drops and its done drop are given (R177); `t` is the state it goes on from,
with the live sheet of `s`. -/
theorem xmovAdvance_retires {c j index : Nat} {x : Xmov} {b : Blocked} (hsheets : t.sheets = s.sheets)
    (hindex : (getUnit t (tileKey c j)).issued = index + 1) (hmoved : b.moved = 0) (hgot : b.got = []) (hcause : b.cause = none)
    (hstop : stopAt t (tileKey c j) (getUnit t (tileKey c j)) (2 + x.rows * x.drops) = 2 + x.rows * x.drops) :
    let v := xsetOf b.latch
    let inp := if v.skind = 1 then inChan s c j v.sport else none
    let outp := if v.dkind = 1 then outChan s c j v.dport else none
    let g := xmovGo c x v false inp outp (x.rows * x.drops) 0 none t
    let last := xmovLast s c j x false index
    g.2.2.2 = none → room g.1 last → xmovAdvance t c j x b = retireUnit (pump g.1 last).1 (tileKey c j) (2 + x.rows * x.drops) := by
  intro v inp outp g last hg hroom
  have hlast : xmovLast g.1 c j x false index = last := xmovLast_of_sheets ((UnitStep.refl t).xmovGo.sheets.trans hsheets) c j x false index
  have hcount : min (x.rows * x.drops) (2 + x.rows * x.drops - 1) = x.rows * x.drops := by omega
  have hpump : (pump g.1 last).2 = [] := hroom
  simp only [g, v, inp, outp] at hg hlast hpump ⊢
  simp only [xmovAdvance, hstop, hmoved, hgot, hcause, hcount, hindex, inChan_of_sheets _ _ hsheets, outChan_of_sheets hsheets, hg, hlast,
    hpump, Nat.add_sub_cancel, List.head?_nil, Option.bind_none, Option.isSome_none, Nat.sub_zero, Nat.lt_irrefl, if_false]

/-- The flip at the issue of an XMOV writes register sets alone (R174). -/
theorem xmovFlip_eq (s : State) (k : Nat) (x : Xmov) (skip : Bool) : ∃ xfer, xmovFlip s k x skip = { s with xfer } := by
  unfold xmovFlip
  split
  · exact ⟨_, rfl⟩
  · exact ⟨_, rfl⟩

theorem getUnit_xmovFlip (s : State) (k : Nat) (x : Xmov) (skip : Bool) (i : Nat) : getUnit (xmovFlip s k x skip) i = getUnit s i := by
  obtain ⟨_, h⟩ := xmovFlip_eq s k x skip
  rw [h]
  rfl

theorem stopAt_xmovFlip (s : State) (k : Nat) (x : Xmov) (skip : Bool) (i : Nat) (u : UnitSt) (n : Nat) :
    stopAt (xmovFlip s k x skip) i u n = stopAt s i u n := by
  obtain ⟨_, h⟩ := xmovFlip_eq s k x skip
  rw [h]
  rfl

/-- A tile that comes to an XMOV whose checks pass flips its set, moves its drops, gives its done drop and retires (R176, R177). -/
theorem runXmov_moves {x : Xmov} (hc : xmovCause s c.toNat j.toNat x = none) (h : tileAt s c j (xmovWord x) (2 + x.rows * x.drops)) :
    let v := xmovSet s (tileKey c.toNat j.toNat) x
    let f := xmovFlip (issued s c j) (tileKey c.toNat j.toNat) x false
    let inp := if v.skind = 1 then inChan s c.toNat j.toNat v.sport else none
    let outp := if v.dkind = 1 then outChan s c.toNat j.toNat v.dport else none
    let g := xmovGo c.toNat x v false inp outp (x.rows * x.drops) 0 none f
    let last := xmovLast s c.toNat j.toNat x false (getUnit s (tileKey c.toNat j.toNat)).issued
    g.2.2.2 = none → room g.1 last → runXmov s c.toNat j.toNat x = retired (pump g.1 last).1 c j (2 + x.rows * x.drops) := by
  intro v f inp outp g last hg hroom
  have hcause : (planXmov s c.toNat j.toNat x).cause = none := hc
  have hindex : (getUnit f (tileKey c.toNat j.toNat)).issued = (getUnit s (tileKey c.toNat j.toNat)).issued + 1 := by
    rw [getUnit_xmovFlip, getUnit_issued]
  have hstop : stopAt f (tileKey c.toNat j.toNat) (getUnit f (tileKey c.toNat j.toNat)) (2 + x.rows * x.drops) = 2 + x.rows * x.drops := by
    rw [stopAt_xmovFlip, getUnit_xmovFlip]
    exact stopAt_issued s c j _ h.2.2.2
  rw [runXmov, runTileWith_at s c j _ _ _ h hcause, hcause]
  exact xmovAdvance_retires (UnitStep.refl (issued s c j)).xmovFlip.sheets hindex rfl rfl rfl hstop hg hroom

/-! ### Entries of the die movers (R183-R186) -/

/-- The mover has come to its next entry. -/
def moverIssued (s : State) (m : Nat) : State :=
  setUnit s (moverKey m) { getUnit s (moverKey m) with issued := (getUnit s (moverKey m)).issued + 1, waiting := none }

/-- A mover comes to an entry of the operation named and begins it. -/
theorem runMover_at {m op : Nat} {v : BitVec 256} (hissue : canIssue s (moverKey m) = true)
    (hv : (moverList s m).entries[(getUnit s (moverKey m)).issued]? = some v) (hop : (moverEntryOf v).op = op) :
    runMover s m op = moverAdvance (moverIssued s m) m (getUnit s (moverKey m)).issued (moverEntryOf v)
      { word := 0, got := [], moved := 0, out := [], effectDone := false } := by
  simp only [runMover, hv, hissue, hop, beq_self_eq_true, Bool.and_self, if_true, moverIssued]

/-- An entry whose checks pass logs no skip (R186). -/
theorem noteMoverSkip_of_cause_none {m i : Nat} {e : MoverEntry} {b : Blocked} (hc : moverCause s m e (moverAddr e b) = none) :
    noteMoverSkip s m i e b = s := by
  simp only [noteMoverSkip, hc]

/-- An entry whose address needs no descriptor drop goes on to its drops. -/
theorem moverAdvance_plain {m i : Nat} {e : MoverEntry} {b : Blocked} (hb : b.effectDone = false) (hmode : e.amode ≠ 1)
    (hc : moverCause s m e (moverAddr e b) = none) : moverAdvance s m i e b = moverMove s m i e { b with effectDone := true } := by
  simp only [moverAdvance, hb, hmode, noteMoverSkip_of_cause_none hc, Bool.false_eq_true, if_false]

/-- An entry whose descriptor drop is there takes it and goes on to its drops (R185). -/
theorem moverAdvance_descriptor {m i ch : Nat} {d : Drop} {ds : List Drop} {e : MoverEntry} {b : Blocked} (hb : b.effectDone = false)
    (hmode : e.amode = 1) (hch : moverIn s m e.dportIn = some ch) (hds : getChan s ch = d :: ds)
    (hc : moverCause s m e (moverAddr e { b with got := [(ch, [d])] }) = none) :
    moverAdvance s m i e b = moverMove (takeDrops s ch 1).2 m i e { b with got := [(ch, [d])], effectDone := true } := by
  have htaken : (takeDrops s ch 1).1 = [d] := by rw [takeDrops, hds]; rfl
  have hskip : noteMoverSkip (takeDrops s ch 1).2 m i e { b with got := [(ch, [d])] } = (takeDrops s ch 1).2 :=
    noteMoverSkip_of_cause_none ((moverCause_of_unitStep (UnitStep.refl s).takeDrops _ _ _).trans hc)
  rw [hb] at hskip
  simp only [moverAdvance, hb, hmode, hch, hds, htaken, hskip, List.isEmpty_cons, Bool.false_eq_true, if_false, if_true]

/-- An entry that no channel stops retires once its drops and its done drop are given: 2 strokes more than it moves drops (R183). -/
theorem moverMove_retires {m i : Nat} {e : MoverEntry} {b : Blocked} (hmoved : b.moved = 0)
    (hc : moverCause s m e (moverAddr e b) = none) :
    let ch := if e.op = 2 then moverIn s m e.dataPort else moverOut s m e.dataPort
    let g := moverGo m e (moverAddr e b) false ch e.drops 0 s
    let last := moverDone s m i e false
    g.2.2 = none → room g.1 last →
      moverMove s m i e b = modUnit (pump g.1 last).1 (moverKey m) fun u =>
        { u with strokes := u.strokes + BitVec.ofNat 64 (2 + e.drops), waiting := none, blocked := none } := by
  intro ch g last hg hroom
  have hlast : moverDone g.1 m i e false = last := moverDone_of_sheets (UnitStep.refl s).moverGo.sheets m i e false
  have hpump : (pump g.1 last).2 = [] := hroom
  simp only [g, ch] at hg hlast hpump ⊢
  simp only [moverMove, moverWrites, beq_iff_eq, hmoved, hc, hg, hlast, hpump, Option.isSome_none, Nat.sub_zero]

/-- An entry that comes to its address `a`, in the state `t` with its descriptor drop taken where AMODE is 1, goes on to its drops once its checks
pass (R185). -/
theorem moverAdvance_addressed {m i a : Nat} {e : MoverEntry}
    (ha : (e.amode ≠ 1 ∧ a = e.addr ∧ t = s) ∨
      (e.amode = 1 ∧ ∃ (ch : Nat) (d : Drop) (ds : List Drop), moverIn s m e.dportIn = some ch ∧ getChan s ch = d :: ds ∧
        a = (e.addr + d.toNat % 2 ^ 64) % 2 ^ 64 ∧ t = (takeDrops s ch 1).2))
    (hc : moverCause s m e a = none) :
    ∃ b : Blocked, b.moved = 0 ∧ moverAddr e b = a ∧ UnitStep s t ∧
      moverAdvance s m i e { word := 0, got := [], moved := 0, out := [], effectDone := false } = moverMove t m i e b := by
  rcases ha with ⟨hmode, rfl, rfl⟩ | ⟨hmode, ch, d, ds, hch, hds, rfl, rfl⟩
  · have haddr (b : Blocked) : moverAddr e b = e.addr := if_neg hmode
    exact ⟨_, rfl, haddr _, .refl _, moverAdvance_plain rfl hmode (by rw [haddr]; exact hc)⟩
  · have haddr {b : Blocked} (hb : b.got = [(ch, [d])]) : moverAddr e b = (e.addr + d.toNat % 2 ^ 64) % 2 ^ 64 := by
      rw [moverAddr, if_pos hmode, hb]
    exact ⟨_, rfl, haddr rfl, (UnitStep.refl s).takeDrops,
      moverAdvance_descriptor rfl hmode hch hds (by rw [haddr rfl]; exact hc)⟩

end Sys2Proof.Machine
end

section
/-! PROOFS. What is shown of transfer engines and die movers. -/

namespace Sys2Proof.Proofs

open Machine

/-- Settles O17: XREG and XFLIP are plans on the register sets alone; an XMOV moves its drops from the state that its flip leaves. -/
theorem transferCommands : Obligations.TransferCommands := by
  intro s c j hj k i
  refine ⟨?xreg, ?xflip, ?xmov⟩
  case xreg =>
    intro reg value hok h
    refine runTransfer_quiet hj (if_neg (Bool.eq_false_iff.mp hok)) rfl h rfl ?_
    simp only [planXreg, BitVec.ofNat_toNat, BitVec.setWidth_eq]
    rfl
  case xflip =>
    intro mask hmask h
    exact runTransfer_quiet hj (if_neg fun e => hmask (BitVec.eq_of_toNat_eq e)) rfl h rfl rfl
  case xmov =>
    intro set flip rows drops soff doff done cport x total hc h v f inp outp g last hg hroom _
    have hflip : f = xmovFlip i k x false := by
      simp only [f, xmovFlip, x, bit_toNat_eq_one, Bool.not_false, Bool.and_true, decide_eq_true_eq]
      rfl
    have hlast : last = xmovLast s c.toNat j.toNat x false (getUnit s k).issued := by
      simp only [last, xmovLast, x, bit_toNat_eq_one]
      rfl
    have hrun : exec (.xmov c j set flip rows drops soff doff done cport) s = .next (runXmov s c.toNat j.toNat x) :=
      congrArg Host.Outcome.next (if_pos (show isTransferTile j.toNat = true from hj))
    simp only [g, hflip, hlast] at hg hroom ⊢
    exact hrun.trans (congrArg _ (runXmov_moves hc h hg hroom))

/-- Settles O18: an entry of either operation is the same move of drops, from the state that its descriptor drop, if any, is taken in. -/
theorem dieMoverEntries : Obligations.DieMoverEntries := by
  intro s m v _ k u e i hissue hv a i' ha hc ch g last hg hroom t
  obtain ⟨b, hmoved, rfl, hstep, hadvance⟩ := moverAdvance_addressed (s := moverIssued s m.toNat) (i := u.issued) ha hc
  have hsheets : i'.sheets = s.sheets := hstep.sheets
  have hin := moverIn_of_sheets hsheets m.toNat e.dataPort
  have hout := moverOut_of_sheets hsheets m.toNat e.dataPort
  have hlast := moverDone_of_sheets hsheets m.toNat u.issued e false
  have hretires := moverMove_retires (i := u.issued) hmoved ((moverCause_of_unitStep hstep _ _ _).trans hc)
  simp only [hin, hout, hlast] at hretires
  have hrun (op : Nat) (hop : e.op = op) : Host.Outcome.next (runMover s m.toNat op) = (.next t : Out) := by
    rw [runMover_at hissue hv hop]
    exact congrArg _ (hadvance.trans (hretires hg hroom))
  exact ⟨hrun 1, hrun 2⟩

end Sys2Proof.Proofs
end

section
/-! PROOFS. What the commands of the serving head do to a slot, and what admission, epochs, salts and seals change beside it (R190, R201, R204,
R211-R219, R230, R349, R351). -/

namespace Sys2Proof.Machine

variable {s : State} {r : Nat} {seq : BitVec 32} {slot : BitVec 16} {rid : BitVec 64}

/-! ### What reading an entry and completing it leave (R341, R342) -/

/-- Reading an entry changes the mailbox alone. -/
theorem entryRead_eq (s : State) (ring : BitVec 4) : ∃ mbox, entryRead s ring = { s with mbox } := ⟨_, rfl⟩

@[simp] theorem done_serv (s : State) (r : Nat) (seq : BitVec 32) (c : MboxCmd) (err : Nat) (res : Bytes) :
    (done s r seq c err res).serv = s.serv := by
  simp only [done, complete, modRing, memWrite_serv]

/-! ### Slots (R190, R191) -/

theorem slot_ne_default {v : Slot} (h : v.state ≠ .free) : v ≠ {} := fun e => h (congrArg Slot.state e)

/-- A slot that is in use reads as it was set. -/
theorem getSlot_setSlot {i : Nat} {v : Slot} (h : v.state ≠ .free) : getSlot (setSlot s i v) i = v :=
  tget_tset_of_ne _ _ _ _ (slot_ne_default h)

theorem getSlot_of_serv {t : State} (h : t.serv = s.serv) (i : Nat) : getSlot t i = getSlot s i := by
  simp only [getSlot, h]

theorem freeSlotFrom_of_serv {t : State} (h : t.serv = s.serv) (i n : Nat) : freeSlotFrom t i n = freeSlotFrom s i n := by
  induction n generalizing i with
  | zero => rfl
  | succ n ih => simp only [freeSlotFrom, getSlot_of_serv h, ih]

/-- A request whose end is not decided yet takes the code given, and is ENDING (R190, R191). -/
theorem getSlot_decide_ {i code : Nat} (h : (getSlot s i).decided = false) :
    let v := getSlot (decide_ s i code) i
    v.decided = true ∧ v.state = .ending ∧ v.endCode = BitVec.ofNat 4 code := by
  rw [decide_, modSlot, h, if_neg Bool.false_ne_true, getSlot_setSlot (SlotState.noConfusion ·)]
  exact ⟨rfl, rfl, rfl⟩

/-! ### Folios and the sieve (R199, R207, R208) -/

/-- `t` is `s` but for the folio table, the sieve and the count of entries evicted from it. -/
def FoliosOnly (s t : State) : Prop := ∃ folios sieve evictions, t = { s with serv := { s.serv with folios, sieve, evictions } }

protected theorem FoliosOnly.refl (s : State) : FoliosOnly s s := ⟨_, _, _, rfl⟩

protected theorem FoliosOnly.trans {s t u : State} (h : FoliosOnly s t) (g : FoliosOnly t u) : FoliosOnly s u := by
  obtain ⟨_, _, _, rfl⟩ := h
  obtain ⟨_, _, _, rfl⟩ := g
  exact ⟨_, _, _, rfl⟩

protected theorem FoliosOnly.getSlot {t : State} (h : FoliosOnly s t) (i : Nat) : getSlot t i = getSlot s i := by
  obtain ⟨_, _, _, rfl⟩ := h
  rfl

protected theorem FoliosOnly.hits {t : State} (h : FoliosOnly s t) : t.serv.hits = s.serv.hits := by
  obtain ⟨_, _, _, rfl⟩ := h
  rfl

protected theorem FoliosOnly.misses {t : State} (h : FoliosOnly s t) : t.serv.misses = s.serv.misses := by
  obtain ⟨_, _, _, rfl⟩ := h
  rfl

theorem foliosOnly_setFolio (s : State) (i : Nat) (f : Folio) : FoliosOnly s (setFolio s i f) := ⟨_, _, _, rfl⟩

theorem foliosOnly_sieveRemove (s : State) (i : Nat) : FoliosOnly s (sieveRemove s i) := by
  unfold sieveRemove
  split
  · exact .refl s
  · dsimp only
    split <;> exact ⟨_, _, _, rfl⟩

theorem foliosOnly_sieveRemoveAll (s : State) (is : List Nat) : FoliosOnly s (sieveRemoveAll s is) := by
  induction is generalizing s with
  | nil => exact .refl s
  | cons i is ih => exact (foliosOnly_sieveRemove s i).trans (ih _)

theorem foliosOnly_useEntries (s : State) (step : BitVec 32) (is : List Nat) : FoliosOnly s (useEntries s step is) := by
  induction is generalizing s with
  | nil => exact .refl s
  | cons i is ih =>
    refine FoliosOnly.trans ?_ (ih _)
    split
    · exact ⟨_, _, _, rfl⟩
    · exact .refl s

theorem foliosOnly_takeRun (s : State) (i base n : Nat) : FoliosOnly s (takeRun s i base n) := by
  induction n with
  | zero => exact .refl s
  | succ n ih =>
    refine FoliosOnly.trans (ih.trans ?_) (foliosOnly_setFolio _ _ _)
    split
    · exact foliosOnly_sieveRemove _ _
    · exact .refl _

theorem cfg_of_regs {t : State} (h : t.regs = s.regs) (off hi lo : Nat) : cfg t off hi lo = cfg s off hi lo := by
  simp only [cfg, cfgReg, h]

/-- A lookup rests on the sieve, the salts and the registers. -/
theorem lookupFrom_of_serv {t : State} (hserv : t.serv = s.serv) (hregs : t.regs = s.regs) (v : Slot) (toks : List (BitVec 32))
    (parent : BitVec 128) (prev k n : Nat) : lookupFrom t v toks parent prev k n = lookupFrom s v toks parent prev k n := by
  induction n generalizing parent prev k with
  | zero => rfl
  | succ n ih => simp only [lookupFrom, ih, sieveBucket, sieveUsable, folioTokens, cfg_of_regs hregs, hserv]

theorem sieveLookup_of_serv {t : State} (hserv : t.serv = s.serv) (hregs : t.regs = s.regs) (v : Slot) (toks : List (BitVec 32)) :
    sieveLookup t v toks = sieveLookup s v toks := by
  simp only [sieveLookup, lookupFrom_of_serv hserv hregs, requestRoot, folioTokens, cfg_of_regs hregs, hserv]

/-! ### ADMIT (R211) -/

/-- Where a run is free, it is allocated there, without victims (R199, R201). -/
theorem allocate_of_findRun {n base : Nat} {align : Option Nat} {hits : List (Nat × Nat)} (h : findRun s n align hits [] = some base) :
    allocate s n align hits = some (s, some base) := by
  rw [allocate, h]

/-- A slot in use is given its run. -/
theorem getSlot_giveRun {i base n : Nat} (h : (getSlot s i).state ≠ .free) :
    getSlot (giveRun s i base n) i = { getSlot s i with base := BitVec.ofNat 32 base, run := BitVec.ofNat 32 n, hasRun := true } := by
  rw [giveRun, modSlot, (foliosOnly_takeRun s i base n).getSlot]
  exact getSlot_setSlot h

/-- The slot `v` of an admission with what its lookup has found, before its run is given (R207, R211). -/
def admittedSlot (s : State) (v : Slot) (l : Lookup) : Slot :=
  let h := BitVec.ofNat 32 (consecutive l.folios)
  { v with hitBase := BitVec.ofNat 32 (l.folios.headD 0), hitLen := h, sharedFolios := h, run := BitVec.ofNat 32 (runLength s v) }

/-- The state in which `v` is admitted to slot `i` with its run at `base`: what the lookup found is counted and used, the slot written, the run
given (R199, R207, R211). -/
def admitTo (s : State) (v : Slot) (l : Lookup) (i base : Nat) : State :=
  let s1 := { s with serv := { s.serv with
    hits := s.serv.hits + BitVec.ofNat 64 (consecutive l.folios), misses := s.serv.misses + BitVec.ofNat 64 l.misses
    collisions := s.serv.collisions + BitVec.ofNat 64 l.collisions } }
  giveRun (setSlot (useEntries s1 (BitVec.ofNat 32 s.launch.nextStep.toNat) l.entries) i (admittedSlot s v l)) i base (runLength s v)

theorem getSlot_admitTo {v : Slot} {l : Lookup} {i base : Nat} (hv : v.state ≠ .free) :
    getSlot (admitTo s v l i base) i =
      { admittedSlot s v l with base := BitVec.ofNat 32 base, run := BitVec.ofNat 32 (runLength s v), hasRun := true } := by
  have hslot (u : State) : getSlot (setSlot u i (admittedSlot s v l)) i = admittedSlot s v l := getSlot_setSlot hv
  rw [admitTo, getSlot_giveRun (by rw [hslot]; exact hv), hslot]

theorem admitTo_hits {v : Slot} {l : Lookup} {i base : Nat} :
    (admitTo s v l i base).serv.hits = s.serv.hits + BitVec.ofNat 64 (consecutive l.folios) :=
  (foliosOnly_takeRun _ _ _ _).hits.trans (foliosOnly_useEntries _ _ _).hits

theorem admitTo_misses {v : Slot} {l : Lookup} {i base : Nat} :
    (admitTo s v l i base).serv.misses = s.serv.misses + BitVec.ofNat 64 l.misses :=
  (foliosOnly_takeRun _ _ _ _).misses.trans (foliosOnly_useEntries _ _ _).misses

/-- A well-formed ADMIT of the admission epoch, with a free slot and a free run, is admitted there with that run. -/
theorem serveAdmit_eq_done_admitTo {b : AdmitBody} {i base : Nat} {v : Slot} {l : Lookup} (hhead : isHead s = true)
    (hfree : freeSlotFrom s 0 8192 = some i) (hepoch : b.epoch = s.serv.admission) (hadapter : adapterReady s b.epoch b.adapter = true)
    (hfields : admitFieldsOk b = true) (hv : newSlot s b (promptTokens s b.promptAddr.toNat b.prompt.toNat) = v)
    (hl : sieveLookup s v v.promptToks = l)
    (hrun : findRun s (runLength s v) (hitAlign s (admittedSlot s v l))
      (if consecutive l.folios = 0 then [] else [(l.folios.headD 0, consecutive l.folios)]) [] = some base) :
    serveAdmit s r seq b =
      done (admitTo s v l i base) r seq (.admitReq b) errOk (natLe 2 i ++ [0, 0] ++ natLe 4 (consecutive l.folios)) := by
  have hstate : ¬ (b.epoch ≠ s.serv.admission ∨ adapterReady s b.epoch b.adapter = false) :=
    not_or.mpr ⟨not_not.mpr hepoch, by simp [hadapter]⟩
  have htoks : v.promptToks = promptTokens s b.promptAddr.toNat b.prompt.toNat := congrArg Slot.promptToks hv.symm
  rw [htoks] at hl
  unfold serveAdmit
  rw [hhead, hfree, hfields, if_neg (by decide)]
  dsimp only
  rw [if_neg hstate, if_neg (by decide), hv, hl, allocate_of_findRun (base := base) (by exact hrun)]
  rfl

/-! ### Commands on a slot (R213, R215, R216, R218) -/

/-- A CANCEL of a request whose end is open is recorded with the code of R215 or R216. -/
theorem serveCancel_open (hslot : slotError s slot rid = none) (hopen : (getSlot s slot.toNat).decided = false) :
    let code := if cfg s offServCfg 4 4 = 0 ∧ (getSlot s slot.toNat).emitMark = true ∧ s.step.running = true then endTooLate else endCancelled
    serveCancel s r seq slot rid = done (recordCancel s slot.toNat code) r seq (.cancel slot rid) errOk [BitVec.ofNat 8 code] := by
  simp only [serveCancel, hslot, hopen, Bool.false_eq_true, if_false]

/-- A PAUSE while no step can run holds the request at once (R213). -/
theorem servePause_at_once (hslot : slotError s slot rid = none) (hstate : (getSlot s slot.toNat).state ≠ .ending)
    (hstep : noStep s = true) :
    servePause s r seq slot rid =
      done (setSlot s slot.toNat (holdSlot s { getSlot s slot.toNat with hostHold := true, pauseReq := true })) r seq (.pause slot rid)
        errOk := by
  simp only [servePause, hslot, hstate, hstep, if_false, if_true]

/-- A RESUME of a request that the host holds takes the hold off (R213). -/
theorem serveResume_held (hslot : slotError s slot rid = none) (hstate : (getSlot s slot.toNat).state ≠ .ending)
    (hheld : (getSlot s slot.toNat).hostHold = true) :
    let v := getSlot s slot.toNat
    serveResume s r seq slot rid =
      done (setSlot s slot.toNat { v with hostHold := false, pauseReq := false, state := if v.state = .held then .paused else v.state })
        r seq (.resume slot rid) errOk := by
  have hgo : ¬ ((getSlot s slot.toNat).state = .ending ∨ (getSlot s slot.toNat).hostHold = false) := by simp [hstate, hheld]
  simp only [serveResume, hslot, hgo, if_false]

/-- SET_DEADLINE writes a time that is one, and refuses any other (R218, R245). -/
theorem serveSetDeadline_eq {sec : BitVec 64} {ns : BitVec 32} (hslot : slotError s slot rid = none)
    (hstate : (getSlot s slot.toNat).state ≠ .ending) :
    serveSetDeadline s r seq slot rid sec ns =
      if sec.toNat < 2 ^ 48 ∧ ns.toNat < 1000000000 then
        done (setSlot s slot.toNat { getSlot s slot.toNat with deadlineS := sec, deadlineNs := ns }) r seq (.setDeadline slot rid sec ns) errOk
      else done s r seq (.setDeadline slot rid sec ns) errBadField := by
  unfold serveSetDeadline
  rw [hslot]
  dsimp only
  rw [if_neg hstate, ← ite_not]
  simp only [not_or, not_le, ge_iff_le, modSlot]

/-! ### Timers of the head (R201, R213, R219) -/

/-- An eviction logged leaves serving and memory. -/
theorem logEvicted_keeps (s : State) (i : Nat) : (logEvicted s i).serv = s.serv ∧ (logEvicted s i).mem = s.mem := by
  obtain ⟨⟨_, _, _, _, _, _, _, _, _, h⟩, -, -⟩ := loggedOnly_logEv s
    { cls := clsServing, cause := 3, loc := BitVec.ofNat 64 i, a0 := (getSlot s i).rid, die := i / 2048 }
  rw [logEvicted, h]
  exact ⟨rfl, rfl⟩

/-- A request out of its group for longer than EVICT_MS is decided EVICTED (R213). -/
theorem execEvictTimer_evicts {slot : BitVec 13} (hhead : isHead s = true) (hms : cfg s offPolicy 63 40 ≠ 0)
    (hopen : (getSlot s slot.toNat).decided = false)
    (hstate : (getSlot s slot.toNat).state = .paused ∨ (getSlot s slot.toNat).state = .held ∨ (getSlot s slot.toNat).state = .spilled)
    (hlate : timeUnits (getSlot s slot.toNat).since + nsUnits (cfg s offPolicy 63 40 * 1000000) < nowUnits s) :
    execEvictTimer slot s = .next (logEvicted (decide_ s slot.toNat endEvicted) slot.toNat) := by
  simp [execEvictTimer, hhead, hms, hopen, hlate, or_assoc, hstate]

/-- Where a drain has lasted DRAIN_LIMIT head steps, the requests of the old epoch are retired (R219). -/
theorem execDrainLimitExpiry_retires (hhead : isHead s = true) (hswitching : s.serv.switching = true) (hmode : s.serv.switchMode = 0)
    (hlimit : cfg s offEpochCtl 47 16 ≠ 0) (hsteps : cfg s offEpochCtl 47 16 ≤ s.serv.drainSteps)
    (hepoch : s.serv.live ≠ s.serv.admission) : execDrainLimitExpiry s = .next (retireOld s s.serv.admission) := by
  simp [execDrainLimitExpiry, hhead, hswitching, hmode, hlimit, hsteps, hepoch]

/-! ### ACTIVATE_EPOCH (R219, R220, R357) -/

theorem fillAnchors_serv (s : State) (all es : List BlockEnt) : (fillAnchors s all es).serv = s.serv := by
  induction es generalizing s with
  | nil => rfl
  | cons e es ih =>
    refine (ih _).trans ?_
    split <;> rfl

theorem foldl_fillTarget_serv (s : State) (es : List BlockEnt) : (es.foldl fillTarget s).serv = s.serv := by
  induction es generalizing s with
  | nil => rfl
  | cons e es ih =>
    refine (ih _).trans ?_
    unfold fillTarget
    split <;> rfl

/-- A reload of the WEIGHT regions leaves serving (R220). -/
@[simp] theorem reloadWeights_serv (s : State) : (reloadWeights s).serv = s.serv := by
  unfold reloadWeights
  split
  · rfl
  · exact (fillAnchors_serv _ _ _).trans (foldl_fillTarget_serv _ _)

/-- While no step can run, ACTIVATE_EPOCH of a complete epoch makes it live and the admission epoch at once, in either mode (R219, R357). -/
theorem serveActivate_at_once {epoch : BitVec 32} {mode : BitVec 8} {m : ManifestSt} (hmode : mode.toNat ≤ 1) (hstep : noStep s = true)
    (hm : (s.load.manifests.find? fun m => m.epoch == epoch && m.adapter == 0 && m.complete) = some m) :
    let t := serveActivate s r seq epoch mode
    t.serv.live = epoch ∧ t.serv.admission = epoch ∧ t.serv.stagedE = 0xFFFFFFFF ∧ t.serv.switching = false := by
  unfold serveActivate
  rw [if_neg (Nat.not_lt.mpr hmode), if_pos hstep, hm]
  simp only [done_serv, reloadWeights_serv]
  exact ⟨rfl, trivial, trivial, trivial⟩

/-! ### Seals and salts (R208, R230, R351) -/

/-- A seal that waits in the hold reaches no host memory. -/
theorem holdSeal_eq (s : State) (h : SealHeld) :
    ∃ mem, holdSeal s h = { s with mem, mbox := { s.mbox with sealHold := s.mbox.sealHold ++ [h] } } := by
  unfold holdSeal
  dsimp only
  split <;> exact ⟨_, rfl⟩

/-- A seal's job leaves the queue of those that wait for their signature. -/
def unqueueSeal (s : State) (j : SealJob) : State := { s with serv := { s.serv with seals := s.serv.seals.erase j } }

/-- The oldest seal of a slot, signed, goes to the host while the link is up, and to the hold while it is not (R351). -/
theorem execSealSigned_signs {slot : BitVec 13} {j : SealJob} (hj : (s.serv.seals.find? fun j => j.slot == slot.toNat) = some j) :
    execSealSigned slot s = .next (
      if s.mbox.link = 2 then deliverSeal (unqueueSeal s j) j.slot j.rid j.output j.addr (sealBytes s j)
      else holdSeal (unqueueSeal s j) { slot := j.slot, rid := j.rid, output := j.output, addr := j.addr, bytes := sealBytes s j }) := by
  rw [execSealSigned, hj]
  rfl

/-- SALT_WRITE sets the salt; what goes with it is entries of the sieve (R208). -/
theorem execSaltWrite_sets (s : State) (tenant : BitVec 12) (salt : BitVec 256) :
    ∃ t, FoliosOnly s t ∧
      execSaltWrite tenant salt s = .next { t with serv := { t.serv with salts := tset 0 t.serv.salts tenant.toNat salt } } :=
  ⟨_, foliosOnly_sieveRemoveAll s _, rfl⟩

end Sys2Proof.Machine
end

section
/-! PROOFS. What is shown of serving: the commands of the head, its timers, its seals and its salts. -/

namespace Sys2Proof.Proofs

open Machine

/-- Settles O44: each command is served as its entry is read, and reading an entry leaves all that serving looks at. -/
theorem servingCommands : Obligations.ServingCommands := by
  intro s ring
  obtain ⟨mbox, hread⟩ := entryRead_eq s ring
  have hrow {c : MboxCmd} {view : Option HostView} (h : servedNow s ring c) :
      rowCmd ring c view s = .next (serveCmd { s with mbox } ring.toNat (seqDue s ring) c view) := hread ▸ rowCmd_served h
  refine ⟨?admission, ?onSlot, ?activate, ?evict, ?drain, ?sealSigned, ?salt⟩
  case admission =>
    intro b i base h hhead hfree hepoch hadapter hfields v l k hrun
    have hfree' := (freeSlotFrom_of_serv (t := { s with mbox }) (s := s) rfl 0 8192).trans hfree
    have hl := sieveLookup_of_serv (t := { s with mbox }) (s := s) rfl rfl v v.promptToks
    have hexec : exec (.admitReq ring b) s = .next _ :=
      (hrow h).trans (congrArg _ (serveAdmit_eq_done_admitTo (v := v) hhead hfree' hepoch hadapter hfields rfl hl hrun))
    refine ⟨_, hexec, ?_⟩
    dsimp only
    rw [getSlot_of_serv (done_serv _ _ _ _ _ _), getSlot_admitTo (SlotState.noConfusion ·), done_serv, admitTo_hits, admitTo_misses]
    exact ⟨rfl, rfl, rfl, rfl, rfl, rfl, rfl, rfl, rfl, rfl⟩
  case onSlot =>
    intro slot rid v e hslot hopen
    have he : e = { s with mbox } := hread
    clear_value e
    subst he
    refine ⟨fun h => ?_, fun h hstate hstep => ?_, fun h hstate hheld => ?_, fun sec ns h hstate => ?_⟩
    · exact (hrow h).trans (congrArg _ (serveCancel_open hslot hopen))
    · exact (hrow h).trans (congrArg _ (servePause_at_once hslot hstate hstep))
    · exact (hrow h).trans (congrArg _ (serveResume_held hslot hstate hheld))
    · have hset : exec (.setDeadline ring slot rid sec ns) s = .next _ := (hrow h).trans (congrArg _ (serveSetDeadline_eq hslot hstate))
      refine ⟨fun hsec hns => ?_, fun hbad => ?_⟩
      · rwa [if_pos ⟨hsec, hns⟩] at hset
      · rwa [if_neg (by omega)] at hset
  case activate =>
    intro epoch mode m h hmode hstep hm
    exact ⟨_, hrow h, serveActivate_at_once hmode hstep hm⟩
  case evict =>
    intro slot hhead hms v hopen hstate hlate
    obtain ⟨hserv, hmem⟩ := logEvicted_keeps (decide_ s slot.toNat endEvicted) slot.toNat
    obtain ⟨hdecided, hending, hcode⟩ := getSlot_decide_ (code := endEvicted) hopen
    refine ⟨_, execEvictTimer_evicts hhead hms hopen hstate hlate, ?_⟩
    dsimp only
    rw [getSlot_of_serv hserv]
    exact ⟨hdecided, hending, hcode, hmem⟩
  case drain => exact execDrainLimitExpiry_retires
  case sealSigned =>
    intro slot j hj
    have hsigned := execSealSigned_signs hj
    refine ⟨fun hup => ?_, fun hdown => ?_⟩
    · rw [if_pos hup] at hsigned
      exact ⟨_, hsigned, rfl, rfl, rfl⟩
    · rw [if_neg hdown] at hsigned
      obtain ⟨mem, hheld⟩ := holdSeal_eq (unqueueSeal s j)
        { slot := j.slot, rid := j.rid, output := j.output, addr := j.addr, bytes := sealBytes s j }
      rw [hheld] at hsigned
      exact ⟨_, hsigned, rfl, List.length_append, rfl⟩
  case salt =>
    intro tenant salt
    obtain ⟨_, ⟨_, _, _, rfl⟩, hset⟩ := execSaltWrite_sets s tenant salt
    exact ⟨_, hset, rfl, rfl⟩

end Sys2Proof.Proofs
end

section
/-! PROOFS. How CHECKPOINT, RESTORE, LOAD_MANIFEST and LOAD_BLOCK begin, what ends them, and what an image puts in place (R237-R240, R337, R344,
R353-R355). -/

namespace Sys2Proof.Machine

variable {s : State} {r : Nat} {seq : BitVec 32} {addr len : BitVec 64}

/-! ### The commands begin (R238, R240, R353) -/

/-- Reading an entry changes the rings alone (R342). -/
theorem entryRead_rings (s : State) (ring : BitVec 4) : ∃ rings, entryRead s ring = { s with mbox := { s.mbox with rings } } := ⟨_, rfl⟩

/-- CHECKPOINT of a step still to launch, to the host or to a free range of a DIMM, is noted for that step's end. -/
theorem serveCheckpoint_begins {step : BitVec 64} {kind : BitVec 8} (hopen : s.sec.isOpen = true) (hflip : s.sheets.flipPending = false)
    (hstep : (upcoming s).toNat ≤ step.toNat) (hnone : s.mbox.ckpt = none)
    (hkind : kind = 0 ∨ (kind = 1 ∧ freeDimm s addr.toNat len.toNat = true)) :
    serveCheckpoint s r seq step kind addr len =
      { s with mbox := { s.mbox with ckpt := some (r, seq, step, kind, addr, len), ckptParts := none, ckptImage := none } } := by
  have hplace : ¬(kind.toNat > 1 ∨ (kind = 1 ∧ freeDimm s addr.toNat len.toNat = false)) := by
    rcases hkind with rfl | ⟨rfl, hfree⟩
    · simp
    · simp [hfree]
  simp only [serveCheckpoint, hopen, hflip, hnone, decide_eq_false (Nat.not_lt.mpr hstep), Option.isSome_none, Bool.not_true, Bool.false_and,
    Bool.or_self, Bool.false_eq_true, if_false, if_neg hplace]

/-- RESTORE before the plot's first launch has its image read. -/
theorem serveRestore_begins {kind : BitVec 8} {d : Digest} (hopen : s.sec.isOpen = true) (hfirst : s.step.launchedSinceOpen = false)
    (hkind : kind = 0 ∨ (kind = 1 ∧ backedRange s addr.toNat len.toNat = true)) (hlen : 160 ≤ len.toNat) (hnone : s.mbox.restore = none) :
    serveRestore s r seq kind addr len d = { s with mbox := { s.mbox with restore := some (r, seq, kind, addr, len, d) } } := by
  have hplace : ¬(kind.toNat > 1 ∨ len.toNat < 160 ∨ (kind = 1 ∧ backedRange s addr.toNat len.toNat = false)) := by
    rcases hkind with rfl | ⟨rfl, hbacked⟩
    · simpa using hlen
    · simpa [hbacked] using hlen
  simp only [serveRestore, hopen, hfirst, hnone, Option.isSome_none, Bool.not_true, Bool.or_self, Bool.false_eq_true, if_false, if_neg hplace]

/-- LOAD_MANIFEST has its manifest read where no load of its epoch is under way. -/
theorem serveLoadManifest_begins {b : ManifestBody} (hopen : s.sec.isOpen = true) (hepoch : b.epoch ≠ s.serv.live)
    (hmin : 192 ≤ b.length.toNat) (hmax : b.length.toNat ≤ 2 ^ 24) (htime : 1 ≤ b.timeoutS.toNat) (hday : b.timeoutS.toNat ≤ 86400)
    (hretain : b.retainLen = 0 ∨ inStack b.retain.toNat b.retainLen.toNat = true)
    (hload : (s.load.manifests.any fun m => m.epoch == b.epoch && m.waiter.isSome) = false)
    (hread : (s.load.reading.any fun x => x.2.2.epoch == b.epoch) = false) :
    serveLoadManifest s r seq b = { s with load := { s.load with reading := s.load.reading ++ [(r, seq, b)] } } := by
  have htime0 : b.timeoutS ≠ 0 := fun h => by simp [h] at htime
  have hfields : ¬(b.length.toNat > 2 ^ 24 ∨ b.length.toNat < 192 ∨ b.timeoutS = 0 ∨ b.timeoutS.toNat > 86400 ∨
      (b.retainLen ≠ 0 ∧ inStack b.retain.toNat b.retainLen.toNat = false)) := by
    rintro (h | h | h | h | ⟨hsome, hout⟩)
    · omega
    · omega
    · exact htime0 h
    · omega
    · rcases hretain with h | h
      · exact hsome h
      · exact Bool.false_ne_true (hout.symm.trans h)
  simp only [serveLoadManifest, hopen, beq_eq_false_iff_ne.mpr hepoch, hload, hread, Bool.not_true, Bool.or_self, Bool.false_eq_true, if_false,
    if_neg hfields]

/-- At the chain head LOAD_BLOCK of a manifest's block has its data read, while fewer than 64 are under way. -/
theorem serveLoadBlock_begins {epoch block length : BitVec 32} {host : BitVec 64} {m : ManifestSt} {e : BlockEnt} (hopen : s.sec.isOpen = true)
    (hhead : loadPrev s = none) (hm : loadOf s epoch = some m) (he : m.blocks[block.toNat]? = some e) (hlen : e.length = length)
    (hroom : s.load.jobs.length < 64) :
    serveLoadBlock s r seq epoch block host length = { s with load := { s.load with
      jobs := s.load.jobs ++ [{ ring := r, seq, epoch, block, host, length, reads := 0, reading := true }] } } := by
  simp [serveLoadBlock, hopen, hhead, hm, he, hlen, hroom]

/-! ### What ends a CHECKPOINT (R238) -/

/-- A completion changes memory, the rings and the interrupts alone (R341). -/
theorem complete_eq (s : State) (r : Nat) (seq : BitVec 32) (code err : Nat) (res : Bytes) :
    ∃ mem rings irq, complete s r seq code err res = { s with mem, mbox := { s.mbox with rings, irq } } := ⟨_, _, _, rfl⟩

/-- The image has gone to the host. -/
theorem execCheckpointWritten_host {step : BitVec 64} {img : Bytes} (hcmd : s.mbox.ckpt = some (r, seq, step, 0, addr, len))
    (himg : s.mbox.ckptImage = some img) (hlink : s.mbox.link = 2) :
    execCheckpointWritten s = .next (complete
      (hostWrite { s with mbox := { s.mbox with ckpt := none, ckptImage := none } } addr.toNat img) r seq 0x50 errOk
        (sm3Bytes img ++ natLe 8 img.length)) := by
  simp only [execCheckpointWritten, hcmd, himg, hlink, if_true]

/-- The image has gone to a DIMM. -/
theorem execCheckpointWritten_dimm {step : BitVec 64} {img : Bytes} (hcmd : s.mbox.ckpt = some (r, seq, step, 1, addr, len))
    (himg : s.mbox.ckptImage = some img) (hbacked : backedRange s addr.toNat img.length = true) :
    execCheckpointWritten s = .next (complete
      (memWrite { s with mbox := { s.mbox with ckpt := none, ckptImage := none } } addr.toNat img) r seq 0x50 errOk
        (sm3Bytes img ++ natLe 8 img.length)) := by
  have hkind : (1 : BitVec 8) ≠ 0 := by decide
  simp only [execCheckpointWritten, hcmd, himg, if_neg hkind, hbacked, if_true]

/-! ### What an image puts in place (R240) -/

/-- A change of slots leaves all but the slots. -/
theorem eachSlot_modSlot_eq (s : State) (f : Slot → Slot) (is : List Nat) :
    ∃ slots, eachSlot s (fun i s => modSlot s i f) is = { s with serv := { s.serv with slots } } := by
  induction is generalizing s with
  | nil => exact ⟨_, rfl⟩
  | cons i is ih => exact ih (modSlot s i f)

theorem restoreHead_mbox (s : State) (bs : Bytes) : (restoreHead s bs).mbox = s.mbox := rfl

theorem writeRanges_mbox (s : State) (bs : Bytes) (rs : List (Nat × Nat)) : (writeRanges s bs rs).mbox = s.mbox := by
  induction rs generalizing s bs with
  | nil => rfl
  | cons x rs ih => exact ih _ _

theorem restoreHeld_mbox (s : State) (bs : Bytes) : (restoreHeld s bs).mbox = s.mbox :=
  List.foldlRecOn (motive := fun t : State => t.mbox = s.mbox) _ _ rfl fun _ h _ _ => h

/-- An image in place sets the last step, the live epoch and the note that the plot is restored, and leaves the mailbox. -/
theorem placeImage_sets (s : State) (img : Bytes) :
    let t := placeImage s img
    t.sec.restored = true ∧ t.step.lastEnded = fieldAt 64 img 20 8 ∧ t.serv.live = fieldAt 32 (sectionOf img 7) 0 4 ∧ t.mbox = s.mbox := by
  unfold placeImage
  extract_lets n _ s1 s2 s3 s4 s5 _ s6 _ _ _ s7 t
  have hset : s7.sec.restored = true ∧ s7.step.lastEnded = n ∧ s7.serv.live = fieldAt 32 (sectionOf img 7) 0 4 := ⟨rfl, rfl, rfl⟩
  have hmbox : s7.mbox = s.mbox :=
    calc s6.mbox = s5.mbox := by simp only [s6, apply_ite State.mbox, ite_self]
      _ = s2.mbox := by simp only [s5, s4, s3, restoreHeld_mbox, writeRanges_mbox]
      _ = s.mbox := by simp only [s2, s1, apply_ite State.mbox, restoreHead_mbox, ite_self]
  clear_value s7
  obtain ⟨hrestored, hstep, hlive⟩ := hset
  obtain ⟨slots, ht⟩ : ∃ slots, t = { s7 with serv := { s7.serv with slots } } := eachSlot_modSlot_eq s7 _ _
  rw [ht]
  exact ⟨hrestored, hstep, hlive, hmbox⟩

/-- The device as its RESTORE no longer waits for an image. -/
def restoring (s : State) : State := { s with mbox := { s.mbox with restore := none } }

/-- A RESTORE whose image from the host shows an error leaves the plot without state (log 12). -/
theorem execRestoreComplete_host_refused {host : HostView} {d : Digest} {e : Nat} (hcmd : s.mbox.restore = some (r, seq, 0, addr, len, d))
    (hlink : s.mbox.link = 2) (himg : imageError (restoring s) (hostView host addr.toNat len.toNat) d = some e) :
    execRestoreComplete host s = .next (complete (noState (restoring s)) r seq 0x51 e []) := by
  have hup : ¬(True ∧ s.mbox.link ≠ 2) := fun h => h.2 hlink
  rw [restoring] at himg ⊢
  simp only [execRestoreComplete, hcmd, if_neg hup, if_true, himg]
  rfl

/-- A RESTORE whose image from the host holds puts it in place. -/
theorem execRestoreComplete_host_placed {host : HostView} {d : Digest} (hcmd : s.mbox.restore = some (r, seq, 0, addr, len, d))
    (hlink : s.mbox.link = 2) (himg : imageError (restoring s) (hostView host addr.toNat len.toNat) d = none) :
    execRestoreComplete host s =
      .next (complete (placeImage (restoring s) (hostView host addr.toNat len.toNat)) r seq 0x51 errOk []) := by
  have hup : ¬(True ∧ s.mbox.link ≠ 2) := fun h => h.2 hlink
  rw [restoring] at himg ⊢
  simp only [execRestoreComplete, hcmd, if_neg hup, if_true, himg]

/-! ### Data from the host and a timeout (R337, R344, R353) -/

/-- The device as the LOAD_MANIFEST of a ring and SEQ no longer waits for its manifest. -/
def manifestCame (s : State) (r : Nat) (seq : BitVec 32) : State :=
  { s with load := { s.load with reading := s.load.reading.filter fun x => !(x.1 == r && x.2.1 == seq) } }

/-- Data comes first to the commands that wait for it whole. -/
theorem execHostReadComplete_data {ring : BitVec 4} {host : HostView} {x : HostRead} (hlink : s.mbox.link = 2) (hin : inService s = true)
    (hx : s.mbox.reads.find? (readIs ring.toNat seq) = some x) : execHostReadComplete ring seq host s = .next (dataCame s x host) := by
  simp [execHostReadComplete, hlink, hin, hx]

/-- A manifest that fails its check ends its LOAD_MANIFEST. -/
theorem execHostReadComplete_manifest_refused {ring : BitVec 4} {host : HostView} {b : ManifestBody} {e : Nat} (hlink : s.mbox.link = 2)
    (hin : inService s = true) (hreads : s.mbox.reads.find? (readIs ring.toNat seq) = none)
    (hb : manifestReading s ring.toNat seq = some b)
    (he : manifestCheck (manifestCame s ring.toNat seq) b (hostView host b.host.toNat b.length.toNat) = .inl e) :
    execHostReadComplete ring seq host s = .next (done (manifestCame s ring.toNat seq) ring.toNat seq (.loadManifest b) e) := by
  have hread : manifestRead s ring.toNat seq b host = done (manifestCame s ring.toNat seq) ring.toNat seq (.loadManifest b) e := by
    rw [manifestCame] at he
    simp only [manifestRead, he, manifestCame]
  simp only [execHostReadComplete, hlink, hin, hreads, hb, hread, ne_eq, not_true_eq_false, Bool.true_eq_false, or_self, if_false]

/-- A load whose blocks are not all there when its time is up ends with the lowest that is missing. -/
theorem execManifestTimeout_loading {epoch adapter : BitVec 32} {m : ManifestSt}
    (hread : (s.load.reading.find? fun x => x.2.2.epoch == epoch && x.2.2.adapter == adapter) = none)
    (hm : (s.load.manifests.find? fun m => m.epoch == epoch && m.adapter == adapter) = some m) (hw : m.waiter = some (r, seq)) :
    execManifestTimeout epoch adapter s =
      .next (complete (nackUnsent (dropManifest s epoch adapter) epoch) r seq 0x10 errMissing (natLe 4 (lowestMissing s m))) := by
  simp only [execManifestTimeout, hread, hm, hw]

/-- A load whose manifest has not come when its time is up ends with block 0 (log 38). -/
theorem execManifestTimeout_reading {epoch adapter : BitVec 32} {b : ManifestBody}
    (hread : (s.load.reading.find? fun x => x.2.2.epoch == epoch && x.2.2.adapter == adapter) = some (r, seq, b)) :
    execManifestTimeout epoch adapter s =
      .next (complete (nackUnsent (dropManifest (manifestCame s r seq) epoch adapter) epoch) r seq 0x10 errMissing (natLe 4 0)) := by
  simp only [execManifestTimeout, hread, manifestCame]

end Sys2Proof.Machine
end

section
/-! PROOFS. What a thermal trip leaves of the device, what the loss of a controller logs, and what self-test records (R225, R366, R384, R444). -/

namespace Sys2Proof.Machine

variable {s : State}

/-- With the transmitters off no sub-port has a link. -/
theorem linkUp_linksOff (t : Tbl SubSt) (k : Nat) : (tget {} (linksOff t) k).linkUp = false := by
  by_cases h : tget {} (linksOff t) k = {}
  · rw [h]
  · obtain ⟨e, -, he⟩ := List.mem_filterMap.mp (mem_of_tget_ne h)
    dsimp only at he
    split at he
    · cases he
    · exact (congrArg (fun x => x.2.linkUp) (Option.some.inj he)).symm

/-- The device as a trip stops it, before the trip is logged (R444). -/
def stoppedByTrip (s : State) : State :=
  { s with
    boot := { s.boot with phase := .tripped, thermtripN := true }
    step := { s.step with running := false }
    launch := { s.launch with state := .idle, ready := none, short := false }
    subs := linksOff s.subs
    mbox := { s.mbox with link := 0, width := 0 } }

/-- A device in service whose sensor reaches its trip temperature stops and logs the trip. -/
theorem execThermalTrip_stops {sensor temp : BitVec 8} (hphase : s.boot.phase = .service) (htemp : tripTemp sensor ≤ temp.toNat) :
    execThermalTrip sensor temp s = .next (logEv (stoppedByTrip s)
      { cls := clsFatal, cause := 4, loc := BitVec.ofNat 64 sensor.toNat, a0 := BitVec.ofNat 64 temp.toNat }) := by
  simp [execThermalTrip, hphase, Nat.not_lt.mpr htemp, stoppedByTrip]

/-- A trip's log entry changes nothing of what the trip has stopped. -/
theorem tripKept_of_loggedOnly {t : State} (h : LoggedOnly (stoppedByTrip s) t) :
    t.boot.phase = .tripped ∧ t.boot.thermtripN = true ∧ t.step.running = false ∧ t.mbox.link = 0 ∧ t.launch.state = .idle ∧
      (∀ k, (getSub t k).linkUp = false) ∧ t.mem = s.mem := by
  obtain ⟨⟨_, _, _, _, _, _, _, _, _, heq⟩, hsubs, -⟩ := h
  have hlinks (k : Nat) : (getSub t k).linkUp = false := by
    obtain ⟨_, _, hk⟩ := hsubs k
    exact (congrArg SubSt.linkUp hk).trans (linkUp_linksOff s.subs k)
  subst heq
  exact ⟨rfl, rfl, rfl, rfl, rfl, hlinks, rfl⟩

/-- In service the loss of a controller other than target 0 is logged, and nothing else (R384). -/
theorem execControllerLost_logs {target die : BitVec 2} (htarget : target ≠ 0) (hphase : s.boot.phase = .service) :
    execControllerLost target die s =
      .next (logEv s { cls := clsFatal, cause := 3, loc := Config.controllerLocator target.toNat die.toNat, die := die.toNat }) := by
  rw [execControllerLost, if_neg (not_or.mpr ⟨htarget, not_not.mpr hphase⟩)]

/-- With no open plot self-test records the units that fail it (R225). -/
theorem execSelfTest_records {failing : List FailingUnit} (hin : inService s = true) (hopen : s.sec.isOpen = false) :
    execSelfTest failing s = .next (recordFailing s failing) := by
  simp [execSelfTest, hin, hopen]

/-- A failing unit of a kind that retirement knows is retired, unless it is already (R366). -/
theorem recordFailing_single {f : FailingUnit} (hkind : selfTestKind f = true) :
    recordFailing s [f] = if (retirements s).any (sameUnit (failingEntry f)) = true then s else retire s (failingEntry f) := by
  cases h : (retirements s).any (sameUnit (failingEntry f)) <;> simp [recordFailing, hkind, h]

end Sys2Proof.Machine
end

section
/-! PROOFS. What is shown of checkpoints and loading, and of trips, lost controllers and self-test. -/

namespace Sys2Proof.Proofs

open Machine

/-- Settles O45: each command is served as its entry is read; its end follows from what it waits for. -/
theorem checkpointAndLoadCommands : Obligations.CheckpointAndLoadCommands := by
  intro s ring e q
  obtain ⟨rings, hread⟩ := entryRead_rings s ring
  have hrow {c : MboxCmd} (h : servedNow s ring c) :
      rowCmd ring c none s = .next (serveCmd { s with mbox := { s.mbox with rings } } ring.toNat q c none) := hread ▸ rowCmd_served h
  have he : e = { s with mbox := { s.mbox with rings } } := hread
  clear_value e q
  subst he
  refine ⟨?checkpoint, ?written, ?restore, ?restored, ?loadManifest, ?loadBlock, ?manifestRefused, ?data, ?timeout, ?unread⟩
  case checkpoint =>
    intro step addr len kind h hopen hflip hstep hnone hkind
    exact (hrow h).trans (congrArg _ (serveCheckpoint_begins hopen hflip hstep hnone hkind))
  case written =>
    intro g seq step addr len img himg s1
    exact ⟨fun hcmd hlink => execCheckpointWritten_host hcmd himg hlink, fun hcmd hbacked => execCheckpointWritten_dimm hcmd himg hbacked⟩
  case restore =>
    intro kind addr len d h hopen hfirst hkind hlen hnone
    exact (hrow h).trans (congrArg _ (serveRestore_begins hopen hfirst hkind hlen hnone))
  case restored =>
    intro host g seq addr len d hcmd hlink s1 img
    split
    · next e himg => exact execRestoreComplete_host_refused hcmd hlink himg
    · next himg =>
      obtain ⟨hset, hstep, hlive, hmbox⟩ := placeImage_sets (restoring s) img
      obtain ⟨_, _, _, hend⟩ := complete_eq (placeImage (restoring s) img) g seq 0x51 errOk []
      exact ⟨_, (execRestoreComplete_host_placed hcmd hlink himg).trans (congrArg _ hend), hset, hstep, hlive,
        congrArg MboxSt.restore hmbox⟩
  case loadManifest =>
    intro b h hopen hepoch hmin hmax htime hday hretain hload hread
    exact (hrow h).trans (congrArg _ (serveLoadManifest_begins hopen hepoch hmin hmax htime hday hretain hload hread))
  case loadBlock =>
    intro epoch block length host m b h hopen hhead hm hb hlen hroom
    exact (hrow h).trans (congrArg _ (serveLoadBlock_begins hopen hhead hm hb hlen hroom))
  case manifestRefused =>
    intro seq host b err hlink hin hreads hb s1 herr
    exact execHostReadComplete_manifest_refused hlink hin hreads hb herr
  case data => exact fun seq host x => execHostReadComplete_data
  case timeout => exact fun epoch adapter m g seq => execManifestTimeout_loading
  case unread => exact fun epoch adapter g seq b => execManifestTimeout_reading

/-- Settles O53: logging leaves what a trip has stopped, and self-test retires a failing unit that is not retired yet. -/
theorem tripLossAndSelfTest : Obligations.TripLossAndSelfTest := by
  intro s
  refine ⟨fun sensor temp hphase htemp => ?_, fun target die => execControllerLost_logs, fun hin hopen => ⟨?_, fun f hkind => ?_⟩⟩
  · exact ⟨_, execThermalTrip_stops hphase htemp, tripKept_of_loggedOnly (loggedOnly_logEv _ _)⟩
  · exact execSelfTest_records hin hopen
  · have hexec : exec (.selfTest [f]) s = .next _ :=
      (execSelfTest_records hin hopen).trans (congrArg _ (recordFailing_single hkind))
    exact ⟨fun hnew => by simpa [hnew] using hexec, fun hold => by simpa [hold] using hexec⟩

end Sys2Proof.Proofs
end

section
/-! PROOFS. What the launch messages of a plot do: the flooded notices, the census, DIGEST, COMMIT, and an arm that expires (R263, R267-R272,
R357). -/

namespace Sys2Proof.Machine

variable {s : State} {k : Nat} {port : BitVec 6} {sub : BitVec 3} {h : LaunchHdr}

/-! ### Messages by their kind (R263) -/

/-- A launch message is taken on a sub-port that carries the plot, and its buffer is freed. -/
theorem launchRow_taken {body : LaunchBody} (hopen : s.sec.isOpen = true) (hplot : (getSub s (subKey port.toNat sub.toNat)).state = .plot) :
    launchRow port sub h body s =
      .next (freeBuffer (launchOn s (subKey port.toNat sub.toNat) { hdr := h, body }) (subKey port.toNat sub.toNat) 0) := by
  simp [launchRow, hopen, hplot]

theorem launchOn_census {tag : BitVec 64} {a r q f m : BitVec 32} (htree : h.tree.toNat ≤ 1) :
    launchOn s k { hdr := h, body := .census tag a r q f m } =
      censusOn s k h { origin := h.origin, tag, armed := a, refused := r, reasons := q, firstRefused := f, maxBound := m } := by
  simp [launchOn, secondsOk, Nat.not_lt.mpr htree]

theorem launchOn_digest {d : Digest} (htree : h.tree.toNat ≤ 1) : launchOn s k { hdr := h, body := .digest d } = digestOn s h d := by
  simp [launchOn, secondsOk, Nat.not_lt.mpr htree]

theorem launchOn_commit {tag sec : BitVec 64} {ns : BitVec 32} (htree : h.tree.toNat ≤ 1) (hsec : sec.toNat < 2 ^ 48) :
    launchOn s k { hdr := h, body := .commit tag sec ns } = commitMsgOn s k h tag sec ns := by
  have hok : secondsOk (.commit tag sec ns) = true := decide_eq_true hsec
  rw [launchOn, if_neg (by simp [hok, htree])]

/-- Seconds that reach into the reserved bits have the message discarded (R245, R263). -/
theorem launchOn_discards {m : LaunchMsg} (hsec : secondsOk m.body = false) :
    launchOn s k m = discardLaunch s k (launchType m.body) m.hdr.origin := if_pos (.inr hsec)

/-! ### Flooded notices (R271, R272, R357) -/

protected theorem SubsOnly.ite {c : Prop} [Decidable c] {t u : State} (ht : SubsOnly s t) (hu : SubsOnly s u) :
    SubsOnly s (if c then t else u) := by
  split
  · exact ht
  · exact hu

theorem subsOnly_flood (s : State) (m : LaunchMsg) (source : Option Nat) : SubsOnly s (flood s m source) :=
  (subsOnly_sendAll s _ _).trans (subsOnly_sendAll _ _ _)

/-- The device as it has passed a notice on: the sub-ports hold it, and it is kept in mind. -/
def passedOn (s : State) (m : LaunchMsg) (subs : Tbl SubSt) : State :=
  { s with subs, launch := { s.launch with seen := floodId m :: s.launch.seen } }

/-- A notice new to the device is passed on and takes effect; notices are the TYPEs from 4 on. -/
theorem launchOn_notice {m : LaunchMsg} (htree : m.hdr.tree.toNat ≤ 1) (hkind : 4 ≤ launchType m.body)
    (hnew : s.launch.seen.contains (floodId m) = false) : ∃ subs, launchOn s k m = noticeEffect (passedOn s m subs) m := by
  obtain ⟨subs, hflood⟩ := subsOnly_flood { s with launch := { s.launch with seen := floodId m :: s.launch.seen } } (oneHop m) (some k)
  have hon : floodOn s k m = some (passedOn s m subs) := by
    rw [floodOn, hnew, hflood]
    rfl
  obtain ⟨hdr, body⟩ := m
  refine ⟨subs, ?_⟩
  cases body with
  | census | digest | commit => simp [launchType] at hkind
  | endN | hold | holdEnd | staged => simp [launchOn, secondsOk, hon, Nat.not_lt.mpr htree]

/-- The row of a notice new to the device: beside its effect it reaches the sub-ports alone. -/
theorem launchRow_notice {body : LaunchBody} (hopen : s.sec.isOpen = true) (hplot : (getSub s (subKey port.toNat sub.toNat)).state = .plot)
    (htree : h.tree.toNat ≤ 1) (hkind : 4 ≤ launchType body) (hnew : s.launch.seen.contains (floodId { hdr := h, body }) = false) :
    ∃ seen subs, launchRow port sub h body s = .next { noticeEffect (passedOn s { hdr := h, body } seen) { hdr := h, body } with subs } := by
  obtain ⟨seen, hon⟩ := launchOn_notice (k := subKey port.toNat sub.toNat) (m := { hdr := h, body }) htree hkind hnew
  obtain ⟨subs, hfreed⟩ := subsOnly_freeBuffer (noticeEffect (passedOn s { hdr := h, body } seen) { hdr := h, body })
    (subKey port.toNat sub.toNat) 0
  exact ⟨seen, subs, (launchRow_taken hopen hplot).trans (by rw [hon, hfreed])⟩

/-- A device that keeps a hold is in the dry hold (R272). -/
theorem dryHold_of_holds {hs : List HoldRec} {r : HoldRec} (hr : s.launch.holds = hs ++ [r]) : dryHold s = true := by
  simp [dryHold, hr]

theorem noticeEffect_endN (s : State) (h : LaunchHdr) (n : BitVec 32) (st : BitVec 8) :
    noticeEffect s { hdr := h, body := .endN n st } = endOn s h.step n st := rfl

/-- With no step running, an END whose condition fails its steps is kept for their turn (R74, R271). -/
theorem endOn_idle {step : BitVec 64} {n : BitVec 32} {st : BitVec 8} (hst : st.toNat < 16) (hfail : tb failMask.toNat st.toNat = true)
    (hrun : s.step.running = false) :
    endOn s step n st = { s with launch := { s.launch with ends := s.launch.ends ++ [(step, n, st)] } } := by
  simp [endOn, hfail, hrun, Nat.not_le.mpr hst]

/-! ### The census (R267) -/

theorem censusOf_setCensus (s : State) (a : Nat) (c : CensusAcc) : censusOf (setCensus s a c) a = c := by
  by_cases ha : a = 0 <;> simp [censusOf, setCensus, ha]

theorem SubsOnly.censusOf {t : State} (hs : SubsOnly s t) (a : Nat) : censusOf t a = Machine.censusOf s a := by
  obtain ⟨_, rfl⟩ := hs
  rfl

/-- A census waits for the device's own ARM. -/
theorem tryCensus_waits {a : Nat} (hown : (censusOf s a).own = false) : tryCensus s a = s := by
  simp [tryCensus, hown]

/-- A child's CENSUS, in a round not yet sent, is noted while the device's own ARM is awaited. -/
theorem censusOn_noted {m : CensusMsg} (hchild : (treeChildren s h.tree.toNat).contains k = true)
    (hnew : (censusOf s h.tree.toNat).heard.contains k = false) (hsent : (censusOf s h.tree.toNat).sent = false)
    (hown : (censusOf s h.tree.toNat).own = false) :
    ∃ c, censusOn s k h m = setCensus s h.tree.toNat c ∧ c.heard = k :: (censusOf s h.tree.toNat).heard ∧
      c.msgs = (censusOf s h.tree.toNat).msgs ++ [m] := by
  unfold censusOn
  extract_lets a old c c1
  have hc : c = old := if_neg (by simp [old, a, hsent])
  have hc1 : c1.heard = old.heard ∧ c1.msgs = old.msgs ∧ c1.own = false := by
    unfold c1
    rw [hc]
    split
    · exact ⟨rfl, rfl, hown⟩
    · exact ⟨rfl, rfl, hown⟩
  obtain ⟨hheard, hmsgs, hwaits⟩ := hc1
  refine ⟨{ c1 with heard := k :: c1.heard, msgs := c1.msgs ++ [m] }, ?_, by rw [hheard], by rw [hmsgs]⟩
  have htaken : ((treeChildren s a).contains k && !c.heard.contains k &&
      !(old.sent && (s.launch.state == .armed || old.tag == m.tag))) = true := by
    simp only [hc, a, old, hchild, hnew, hsent, Bool.false_and, Bool.not_false, Bool.and_self]
  rw [if_pos htaken]
  exact tryCensus_waits (by rw [censusOf_setCensus]; exact hwaits)

theorem addCensus_sent (tag : BitVec 64) (c : CensusAcc) (m : CensusMsg) : (addCensus tag c m).sent = c.sent := by
  unfold addCensus
  split <;> rfl

theorem foldl_addCensus_sent (tag : BitVec 64) (ms : List CensusMsg) (c : CensusAcc) : (ms.foldl (addCensus tag) c).sent = c.sent := by
  induction ms generalizing c with
  | nil => rfl
  | cons m ms ih => exact (ih _).trans (addCensus_sent tag c m)

theorem ownCensus_sent (s : State) (c : CensusAcc) : (ownCensus s c).sent = c.sent := by
  unfold ownCensus
  extract_lets pos
  split
  · split <;> rfl
  · rfl

/-- A census sent by a device at which no ARM waits is marked sent, and reaches no more than the sub-ports. -/
theorem sendCensus_sends (a : Nat) (hwait : s.launch.armWaiter = none) :
    ∃ c, c.sent = true ∧ SubsOnly (setCensus s a c) (sendCensus s a) := by
  unfold sendCensus
  extract_lets c t s1
  refine ⟨t, ?_, ?_⟩
  · exact (foldl_addCensus_sent _ _ _).trans (ownCensus_sent _ _)
  · have hs1 : s1.launch.armWaiter = none := by
      unfold s1 setCensus
      split <;> exact hwait
    split
    · rw [completeArm, hs1]
      exact .refl s1
    · exact subsOnly_sendLaunch _ _ _

/-- The wait of a census with the device's own ARM ends with the census sent. -/
theorem execCensusWaitExpiry_sends {tree : BitVec 1} (hopen : s.sec.isOpen = true) (hsent : (censusOf s tree.toNat).sent = false)
    (hown : (censusOf s tree.toNat).own = true) : execCensusWaitExpiry tree s = .next (sendCensus s tree.toNat) := by
  simp [execCensusWaitExpiry, hopen, hsent, hown]

/-! ### DIGEST, COMMIT and ARM_EXPIRY (R268-R270) -/

/-- The root keeps the DIGEST of a position from which none has come. -/
theorem digestOn_root {d : Digest} (hroot : s.sec.position = 0) (hnone : (s.launch.digests.find? fun e => e.1 == h.origin.toNat) = none) :
    tget (0, 0) (digestOn s h d).launch.digests h.origin.toNat = (h.step, d) := by
  have hold : (s.launch.digests.any fun e => e.1 == h.origin.toNat && decide (h.step.toNat < e.2.1.toNat)) = false := by
    rw [List.any_eq_false]
    intro e he
    simp [List.find?_eq_none.mp hnone e he]
  simp only [digestOn, hroot, hold, if_true, Bool.false_eq_true, if_false]
  exact tget_tput_self _ _ _ _

/-- The device as it has passed a COMMIT down its tree, once for each TAG (R269). -/
def commitPassed (s : State) (h : LaunchHdr) (tag sec : BitVec 64) (ns : BitVec 32) : State :=
  let s1 := if (if h.tree.toNat = 0 then s.launch.forwardedA else s.launch.forwardedB) = some tag then s
    else sendAll s (oneHop { hdr := h, body := .commit tag sec ns }) (treeChildren s h.tree.toNat)
  if h.tree.toNat = 0 then { s1 with launch := { s1.launch with forwardedA := some tag } }
  else { s1 with launch := { s1.launch with forwardedB := some tag } }

theorem commitPassed_eq (s : State) (h : LaunchHdr) (tag sec : BitVec 64) (ns : BitVec 32) : ∃ subs forwardedA forwardedB,
    commitPassed s h tag sec ns = { s with subs, launch := { s.launch with forwardedA, forwardedB } } := by
  unfold commitPassed
  extract_lets s1
  obtain ⟨subs, hsubs⟩ : SubsOnly s s1 := .ite (.refl s) (subsOnly_sendAll s _ _)
  clear_value s1
  subst hsubs
  split <;> exact ⟨_, _, _, rfl⟩

/-- An armed device takes the COMMIT of its own launch. -/
theorem commitMsgOn_ours {tag sec : BitVec 64} {ns : BitVec 32} (hjob : h.job = s.launch.armRec.job)
    (hstep : h.step = s.launch.armRec.firstStep) (htag : tag = armTagOf s.launch.armRec) (harmed : s.launch.state = .armed) :
    commitMsgOn s k h tag sec ns = acceptCommit (commitPassed s h tag sec ns) sec ns := by
  have hstill : (commitPassed s h tag sec ns).launch.state = .armed := by
    obtain ⟨_, _, _, hpassed⟩ := commitPassed_eq s h tag sec ns
    rw [hpassed]
    exact harmed
  exact (if_pos ⟨hjob, hstep, htag, .inl harmed⟩).trans (if_pos hstill)

/-- A COMMIT taken before its start commits the launch, with no step missed. -/
theorem acceptCommit_passed {tag sec : BitVec 64} {ns : BitVec 32} (hnow : nowNs s < sec.toNat * 1000000000 + ns.toNat) :
    CommittedBy s sec ns (acceptCommit (commitPassed s h tag sec ns) sec ns) ∧
      (acceptCommit (commitPassed s h tag sec ns) sec ns).mem = s.mem := by
  obtain ⟨_, _, _, hpassed⟩ := commitPassed_eq s h tag sec ns
  have hbefore : nowNs (commitPassed s h tag sec ns) < sec.toNat * 1000000000 + ns.toNat := by
    rw [hpassed]
    exact hnow
  rw [acceptCommit_in_time hbefore, hpassed]
  exact ⟨⟨rfl, BitVec.ofNat_toNat 48 sec, rfl, rfl, rfl⟩, rfl⟩

theorem CommittedBy.freeBuffer {sec : BitVec 64} {ns : BitVec 32} {t : State} (hby : CommittedBy s sec ns t) (k cls : Nat) :
    CommittedBy s sec ns (Machine.freeBuffer t k cls) := ⟨hby.state, hby.startS, hby.startNs, hby.nextStep, hby.step⟩

theorem execArmExpiry_logs (harmed : s.launch.state = .armed) :
    execArmExpiry s = .next (logEv { s with launch := { s.launch with state := s.launch.before, censusOk := false } }
      { cls := clsTime, cause := 8, a0 := s.launch.armRec.job }) := by
  rw [execArmExpiry, if_pos harmed]

end Sys2Proof.Machine
end

section
/-! PROOFS. What is shown of the step and of launch messages. -/

namespace Sys2Proof.Proofs

open Machine

/-- Settles O1: a step takes the command at the front of the queue, and ticks where there is none. -/
theorem stepRunsFrontCommand : Obligations.StepRunsFrontCommand := by
  refine ⟨fun i rest s => rfl, fun s hnone => ?_⟩
  unfold Machine.step
  rw [hnone]

/-- Settles O24: a new notice is passed on, which reaches the sub-ports alone, and then takes its own effect. -/
theorem floodedNotices : Obligations.FloodedNotices := by
  intro s port sub h hopen hplot htree fresh still
  refine ⟨fun hp hu dry hnew => ?hold, fun hp hu dry o hnew => ?holdEnd, fun e a hnew => ?staged, fun n st hnew hst hfail hrun => ?endN,
    fun _ _ _ _ => rfl⟩
  case hold =>
    obtain ⟨seen, subs, hrow⟩ := launchRow_notice hopen hplot htree (by simp [launchType]) hnew
    exact ⟨_, hrow, rfl, dryHold_of_holds rfl, rfl, rfl, rfl, rfl, rfl⟩
  case holdEnd =>
    obtain ⟨seen, subs, hrow⟩ := launchRow_notice hopen hplot htree (by simp [launchType]) hnew
    exact ⟨_, hrow, rfl, rfl, rfl, rfl, rfl, rfl⟩
  case staged =>
    obtain ⟨seen, subs, hrow⟩ := launchRow_notice hopen hplot htree (by simp [launchType]) hnew
    exact ⟨_, hrow, rfl, rfl, rfl, rfl, rfl, rfl⟩
  case endN =>
    obtain ⟨seen, subs, hrow⟩ := launchRow_notice hopen hplot htree (by simp [launchType]) hnew
    rw [noticeEffect_endN, endOn_idle (s := passedOn s _ seen) hst hfail hrun] at hrow
    exact ⟨_, hrow, rfl, rfl, rfl, rfl, rfl, rfl⟩

/-- Settles O25: each message comes by the launch row, and what it then does is the lemma of its kind. -/
theorem censusAndCommitMessages : Obligations.CensusAndCommitMessages := by
  intro s port sub h hopen k hplot htree
  refine ⟨?census, ?wait, ?digest, ?commit, ?discard, ?expiry⟩
  case census =>
    intro tag a r q f m c hchild hnew hsent hown
    obtain ⟨c', hon, hheard, hmsgs⟩ := censusOn_noted (m := ⟨h.origin, tag, a, r, q, f, m⟩) hchild hnew hsent hown
    have hrow := launchRow_taken (h := h) (body := .census tag a r q f m) hopen hplot
    rw [launchOn_census htree, hon] at hrow
    have hc : censusOf (freeBuffer (setCensus s h.tree.toNat c') k 0) h.tree.toNat = c' :=
      ((subsOnly_freeBuffer _ _ _).censusOf _).trans (censusOf_setCensus _ _ _)
    exact ⟨_, hrow, by rw [hc, hheard], by rw [hc, hmsgs]⟩
  case wait =>
    intro tree hsent hown hwait
    obtain ⟨c, hc, hsends⟩ := sendCensus_sends tree.toNat hwait
    refine ⟨_, execCensusWaitExpiry_sends hopen hsent hown, ?_, ?_⟩
    · rw [hsends.censusOf, censusOf_setCensus, hc]
    · exact hsends.spansOnly.keepsRun.mem.trans (by unfold setCensus; split <;> rfl)
  case digest =>
    intro d hroot hnone
    have hrow := launchRow_taken (h := h) (body := .digest d) hopen hplot
    rw [launchOn_digest htree] at hrow
    exact ⟨_, hrow, digestOn_root hroot hnone⟩
  case commit =>
    intro tag sec ns hjob hstep htag harmed hnow hsec
    have hrow := launchRow_taken (h := h) (body := .commit tag sec ns) hopen hplot
    rw [launchOn_commit htree hsec, commitMsgOn_ours hjob hstep htag harmed] at hrow
    obtain ⟨hby, hmem⟩ := acceptCommit_passed (h := h) (tag := tag) hnow
    have hfreed := hby.freeBuffer k 0
    exact ⟨_, hrow, hfreed.state, hfreed.startS, hfreed.startNs, hfreed.nextStep,
      (subsOnly_freeBuffer _ k 0).spansOnly.keepsRun.mem.trans hmem⟩
  case discard =>
    intro tag sec ns hsec
    have hrow := launchRow_taken (h := h) (body := .commit tag sec ns) hopen hplot
    rw [launchOn_discards (m := { hdr := h, body := .commit tag sec ns }) (decide_eq_false (Nat.not_lt.mpr hsec))] at hrow
    exact hrow
  case expiry =>
    intro harmed
    obtain ⟨_, _, _, _, _, _, _, _, _, hlog⟩ := (loggedOnly_logEv
      { s with launch := { s.launch with state := s.launch.before, censusOk := false } } { cls := clsTime, cause := 8, a0 := s.launch.armRec.job }).1
    exact ⟨_, (execArmExpiry_logs harmed).trans (congrArg _ hlog), rfl, rfl, rfl⟩

end Sys2Proof.Proofs
end

section
/-! PROOFS. What the timebase does at a tick, at its references' verdicts, at the end of a region stop, and at PPS (R247-R255). -/

namespace Sys2Proof.Machine

variable {s : State}

/-! ### The tick (R247, R248) -/

/-- While the timebase does not relock, its tick is taken and the watches run on. -/
theorem tick_running (hrun : s.time.relock = false) : tick s = tickWatch { s with time := tickTime s.time } := by
  rw [tick, if_neg (by simp [hrun])]

theorem execTimeSetLoad_ticks (hset : s.time.setGo = true) : execTimeSetLoad s = .next (tick s) := by
  rw [execTimeSetLoad, if_pos hset]

theorem execPhaseStepApply_ticks (hoff : s.time.offsetPending = true) (hset : s.time.setGo = false) :
    execPhaseStepApply s = .next (tick s) := by
  simp [execPhaseStepApply, hoff, hset]

theorem tickTime_setGo {t : TimeSt} (hrun : t.relock = false) (hset : t.setGo = true) :
    tickTime t = { t with now := setValue t, setGo := false, timeValid := true } := by
  simp [tickTime, hrun, hset]

theorem tickTime_offsetPending {t : TimeSt} (hrun : t.relock = false) (hset : t.setGo = false) (hoff : t.offsetPending = true) :
    tickTime t = { t with
      now := carrySec t.now.sec ((t.now.acc.toNat + t.incr.toNat : Int) + t.offsetAmount.toInt * 2 ^ 16), offsetPending := false } := by
  simp [tickTime, hrun, hset, hoff]

/-- The carry leaves the one pair of seconds and accumulator that spells the same time. -/
theorem carrySec_eq {sec : BitVec 48} {x : Int} {sec' a : Nat} (ha : a < secAcc)
    (hsum : (sec.toNat : Int) * secAcc + x = sec' * secAcc + a) :
    carrySec sec x = { sec := BitVec.ofNat 48 sec', acc := BitVec.ofNat 62 a } := by
  have hpos : (0 : Int) < secAcc := by decide
  have hx : x = a + (secAcc : Int) * (sec' - sec.toNat) := by linarith
  have hlt : (a : Int) < secAcc := by exact_mod_cast ha
  have hdiv : x / secAcc = sec' - sec.toNat := by
    rw [hx, Int.add_mul_ediv_left _ _ hpos.ne', Int.ediv_eq_zero_of_lt (Int.natCast_nonneg a) hlt, zero_add]
  have hmod : x % secAcc = a := by
    rw [hx, Int.add_mul_emod_self_left, Int.emod_eq_of_lt (Int.natCast_nonneg a) hlt]
  rw [carrySec, hdiv, hmod, add_sub_cancel, BitVec.ofInt_natCast, BitVec.ofInt_natCast]

theorem execTbaseNowRead_latches (hrun : s.time.relock = false) : execTbaseNowRead s = .next (latchNow s) := by
  rw [execTbaseNowRead, if_neg (by simp [hrun])]

/-! ### References and holdover (R251, R252) -/

/-- The verdict on one reference leaves the other's. -/
theorem refOk_setRef_other (t : TimeSt) (r : BitVec 1) (ok : Bool) : refOk (setRef t r ok) (1 - r) = refOk t (1 - r) := by
  rcases BitVec.eq_zero_or_eq_one r with rfl | rfl <;> rfl

theorem setRef_bound (t : TimeSt) (r : BitVec 1) (ok : Bool) : (setRef t r ok).bound = t.bound := by
  rcases BitVec.eq_zero_or_eq_one r with rfl | rfl <;> rfl

theorem setRef_holdover (t : TimeSt) (r : BitVec 1) (ok : Bool) : (setRef t r ok).holdover = t.holdover := by
  rcases BitVec.eq_zero_or_eq_one r with rfl | rfl <;> rfl

theorem setRef_relock (t : TimeSt) (r : BitVec 1) (ok : Bool) : (setRef t r ok).relock = t.relock := by
  rcases BitVec.eq_zero_or_eq_one r with rfl | rfl <;> rfl

/-- The reference in use fails and the other passes: the PLL switches. -/
theorem execRefFail_switches {r : BitVec 1} (hsel : s.time.refSel = r) (hhold : s.time.holdover = false)
    (hother : refOk s.time (1 - r) = true) : execRefFail r s = .next (refSwitch { s with time := setRef s.time r false } (1 - r)) := by
  have hin : ¬ (s.time.refSel ≠ r ∨ s.time.holdover = true) := by simp [hsel, hhold]
  exact congrArg _ ((if_neg hin).trans (if_pos ((refOk_setRef_other _ _ _).trans hother)))

/-- The reference in use fails and no other passes: holdover begins. -/
theorem execRefFail_holds {r : BitVec 1} (hsel : s.time.refSel = r) (hhold : s.time.holdover = false)
    (hother : refOk s.time (1 - r) = false) :
    execRefFail r s = .next (logEv { s with time := { setRef s.time r false with holdover := true, holdMs := 0 } }
      { cls := clsTime, cause := 2, a0 := BitVec.ofNat 64 s.time.bound.toNat }) := by
  have hin : ¬ (s.time.refSel ≠ r ∨ s.time.holdover = true) := by simp [hsel, hhold]
  have hnone : ¬ refOk (setRef s.time r false) (1 - r) = true := by rw [refOk_setRef_other, hother]; decide
  rw [← setRef_bound s.time r false]
  exact congrArg _ ((if_neg hin).trans (if_neg hnone))

/-- A reference that passes in holdover begins the relock that ends it, with PPS_OUT low. -/
theorem execRefPass_relocks {r : BitVec 1} (hhold : s.time.holdover = true) (hrun : s.time.relock = false) :
    execRefPass r s = .next { s with
      time := { setRef s.time r true with refSel := r, relock := true }, boot := { s.boot with ppsOut := false } } := by
  simp [execRefPass, setRef_holdover, setRef_relock, hhold, hrun]

theorem execHoldoverBoundTick_grows (hhold : s.time.holdover = true) :
    execHoldoverBoundTick s = .next { s with time := { s.time with bound := satAdd s.time.bound 20, holdMs := satAdd s.time.holdMs 1 } } := by
  rw [execHoldoverBoundTick, if_pos hhold]

/-! ### Region stops (R255) -/

/-- A relock whose reference still passes ends holdover; both are logged, and the reads of NOW_S that it held back are answered. -/
theorem relockEnd_passing {ns : BitVec 32} (hok : refOk s.time s.time.refSel = true) :
    relockEnd s ns = answerTimeReads (logEv (logStop { s with time := { s.time with relock := false, holdover := false } } 16 ns)
      { cls := clsTime, cause := 3, a0 := BitVec.ofNat 64 s.time.holdMs.toNat }) := by
  simp [relockEnd, hok]

theorem execRegionStopEnd_relock {ns : BitVec 32} (hrelock : s.time.relock = true) :
    execRegionStopEnd 16 ns s = .next (relockEnd s ns) := by
  simp [execRegionStopEnd, hrelock]

theorem execRegionStopEnd_stack {g : BitVec 5} {ns : BitVec 32} (hg : g.toNat < 8) (hstop : (tget {} s.stackTbl g.toNat).stopping = true) :
    execRegionStopEnd g ns s =
      .next (logStop { s with stackTbl := tmod {} s.stackTbl g.toNat fun k => { k with stopping := false } } g.toNat ns) := by
  exact congrArg _ ((if_pos hg).trans (if_pos hstop))

theorem execRegionStopEnd_ddr {g : BitVec 5} {ns : BitVec 32} (hlo : 8 ≤ g.toNat) (hhi : g.toNat < 16)
    (hstop : (getDdr s (g.toNat - 8)).stopping = true) :
    execRegionStopEnd g ns s =
      .next (logStop { s with ddrs := tmod {} s.ddrs (g.toNat - 8) fun k => { k with stopping := false } } g.toNat ns) := by
  exact congrArg _ ((if_neg (Nat.not_lt.mpr hlo)).trans ((if_pos hhi).trans (if_pos hstop)))

/-- The entry of a stop in regions 0 to 15 names the die of its stack or channel. -/
theorem logStop_entry {region m : Nat} (ns : BitVec 32) (hdie : region % 8 = m) :
    logStop s region ns =
      logEv s { cls := clsTime, cause := 5, loc := BitVec.ofNat 64 region, a0 := BitVec.ofNat 64 ns.toNat, die := m / 2 } := by
  rw [logStop, hdie]

/-! ### PPS (R253, R254) -/

/-- The time is where an edge of PPS_IN is accepted: near a whole second, or not valid. -/
def edgeFits (t : TimeSt) : Bool := !t.timeValid || nearSecond t.now

/-- The last edge of PPS_IN lies 2 ms back or more. -/
def edgesApart (s : State) : Prop := ∀ e, s.time.ppsLastEdge = some e → timeUnits e + nsUnits 2000000 ≤ nowUnits s

/-- Times of the edges rejected in the last second, once the edge that comes now is judged. -/
def rejectedAfter (t : TimeSt) : List TimeVal :=
  if edgeFits t then t.ppsRejTimes
  else t.now :: t.ppsRejTimes.filter fun e => decide (timeUnits t.now < timeUnits e + nsUnits 1000000000)

theorem length_rejectedAfter_le (t : TimeSt) : (rejectedAfter t).length ≤ t.ppsRejTimes.length + 1 := by
  unfold rejectedAfter
  split
  · exact Nat.le_succ _
  · exact Nat.succ_le_succ (List.length_filter_le _ _)

/-- PPS_IN as it has judged the edge that comes now, in state OK. -/
def edgeJudged (t : TimeSt) : TimeSt :=
  let t1 := { t with ppsLastEdge := some t.now, ppsRejTimes := rejectedAfter t }
  if edgeFits t then { t1 with ppsTs := t.now, ppsAccepted := t.ppsAccepted + 1 } else { t1 with ppsRejected := t.ppsRejected + 1 }

/-- In state OK an edge apart from the last, with no more than four rejected in the last second, is judged and no more. -/
theorem execPpsInEdge_judges (hon : cfg s offTbaseCtl 3 3 = 1) (hstate : s.time.ppsState = 1) (hapart : edgesApart s)
    (hfew : (rejectedAfter s.time).length ≤ 4) : execPpsInEdge s = .next { s with time := edgeJudged s.time } := by
  unfold execPpsInEdge
  extract_lets now acc close rej t1 t2 s2
  have hclose : close = false := by
    unfold close
    split
    · next e he => exact decide_eq_false (Nat.not_lt.mpr (hapart e he))
    · rfl
  have hquiet : ¬ (close || decide (rej.length > 4)) = true := by
    rw [hclose, Bool.false_or, decide_eq_true_eq]
    exact Nat.not_lt.mpr hfew
  rw [if_neg (by rw [hon]; decide), if_neg (not_not.mpr hstate), if_neg hquiet]
  rfl

theorem edgeJudged_fits {t : TimeSt} (hfits : edgeFits t = true) :
    edgeJudged t = { t with ppsLastEdge := some t.now, ppsTs := t.now, ppsAccepted := t.ppsAccepted + 1 } := by
  simp [edgeJudged, rejectedAfter, hfits]

theorem edgeJudged_rejected {t : TimeSt} (hfits : edgeFits t = false) :
    edgeJudged t = { t with ppsLastEdge := some t.now, ppsRejTimes := rejectedAfter t, ppsRejected := t.ppsRejected + 1 } := by
  simp [edgeJudged, hfits]

theorem execPpsStuck_faults (hon : cfg s offTbaseCtl 3 3 = 1) (hstate : s.time.ppsState = 1) : execPpsStuck s = .next (ppsFault s 2) := by
  rw [execPpsStuck, if_pos ⟨hon, hstate⟩]

theorem execPpsOutSecond_rises (hon : cfg s offTbaseCtl 4 4 = 1) (hrun : s.time.relock = false) (hat : atSecond s.time.now = true) :
    execPpsOutSecond s = .next { s with boot := { s.boot with ppsOut := true }, time := { s.time with ppsOutAt := s.time.now } } := by
  rw [execPpsOutSecond, if_pos ⟨hon, hrun, hat⟩]

theorem execPpsOutFall_falls (hover : timeUnits s.time.ppsOutAt + nsUnits (1000000 * cfg s offTbaseCtl 14 5) ≤ nowUnits s) :
    execPpsOutFall s = .next { s with boot := { s.boot with ppsOut := false } } := by
  rw [execPpsOutFall, if_pos (by simp [ppsOutOver, hover])]

end Sys2Proof.Machine
end

section
/-! PROOFS. What is shown of the timebase, its references, region stops and PPS. -/

namespace Sys2Proof.Proofs

open Machine

/-- Settles O26: both requests act by the tick, and the carry of a phase step is the one that spells its time. -/
theorem timebaseCommands : Obligations.TimebaseCommands := by
  intro s hrun
  refine ⟨fun hset => ?set, fun hoff hset sec a ha _ hsum => ?step, execTbaseNowRead_latches hrun⟩
  case set =>
    refine (execTimeSetLoad_ticks hset).trans (congrArg _ ?_)
    rw [tick_running hrun, tickTime_setGo hrun hset]
    rfl
  case step =>
    have hunit : (secAcc : Int) = 1000000000 * 2 ^ 32 := by decide
    have hcarry := carrySec_eq (sec := s.time.now.sec) (x := s.time.now.acc.toNat + s.time.incr.toNat + s.time.offsetAmount.toInt * 2 ^ 16)
      (sec' := sec) ha (by rw [hunit, ← hsum]; ring)
    refine (execPhaseStepApply_ticks hoff hset).trans (congrArg _ ?_)
    rw [tick_running hrun, tickTime_offsetPending hrun hset hoff, hcarry]

/-- Settles O27: the verdict of a monitor and the end of a region stop, each by the case that its hypotheses name. -/
theorem referencesAndRegionStops : Obligations.ReferencesAndRegionStops := by
  intro s
  refine ⟨fun r hsel hhold => ⟨execRefFail_switches hsel hhold, execRefFail_holds hsel hhold⟩, fun r => execRefPass_relocks,
    execHoldoverBoundTick_grows, ?relock, ?stack, ?ddr⟩
  case relock => exact fun ns hrelock hok => (execRegionStopEnd_relock hrelock).trans (congrArg _ (relockEnd_passing hok))
  case stack =>
    exact fun g ns hg hstop => (execRegionStopEnd_stack hg hstop).trans (congrArg _ (logStop_entry ns (Nat.mod_eq_of_lt hg)))
  case ddr =>
    exact fun g ns hlo hhi hstop => (execRegionStopEnd_ddr hlo hhi hstop).trans (congrArg _ (logStop_entry ns (by omega)))

/-- Settles O28: an edge fits or does not; the other commands act where their hypotheses say. -/
theorem ppsCommands : Obligations.PpsCommands := by
  intro s
  refine ⟨fun hon hstate hapart hfew => ?edge, execPpsStuck_faults,
    fun hon hrun hat => execPpsOutSecond_rises hon hrun (by simpa [atSecond] using hat), execPpsOutFall_falls⟩
  have hjudged : exec .ppsInEdge s = .next { s with time := edgeJudged s.time } :=
    execPpsInEdge_judges hon hstate hapart ((length_rejectedAfter_le s.time).trans hfew)
  refine ⟨fun hfits => ?accept, fun hvalid hlo hhi => ?reject⟩
  case accept => rw [hjudged, edgeJudged_fits (by simpa [edgeFits, nearSecond] using hfits)]
  case reject =>
    rw [edgeJudged_rejected (by simp [edgeFits, nearSecond, hvalid, hlo, hhi])] at hjudged
    exact ⟨_, hjudged, rfl, rfl, rfl, hstate⟩

end Sys2Proof.Proofs
end

section
/-! PROOFS. What the pace controller does in free mode and what its readings leave (R279-R281). -/

namespace Sys2Proof.Machine

variable {s : State}

/-- A setting that the clamp does not bring back to the rail's own is commanded; an unforced one limits by nothing. -/
theorem paceMove_unforced {v : Nat} (hne : min (max v (cfg s offPaceLimits 9 0)) (cfg s offPaceLimits 19 10) ≠ s.pace.railMv.toNat) :
    paceMove s v false = setRail s (min (max v (cfg s offPaceLimits 9 0)) (cfg s offPaceLimits 19 10)) false false := if_neg hne

/-- The setting that free mode asks for: FREE_MV, or 5 mV toward it (R280). -/
def freeStep (rail free : Nat) : Nat :=
  if rail < free then min (rail + 5) free else if free < rail then max (rail - 5) free else rail

/-- In free mode, with nothing that forces the rail, it moves by the step that free mode asks for. -/
theorem execPaceFreeUpdate_free (hfault : s.pace.avsFault = false) (hfree : s.launch.paced = false) (hdue : paceDue s = true)
    (hpower : overPower s = false) (htemp : overTemp s = false) :
    execPaceFreeUpdate s = .next (if s.pace.railMv.toNat = cfg s offPaceRate 41 32 then s
      else paceMove s (freeStep s.pace.railMv.toNat (cfg s offPaceRate 41 32)) false) := by
  simp only [execPaceFreeUpdate, hfault, hfree, hdue, hpower, htemp, freeStep, Bool.not_true, Bool.or_self, Bool.false_eq_true, if_false]
  rcases Nat.lt_trichotomy s.pace.railMv.toNat (cfg s offPaceRate 41 32) with hlt | heq | hgt
  · simp only [if_pos hlt, if_neg hlt.ne]
  · simp only [heq, lt_irrefl, if_true, if_false]
  · simp only [if_pos hgt, if_neg hgt.ne', if_neg hgt.not_gt]

/-- The regulators that did not answer are logged one by one. -/
theorem logSilent_eq_foldl (s : State) (ds : List Nat) :
    logSilent s ds = ds.foldl (fun x d => logEv x { cls := clsTime, cause := 10, loc := BitVec.ofNat 64 d, suspect := some 1 }) s := by
  induction ds generalizing s with
  | nil => rfl
  | cons d ds ih => exact ih _

/-- A reading that a regulator left unanswered sets the fault. -/
theorem execAvsReadback_silent {a : BitVec 4} {w : BitVec 16} {c : BitVec 8} (hfault : s.pace.avsFault = false) (ha : a ≠ 15) :
    execAvsReadback a w c s = .next (logSilent { s with pace := { s.pace with
      tjC := c, avsFault := true, tjMax := if s.pace.tjMax.toNat < c.toNat then c else s.pace.tjMax } }
        ((List.range 4).filter fun d => !tb a.toNat d)) := by
  have hclear : ¬ s.pace.avsFault = true := by simp [hfault]
  exact congrArg _ ((if_neg ha).trans (if_neg hclear))

end Sys2Proof.Machine
end

section
/-! PROOFS. What a PTP port does with each message it takes (R256-R258). -/

namespace Sys2Proof.Machine

variable {s : State} {n u k : Nat} {h : PtpHdr}

/-! ### Received messages -/

/-- An event message that the port takes is counted and has its effect. -/
theorem ptpReceive_event {f : State → State} (htake : ptpTake s n u h true = some true) :
    ptpReceive s n u h true f = f (ptpCountEvent s n u) := by
  simp only [ptpReceive, htake, if_true]

/-- A general message that the port takes has its effect. -/
theorem ptpReceive_general {f : State → State} (htake : ptpTake s n u h false = some true) : ptpReceive s n u h false f = f s := by
  simp only [ptpReceive, htake, Bool.false_eq_true, if_false]

/-- Counting an event leaves the port's data where it has a request outstanding. -/
theorem ptpCountEvent_reqSent {r : BitVec 16 × Int} (hreq : (getPtp s (subKey n u)).reqSent = some r) :
    (getPtp (ptpCountEvent s n u) (subKey n u)).reqSent = some r := by
  have hne : ({ getPtp s (subKey n u) with rxEvent := (getPtp s (subKey n u)).rxEvent + 1 } : PtpSt) ≠ {} := by
    intro e
    have hnone : (getPtp s (subKey n u)).reqSent = none := congrArg PtpSt.reqSent e
    cases hreq.symm.trans hnone
  exact (congrArg PtpSt.reqSent (tget_tset_of_ne _ _ _ _ hne)).trans hreq

/-- An answer that carries the device's own identity and the port's number is the port's own. -/
theorem ptpOurs_self (port : BitVec 6) (sub : BitVec 3) :
    ptpOurs s port.toNat sub.toNat s.boot.deviceId (BitVec.ofNat 16 (portNumber port.toNat sub.toNat)) = true := by
  have hfits : portNumber port.toNat sub.toNat < 2 ^ 16 := by
    unfold portNumber
    omega
  simp only [ptpOurs, BitVec.toNat_ofNat, Nat.mod_eq_of_lt hfits, beq_self_eq_true, Bool.and_self]

/-- With the servo in the host's hands a Sync's offset is noted and no more. -/
theorem syncDone_hostOwns {d : Int} (hhost : hostOwnsServo s = true) :
    syncDone s n u d = modPtp s (subKey n u) fun p => { p with lastSync := some d, syncPending := none } := if_pos hhost

variable {port : BitVec 6} {sub : BitVec 3}

theorem execPtpSync_taken {origin : PtpTime} (htake : ptpTake s port.toNat sub.toNat h true = some true)
    (hrole : ptpRole (ptpCountEvent s port.toNat sub.toNat) port.toNat sub.toNat = 2) :
    execPtpSync port sub h origin s =
      let c := ptpCountEvent s port.toNat sub.toNat
      let t2 := ingressTime c port.toNat sub.toNat - h.correction.toInt - ptpAsym c port.toNat sub.toNat
      .next (if h.twoStep then modPtp c (subKey port.toNat sub.toNat) fun p => { p with syncPending := some (h.seq, t2) }
        else syncDone c port.toNat sub.toNat (t2 - ptpTime16 origin)) := by
  refine congrArg Host.Outcome.next ((ptpReceive_event htake).trans ?_)
  exact if_neg (not_not.mpr hrole)

theorem execPtpFollowUp_taken {origin : PtpTime} {t2 : Int} (htake : ptpTake s port.toNat sub.toNat h false = some true)
    (hpending : (getPtp s (subKey port.toNat sub.toNat)).syncPending = some (h.seq, t2)) :
    execPtpFollowUp port sub h origin s =
      .next (syncDone s port.toNat sub.toNat (t2 - h.correction.toInt - ptpTime16 origin)) := by
  simp only [execPtpFollowUp, ptpReceive_general htake, hpending, if_true, ptpCorrField]

theorem execPtpDelayReq_taken (htake : ptpTake s port.toNat sub.toNat h true = some true)
    (hrole : ptpRole (ptpCountEvent s port.toNat sub.toNat) port.toNat sub.toNat = 1) (hend : ptpCfg s port.toNat sub.toNat 3 3 = 0) :
    execPtpDelayReq port sub h s =
      let c := ptpCountEvent s port.toNat sub.toNat
      let t4 := ingressTime c port.toNat sub.toNat
      .next (ptpSend c port.toNat sub.toNat 6 h.seq t4 (h.correction.toInt - t4 % 65536) h.sourceClock h.sourcePort) :=
  congrArg _ ((ptpReceive_event htake).trans (if_pos ⟨hrole, hend⟩))

theorem execPtpPdelayReq_taken (htake : ptpTake s port.toNat sub.toNat h true = some true) (hpeer : ptpCfg s port.toNat sub.toNat 3 3 = 1) :
    execPtpPdelayReq port sub h s =
      let c := ptpCountEvent s port.toNat sub.toNat
      .next (ptpSend c port.toNat sub.toNat 4 h.seq 0
        (h.correction.toInt + (egressTime c port.toNat sub.toNat - ingressTime c port.toNat sub.toNat)) h.sourceClock h.sourcePort) :=
  congrArg _ ((ptpReceive_event htake).trans (if_pos hpeer))

theorem execPtpPdelayResp_taken {receipt : PtpTime} {t1 : Int} (htake : ptpTake s port.toNat sub.toNat h true = some true)
    (hreq : (getPtp s (subKey port.toNat sub.toNat)).reqSent = some (h.seq, t1)) (hpeer : ptpCfg s port.toNat sub.toNat 3 3 = 1) :
    execPtpPdelayResp port sub h receipt s.boot.deviceId (BitVec.ofNat 16 (portNumber port.toNat sub.toNat)) s =
      let c := ptpCountEvent s port.toNat sub.toNat
      let trip := ingressTime c port.toNat sub.toNat - t1 - h.correction.toInt - ptpAsym c port.toNat sub.toNat
      let s1 := modPtp c (subKey port.toNat sub.toNat) fun p => { p with reqSent := none }
      .next (if h.twoStep then modPtp s1 (subKey port.toNat sub.toNat) fun p => { p with pdelayPending := some (h.seq, trip + ptpTime16 receipt) }
        else setMean s1 (subKey port.toNat sub.toNat) (trip / 2)) := by
  have hours : ptpOurs (ptpCountEvent s port.toNat sub.toNat) port.toNat sub.toNat s.boot.deviceId
    (BitVec.ofNat 16 (portNumber port.toNat sub.toNat)) = true := ptpOurs_self port sub
  have hpeer' : ptpCfg (ptpCountEvent s port.toNat sub.toNat) port.toNat sub.toNat 3 3 = 1 := hpeer
  simp only [execPtpPdelayResp, ptpReceive_event htake, ptpCountEvent_reqSent hreq, hours, hpeer', and_self, if_true, ptpCorrField]

theorem execPtpDelayResp_taken {receive : PtpTime} {t3 d : Int} (htake : ptpTake s port.toNat sub.toNat h false = some true)
    (hreq : (getPtp s (subKey port.toNat sub.toNat)).reqSent = some (h.seq, t3))
    (hsync : (getPtp s (subKey port.toNat sub.toNat)).lastSync = some d) (hend : ptpCfg s port.toNat sub.toNat 3 3 = 0) :
    execPtpDelayResp port sub h receive s.boot.deviceId (BitVec.ofNat 16 (portNumber port.toNat sub.toNat)) s =
      .next (setMean (modPtp s (subKey port.toNat sub.toNat) fun p => { p with reqSent := none }) (subKey port.toNat sub.toNat)
        ((d + (ptpTime16 receive - h.correction.toInt - t3)) / 2)) := by
  simp only [execPtpDelayResp, ptpReceive_general htake, hreq, hsync, ptpOurs_self, hend, and_self, if_true, ptpCorrField]

theorem execPtpPdelayRespFollowUp_taken {origin : PtpTime} {d : Int} (htake : ptpTake s port.toNat sub.toNat h false = some true)
    (hpending : (getPtp s (subKey port.toNat sub.toNat)).pdelayPending = some (h.seq, d)) :
    execPtpPdelayRespFollowUp port sub h origin s.boot.deviceId (BitVec.ofNat 16 (portNumber port.toNat sub.toNat)) s =
      .next (setMean (modPtp s (subKey port.toNat sub.toNat) fun p => { p with pdelayPending := none }) (subKey port.toNat sub.toNat)
        ((d - ptpTime16 origin - h.correction.toInt) / 2)) := by
  simp only [execPtpPdelayRespFollowUp, ptpReceive_general htake, hpending, ptpOurs_self, and_self, if_true, ptpCorrField]

theorem execPtpAnnounce_taken {b : PtpAnnounceBody} (htake : ptpTake s port.toNat sub.toNat h false = some true) :
    execPtpAnnounce port sub h b s =
      .next (if b.stepsRemoved.toNat < 16 then modPtp s (subKey port.toNat sub.toNat) fun p => { p with announce := some b } else s) := by
  refine congrArg _ ((ptpReceive_general htake).trans ?_)
  rcases Nat.lt_or_ge b.stepsRemoved.toNat 16 with hlt | hge
  · rw [if_neg (Nat.not_le.mpr hlt), if_pos hlt]
  · rw [if_pos hge, if_neg (Nat.not_lt.mpr hge)]

/-! ### Timers -/

theorem execPtpSyncTimer_sends (hmay : ptpMaySend s port.toNat sub.toNat true = true) (hrole : ptpRole s port.toNat sub.toNat = 1) :
    execPtpSyncTimer port sub s =
      let t := egressTime s port.toNat sub.toNat
      .next (modPtp (ptpSend s port.toNat sub.toNat 1 (getPtp s (subKey port.toNat sub.toNat)).syncSeq t (t % 65536) 0 0)
        (subKey port.toNat sub.toNat) fun p => { p with syncSeq := p.syncSeq + 1 }) :=
  congrArg _ (if_pos ⟨hmay, hrole⟩)

/-- The timer of delay requests sends Pdelay_Req under peer delay and Delay_Req from a slave without it. -/
theorem execPtpDelayReqTimer_sends {peer : Bool} (hpeer : (ptpCfg s port.toNat sub.toNat 3 3 == 1) = peer)
    (hmay : ptpMaySend s port.toNat sub.toNat true = true)
    (hrole : (if peer then ptpRole s port.toNat sub.toNat != 0 else ptpRole s port.toNat sub.toNat == 2) = true) :
    execPtpDelayReqTimer port sub s =
      let q := (getPtp s (subKey port.toNat sub.toNat)).delaySeq
      .next (modPtp (ptpSend s port.toNat sub.toNat (if peer then 3 else 2) q 0 (-(ptpAsym s port.toNat sub.toNat)) 0 0)
        (subKey port.toNat sub.toNat) fun p => { p with delaySeq := q + 1, reqSent := some (q, egressTime s port.toNat sub.toNat) }) := by
  subst hpeer
  exact congrArg _ (if_pos (by rw [hmay, hrole]; rfl))

/-- What a device announces leaves the PTP ports. -/
theorem ownAnnounce_ptp (s : State) : (ownAnnounce s).2.ptp = s.ptp := by
  unfold ownAnnounce
  split <;> rfl

theorem execPtpAnnounceTimer_sends (hmay : ptpMaySend s port.toNat sub.toNat false = true) (hrole : ptpRole s port.toNat sub.toNat = 1) :
    execPtpAnnounceTimer port sub s = .next (modPtp { (ownAnnounce s).2 with
      ptpOut := some (ptpFramed s port.toNat sub.toNat {
        kind := 5, portNumber := portNumber port.toNat sub.toNat, seq := (getPtp s (subKey port.toNat sub.toNat)).announceSeq, sec := 0, ns := 0
        correction := 0, reqClock := 0, reqPort := 0, announce := some (ownAnnounce s).1, traceable := !s.time.holdover }) }
      (subKey port.toNat sub.toNat) fun p => { p with announceSeq := p.announceSeq + 1 }) :=
  congrArg _ (if_pos ⟨hmay, hrole⟩)

end Sys2Proof.Machine
end

section
/-! PROOFS. What is shown of the pace controller and of PTP. -/

namespace Sys2Proof.Proofs

open Machine

/-- Settles O31: the rail's step in free mode, and what a reading sets. -/
theorem paceAndRails : Obligations.PaceAndRails := by
  intro s hfault hotter
  refine ⟨fun hfree hdue hpower htemp => ?free, fun w t => rfl, fun a w t ha => ?silent⟩
  case free =>
    intro rail free v c
    have hupdate := execPaceFreeUpdate_free hfault hfree hdue hpower htemp
    refine ⟨fun hne hmoves => ?_, fun heq => hupdate.trans (congrArg _ (if_pos heq))⟩
    exact hupdate.trans (congrArg _ ((if_neg hne).trans (paceMove_unforced hmoves)))
  case silent => exact (execAvsReadback_silent hfault ha).trans (congrArg _ (logSilent_eq_foldl _ _))

/-- Settles O29: a message that the port takes has the effect of its kind, an event message once it is counted. -/
theorem ptpMessages : Obligations.PtpMessages := by
  intro s port sub h n u k c p
  refine ⟨fun htake => ⟨?twoStep, ?oneStep, ?delayReq, ?pdelayReq, ?pdelayResp⟩,
    fun htake => ⟨?followUp, ?delayResp, ?pdelayFollowUp, fun b => execPtpAnnounce_taken htake⟩, fun hon => congrArg _ (if_pos hon)⟩
  case twoStep => exact fun origin hrole htwo => (execPtpSync_taken htake hrole).trans (congrArg _ (if_pos htwo))
  case oneStep =>
    intro origin hrole hone hhost
    have hc : hostOwnsServo c = true := hhost
    exact (execPtpSync_taken htake hrole).trans (congrArg _ ((if_neg (by simp [hone])).trans (syncDone_hostOwns hc)))
  case delayReq => exact fun hrole hend => ⟨_, execPtpDelayReq_taken htake hrole hend, _, rfl, rfl, rfl, rfl, rfl, rfl⟩
  case pdelayReq => exact fun hpeer => ⟨_, execPtpPdelayReq_taken htake hpeer, _, rfl, rfl, rfl, rfl, rfl, rfl, rfl, rfl⟩
  case pdelayResp =>
    intro t1 receipt hreq hpeer trip answer
    have hresp : answer = _ := execPtpPdelayResp_taken (receipt := receipt) htake hreq hpeer
    exact ⟨fun hone => hresp.trans (congrArg _ (if_neg (by simp [hone]))), fun htwo => hresp.trans (congrArg _ (if_pos htwo))⟩
  case followUp =>
    exact fun t2 origin hpending hhost => (execPtpFollowUp_taken htake hpending).trans (congrArg _ (syncDone_hostOwns hhost))
  case delayResp => exact fun t3 d receive hreq hsync hend => execPtpDelayResp_taken htake hreq hsync hend
  case pdelayFollowUp => exact fun d origin hpending => execPtpPdelayRespFollowUp_taken htake hpending

/-- Settles O30: each timer sends the message of its role and moves its own sequence number on. -/
theorem ptpTimers : Obligations.PtpTimers := by
  intro s port sub n u k p
  refine ⟨fun hmay => ⟨fun hrole => ?sync, fun hend hrole => ?delay, fun hpeer hrole => ?pdelay⟩, fun hmay hrole => ?announce⟩
  case sync => exact ⟨_, execPtpSyncTimer_sends hmay hrole, ⟨_, rfl, rfl, rfl, rfl⟩, rfl⟩
  case delay =>
    have hsends := execPtpDelayReqTimer_sends (peer := false) (by simpa using hend) hmay (by simpa using hrole)
    exact ⟨_, hsends, ⟨_, rfl, rfl, rfl⟩, rfl⟩
  case pdelay =>
    have hsends := execPtpDelayReqTimer_sends (peer := true) (by simpa using hpeer) hmay (by simpa using hrole)
    exact ⟨_, hsends, ⟨_, rfl, rfl, rfl⟩, rfl⟩
  case announce =>
    refine ⟨_, execPtpAnnounceTimer_sends hmay hrole, ⟨_, rfl, rfl, rfl, rfl⟩, ?_⟩
    exact congrArg (fun t => tmod {} t k fun p => { p with announceSeq := p.announceSeq + 1 }) (ownAnnounce_ptp s)

end Sys2Proof.Proofs
end

section
/-! PROOFS. What the LAUNCH, TELEMETRY and BULK grains of a plot do (R263, R354, R355, R394, R396). -/

namespace Sys2Proof.Machine

variable {s : State} {k : Nat} {payload : BitVec 2048}

/-! ### LAUNCH (R263) -/

/-- A payload that spells no message is discarded; its entry names TYPE and ORIGIN as they stand in it. -/
theorem launchPayloadOn_discards (hparse : launchParse payload = none) :
    launchPayloadOn s k payload = logEv s {
      cls := clsTime, cause := 7, loc := portLoc (k / 8) (k % 8), a0 := BitVec.ofNat 64 (bitsOf payload.toNat 7 0)
      a1 := BitVec.ofNat 64 (bitsOf payload.toNat 63 32), die := portDie s (k / 8) } := by
  have horigin : (BitVec.ofNat 32 (bitsOf payload.toNat 63 32)).toNat = bitsOf payload.toNat 63 32 :=
    Nat.mod_eq_of_lt (Nat.mod_lt _ (by decide))
  simp only [launchPayloadOn, hparse, discardLaunch, horigin]

theorem launchPayloadOn_parsed {m : LaunchMsg} (hparse : launchParse payload = some m) : launchPayloadOn s k payload = launchOn s k m := by
  simp only [launchPayloadOn, hparse]

/-! ### TELEMETRY (R394, R396) -/

/-- A sink ring with room takes the payload at its TAIL. -/
theorem sinkWrite_takes (hlen : cfg s offSinkPtr 23 0 ≠ 0)
    (hroom : (s.blot.sinkTail - BitVec.ofNat 32 (cfg s offSinkPtr 63 32)).toNat ≠ cfg s offSinkPtr 23 0) :
    sinkWrite s payload = { s with
      host := writeRun 0 s.host (cfg s offSinkAddr 63 0 + 256 * (s.blot.sinkTail.toNat % cfg s offSinkPtr 23 0)) (bytesOf 256 payload)
      blot := { s.blot with sinkTail := s.blot.sinkTail + 1 } } :=
  (if_neg hlen).trans (if_neg hroom)

theorem telemetryRoute_uplink {up : Nat} (hup : uplink s = some up) : (telemetryRoute s payload).1 =
    modSub s up fun b => { b with q2 := b.q2 ++ [mkGrain (grainHeader 0 2 5 0 s.sec.plot.toNat) payload] } := by
  simp only [telemetryRoute, hup]

theorem telemetryRoute_none (hup : uplink s = none) :
    (telemetryRoute s payload).1 = { s with blot := { s.blot with noRoute := s.blot.noRoute + 1 } } := by
  simp only [telemetryRoute, hup]

theorem telemetryOn_sink (hsink : cfg s offInbandCfg 10 10 = 1) : telemetryOn s k payload = freeBuffer (sinkWrite s payload) k 2 :=
  congrArg (freeBuffer · k 2) (if_pos hsink)

theorem telemetryOn_forwards (hsink : cfg s offInbandCfg 10 10 ≠ 1) (hfwd : cfg s offInbandCfg 11 11 = 1) :
    telemetryOn s k payload = freeBuffer (telemetryRoute s payload).1 k 2 :=
  congrArg (freeBuffer · k 2) ((if_neg hsink).trans (if_pos hfwd))

/-- With an uplink that forwarding does not use, the payload goes no further. -/
theorem telemetryOn_drops {up : Nat} (hsink : cfg s offInbandCfg 10 10 ≠ 1) (hfwd : cfg s offInbandCfg 11 11 ≠ 1)
    (hup : uplink s = some up) : telemetryOn s k payload = freeBuffer s k 2 := by
  refine congrArg (freeBuffer · k 2) ((if_neg hsink).trans ((if_neg hfwd).trans (if_pos ?_)))
  rw [hup]
  rfl

/-- Without an uplink the payload is counted in NO_ROUTE, forwarding or not. -/
theorem telemetryOn_noRoute (hsink : cfg s offInbandCfg 10 10 ≠ 1) (hup : uplink s = none) :
    telemetryOn s k payload = freeBuffer { s with blot := { s.blot with noRoute := s.blot.noRoute + 1 } } k 2 := by
  by_cases hfwd : cfg s offInbandCfg 11 11 = 1
  · rw [telemetryOn_forwards hsink hfwd, telemetryRoute_none hup]
  · refine congrArg (freeBuffer · k 2) ((if_neg hsink).trans ((if_neg hfwd).trans (if_neg ?_)))
    rw [hup]
    decide

/-! ### BULK (R354, R355) -/

theorem length_natLe (n v : Nat) : (natLe n v).length = n := by
  induction n generalizing v with
  | zero => rfl
  | succ n ih => exact congrArg (· + 1) (ih _)

theorem fromPrev_of_loadPrev (hprev : loadPrev s = some k) : fromPrev s k = true := by
  simp [fromPrev, hprev]

theorem nackUp_prev {e b pos : BitVec 32} (hprev : loadPrev s = some k) : nackUp s e b pos = sendBulk s k (bulkOp 3 e b pos) := by
  simp only [nackUp, hprev]

/-- A BULK_START of a block of the manifest opens its delivery. -/
theorem bulkStartOn_opens {e b len : BitVec 32} {m : ManifestSt} (hprev : loadPrev s = some k) (hm : loadOf s e = some m)
    (hb : b.toNat < m.blocks.length) :
    bulkStartOn s k e b len = { s with load := { s.load with rx := some { epoch := e, block := b, length := len, bytes := [] } } } := by
  simp only [bulkStartOn, fromPrev_of_loadPrev hprev, hm, Option.filter_some, hb, decide_true, Bool.not_true, Bool.false_eq_true, if_false,
    if_true]

/-- Data that leaves the block short is added to what has come. -/
theorem bulkDataOn_adds {r : BlockRx} (hrx : s.load.rx = some r) (hprev : loadPrev s = some k)
    (hshort : r.bytes.length + 256 < r.length.toNat) :
    bulkDataOn s k payload =
      { s with load := { s.load with rx := some { r with bytes := r.bytes ++ bytesOf 256 payload } } } := by
  have hcome : (r.bytes ++ bytesOf 256 payload).length = r.bytes.length + 256 := by rw [List.length_append, bytesOf, length_natLe]
  have hall : (r.bytes ++ bytesOf 256 payload).take r.length.toNat = r.bytes ++ bytesOf 256 payload :=
    List.take_of_length_le (hcome.trans_le hshort.le)
  have hmore : (r.bytes ++ bytesOf 256 payload).length < r.length.toNat := hcome.trans_lt hshort
  simp only [bulkDataOn, hrx, fromPrev_of_loadPrev hprev, hall, hmore, Bool.not_true, Bool.false_eq_true, if_false, if_true]

/-- The grain that makes the block whole ends its delivery: the block is taken where its digest holds, and answered as failed where not. -/
theorem bulkDataOn_ends {r : BlockRx} {m : ManifestSt} {b : BlockEnt} (hrx : s.load.rx = some r) (hprev : loadPrev s = some k)
    (hwhole : r.length.toNat ≤ r.bytes.length + 256) (hm : loadOf s r.epoch = some m) (hb : m.blocks[r.block.toNat]? = some b)
    (hlen : b.length = r.length) :
    let bytes := (r.bytes ++ bytesOf 256 payload).take r.length.toNat
    let s1 := { s with load := { s.load with rx := none } }
    bulkDataOn s k payload =
      if sm3 bytes = b.digest then takeBlock s1 m r.block b bytes else sendBulk s1 k (bulkOp 3 r.epoch r.block s.sec.position) := by
  intro bytes s1
  have hdone : ¬ bytes.length < r.length.toNat := by
    have hcome : (r.bytes ++ bytesOf 256 payload).length = r.bytes.length + 256 := by rw [List.length_append, bytesOf, length_natLe]
    rw [List.length_take, hcome]
    omega
  have hm1 : loadOf s1 r.epoch = some m := hm
  have hin : r.block.toNat < m.blocks.length := (List.getElem?_eq_some_iff.mp hb).1
  have hnack : nackUp s1 r.epoch r.block s1.sec.position = sendBulk s1 k (bulkOp 3 r.epoch r.block s.sec.position) := nackUp_prev hprev
  simp only [bulkDataOn, hrx, fromPrev_of_loadPrev hprev, Bool.not_true, Bool.false_eq_true, if_false]
  rw [if_neg hdone]
  simp only [s1, bytes] at hm1 hnack ⊢
  simp only [hm1, Option.filter_some, hin, decide_true, if_true, hb, hlen, true_and, hnack]

theorem bulkAckOn_next {e b : BitVec 32} (hnext : loadNext s = some k) (hheld : (s.load.tx.any fun t => t.epoch == e && t.block == b) = true) :
    bulkAckOn s k e b = pumpTx (ackUp (dropTx s e b) e b) (ackUp (dropTx s e b) e b).load.tx := if_pos ⟨hnext, hheld⟩

/-- A failed delivery is repeated while it is one of the first two and failed at the successor (log 38). -/
theorem bulkNackOn_resends {e b pos : BitVec 32} {x : BlockTx} (hnext : loadNext s = some k)
    (hx : (s.load.tx.find? fun t => t.epoch == e && t.block == b) = some x) (hfew : x.failures < 2) (hpos : pos = s.sec.position + 1) :
    bulkNackOn s k e b pos = sendBlock { s with load := { s.load with tx := s.load.tx.map fun t =>
      if t.epoch = e ∧ t.block = b then { t with failures := t.failures + 1 } else t } } x := by
  have hagain : ¬ (x.failures + 1 ≥ 3 ∨ pos ≠ s.sec.position + 1) := by
    rintro (hmany | hother)
    · omega
    · exact hother hpos
  simp only [bulkNackOn, hnext, hx, ne_eq, not_true_eq_false, if_false]
  rw [if_neg hagain]

/-- A third failure, or one further down the chain, passes upstream (log 38). -/
theorem bulkNackOn_passes {e b pos : BitVec 32} {x : BlockTx} (hnext : loadNext s = some k)
    (hx : (s.load.tx.find? fun t => t.epoch == e && t.block == b) = some x) (hgone : 2 ≤ x.failures ∨ pos ≠ s.sec.position + 1) :
    bulkNackOn s k e b pos = nackUp (dropTx s e b) e b pos := by
  have hover : x.failures + 1 ≥ 3 ∨ pos ≠ s.sec.position + 1 := hgone.imp_left fun h => by omega
  simp only [bulkNackOn, hnext, hx, ne_eq, not_true_eq_false, if_false]
  rw [if_pos hover]

end Sys2Proof.Machine
end

section
/-! PROOFS. How TIME_SET, TIME_ADJUST, QUERY, BLOTTER_DRAIN, ATTEST_QUOTE, FENCE_PORT and UNFENCE_PORT are served (R250, R292, R349, R391,
R404, R416). -/

namespace Sys2Proof.Machine

variable {s : State} {r : Nat} {seq : BitVec 32}

/-! ### TIME_SET and TIME_ADJUST (R250) -/

theorem serveTimeSet_notOwner {sec : BitVec 64} {ns : BitVec 32} {frac : BitVec 16} (hhost : hostOwnsServo s = false) :
    serveTimeSet s r seq sec ns frac = done s r seq (.timeSet sec ns frac) errNotOwner := by
  rw [serveTimeSet, if_pos (by rw [hhost]; rfl)]

/-- A TIME_SET of the servo's owner, where a SET may be requested, requests it. -/
theorem serveTimeSet_requests {sec : BitVec 64} {ns : BitVec 32} {frac : BitVec 16} (hhost : hostOwnsServo s = true) (hset : setOk s = true)
    (hsec : sec.toNat < 2 ^ 48) (hns : ns.toNat < 1000000000) :
    serveTimeSet s r seq sec ns frac = done { s with time := { s.time with
      setSec := sec.setWidth 48, setSub := BitVec.ofNat 46 (ns.toNat * 2 ^ 16 + frac.toNat), setGo := true } }
      r seq (.timeSet sec ns frac) errOk := by
  have hfields : ¬ (2 ^ 48 ≤ sec.toNat ∨ 1000000000 ≤ ns.toNat) := by omega
  simp only [serveTimeSet, hhost, hset, Bool.not_true, Bool.false_eq_true, if_false]
  rw [if_neg hfields, BitVec.ofNat_toNat]

/-- A TIME_ADJUST of the servo's owner writes the fields marked VALID. -/
theorem serveTimeAdjust_writes {valid servo : BitVec 8} {incr offset : BitVec 64} {bound : BitVec 32} (hhost : hostOwnsServo s = true)
    (hok : adjustOk s valid.toNat incr offset bound servo = true)
    (hstep : tb valid.toNat 1 = true → offsetOk s (offset.setWidth 47) = true) :
    serveTimeAdjust s r seq valid incr offset bound servo = done { s with time := { s.time with
      incr := if tb valid.toNat 0 then incr.setWidth 36 else s.time.incr
      offsetAmount := if tb valid.toNat 1 then offset.setWidth 47 else s.time.offsetAmount
      offsetPending := s.time.offsetPending || tb valid.toNat 1
      bound := if tb valid.toNat 2 then bound else s.time.bound
      servo := if tb valid.toNat 3 then servo.setWidth 2 else s.time.servo } }
      r seq (.timeAdjust valid incr offset bound servo) errOk := by
  have hgo : (tb valid.toNat 1 && !offsetOk s (offset.setWidth 47)) = false := by
    cases hv : tb valid.toNat 1
    · rfl
    · rw [hstep hv]
      rfl
  simp only [serveTimeAdjust, hhost, hok, hgo, BitVec.ofNat_toNat, Bool.not_true, Bool.false_eq_true, if_false]

/-! ### QUERY, BLOTTER_DRAIN and ATTEST_QUOTE (R349, R391, R416) -/

/-- QUERY of the first seven kinds writes the records that fit. -/
theorem serveQuery_records {what : BitVec 16} {index dest : BitVec 64} {count len : BitVec 32} (hwhat : what.toNat < 7)
    (harea : inDataArea dest.toNat len.toNat = true) (hread : queryLost s = none) :
    let rs := thatFit len.toNat (queryList s what.toNat index.toNat count.toNat len.toNat)
    serveQuery s r seq what index count dest len =
      done (memWrite s dest.toNat rs.flatten) r seq (.query what index count dest len) errOk (natLe 4 rs.length) := by
  intro rs
  have hfield : ¬ (7 < what.toNat ∨ inDataArea dest.toNat len.toNat = false) := by simp [harea, hwhat.le]
  have hchain : ¬ what = 7 := by
    rintro rfl
    exact absurd hwhat (by decide)
  rw [serveQuery]
  simp only [if_neg hfield, if_neg hchain, hread, rs]

/-- QUERY of the certificate chain writes it whole, or completes with NO_SPACE. -/
theorem serveQuery_chain {dest : BitVec 64} {len : BitVec 32} (harea : inDataArea dest.toNat len.toNat = true) :
    serveQuery s r seq 7 0 0 dest len =
      if len.toNat < (chainBytes s).length then done s r seq (.query 7 0 0 dest len) errNoSpace []
      else done (memWrite s dest.toNat (chainBytes s)) r seq (.query 7 0 0 dest len) errOk (natLe 4 (chainCount s)) := by
  have hfield : ¬ (7 < (7 : BitVec 16).toNat ∨ inDataArea dest.toNat len.toNat = false) := by simp [harea]
  rw [serveQuery]
  simp only [if_neg hfield, if_true, ne_eq, not_true_eq_false, or_self, if_false]

theorem serveDrain_drains {classes : BitVec 8} {dest : BitVec 64} {len : BitVec 32} (harea : inDataArea dest.toNat len.toNat = true) :
    let d := ((List.range 8).filter (tb classes.toNat)).foldl (drainClass len.toNat)
      { bytes := [], entries := 0, lost := 0, rings := s.blot.rings, stopped := false }
    serveDrain s r seq classes dest len = done (memWrite { s with blot := { s.blot with rings := d.rings } } dest.toNat d.bytes) r seq
      (.blotterDrain classes dest len) errOk (natLe 4 d.entries ++ natLe 4 d.lost) :=
  if_neg (by simp [harea])

theorem serveQuote_noSpace {nonce : Digest} {dest : BitVec 64} {len : BitVec 32} (hlen : len.toNat < 640) :
    serveQuote s r seq nonce dest len = done s r seq (.attestQuote nonce dest len) errNoSpace [] := if_pos hlen

/-- A quote with room is written, counted and logged by the first bytes of its nonce. -/
theorem serveQuote_quotes {nonce : Digest} {dest : BitVec 64} {len : BitVec 32} (hlen : 640 ≤ len.toNat)
    (harea : inDataArea dest.toNat 640 = true) :
    serveQuote s r seq nonce dest len = done
      (logEv { memWrite s dest.toNat (quoteBytes s nonce) with sec := { s.sec with quotes := s.sec.quotes + 1 } }
        { cls := clsSecurity, cause := 9, a0 := fieldAt 64 (bytesOf 32 nonce) 0 8 })
      r seq (.attestQuote nonce dest len) errOk (natLe 4 640) :=
  (if_neg (Nat.not_lt.mpr hlen)).trans (if_neg (by simp [harea]))

/-! ### Sub-ports written twice -/

theorem tput_tput {α : Type} (t : Tbl α) (i : Nat) (v w : α) : tput (tput t i v) i w = tput t i w := by
  induction t with
  | nil => simp [tput]
  | cons e t ih =>
    obtain ⟨k, x⟩ := e
    rcases Nat.lt_trichotomy k i with hlt | rfl | hgt
    · simp [tput, hlt.ne, hlt.not_gt, ih]
    · simp [tput]
    · simp [tput, hgt.ne', hgt]

/-- Two changes of a sub-port, neither of which leaves it as at reset, are one. -/
theorem modSub_modSub {k : Nat} {f g : SubSt → SubSt} (hf : f (getSub s k) ≠ {}) (hg : g (f (getSub s k)) ≠ {}) :
    modSub (modSub s k f) k g = setSub s k (g (f (getSub s k))) := by
  have hget : getSub (modSub s k f) k = f (getSub s k) := tget_tset_of_ne _ _ _ _ hf
  rw [modSub, hget]
  have htwice : tset {} (tset {} s.subs k (f (getSub s k))) k (g (f (getSub s k))) = tset {} s.subs k (g (f (getSub s k))) := by
    simp only [tset, if_neg hf, if_neg hg, tput_tput]
  exact congrArg (fun subs => { s with subs }) htwice

/-! ### FENCE_PORT and UNFENCE_PORT (R292, R404) -/

/-- With no OPEN_PLOT waiting, none fails. -/
theorem checkOpen_of_no_opener (hopener : s.mbox.opener = none) : checkOpen s = s := by
  unfold checkOpen
  split
  · rw [failOpen, hopener]
  · rfl

theorem serveFence_named {port sub : BitVec 8} (hport : port.toNat < 50) (hsub : sub.toNat < subsOf s port.toNat) :
    serveFence s r seq port sub =
      let k := subKey port.toNat sub.toNat
      let s1 := modSub s k fun b => { b with fenced := true }
      done (checkOpen (if (getSub s k).state = .plot then blot s1 k .fenced
        else modSub s1 k fun b => { b with state := if (tget {} s.ports port.toNat).group = 0x3F then .off else .fenced })) r seq
        (.fencePort port sub) errOk := if_neg (by omega)

/-- A sub-port outside a plot that is fenced while no OPEN_PLOT waits is FENCED, or OFF on a port without a lane group (R29). -/
theorem serveFence_outside_plot {port sub : BitVec 8} (hport : port.toNat < 50) (hsub : sub.toNat < subsOf s port.toNat)
    (hplot : (getSub s (subKey port.toNat sub.toNat)).state ≠ .plot) (hopener : s.mbox.opener = none) :
    serveFence s r seq port sub = done (setSub s (subKey port.toNat sub.toNat) { getSub s (subKey port.toNat sub.toNat) with
      fenced := true, state := if (tget {} s.ports port.toNat).group = 0x3F then .off else .fenced }) r seq (.fencePort port sub) errOk := by
  have hfenced {b : SubSt} (hb : b.fenced = true) : b ≠ {} := fun e => by
    rw [e] at hb
    cases hb
  rw [serveFence_named hport hsub]
  dsimp only
  rw [if_neg hplot, modSub_modSub (hfenced rfl) (hfenced rfl), checkOpen_of_no_opener (by exact hopener)]

theorem subsOf_le (s : State) (n : Nat) : subsOf s n ≤ 8 := by
  have hfield : cfg s (offSpanCfg n) 1 0 < 4 := Nat.mod_lt _ (by decide)
  exact Nat.pow_le_pow_right (by decide) (Nat.le_of_lt_succ hfield)

/-- A sub-port there is at rest DOWN. -/
theorem restState_of_subThere {n u : Nat} (hthere : subThere s n u = true) : restState s (subKey n u) = .down := by
  simp only [subThere, Bool.and_eq_true, decide_eq_true_eq, beq_iff_eq] at hthere
  obtain ⟨⟨-, hu⟩, hon⟩ := hthere
  have hport : subKey n u / 8 = n := by
    have := subsOf_le s n
    unfold subKey
    omega
  rw [restState, hport, if_pos hon]

theorem serveUnfence_notFenced {port sub : BitVec 8} (hport : port.toNat < 50) (hsub : sub.toNat < subsOf s port.toNat)
    (hfenced : (getSub s (subKey port.toNat sub.toNat)).fenced = false) :
    serveUnfence s r seq port sub = done s r seq (.unfencePort port sub) errState :=
  (if_neg (by omega)).trans (if_pos hfenced)

/-- A fenced sub-port whose link is down, out of a hold and out of training, is unfenced to DOWN, with SEQ_RESET owed. -/
theorem serveUnfence_down {port sub : BitVec 8} (hport : port.toNat < 50) (hsub : sub.toNat < subsOf s port.toNat)
    (hfenced : (getSub s (subKey port.toNat sub.toNat)).fenced = true) (hlink : (getSub s (subKey port.toNat sub.toNat)).linkUp = false)
    (htrain : (getSub s (subKey port.toNat sub.toNat)).training = false) (hhold : (getSub s (subKey port.toNat sub.toNat)).holding = false)
    (hthere : subThere s port.toNat sub.toNat = true) :
    serveUnfence s r seq port sub = done (setSub s (subKey port.toNat sub.toNat) { getSub s (subKey port.toNat sub.toNat) with
      fenced := false, needReset := true, state := .down }) r seq (.unfencePort port sub) errOk := by
  have hrange : ¬ (50 ≤ port.toNat ∨ subsOf s port.toNat ≤ sub.toNat) := by omega
  have hset : ¬ (getSub s (subKey port.toNat sub.toNat)).fenced = false := by simp [hfenced]
  have hdown : ({ getSub s (subKey port.toNat sub.toNat) with fenced := false, needReset := true, state := .down } : SubSt) ≠ {} := by
    intro e
    cases congrArg SubSt.state e
  unfold serveUnfence
  extract_lets n k fin s1
  have hs1 : s1 = setSub s k { getSub s k with fenced := false, needReset := true, state := .down } := by
    refine congrArg (fun st => setSub s k { getSub s k with fenced := false, needReset := true, state := st }) ?_
    rw [hhold, htrain]
    exact restState_of_subThere hthere
  have hlink1 : ¬ (getSub s1 k).linkUp = true := by
    have hget : getSub s1 k = { getSub s k with fenced := false, needReset := true, state := .down } := by
      rw [hs1]
      exact tget_tset_of_ne _ _ _ _ hdown
    rw [hget]
    exact ne_true_of_eq_false hlink
  rw [if_neg hrange, if_neg hset, if_neg hlink1, hs1]

end Sys2Proof.Machine
end

section
/-! PROOFS. What is shown of message grains, and of TIME_SET, QUERY and the commands beside them. -/

namespace Sys2Proof.Proofs

open Machine

/-- Settles O36: each grain comes by the grain row, and what it then does is the lemma of its kind. -/
theorem spanMessageGrains : Obligations.SpanMessageGrains := by
  intro s port sub payload k hplot
  have row (f : Nat → State → State) : grainRow port sub s f = .next (f k s) := grainRow_of_carriesPlot hplot
  have launch {t : State} (h : launchPayloadOn s k payload = t) : exec (.launch port sub payload) s = .next (freeBuffer t k 0) :=
    h ▸ row fun k s => freeBuffer (launchPayloadOn s k payload) k 0
  have telemetry {t : State} (h : telemetryOn s k payload = t) : exec (.telemetry port sub payload) s = .next t :=
    h ▸ row fun k s => telemetryOn s k payload
  have start {e b len : BitVec 32} {t : State} (h : bulkStartOn s k e b len = t) :
    exec (.bulkStart port sub e b len) s = .next (freeBuffer t k 3) :=
    h ▸ row fun k s => freeBuffer (bulkStartOn s k e b len) k 3
  have data {t : State} (h : bulkDataOn s k payload = t) : exec (.bulkData port sub payload) s = .next (freeBuffer t k 3) :=
    h ▸ row fun k s => freeBuffer (bulkDataOn s k payload) k 3
  have ack {e b : BitVec 32} {t : State} (h : bulkAckOn s k e b = t) : exec (.bulkAck port sub e b) s = .next (freeBuffer t k 3) :=
    h ▸ row fun k s => freeBuffer (bulkAckOn s k e b) k 3
  have nack {e b pos : BitVec 32} {t : State} (h : bulkNackOn s k e b pos = t) :
    exec (.bulkNack port sub e b pos) s = .next (freeBuffer t k 3) :=
    h ▸ row fun k s => freeBuffer (bulkNackOn s k e b pos) k 3
  refine ⟨fun m hparse => launch (launchPayloadOn_parsed hparse), fun hparse => launch (launchPayloadOn_discards hparse), ?sink, ?forward,
    fun hsink hup => telemetry (telemetryOn_noRoute hsink hup), fun up hsink hfwd hup => telemetry (telemetryOn_drops hsink hfwd hup),
    fun e b len m hprev hm hb => start (bulkStartOn_opens hprev hm hb), fun r hrx hprev hshort => data (bulkDataOn_adds hrx hprev hshort),
    ?last, fun e b hnext hheld => ack (bulkAckOn_next hnext hheld), ?nack⟩
  case sink =>
    intro len head hsink hlen hroom
    exact telemetry ((telemetryOn_sink hsink).trans (congrArg (freeBuffer · k 2) (sinkWrite_takes hlen hroom)))
  case forward =>
    intro up hsink hfwd hup
    exact telemetry ((telemetryOn_forwards hsink hfwd).trans (congrArg (freeBuffer · k 2) (telemetryRoute_uplink hup)))
  case last =>
    intro r m b hrx hprev hwhole hm hb hlen bytes s1
    have hends := bulkDataOn_ends (payload := payload) hrx hprev hwhole hm hb hlen
    exact ⟨fun hsm => data (hends.trans (if_pos hsm)), fun hsm => data (hends.trans (if_neg hsm))⟩
  case nack =>
    intro e b pos x hnext hx
    exact ⟨fun hfew hpos => nack (bulkNackOn_resends hnext hx hfew hpos), fun hgone => nack (bulkNackOn_passes hnext hx hgone)⟩

/-- Settles O46: each command is served as its entry is read. -/
theorem timeQueryAndPortCommands : Obligations.TimeQueryAndPortCommands := by
  intro s ring e
  obtain ⟨rings, hread⟩ := entryRead_rings s ring
  have hrow {c : MboxCmd} {t : State} (h : servedNow s ring c)
      (hserve : serveCmd { s with mbox := { s.mbox with rings } } ring.toNat (seqDue s ring) c none = t) : rowCmd ring c none s = .next t :=
    (rowCmd_served h).trans (congrArg _ (hread ▸ hserve))
  have he : e = { s with mbox := { s.mbox with rings } } := hread
  clear_value e
  subst he
  refine ⟨?timeSet, ?timeAdjust, ?query, ?drain, ?quote, ?ports⟩
  case timeSet =>
    exact fun sec ns frac h => ⟨fun hhost => hrow h (serveTimeSet_notOwner hhost),
      fun hhost hset hsec hns => hrow h (serveTimeSet_requests hhost hset hsec hns)⟩
  case timeAdjust => exact fun valid servo incr offset bound h hhost hok hstep => hrow h (serveTimeAdjust_writes hhost hok hstep)
  case query =>
    intro what index dest count len h harea
    refine ⟨fun hwhat hlost => hrow h (serveQuery_records hwhat harea hlost), ?_, ?_⟩
    · rintro rfl rfl rfl hfits
      exact hrow h ((serveQuery_chain harea).trans (if_neg (Nat.not_lt.mpr hfits)))
    · rintro rfl rfl rfl hshort
      exact hrow h ((serveQuery_chain harea).trans (if_pos hshort))
  case drain => exact fun classes dest len h harea => hrow h (serveDrain_drains harea)
  case quote =>
    exact fun nonce dest len h => ⟨fun hlen => hrow h (serveQuote_noSpace hlen), fun hlen harea => hrow h (serveQuote_quotes hlen harea)⟩
  case ports =>
    intro port sub hport hsub k b
    refine ⟨fun h => ⟨fun hplot hopener _ => ?_, fun hplot => ?_⟩,
      fun h => ⟨fun hfenced => ?_, fun hfenced hlink htrain hhold hthere => ?_⟩⟩
    · exact hrow h (serveFence_outside_plot (s := { s with mbox := { s.mbox with rings } }) hport hsub hplot hopener)
    · exact hrow h ((serveFence_named (s := { s with mbox := { s.mbox with rings } }) hport hsub).trans
        (congrArg (fun t => done (checkOpen t) _ _ _ _) (if_pos hplot)))
    · exact hrow h (serveUnfence_notFenced (s := { s with mbox := { s.mbox with rings } }) hport hsub hfenced)
    · exact hrow h (serveUnfence_down (s := { s with mbox := { s.mbox with rings } }) hport hsub hfenced hlink htrain hhold hthere)

end Sys2Proof.Proofs
end

section
/-! PROOFS. What a sub-port reads after a write, a frame sent, and an event logged (R294-R296). -/

namespace Sys2Proof.Machine

variable {s : State} {k : Nat} {b c : SubSt}

/-! ### Keys -/

theorem subKey_div_eight (n : Nat) (sub : BitVec 3) : subKey n sub.toNat / 8 = n := by
  unfold subKey
  omega

/-! ### Writes -/

theorem getSub_setSub (hb : b ≠ {}) : getSub (setSub s k b) k = b := tget_tset_of_ne _ _ _ _ hb

/-- Of two writes of a sub-port, neither as at reset, the second counts. -/
theorem setSub_setSub (hb : b ≠ {}) (hc : c ≠ {}) : setSub (setSub s k b) k c = setSub s k c := by
  have htwice : tset {} (tset {} s.subs k b) k c = tset {} s.subs k c := by
    simp only [tset, if_neg hb, if_neg hc, tput_tput]
  exact congrArg (fun subs => { s with subs }) htwice

/-- A sub-port whose link is up is not as at reset. -/
theorem ne_reset_of_linkUp (hup : b.linkUp = true) : b ≠ {} := by
  rintro rfl
  cases hup

/-- A change of a sub-port just written, whose link is up and stays up, is one write. -/
theorem modSub_setSub {f : SubSt → SubSt} (hb : b.linkUp = true) (hf : (f b).linkUp = true) :
    modSub (setSub s k b) k f = setSub s k (f b) := by
  rw [modSub, getSub_setSub (ne_reset_of_linkUp hb), setSub_setSub (ne_reset_of_linkUp hb) (ne_reset_of_linkUp hf)]

theorem modSub_setSub_of_eq {f : SubSt → SubSt} (hf : f b = c) (hb : b.linkUp = true) (hc : c.linkUp = true) :
    modSub (setSub s k b) k f = setSub s k c := by
  subst hf
  exact modSub_setSub hb hc

/-! ### Frames and events -/

/-- A frame leaves its sub-port with no acknowledgement owed. -/
theorem getSub_sendFrame (s : State) (k : Nat) (link : Bool) (body : List Grain) :
    ∃ f, getSub (sendFrame s k link body) k = { getSub s k with ackOwed := false, lastTx := some f } ∧ f.body = body ∧
      f.flags = (if link then 1 else 0) ∧ f.ack = (getSub s k).rxExpect := by
  refine ⟨_, getSub_setSub ?_, rfl, rfl, rfl⟩
  intro h
  cases congrArg SubSt.lastTx h

/-- An event changes queues 0 and 2 of a sub-port alone. -/
theorem getSub_logEv (s : State) (e : Ev) (k : Nat) : ∃ q0 q2, getSub (logEv s e) k = { getSub s k with q0, q2 } :=
  (loggedOnly_logEv s e).2.1 k

end Sys2Proof.Machine
end

section
/-! PROOFS. Training of a span link, its loss, and the end of its dry time (R286, R287, R311-R314). -/

namespace Sys2Proof.Machine

variable {s : State} {k : Nat} {port : BitVec 6} {sub : BitVec 3}

/-! ### Training begins (R287, R293, R311) -/

/-- The sub-port trains, with the configuration of its port in effect. -/
structure Trains (s : State) (port : BitVec 6) (sub : BitVec 3) (t : State) : Prop where
  sub : getSub t (subKey port.toNat sub.toNat) = { getSub s (subKey port.toNat sub.toNat) with
    training := true, linkUp := false, shaking := false, state := heldState (getSub s (subKey port.toNat sub.toNat)) .training
    cfgIn := BitVec.ofNat 64 (cfg s (offSpanCfg port.toNat) 63 0) }
  mem : t.mem = s.mem
  regs : t.regs = s.regs

theorem startTraining_trains (s : State) (port : BitVec 6) (sub : BitVec 3) :
    Trains s port sub (startTraining s (subKey port.toNat sub.toNat)) := by
  refine ⟨(getSub_setSub ?_).trans ?_, rfl, rfl⟩
  · intro h
    cases congrArg SubSt.training h
  · rw [subKey_div_eight]

/-- A sub-port of an enabled port whose link is down and does not train (R287, R311). -/
def MayTrain (s : State) (port : BitVec 6) (sub : BitVec 3) : Prop :=
  subThere s port.toNat sub.toNat = true ∧ (getSub s (subKey port.toNat sub.toNat)).linkUp = false ∧
    (getSub s (subKey port.toNat sub.toNat)).training = false

theorem execPenHolderWaitExpiry_trains (h : MayTrain s port sub) (hdirect : isDirect (getSub s (subKey port.toNat sub.toNat)) = true)
    (hroles : (getSub s (subKey port.toNat sub.toNat)).rolesKnown = true) (hpen : (getSub s (subKey port.toNat sub.toNat)).pen = false)
    (hst : (getSub s (subKey port.toNat sub.toNat)).state = .down ∨ (getSub s (subKey port.toNat sub.toNat)).state = .holding ∨
      (getSub s (subKey port.toNat sub.toNat)).state = .fenced) :
    execPenHolderWaitExpiry port sub s = .next (startTraining s (subKey port.toNat sub.toNat)) := by
  obtain ⟨hthere, hup, htrain⟩ := h
  refine congrArg Host.Outcome.next (if_pos ?_)
  simp [hthere, hup, htrain, hdirect, hroles, hpen, hst, or_assoc]

theorem execLinkUp_trains (h : MayTrain s port sub) :
    execLinkUp port sub s = .next (startTraining s (subKey port.toNat sub.toNat)) := by
  obtain ⟨hthere, hup, htrain⟩ := h
  refine congrArg Host.Outcome.next (if_pos ?_)
  simp [hthere, hup, htrain]

/-- An OFF sub-port of an enabled port trains on RETRAIN (log 26). -/
theorem execRetrain_off_trains (h : MayTrain s port sub) (hoff : (getSub s (subKey port.toNat sub.toNat)).state = .off)
    (hrun : s.step.running = false) : execRetrain port sub s = .next (startTraining s (subKey port.toNat sub.toNat)) := by
  obtain ⟨hthere, hup, htrain⟩ := h
  simp [execRetrain, retrainOn, hrun, hthere, hup, htrain, hoff]

/-! ### Training ends (R286) -/

/-- A sub-port on whose link a handshake begins, with what it will announce (R290). -/
def shakeBegun (b : SubSt) (needReset : Bool) (txStart : BitVec 32) : SubSt :=
  { b with
    state := heldState b .training, shaking := true, heard := false, acked := false, needReset, txStart
    partnerReset := false, partnerTxStart := 0, narrowing := false, replaying := false }

theorem getSub_startShake {b : SubSt} (reset : Bool) (hb : getSub s k = b) (hup : b.linkUp = true) :
    ∃ needReset txStart, getSub (startShake s k reset) k = shakeBegun b needReset txStart := by
  unfold startShake
  extract_lets r d
  have hd : getSub d.2 k = b := by
    unfold d
    split <;> exact hb
  refine ⟨r, d.1, (getSub_setSub ?_).trans (by rw [hd]; rfl)⟩
  exact ne_reset_of_linkUp (by rw [hd]; exact hup)

theorem startShake_ports (s : State) (k : Nat) (reset : Bool) : (startShake s k reset).ports = s.ports := by
  unfold startShake
  extract_lets r d
  unfold d
  split <;> rfl

/-- A sub-port that training has brought up on the lanes `good`. -/
def trained (b : SubSt) (good : BitVec 8) : SubSt :=
  { b with
    training := false, linkUp := true, goodLanes := good, badLanes := 0, partnerBad := 0
    width := BitVec.ofNat 4 (widthFor 8 (laneCount good)), lanes := lowLanes good (widthFor 8 (laneCount good))
    narrowing := false, linkOp := 0 }

/-- What training found is noted, and a handshake begins on the lanes that it left. -/
theorem execTrainingComplete_succeeds {reversed : Bool} {termFault inverted : BitVec 8}
    (htrain : (getSub s (subKey port.toNat sub.toNat)).training = true) :
    let k := subKey port.toNat sub.toNat
    let b := getSub s k
    let mine := ownLanes (shareOf b) sub.toNat
    let good := mine &&& ~~~termFault
    widthFor 8 (laneCount good) ≠ 0 → (isDirect b = true ∨ good = mine) →
    execTrainingComplete port sub true reversed termFault inverted s =
      .next (startShake (setSub (noteLanes s port.toNat mine termFault inverted reversed) k (trained b good)) k false) := by
  intro k b mine good hw hlanes
  have hgo : ¬ (!b.training) = true := by simp [b, k, htrain]
  have hall : (!isDirect b && good != mine) = false := by rcases hlanes with h | h <;> simp [h]
  have hok : ¬ (!true || decide (widthFor 8 (laneCount good) = 0) || (!isDirect b && good != mine)) = true := by
    rw [hall]
    simp [hw]
  exact congrArg Host.Outcome.next ((if_neg hgo).trans (if_neg hok))

/-- Training that failed, or found no lane, leaves the sub-port out of service with no lanes. -/
theorem execTrainingComplete_fails {ok reversed : Bool} {termFault inverted : BitVec 8}
    (htrain : (getSub s (subKey port.toNat sub.toNat)).training = true) :
    let k := subKey port.toNat sub.toNat
    let b := getSub s k
    let mine := ownLanes (shareOf b) sub.toNat
    let s1 := noteLanes s port.toNat mine termFault inverted reversed
    (ok = false ∨ widthFor 8 (laneCount (mine &&& ~~~termFault)) = 0) →
    execTrainingComplete port sub ok reversed termFault inverted s =
      .next (logEv (setSub s1 k { b with training := false, state := heldState b .off, width := 0, lanes := 0 })
        (spanEv s 1 k (BitVec.ofNat 64 (tget {} s1.ports port.toNat).termFault.toNat))) := by
  intro k b mine s1 hbad
  have hgo : ¬ (!b.training) = true := by simp [b, k, htrain]
  have hfail : (!ok || decide (widthFor 8 (laneCount (mine &&& ~~~termFault)) = 0) ||
      (!isDirect b && mine &&& ~~~termFault != mine)) = true := by
    rcases hbad with h | h <;> simp [h]
  exact congrArg Host.Outcome.next ((if_neg hgo).trans (if_pos hfail))

/-! ### The link goes down (R311, R312) -/

/-- A sub-port that has lost its link: what was under way on it is over, and the loss is counted. -/
def linkLost (b : SubSt) : SubSt :=
  { b with
    linkUp := false, training := false, shaking := false, narrowing := false, linkOp := 0, replaying := false, realigned := false
    partnerDone := false, qLink := [], retrains := b.retrains + 1 }

/-- Out of a plot the sub-port rests. -/
theorem linkDownOn_rests (reason : Nat) (hup : (getSub s k).linkUp = true) (hplot : (getSub s k).state ≠ .plot) :
    linkDownOn s k reason = logEv (setSub s k { linkLost (getSub s k) with state := heldState (getSub s k) (restState s k) })
      (spanEv s 5 k (BitVec.ofNat 64 reason)) :=
  (if_neg (by simp [hup])).trans (if_neg hplot)

/-- In a plot the sub-port holds, and the plot hears of it. -/
theorem linkDownOn_holds (reason : Nat) (hup : (getSub s k).linkUp = true) (hplot : (getSub s k).state = .plot) :
    linkDownOn s k reason =
      let dry := (tget {} s.ports (k / 8)).dryMs
      beginHold (logEv (logEv
        (setSub s k { linkLost (getSub s k) with state := .holding, holding := true, holdStart := s.time.now })
        (spanEv s 5 k (BitVec.ofNat 64 reason))) (spanEv s 6 k (BitVec.ofNat 64 dry.toNat))) (k / 8) (k % 8) (holdDry dry) :=
  (if_neg (by simp [hup])).trans (if_pos hplot)

/-- The PHY, a RETRAIN of the partner and the keepalive each take a link that is up down, for their own reason. -/
theorem linkDown_reasons (hup : (getSub s (subKey port.toNat sub.toNat)).linkUp = true) :
    execLinkDown port sub s = .next (linkDownOn s (subKey port.toNat sub.toNat) 1) ∧
      execLinkRetrain port sub s = .next (linkDownOn s (subKey port.toNat sub.toNat) 2) ∧
      execKeepaliveExpiry port sub s = .next (linkDownOn s (subKey port.toNat sub.toNat) 3) :=
  ⟨rfl, rfl, congrArg Host.Outcome.next (if_pos hup)⟩

/-! ### The dry time ends (R314) -/

theorem execDryTimeExpiry_blots (hhold : (getSub s (subKey port.toNat sub.toNat)).holding = true)
    (hdry : (tget {} s.ports port.toNat).dryMs ≠ 0) :
    let k := subKey port.toNat sub.toNat
    execDryTimeExpiry port sub s =
      .next (blot (modSub s k fun b => { b with linkUp := false, training := false, shaking := false }) k
        (if (getSub s k).fenced then .fenced else restState s k)) :=
  congrArg Host.Outcome.next (if_pos (Bool.and_eq_true_iff.mpr ⟨hhold, bne_iff_ne.mpr hdry⟩))

end Sys2Proof.Machine
end

section
/-! PROOFS. What is shown of the training of span links and of links that go down. -/

namespace Sys2Proof.Proofs

open Machine

/-- Settles O32: training begins and ends by the lemmas of its rows, a link is lost by the state it is lost in. -/
theorem spanTrainingAndLinkDown : Obligations.SpanTrainingAndLinkDown := by
  intro s port sub n k b downed mayTrain trains
  have train {o : Out} (h : o = .next (startTraining s k)) : answers o trains := by
    have ht := startTraining_trains s port sub
    have hsub : getSub (startTraining s k) k = _ := ht.sub
    refine ⟨_, h, ?_, ?_, ?_, ?_, ?_, ht.mem, ht.regs⟩
    all_goals rw [hsub]
  refine ⟨?trained, fun h hdirect hroles hpen hst => train (execPenHolderWaitExpiry_trains h hdirect hroles hpen hst),
    fun h => train (execLinkUp_trains h), fun h hoff hrun => train (execRetrain_off_trains h hoff hrun), ?rest, ?hold,
    execDryTimeExpiry_blots⟩
  case trained =>
    intro ok reversed termFault inverted htrain mine good w
    refine ⟨?_, execTrainingComplete_fails htrain⟩
    rintro rfl hw hlanes
    let s1 := setSub (noteLanes s n mine termFault inverted reversed) k (trained b good)
    have hs1 : getSub s1 k = trained b good := getSub_setSub (ne_reset_of_linkUp rfl)
    obtain ⟨needReset, txStart, h⟩ := getSub_startShake false hs1 rfl
    have hports := startShake_ports s1 k false
    refine ⟨startShake s1 k false, execTrainingComplete_succeeds htrain hw hlanes, ?_⟩
    dsimp only
    rw [h, hports]
    exact ⟨rfl, rfl, rfl, rfl, rfl, rfl, rfl⟩
  case rest =>
    intro hup hplot
    have h := linkDown_reasons hup
    have hdown (reason : Nat) : linkDownOn s (subKey port.toNat sub.toNat) reason = _ := linkDownOn_rests reason hup hplot
    rw [hdown, hdown, hdown] at h
    exact h
  case hold =>
    intro hup hplot
    have h := linkDown_reasons hup
    have hdown (reason : Nat) : linkDownOn s (subKey port.toNat sub.toNat) reason = _ := linkDownOn_holds reason hup hplot
    rw [hdown, hdown, hdown] at h
    exact h

end Sys2Proof.Proofs
end

section
/-! PROOFS. The handshake of a span link: its exchange completes, and the sub-port settles (R290, R291). -/

namespace Sys2Proof.Machine

variable {s : State} {k : Nat} {b : SubSt} {m : HandshakeMsg}

/-! ### Acknowledgements (R301) -/

/-- An acknowledgement within the replay buffer passes its first grains. -/
theorem ackTo_within {ack : BitVec 32} (h : seqDist b.txAcked ack ≤ b.replay.length) :
    ackTo b ack = { b with
      replay := b.replay.drop (seqDist b.txAcked ack), txAcked := ack, replayPos := b.replayPos - seqDist b.txAcked ack } := by
  unfold ackTo
  generalize seqDist b.txAcked ack = n at h ⊢
  exact if_pos h

theorem ackTo_linkUp (b : SubSt) (ack : BitVec 32) : (ackTo b ack).linkUp = b.linkUp := by
  unfold ackTo
  generalize seqDist b.txAcked ack = n
  extract_lets
  split <;> rfl

/-- A sub-port that replays all but the first `n` grains of its buffer, which its partner has acknowledged. -/
def replayingFrom (b : SubSt) (ack : BitVec 32) (n : Nat) : SubSt :=
  { b with replay := b.replay.drop n, txAcked := ack, replaying := !(b.replay.drop n).isEmpty, replayPos := 0 }

theorem startReplay_ackTo_within {ack : BitVec 32} (h : seqDist b.txAcked ack ≤ b.replay.length) :
    startReplay (ackTo b ack) = replayingFrom b ack (seqDist b.txAcked ack) := by
  rw [ackTo_within h]
  rfl

theorem startReplay_linkUp (b : SubSt) : (startReplay b).linkUp = b.linkUp := rfl

/-! ### The exchange (R290) -/

theorem handshakeOn_wrongMode (hup : (getSub s k).linkUp = true) (hmode : m.mode.toNat ≠ subCfg (getSub s k) 1 0) :
    handshakeOn s k m = logEv s (spanEv s 2 k (BitVec.ofNat 64 m.mode.toNat)) :=
  (if_neg (by simp [hup])).trans (if_pos hmode)

/-- What a HANDSHAKE with ACK says of the partner is kept, and that this end's own was seen. -/
def acknowledged (b : SubSt) (m : HandshakeMsg) : SubSt := { notePartner b m with acked := true }

/-- A HANDSHAKE with ACK whose SEQ_RESET is what this end needs completes the exchange under way. -/
theorem handshakeOn_completes (hb : getSub s k = b) (hup : b.linkUp = true) (hshake : b.shaking = true)
    (hmode : m.mode.toNat = subCfg b 1 0) (hack : tb m.flags.toNat 1 = true) (hreset : tb m.flags.toNat 0 = b.needReset)
    (hfirst : b.partnerReset = false) : handshakeOn s k m = finishShake (setSub s k (acknowledged b m)) k := by
  have hmet : (notePartner b m).partnerReset = b.needReset := by
    show (b.partnerReset || tb m.flags.toNat 0) = b.needReset
    rw [hfirst, hreset, Bool.false_or]
  unfold handshakeOn
  extract_lets p s1 c d s2 e
  have hp : p = b := hb
  have hs1 : s1 = setSub s k (notePartner b m) := by
    unfold s1
    rw [hp, if_pos hshake, modSub, hb]
  have hc : c = notePartner b m := by
    unfold c
    rw [hs1]
    exact getSub_setSub (ne_reset_of_linkUp hup)
  have hs2 : s2 = setSub s k (acknowledged b m) := by
    have hsame : ¬ (c.partnerReset && !c.needReset) = true := by
      rw [hc, hmet]
      show ¬ (b.needReset && !b.needReset) = true
      simp
    unfold s2
    rw [if_neg hsame, hs1, modSub_setSub (b := notePartner b m) hup (by exact hup), hack, Bool.or_true]
    rfl
  have he : e = acknowledged b m := by
    unfold e
    rw [hs2]
    exact getSub_setSub (ne_reset_of_linkUp hup)
  have hgo : (e.acked && (!e.needReset || e.partnerReset)) = true := by
    rw [he]
    show (!b.needReset || (notePartner b m).partnerReset) = true
    rw [hmet, Bool.not_or_self]
  rw [hp, if_neg (by simp [hup]), if_neg (not_not.mpr hmode), if_neg (by simp [hshake]), if_pos hgo, hs2]

/-- A sub-port whose exchange completes: the roles are known, and the pen is with the lower device id. -/
def exchanged (s : State) (b : SubSt) : SubSt :=
  { b with
    shaking := false, needReset := false, rolesKnown := true, pen := decide (s.boot.deviceId.toNat < b.partnerId.toNat) }

/-- A sub-port whose span starts afresh: both sequences at what the ends have announced, with nothing sent or owed (R290, R299). -/
def startedAfresh (b : SubSt) : SubSt :=
  { b with
    txNext := b.txStart, txAcked := b.txStart, rxExpect := b.partnerTxStart, replay := [], replaying := false, replayPos := 0
    out := [0, 0, 0, 0], last := [0, 0, 0, 0], freed := [0, 0, 0, 0], credits := [], granted := [], drained := [] }

theorem finishShake_afresh (hup : b.linkUp = true) (hneed : b.needReset = true) :
    finishShake (setSub s k b) k = settle (setSub s k (startedAfresh (exchanged s b))) k false := by
  unfold finishShake
  rw [getSub_setSub (ne_reset_of_linkUp hup), modSub_setSub hup (by simp [hneed, hup])]
  simp only [hneed, if_true, Bool.not_true]
  rfl

theorem finishShake_goesOn (hup : b.linkUp = true) (hneed : b.needReset = false) :
    finishShake (setSub s k b) k = settle (setSub s k (exchanged s b)) k true := by
  unfold finishShake
  rw [getSub_setSub (ne_reset_of_linkUp hup), modSub_setSub hup (by simp [hneed, hup])]
  simp only [hneed, Bool.false_eq_true, if_false, Bool.not_false]
  rfl

/-! ### The state after the exchange (R291, R294) -/

/-- A sub-port that is UP outside a plot. -/
def upOutside (b : SubSt) : SubSt := { b with state := .up, holding := false }

/-- A sub-port that is in PLOT, its hold and its blot over. -/
def inPlot (b : SubSt) : SubSt := { b with state := .plot, holding := false, blotted := false }

/-- With no plot open the sub-port is UP. -/
theorem settle_up {goesOn : Bool} (hup : b.linkUp = true) (hfenced : b.fenced = false) (hopen : s.sec.isOpen = false) :
    settle (setSub s k b) k goesOn = setSub s k (upOutside b) := by
  have hclosed : (if (setSub s k b).sec.isOpen then topoFor (setSub s k b) k else none) = none := if_neg (by exact ne_true_of_eq_false hopen)
  unfold settle
  rw [getSub_setSub (ne_reset_of_linkUp hup), hclosed]
  dsimp only
  rw [if_neg (ne_true_of_eq_false hfenced)]
  exact setSub_setSub (ne_reset_of_linkUp hup) (ne_reset_of_linkUp hup)

theorem tryOpen_of_no_opener (h : s.mbox.opener = none) : tryOpen s = s := by
  unfold tryOpen
  rw [h]

/-- With no OPEN_PLOT waiting, a sub-port that enters PLOT is all that changes. -/
theorem tryOpen_inPlot {c : SubSt} (hb : b.linkUp = true) (hc : c.linkUp = true) (hopener : s.mbox.opener = none) :
    tryOpen (setSub (setSub s k b) k (inPlot c)) = setSub s k (inPlot c) := by
  rw [setSub_setSub (c := inPlot c) (ne_reset_of_linkUp hb) (ne_reset_of_linkUp hc), tryOpen_of_no_opener (by exact hopener)]

/-- A sub-port that neither holds nor has blotted enters PLOT, and no more than an OPEN_PLOT can follow. -/
theorem enterPlot_quiet (hhold : (getSub s k).holding = false) (hblot : (getSub s k).blotted = false) :
    enterPlot s k true = tryOpen (setSub s k (inPlot (startReplay (ackTo (getSub s k) (getSub s k).partnerRx)))) := by
  unfold enterPlot
  extract_lets p c s1 s2 s3
  have hs2 : s2 = s1 := if_neg (by rw [hhold]; decide)
  have hs3 : s3 = s2 := if_neg (by rw [hblot, Bool.false_and]; decide)
  rw [hs3, hs2]
  unfold s1 c
  rw [if_pos rfl]
  rfl

/-- A span that goes on, neither held nor blotted, enters PLOT and replays what its partner has not acknowledged. -/
theorem enterPlot_replays (hup : b.linkUp = true) (hhold : b.holding = false) (hblot : b.blotted = false) (hopener : s.mbox.opener = none) :
    enterPlot (setSub s k b) k true = setSub s k (inPlot (startReplay (ackTo b b.partnerRx))) := by
  have hget : getSub (setSub s k b) k = b := getSub_setSub (ne_reset_of_linkUp hup)
  have hup' : (startReplay (ackTo b b.partnerRx)).linkUp = true := by rw [startReplay_linkUp, ackTo_linkUp, hup]
  rw [enterPlot_quiet (by rw [hget, hhold]) (by rw [hget, hblot]), hget]
  exact tryOpen_inPlot hup hup' hopener

/-- In an open plot whose manifest names the partner, the sub-port enters PLOT. -/
theorem settle_plot {e : TopoEnt} {goesOn : Bool} (hup : b.linkUp = true) (hfenced : b.fenced = false) (hopen : s.sec.isOpen = true)
    (htopo : topoFor s k = some e) (hpartner : partnerMatches s b e = true) :
    settle (setSub s k b) k goesOn = enterPlot (setSub s k b) k goesOn := by
  have hnamed : (if (setSub s k b).sec.isOpen then topoFor (setSub s k b) k else none) = some e := (if_pos (by exact hopen)).trans htopo
  unfold settle
  rw [getSub_setSub (ne_reset_of_linkUp hup), hnamed]
  dsimp only
  rw [if_neg (ne_true_of_eq_false hfenced)]
  exact if_pos hpartner

theorem execHandshakeTimer_resends {port : BitVec 6} {sub : BitVec 3} (hshake : (getSub s (subKey port.toNat sub.toNat)).shaking = true)
    (hup : (getSub s (subKey port.toNat sub.toNat)).linkUp = true) :
    execHandshakeTimer port sub s = .next (sendHandshake s (subKey port.toNat sub.toNat)) :=
  congrArg Host.Outcome.next (if_pos (by simp [hshake, hup]))

end Sys2Proof.Machine
end

section
/-! PROOFS. What is shown of handshakes. -/

namespace Sys2Proof.Proofs

open Machine

/-- Settles O33: the exchange completes afresh or goes on, and the sub-port settles UP, or in PLOT with its replay. -/
theorem spanHandshakes : Obligations.SpanHandshakes := by
  intro s port sub m k b
  have row {t : State} (h : handshakeOn s k m = t) : exec (.handshake port sub m) s = .next t := congrArg Host.Outcome.next h
  refine ⟨fun hup hmode => row (handshakeOn_wrongMode hup hmode), ?up, ?plot, ?timer⟩
  case up =>
    intro hup hshake hmode hack hfenced hopen hreset hfirst
    have hdone := handshakeOn_completes rfl hup hshake hmode hack hreset hfirst
    rcases hneed : b.needReset
    · have hgoes := finishShake_goesOn (s := s) (k := k) (b := acknowledged b m) hup hneed
      have hsettle := settle_up (s := s) (k := k) (b := exchanged s (acknowledged b m)) (goesOn := true) hup hfenced hopen
      refine ⟨_, row (hdone.trans (hgoes.trans hsettle)), ?_⟩
      dsimp only
      rw [getSub_setSub (b := upOutside (exchanged s (acknowledged b m))) (ne_reset_of_linkUp hup)]
      exact ⟨rfl, rfl, rfl, rfl, rfl, rfl, rfl, nofun, fun _ => ⟨rfl, rfl, rfl, rfl⟩⟩
    · have hfresh := finishShake_afresh (s := s) (k := k) (b := acknowledged b m) hup hneed
      have hsettle := settle_up (s := s) (k := k) (b := startedAfresh (exchanged s (acknowledged b m))) (goesOn := false) hup hfenced hopen
      refine ⟨_, row (hdone.trans (hfresh.trans hsettle)), ?_⟩
      dsimp only
      rw [getSub_setSub (b := upOutside (startedAfresh (exchanged s (acknowledged b m)))) (ne_reset_of_linkUp hup)]
      exact ⟨rfl, rfl, rfl, rfl, rfl, rfl, rfl, fun _ => ⟨rfl, if_pos (hreset.trans hneed), rfl⟩, nofun⟩
  case plot =>
    intro hup hshake hmode hack hfenced hopen hflag hneed e htopo hfirst hid hport hsub hplot hopener hhold hblot hwithin
    have hdone := handshakeOn_completes rfl hup hshake hmode hack (hflag.trans hneed.symm) hfirst
    have hgoes := finishShake_goesOn (s := s) (k := k) (b := acknowledged b m) hup hneed
    have hpartner : partnerMatches s (exchanged s (acknowledged b m)) e = true := by
      simp [partnerMatches, exchanged, acknowledged, notePartner, hid, hport, hsub, hplot]
    have hsettle := settle_plot (k := k) (b := exchanged s (acknowledged b m)) (goesOn := true) hup hfenced hopen htopo hpartner
    have henter := enterPlot_replays (k := k) (b := exchanged s (acknowledged b m)) hup hhold hblot hopener
    have hrx : (exchanged s (acknowledged b m)).partnerRx = m.rxExpect := rfl
    have hreplay := startReplay_ackTo_within (b := exchanged s (acknowledged b m)) hwithin
    rw [hrx, hreplay] at henter
    refine ⟨_, row (hdone.trans (hgoes.trans (hsettle.trans henter))), ?_⟩
    dsimp only
    rw [getSub_setSub (ne_reset_of_linkUp (by exact hup))]
    exact ⟨rfl, rfl, rfl, rfl, rfl, rfl, rfl⟩
  case timer =>
    intro hshake hup
    obtain ⟨f, hget, hbody, hflags, -⟩ := getSub_sendFrame s k true [linkGrain 7 (ownHandshake s k)]
    exact ⟨_, execHandshakeTimer_resends hshake hup, f, congrArg SubSt.lastTx hget, hflags, hbody⟩

end Sys2Proof.Proofs
end

section
/-! PROOFS. Narrowing and widening of a direct link (R288, R289, R316). -/

namespace Sys2Proof.Machine

variable {s : State} {k : Nat} {b c : SubSt} {port : BitVec 6} {sub : BitVec 3}

theorem linkUp_of_canNarrow (h : canNarrow b = true) : b.linkUp = true := by
  simp only [canNarrow, Bool.and_eq_true] at h
  exact h.1.1.1

/-! ### A link operation begins -/

/-- `c` is `b` with operation `op` under way on `w` lanes, and the masks of lost lanes as they were. -/
structure LanesBegun (b : SubSt) (lanes : BitVec 8) (w : Nat) (op : BitVec 32) (c : SubSt) : Prop where
  narrowing : c.narrowing = true
  realigned : c.realigned = false
  lanes : c.lanes = lanes
  width : c.width = BitVec.ofNat 4 w
  opNum : c.opNum = op
  badLanes : c.badLanes = b.badLanes
  partnerBad : c.partnerBad = b.partnerBad
  linkUp : c.linkUp = b.linkUp

theorem beginLanes_begins {lanes : BitVec 8} {w : Nat} {op : BitVec 32} {linkOp : BitVec 8} (hup : (getSub s k).linkUp = true) :
    LanesBegun (getSub s k) lanes w op (getSub (beginLanes s k lanes w op linkOp) k) := by
  unfold beginLanes
  extract_lets narrower s1
  have h1 : getSub s1 k = _ := getSub_setSub (ne_reset_of_linkUp hup)
  split
  · obtain ⟨q0, q2, h⟩ := getSub_logEv s1 (spanEv s 4 k (BitVec.ofNat 64 lanes.toNat)) k
    rw [h, h1]
    exact ⟨rfl, rfl, rfl, rfl, rfl, rfl, rfl, rfl⟩
  · rw [h1]
    exact ⟨rfl, rfl, rfl, rfl, rfl, rfl, rfl, rfl⟩

theorem queueLink_setSub {op : Nat} {mask width : BitVec 8} {opNum rx : BitVec 32} (hup : b.linkUp = true) :
    queueLink (setSub s k b) k op mask width opNum rx = setSub s k { b with
      qLink := b.qLink ++ [linkGrain 8 ([BitVec.ofNat 8 op, mask, width, 0] ++ bytesOf 4 opNum ++ bytesOf 4 rx)] } := by
  unfold queueLink
  exact modSub_setSub hup (by exact hup)

theorem LanesBegun.queueLink {lanes mask width : BitVec 8} {w o : Nat} {op opNum rx : BitVec 32} {t : State}
    (h : LanesBegun b lanes w op (getSub t k)) (hup : b.linkUp = true) :
    LanesBegun b lanes w op (getSub (queueLink t k o mask width opNum rx) k) := by
  have hget : getSub (Machine.queueLink t k o mask width opNum rx) k = _ := getSub_setSub (ne_reset_of_linkUp (h.linkUp.trans hup))
  rw [hget]
  exact ⟨h.narrowing, h.realigned, h.lanes, h.width, h.opNum, h.badLanes, h.partnerBad, h.linkUp⟩

/-- The pen-holder begins the next operation on the lowest lanes that are good at both ends. -/
theorem penLanes_begins {cap : Nat} (hup : b.linkUp = true) (hw : widthFor cap (laneCount (goodBoth b)) ≠ 0) :
    LanesBegun b (lowLanes (goodBoth b) (widthFor cap (laneCount (goodBoth b)))) (widthFor cap (laneCount (goodBoth b))) (b.opNum + 1)
      (getSub (penLanes (setSub s k b) k cap) k) := by
  have hget : getSub (setSub s k b) k = b := getSub_setSub (ne_reset_of_linkUp hup)
  unfold penLanes
  rw [hget]
  dsimp only
  rw [if_neg hw]
  refine LanesBegun.queueLink ?_ hup
  have h := beginLanes_begins (s := setSub s k b) (k := k) (lanes := lowLanes (goodBoth b) (widthFor cap (laneCount (goodBoth b))))
    (w := widthFor cap (laneCount (goodBoth b))) (op := b.opNum + 1) (linkOp := 2) (by rw [hget, hup])
  rw [hget] at h
  exact h

/-- Outside a narrowing the pen-holder narrows to fewer lanes than it uses. -/
theorem penNarrow_idle (hup : b.linkUp = true) (hidle : b.narrowing = false) :
    penNarrow (setSub s k b) k = penLanes (setSub s k b) k (b.width.toNat - 1) := by
  unfold penNarrow
  rw [getSub_setSub (ne_reset_of_linkUp hup)]
  exact if_neg (ne_true_of_eq_false hidle)

/-! ### Lanes fail (R288) -/

theorem execLaneFault_pen {lanes : BitVec 8} (hb : getSub s (subKey port.toNat sub.toNat) = b) (hcan : canNarrow b = true)
    (hlanes : lanes &&& b.lanes ≠ 0) (hshare : shareOf b ≠ 8) (hidle : b.narrowing = false) (hpen : b.pen = true) :
    execLaneFault port sub lanes s = .next (penLanes
      (setSub s (subKey port.toNat sub.toNat) { b with badLanes := b.badLanes ||| lanes }) (subKey port.toNat sub.toNat) (b.width.toNat - 1)) := by
  have hup := linkUp_of_canNarrow hcan
  unfold execLaneFault
  dsimp only
  rw [hb, if_neg (by simpa [hup] using hlanes), if_neg (by simp [hcan, hshare]), if_pos hpen]
  exact congrArg Host.Outcome.next (penNarrow_idle hup hidle)

/-- The follower asks its pen-holder to narrow, until it is answered. -/
theorem execLaneFault_follower {lanes : BitVec 8} (hb : getSub s (subKey port.toNat sub.toNat) = b) (hcan : canNarrow b = true)
    (hlanes : lanes &&& b.lanes ≠ 0) (hshare : shareOf b ≠ 8) (hidle : b.narrowing = false) (hpen : b.pen = false) :
    execLaneFault port sub lanes s = .next (setSub s (subKey port.toNat sub.toNat) { b with
      badLanes := b.badLanes ||| lanes, linkOp := 1
      qLink := b.qLink ++ [linkGrain 8 ([1, b.badLanes ||| lanes, 0, 0] ++ bytesOf 4 (0 : BitVec 32) ++ bytesOf 4 (0 : BitVec 32))] }) := by
  have hup := linkUp_of_canNarrow hcan
  unfold execLaneFault
  dsimp only
  rw [hb, if_neg (by simpa [hup] using hlanes), if_neg (by simp [hcan, hshare]), if_neg (by simp [hpen]), if_neg (by simp [hidle]),
    modSub_setSub (by exact hup) (by exact hup), getSub_setSub (ne_reset_of_linkUp (by exact hup)), queueLink_setSub (by exact hup)]
  rfl

/-- A NARROW_REQ for a lane in use starts a narrowing at the pen-holder. -/
theorem narrowReqOn_pen {lanes : BitVec 8} (hb : getSub s k = b) (hcan : canNarrow b = true) (hlanes : lanes &&& b.lanes ≠ 0)
    (hshare : shareOf b ≠ 8) (hidle : b.narrowing = false) (hpen : b.pen = true) :
    narrowReqOn s k lanes = penLanes (setSub s k { b with partnerBad := b.partnerBad ||| lanes }) k (b.width.toNat - 1) := by
  unfold narrowReqOn
  rw [hb]
  extract_lets b' s1
  rw [if_neg (by simp [b', hcan, hpen]), if_neg (by simpa [b', hidle] using hlanes), if_neg hshare]
  exact penNarrow_idle (linkUp_of_canNarrow hcan) hidle

theorem narrowOn_follower {lanes width : BitVec 8} {op : BitVec 32} (hcan : canNarrow (getSub s k) = true)
    (hpen : (getSub s k).pen = false) (hop : op ≠ (getSub s k).opNum) :
    narrowOn s k lanes width op = beginLanes s k lanes width.toNat op 0 :=
  (if_neg (by simp [hcan, hpen])).trans (if_neg hop)

/-! ### Both ends align (R288) -/

/-- A sub-port whose partner has aligned. -/
def partnerAligned (b : SubSt) (rx : BitVec 32) : SubSt :=
  { b with partnerDone := true, partnerRx := rx, linkOp := if b.linkOp = 2 then 0 else b.linkOp }

theorem narrowDoneOn_noted {rx : BitVec 32} (hb : getSub s k = b) (hcan : canNarrow b = true) (hnarrow : b.narrowing = true) :
    narrowDoneOn s k b.opNum rx =
      if b.realigned then resumeLanes (setSub s k (partnerAligned b rx)) k else setSub s k (partnerAligned b rx) := by
  unfold narrowDoneOn
  rw [hb]
  exact if_neg (by simp [hcan, hnarrow])

/-- A sub-port whose link operation is over. -/
def lanesDone (b : SubSt) : SubSt :=
  { b with narrowing := false, realigned := false, partnerDone := false, linkOp := if b.linkOp = 2 then 0 else b.linkOp }

/-- A follower in PLOT that goes on after a link operation replays what its partner has not received. -/
theorem resumeLanes_replays (hup : b.linkUp = true) (hplot : b.state = .plot) (hpen : b.pen = false)
    (hwithin : seqDist b.txAcked b.partnerRx ≤ b.replay.length) :
    resumeLanes (setSub s k b) k = setSub s k (replayingFrom (lanesDone b) b.partnerRx (seqDist b.txAcked b.partnerRx)) := by
  unfold resumeLanes
  extract_lets s1 b'
  have hs1 : s1 = setSub s k (replayingFrom (lanesDone b) b.partnerRx (seqDist b.txAcked b.partnerRx)) :=
    modSub_setSub_of_eq ((if_pos hplot).trans (startReplay_ackTo_within (b := lanesDone b) hwithin)) hup (by exact hup)
  have hpen' : b'.pen = false := by
    have hb' : b' = getSub (setSub s k (replayingFrom (lanesDone b) b.partnerRx (seqDist b.txAcked b.partnerRx))) k := congrArg (getSub · k) hs1
    rw [hb', getSub_setSub (ne_reset_of_linkUp (by exact hup))]
    exact hpen
  rw [if_neg (by rw [hpen', Bool.false_and]; decide), hs1]

/-! ### This end aligns (R288) -/

/-- The end that aligns first tells its partner. -/
theorem execRealignDone_tells (hb : getSub s (subKey port.toNat sub.toNat) = b) (hup : b.linkUp = true) (hnarrow : b.narrowing = true)
    (hreal : b.realigned = false) (hdone : b.partnerDone = false) :
    execRealignDone port sub true s = .next (setSub s (subKey port.toNat sub.toNat) { b with
      realigned := true
      qLink := b.qLink ++ [linkGrain 8 ([3, b.lanes, BitVec.ofNat 8 b.width.toNat, 0] ++ bytesOf 4 b.opNum ++ bytesOf 4 b.rxExpect)] }) := by
  unfold execRealignDone
  dsimp only
  rw [hb, if_neg (by simp [hnarrow, hreal]), if_neg (by decide), if_neg (by simp [hdone])]
  exact congrArg Host.Outcome.next (queueLink_setSub hup)

theorem execRealignDone_fails (hnarrow : (getSub s (subKey port.toNat sub.toNat)).narrowing = true)
    (hreal : (getSub s (subKey port.toNat sub.toNat)).realigned = false) : execRealignDone port sub false s = execLinkDown port sub s :=
  congrArg Host.Outcome.next ((if_neg (by simp [hnarrow, hreal])).trans (if_pos rfl))

/-! ### Widening (R289) -/

/-- The pen-holder widens over all lanes that training left good but those its partner names. -/
theorem penWiden_idle {mask : BitVec 8} (hb : getSub s k = b) (hcan : canNarrow b = true) (hidle : b.narrowing = false)
    (hpen : b.pen = true) : penWiden s k mask = penLanes (setSub s k { b with badLanes := 0, partnerBad := mask }) k 8 := by
  unfold penWiden
  rw [hb]
  exact if_pos (by simp [hcan, hidle, hpen])

theorem widenOn_pen {n u : Nat} (hrun : s.step.running = false) (hpen : (getSub s (subKey n u)).pen = true) :
    widenOn s n u = penWiden s (subKey n u) 0 :=
  (if_neg (ne_true_of_eq_false hrun)).trans (if_pos hpen)

/-- The follower asks its pen-holder to widen. -/
theorem widenOn_follower {n u : Nat} (hb : getSub s (subKey n u) = b) (hrun : s.step.running = false) (hcan : canNarrow b = true)
    (hpen : b.pen = false) : widenOn s n u = setSub s (subKey n u) { b with
      badLanes := 0, qLink := b.qLink ++ [linkGrain 8 ([5, 0, 0, 0] ++ bytesOf 4 (0 : BitVec 32) ++ bytesOf 4 (0 : BitVec 32))] } := by
  unfold widenOn
  dsimp only
  rw [hb]
  refine (if_neg (ne_true_of_eq_false hrun)).trans ((if_neg (ne_true_of_eq_false hpen)).trans ((if_pos hcan).trans ?_))
  exact queueLink_setSub (linkUp_of_canNarrow hcan)

/-! ### Link operations again (R288) -/

theorem execLinkOpRepeatTimer_request (h : (getSub s (subKey port.toNat sub.toNat)).linkOp = 1) :
    execLinkOpRepeatTimer port sub s = .next (queueLink s (subKey port.toNat sub.toNat) 1
      (getSub s (subKey port.toNat sub.toNat)).badLanes 0 0 0) := congrArg Host.Outcome.next (if_pos h)

theorem execLinkOpRepeatTimer_narrow (h : (getSub s (subKey port.toNat sub.toNat)).linkOp = 2) :
    execLinkOpRepeatTimer port sub s = .next (queueLink s (subKey port.toNat sub.toNat) 2
      (getSub s (subKey port.toNat sub.toNat)).lanes (BitVec.ofNat 8 (getSub s (subKey port.toNat sub.toNat)).width.toNat)
      (getSub s (subKey port.toNat sub.toNat)).opNum 0) :=
  congrArg Host.Outcome.next ((if_neg (by rw [h]; decide)).trans (if_pos h))

end Sys2Proof.Machine
end

section
/-! PROOFS. What is shown of the lanes of direct links. -/

namespace Sys2Proof.Proofs

open Machine

/-- Settles O34: each row is the lemma of its end of the link, the pen-holder's or the follower's, and of the phase of its operation. -/
theorem spanLaneOperations : Obligations.SpanLaneOperations := by
  intro s port sub _ k b hcan narrows
  have hup : b.linkUp = true := linkUp_of_canNarrow hcan
  refine ⟨?fails, ?narrow, ?done, ?align, ?widenReq, ?widen, ?refused, ?request, ?again⟩
  case fails =>
    intro lanes hlanes hshare hidle
    refine ⟨?_, fun hpen => execLaneFault_follower rfl hcan hlanes hshare hidle hpen, ?_⟩
    · intro hpen g w hw
      have h := penLanes_begins (s := s) (k := k) (b := { b with badLanes := b.badLanes ||| lanes }) hup hw
      exact ⟨_, execLaneFault_pen rfl hcan hlanes hshare hidle hpen, ⟨h.narrowing, h.lanes, h.width, h.opNum, h.realigned⟩, h.badLanes⟩
    · intro hpen g w hw
      have h := penLanes_begins (s := s) (k := k) (b := { b with partnerBad := b.partnerBad ||| lanes }) hup hw
      exact ⟨_, congrArg Host.Outcome.next (narrowReqOn_pen rfl hcan hlanes hshare hidle hpen),
        ⟨h.narrowing, h.lanes, h.width, h.opNum, h.realigned⟩, h.partnerBad⟩
  case narrow =>
    intro lanes width op hpen hop
    have h := beginLanes_begins (lanes := lanes) (w := width.toNat) (op := op) (linkOp := 0) hup
    exact ⟨_, congrArg Host.Outcome.next (narrowOn_follower hcan hpen hop), h.narrowing, h.lanes, h.width, h.opNum, h.realigned⟩
  case done =>
    intro rx hnarrow
    have hnoted := narrowDoneOn_noted (rx := rx) rfl hcan hnarrow
    refine ⟨fun hreal => congrArg Host.Outcome.next (hnoted.trans (if_neg (ne_true_of_eq_false hreal))), ?_⟩
    intro hreal hpen hplot hwithin
    have hresume := resumeLanes_replays (s := s) (k := k) (b := partnerAligned b rx) hup hplot hpen hwithin
    refine ⟨_, congrArg Host.Outcome.next (hnoted.trans ((if_pos hreal).trans hresume)), ?_⟩
    dsimp only
    rw [getSub_setSub (ne_reset_of_linkUp (by exact hup))]
    exact ⟨rfl, rfl, rfl, rfl, rfl⟩
  case align =>
    exact fun hnarrow hreal => ⟨execRealignDone_tells rfl hup hnarrow hreal, execRealignDone_fails hnarrow hreal⟩
  case widenReq =>
    intro lanes hidle hpen c w hw
    have h := penLanes_begins (s := s) (k := k) (b := c) hup hw
    exact ⟨_, congrArg Host.Outcome.next (penWiden_idle rfl hcan hidle hpen), h.narrowing, h.lanes, h.width, h.opNum, h.realigned⟩
  case widen =>
    exact fun hrun _ => ⟨fun hpen => congrArg Host.Outcome.next (widenOn_pen hrun hpen),
      fun hpen => congrArg Host.Outcome.next (widenOn_follower rfl hrun hcan hpen)⟩
  case refused =>
    exact fun hrun => ⟨congrArg Host.Outcome.next (if_pos hrun), congrArg Host.Outcome.next (if_pos hrun)⟩
  case request => exact execLinkOpRepeatTimer_request
  case again => exact execLinkOpRepeatTimer_narrow

end Sys2Proof.Proofs
end

section
/-! PROOFS. Frames that come and go on a sub-port, replays, and the timers of both (R295-R304, R311). -/

namespace Sys2Proof.Machine

variable {s : State} {k : Nat} {b : SubSt} {port : BitVec 6} {sub : BitVec 3} {f : SpanFrame}

/-! ### A frame comes (R295-R300) -/

theorem execSpanFrame_discards (hb : getSub s (subKey port.toNat sub.toNat) = b)
    (hbad : f.fcsOk = false ∨ f.version ≠ 1 ∨ f.etherType.toNat ≠ subCfg b 31 16 ∨ f.vlan ≠ vlanOf b) :
    execSpanFrame port sub f s = .next s := by
  unfold execSpanFrame
  dsimp only
  rw [hb]
  refine congrArg Host.Outcome.next (if_pos ?_)
  rcases hbad with h | h | h | h
  · simp [h]
  · rw [bne_iff_ne.mpr h, Bool.or_true]
  · simp [frameOurs, h]
  · simp [frameOurs, h]

/-- A sub-port that has taken ACK and FREED of a frame's header. -/
def headerTaken (b : SubSt) (f : SpanFrame) : SubSt := freedOn (ackTo b f.ack) f.freed

theorem freedOn_linkUp (b : SubSt) (freed : BitVec 64) : (freedOn b freed).linkUp = b.linkUp := rfl

theorem headerTaken_linkUp (b : SubSt) (f : SpanFrame) : (headerTaken b f).linkUp = b.linkUp := by
  rw [headerTaken, freedOn_linkUp, ackTo_linkUp]

/-- A sound frame of this sub-port, outside a handshake and a hold and from the right partner, is taken: its header, then its grains. -/
theorem execSpanFrame_takes (hb : getSub s (subKey port.toNat sub.toNat) = b) (hup : b.linkUp = true) (hshake : b.shaking = false)
    (hfcs : f.fcsOk = true) (hversion : f.version = 1) (htype : f.etherType.toNat = subCfg b 31 16) (hvlan : f.vlan = vlanOf b)
    (hhold : b.holding = false) (hwired : b.state ≠ .miswired) :
    execSpanFrame port sub f s = .next (grainsOn (setSub s (subKey port.toNat sub.toNat) (headerTaken b f)) (subKey port.toNat sub.toNat)
      (tb f.flags.toNat 0) f.srcMac (f.body.take f.grains.toNat)) := by
  have hours : frameOurs b f = true := by simp [frameOurs, htype, hvlan]
  have hcounts : headerCounts b = true := by simp [headerCounts, hshake, hhold, hwired]
  unfold execSpanFrame
  dsimp only
  rw [hb, if_neg (by simp [hup, hfcs, hours, hversion]), if_pos hcounts]
  rfl

/-- A grain whose check fails is dropped and counted. -/
theorem grainsOn_one_drops {mac : BitVec 48} {g : Grain} (hup : b.linkUp = true) (hcrc : g.crc ≠ grainCrc b.rxExpect g) :
    grainsOn (setSub s k b) k false mac [g] = setSub s k { b with crcDrops := b.crcDrops + 1 } := by
  have hget : getSub (setSub s k b) k = b := getSub_setSub (ne_reset_of_linkUp hup)
  simp only [grainsOn, hget, Bool.false_eq_true, if_false]
  rw [if_pos hcrc]
  exact modSub_setSub hup (by exact hup)

/-- A grain whose check is right for the sequence number expected is accepted. -/
theorem grainsOn_one_accepts {mac : BitVec 48} {g : Grain} (hup : b.linkUp = true) (hcrc : g.crc = grainCrc b.rxExpect g) :
    grainsOn (setSub s k b) k false mac [g] = grainOn (setSub s k { b with rxExpect := seqNext b.rxExpect, ackOwed := true }) k g := by
  have hget : getSub (setSub s k b) k = b := getSub_setSub (ne_reset_of_linkUp hup)
  have hnext : modSub (setSub s k b) k (fun b => { b with rxExpect := seqNext b.rxExpect, ackOwed := true }) =
      setSub s k { b with rxExpect := seqNext b.rxExpect, ackOwed := true } := modSub_setSub hup (by exact hup)
  simp only [grainsOn, hget, Bool.false_eq_true, if_false, hnext]
  rw [if_neg (not_not.mpr hcrc)]

/-! ### A replay (R301) -/

/-- A sub-port that has sent the next `n` grains of its replay buffer again. -/
def resent (b : SubSt) (n : Nat) : SubSt := { b with replayPos := b.replayPos + n }

/-- During a replay with no link grain to send, the next unacknowledged grains go out as they are. -/
theorem execFrameSend_replays (hb : getSub s (subKey port.toNat sub.toNat) = b) (hup : b.linkUp = true) (hshake : b.shaking = false)
    (hnarrow : b.narrowing = false) (hreplay : b.replaying = true) (hlink : b.qLink = []) (hleft : b.replayPos < b.replay.length)
    (hmax : 1 ≤ grainsMax b) :
    let gs := ((b.replay.drop b.replayPos).take (grainsMax b)).map Prod.snd
    execFrameSend port sub s =
      .next (sendFrame (setSub s (subKey port.toNat sub.toNat) (resent b gs.length)) (subKey port.toNat sub.toNat) false gs) := by
  intro gs
  have hgs : gs ≠ [] := by
    apply List.ne_nil_of_length_pos
    simp only [gs, List.length_map, List.length_take, List.length_drop]
    omega
  unfold execFrameSend
  dsimp only
  rw [hb]
  refine congrArg Host.Outcome.next ?_
  rw [if_neg (by simp [hup, hshake]), if_neg (ne_true_of_eq_false hnarrow), if_pos hreplay, if_neg (not_not.mpr hlink)]
  exact if_neg hgs

theorem execReplayCaughtUp_ends (hreplay : (getSub s (subKey port.toNat sub.toNat)).replaying = true)
    (hall : (getSub s (subKey port.toNat sub.toNat)).replay.length ≤ (getSub s (subKey port.toNat sub.toNat)).replayPos) :
    execReplayCaughtUp port sub s = .next (setSub s (subKey port.toNat sub.toNat)
      { getSub s (subKey port.toNat sub.toNat) with replaying := false, replayPos := 0 }) :=
  congrArg Host.Outcome.next (if_pos (by simp [hreplay, hall]))

/-! ### Timers (R301, R304, R311) -/

theorem execKeepaliveTimer_sends (hmay : mayTransmit (getSub s (subKey port.toNat sub.toNat)) = true) :
    execKeepaliveTimer port sub s = .next (sendFrame s (subKey port.toNat sub.toNat) false []) := congrArg Host.Outcome.next (if_pos hmay)

/-- An acknowledgement that is owed goes out as a frame of the keepalive does. -/
theorem execAckTimer_sends (hmay : mayTransmit (getSub s (subKey port.toNat sub.toNat)) = true)
    (howed : (getSub s (subKey port.toNat sub.toNat)).ackOwed = true) : execAckTimer port sub s = execKeepaliveTimer port sub s := by
  rw [execKeepaliveTimer_sends hmay]
  exact congrArg Host.Outcome.next (if_pos (by simp [hmay, howed]))

theorem execReplayTimer_replays (hb : getSub s (subKey port.toNat sub.toNat) = b) (hmay : mayTransmit b = true) (hplot : b.state = .plot)
    (hsent : b.replay ≠ []) :
    execReplayTimer port sub s = .next (setSub s (subKey port.toNat sub.toNat)
      { b with replaying := true, replayPos := 0, replays := b.replays + 1 }) := by
  have hsome : b.replay.isEmpty = false := by simpa using hsent
  unfold execReplayTimer
  dsimp only
  rw [hb, if_pos (by simp [hmay, hplot, hsome])]
  simp only [startReplay, hsome, Bool.not_false]

theorem execFlushTimer_flushes {chan : BitVec 12} {ch : Nat} (hout : outSpanChan s (subKey port.toNat sub.toNat) chan.toNat = some ch)
    (hdrops : getChan s ch ≠ []) : execFlushTimer port sub chan s = .next (flushOut s ch (subKey port.toNat sub.toNat) chan.toNat) := by
  unfold execFlushTimer
  dsimp only
  rw [hout]
  exact congrArg Host.Outcome.next (if_neg hdrops)

end Sys2Proof.Machine
end

section
/-! PROOFS. What is shown of span frames and their timers. -/

namespace Sys2Proof.Proofs

open Machine

/-- Settles O37: a frame is discarded or taken whole, what is sent shows in the frame last sent, and each timer does its one thing. -/
theorem spanFramesAndTimers : Obligations.SpanFramesAndTimers := by
  intro s port sub _ k b
  refine ⟨fun f hbad => execSpanFrame_discards rfl hbad, ?taken, ?replay, ?timers, execReplayCaughtUp_ends,
    fun sc ch hout hdrops => execFlushTimer_flushes hout hdrops⟩
  case taken =>
    intro f hup hshake hfcs hversion htype hvlan hhold hwired c
    have htakes := execSpanFrame_takes rfl hup hshake hfcs hversion htype hvlan hhold hwired
    have hcup : (headerTaken b f).linkUp = true := (headerTaken_linkUp b f).trans hup
    refine ⟨?_, ?_⟩
    · intro hnone
      rw [hnone, List.take_nil] at htakes
      exact htakes
    · intro g hone hcount hdata
      rw [hone, hdata, List.take_of_length_le hcount] at htakes
      exact ⟨fun hcrc => htakes.trans (congrArg Host.Outcome.next (grainsOn_one_drops hcup hcrc)),
        fun hcrc => htakes.trans (congrArg Host.Outcome.next (grainsOn_one_accepts hcup hcrc))⟩
  case replay =>
    intro hup hshake hnarrow hreplay hlink hleft hmax
    let gs := ((b.replay.drop b.replayPos).take (grainsMax b)).map Prod.snd
    have hsend : execFrameSend port sub s = .next (sendFrame (setSub s k (resent b gs.length)) k false gs) :=
      execFrameSend_replays rfl hup hshake hnarrow hreplay hlink hleft hmax
    obtain ⟨f, hget, hbody, -, hack⟩ := getSub_sendFrame (setSub s k (resent b gs.length)) k false gs
    rw [getSub_setSub (b := resent b gs.length) (ne_reset_of_linkUp hup)] at hget hack
    refine ⟨_, hsend, f, congrArg SubSt.lastTx hget, hbody, hack, ?_, ?_⟩
    · rw [hget]
      rfl
    · rw [hget, hbody]
      rfl
  case timers =>
    intro hmay hplot
    refine ⟨execAckTimer_sends hmay, ?_, fun hsent => execReplayTimer_replays rfl hmay hplot hsent⟩
    obtain ⟨f, hget, hbody, -, hack⟩ := getSub_sendFrame s k false []
    exact ⟨_, execKeepaliveTimer_sends hmay, congrArg SubSt.ackOwed hget, f, congrArg SubSt.lastTx hget, hbody, hack⟩

end Sys2Proof.Proofs
end

section
/-! PROOFS. The rows of the memory controllers: stack rates, faults and rates of a DDR channel, patrol (R320, R325, R327, R330, R331). -/

namespace Sys2Proof.Machine

set_option Elab.async false

variable {s : State} {k m : BitVec 3} {c : BitVec 8} {r : BitVec 2} {a : DevAddr}

/-! ### Stacks (R320) -/

theorem execStackStepDown_steps (hhot : 95 ≤ c.toNat) (hfull : (getStack s k.toNat).steppedDown = false) :
    execStackStepDown k c s = .next (stackRate s k.toNat c true) :=
  congrArg Host.Outcome.next (if_pos ⟨hhot, hfull⟩)

theorem execStackStepUp_steps (hcool : c.toNat ≤ 85) (hdown : (getStack s k.toNat).steppedDown = true) :
    execStackStepUp k c s = .next (stackRate s k.toNat c false) :=
  congrArg Host.Outcome.next (if_pos ⟨hcool, hdown⟩)

/-! ### DDR channels (R325, R327) -/

/-- With no step running, a channel whose retrain failed is disabled at once (R325). -/
theorem execDdrRetrain_disables (hactive : (getDdr s m.toNat).state = 2) (hidle : s.step.running = false) :
    execDdrRetrain m false s = .next (disableDdr s m.toNat causeRetrain) := by
  simp [execDdrRetrain, retrainFailed, hactive, hidle]

/-- Code 3 is the one RATE_REQ code that names no rate. -/
theorem three_le_rateReq_iff : 3 ≤ r.toNat ↔ r = 3 := by
  constructor <;> intro h <;> bv_omega

theorem rateOf_rateReq (r : BitVec 2) : rateOf r.toNat = if r = 0 then 8800 else if r = 1 then 8000 else 7200 := by
  revert r
  decide

/-- A rate in MT/s fits its field of DDR[m].STATUS (R333). -/
theorem toNat_eq_rateOf_iff {v : BitVec 14} {n : Nat} : v.toNat = rateOf n ↔ v = BitVec.ofNat 14 (rateOf n) := by
  have hlt : rateOf n < 2 ^ 14 := by
    unfold rateOf
    split_ifs <;> omega
  rw [← BitVec.toNat_inj, BitVec.toNat_ofNat, Nat.mod_eq_of_lt hlt]

/-- A code that names no rate, or a rate that did not pass training, is refused and logged (R327). -/
theorem execRateReq_refuses (hbad : r = 3 ∨ tb (getDdr s m.toNat).trains.toNat r.toNat = false) :
    execRateReq m r s = .next (logEv s
      { cls := clsMemory, cause := 7, loc := BitVec.ofNat 64 m.toNat, a0 := BitVec.ofNat 64 r.toNat, die := m.toNat / 2 }) :=
  congrArg Host.Outcome.next (if_pos (hbad.imp_left three_le_rateReq_iff.mpr))

/-- A trained rate other than the present one of an ACTIVE channel is written and put in force by a region stop (R327). -/
theorem execRateReq_changes (hcode : r ≠ 3) (htrained : tb (getDdr s m.toNat).trains.toNat r.toNat = true)
    (hactive : (getDdr s m.toNat).state = 2) (hother : (getDdr s m.toNat).rateMts ≠ BitVec.ofNat 14 (rateOf r.toNat)) :
    execRateReq m r s = .next (modDdr (putField s (offDdrCtl m.toNat) 33 32 r.toNat) m.toNat fun x =>
      { x with rateMts := BitVec.ofNat 14 (rateOf r.toNat), stopping := true }) := by
  have htaken : ¬(3 ≤ r.toNat ∨ tb (getDdr s m.toNat).trains.toNat r.toNat = false) :=
    not_or.mpr ⟨mt three_le_rateReq_iff.mp hcode, ne_false_of_eq_true htrained⟩
  have hchanges : ¬((getDdr s m.toNat).state ≠ 2 ∨ (getDdr s m.toNat).rateMts.toNat = rateOf r.toNat) := by
    simp [toNat_eq_rateOf_iff, hactive, hother]
  exact congrArg Host.Outcome.next ((if_neg htaken).trans (if_neg hchanges))

/-! ### Patrol (R330, R331) -/

theorem execPatrolRead_clean (hon : patrolHours s a.toNat ≠ 0) : execPatrolRead a .clean s = .next s :=
  congrArg Host.Outcome.next (if_neg hon)

theorem execPatrolRead_corrected (hon : patrolHours s a.toNat ≠ 0) :
    execPatrolRead a .corrected s = .next (readCorrected s a.toNat) :=
  congrArg Host.Outcome.next (if_neg hon)

theorem execPatrolRead_uncorrectable (hon : patrolHours s a.toNat ≠ 0) :
    execPatrolRead a .uncorrectable s = .next (noteUncorrectable s a.toNat 7 0) :=
  congrArg Host.Outcome.next (if_neg hon)

end Sys2Proof.Machine
end

section
/-! PROOFS. What is shown of the memory controllers. -/

namespace Sys2Proof.Proofs

open Machine

/-- Settles O38: each row of the memory controllers by the lemma of its effect, in the order of the rules. -/
theorem memoryControllers : Obligations.MemoryControllers := by
  intro s
  refine ⟨fun _ _ hhot hfull => execStackStepDown_steps hhot hfull, fun _ _ hcool hdown => execStackStepUp_steps hcool hdown,
    fun _ => rfl, fun _ => rfl, fun _ hactive hidle => execDdrRetrain_disables hactive hidle, ?rate,
    fun _ hon => ⟨execPatrolRead_clean hon, execPatrolRead_corrected hon, execPatrolRead_uncorrectable hon⟩⟩
  case rate =>
    intro m r d mts
    have hmts : rateOf r.toNat = mts := rateOf_rateReq r
    rw [← hmts]
    exact ⟨execRateReq_refuses, execRateReq_changes⟩

end Sys2Proof.Proofs
end

section
/-! PROOFS. What bytes spell, and what an entry of the mailbox spells: its fields, its CODE and its BODY (R3, R7, R340, R347-R353). -/

namespace Sys2Proof.Machine

set_option Elab.async false

/-! ### Words and their bytes -/

theorem leNat_lt : ∀ bs : Bytes, leNat bs < 256 ^ bs.length
  | [] => Nat.one_pos
  | b :: bs => by
    have hb := b.isLt
    have ih := leNat_lt bs
    simp only [leNat, List.length_cons, Nat.pow_succ]
    omega

theorem leNat_natLe : ∀ n v : Nat, leNat (natLe n v) = v % 256 ^ n
  | 0, v => (Nat.mod_one v).symm
  | n + 1, v => by
    rw [natLe, leNat, leNat_natLe n, Nat.pow_succ', Nat.mod_mul, BitVec.toNat_ofNat]

theorem natLe_leNat : ∀ bs : Bytes, natLe bs.length (leNat bs) = bs
  | [] => rfl
  | b :: bs => by
    have hb := b.isLt
    have hdiv : (b.toNat + 256 * leNat bs) / 256 = leNat bs := by omega
    have hmod : BitVec.ofNat 8 (b.toNat + 256 * leNat bs) = b := BitVec.eq_of_toNat_eq (by rw [BitVec.toNat_ofNat]; omega)
    rw [List.length_cons, leNat, natLe, hdiv, hmod, natLe_leNat bs]

@[simp] theorem length_bytesOf (n : Nat) {w : Nat} (v : BitVec w) : (bytesOf n v).length = n := length_natLe n v.toNat

theorem bytesOf_byte (b : Byte) : bytesOf 1 b = [b] := by simp [bytesOf, natLe]

theorem two_pow_eight_mul (n : Nat) : 2 ^ (8 * n) = 256 ^ n := Nat.pow_mul 2 8 n

theorem wordOf_bytesOf {n w : Nat} (hw : w = 8 * n) (v : BitVec w) : wordOf w (bytesOf n v) = v := by
  subst hw
  apply BitVec.eq_of_toNat_eq
  rw [wordOf, bytesOf, leNat_natLe, BitVec.toNat_ofNat, ← two_pow_eight_mul, Nat.mod_mod, Nat.mod_eq_of_lt v.isLt]

theorem bytesOf_wordOf {n : Nat} {bs : Bytes} (hn : bs.length = n) : bytesOf n (wordOf (8 * n) bs) = bs := by
  subst hn
  rw [bytesOf, wordOf, BitVec.toNat_ofNat, two_pow_eight_mul, Nat.mod_eq_of_lt (leNat_lt bs), natLe_leNat]

/-! ### Slices and fields -/

theorem slice_inside {bs : Bytes} {o n : Nat} (h : o + n ≤ bs.length) : slice bs o n = (bs.drop o).take n := by
  have hl : ((bs.drop o).take n).length = n := by rw [List.length_take, List.length_drop]; omega
  rw [slice, hl, Nat.sub_self, List.replicate_zero, List.append_nil]

theorem slice_whole {xs : Bytes} {n : Nat} (h : xs.length = n) : slice xs 0 n = xs := by
  rw [slice_inside (by omega), List.drop_zero, List.take_of_length_le (by omega)]

/-- A slice that begins behind the first run begins that far into the second. -/
theorem slice_skip {xs ys : Bytes} {o n : Nat} (h : xs.length ≤ o) : slice (xs ++ ys) o n = slice ys (o - xs.length) n := by
  rw [slice, slice, List.drop_append, List.drop_eq_nil_of_le h, List.nil_append]

theorem slice_front {xs ys : Bytes} {n : Nat} (h : xs.length = n) : slice (xs ++ ys) 0 n = xs := by
  subst h
  rw [slice_inside (by simp), List.drop_zero, List.take_left]

theorem fieldAt_skip {w n o : Nat} {xs ys : Bytes} (h : xs.length ≤ o) :
    fieldAt w (xs ++ ys) o n = fieldAt w ys (o - xs.length) n := congrArg (wordOf w) (slice_skip h)

theorem fieldAt_front {w n : Nat} {v : BitVec w} {ys : Bytes} (hw : w = 8 * n) : fieldAt w (bytesOf n v ++ ys) 0 n = v := by
  rw [fieldAt, slice_front (length_bytesOf n v), wordOf_bytesOf hw]

theorem fieldAt_byte {b : Byte} {ys : Bytes} : fieldAt 8 (b :: ys) 0 1 = b := by
  rw [fieldAt, slice_inside (by simp)]
  exact BitVec.eq_of_toNat_eq (by simp [wordOf, leNat])

theorem bytesOf_fieldAt {e : Bytes} {o n : Nat} (h : o + n ≤ e.length) : bytesOf n (fieldAt (8 * n) e o n) = (e.drop o).take n := by
  rw [fieldAt, slice_inside h, bytesOf_wordOf (by rw [List.length_take, List.length_drop]; omega)]

/-! ### The entry of a command (R340) -/

theorem length_cmdBody_le (c : MboxCmd) : (cmdBody c).length ≤ 112 := by
  cases c <;> simp [cmdBody, armBytes, length_natLe]

/-- What follows the reserved bytes of the entry's head: BODY and the zeros behind it. -/
def bodyArea (c : MboxCmd) : Bytes := cmdBody c ++ List.replicate (112 - (cmdBody c).length) 0

theorem length_bodyArea (c : MboxCmd) : (bodyArea c).length = 112 := by
  have h := length_cmdBody_le c
  simp only [bodyArea, List.length_append, List.length_replicate]
  omega

/-- An entry is SEQ, CODE and IF, ten reserved bytes, and BODY with its zeros. -/
theorem entryBytesOf_eq (seq : BitVec 32) (c : MboxCmd) :
    entryBytesOf seq c = bytesOf 4 seq ++ ([BitVec.ofNat 8 (cmdCode c), 1] ++ (List.replicate 10 0 ++ bodyArea c)) := by
  simp only [entryBytesOf, bodyArea, List.append_assoc]

theorem length_entryBytesOf (seq : BitVec 32) (c : MboxCmd) : (entryBytesOf seq c).length = 128 := by
  simp [entryBytesOf_eq, length_bodyArea]

theorem seq_entryBytesOf (seq : BitVec 32) (c : MboxCmd) : fieldAt 32 (entryBytesOf seq c) 0 4 = seq := by
  rw [entryBytesOf_eq, fieldAt_front (w := 32) rfl]

theorem code_entryBytesOf (seq : BitVec 32) (c : MboxCmd) : fieldAt 8 (entryBytesOf seq c) 4 1 = BitVec.ofNat 8 (cmdCode c) := by
  rw [entryBytesOf_eq, fieldAt_skip (by simp), length_bytesOf]
  exact fieldAt_byte

theorem reserved_entryBytesOf (seq : BitVec 32) (c : MboxCmd) : slice (entryBytesOf seq c) 6 10 = List.replicate 10 0 := by
  rw [entryBytesOf_eq, slice_skip (by simp), slice_skip (by simp)]
  exact slice_front List.length_replicate

theorem body_entryBytesOf (seq : BitVec 32) (c : MboxCmd) : slice (entryBytesOf seq c) 16 112 = bodyArea c := by
  rw [entryBytesOf_eq, slice_skip (by simp), slice_skip (by simp), slice_skip (by simp)]
  exact slice_whole (length_bodyArea c)

/-- A field of BODY is found 16 bytes into the entry. -/
theorem fieldAt_entryBytesOf {w o n : Nat} (seq : BitVec 32) (c : MboxCmd) (h : 16 ≤ o) :
    fieldAt w (entryBytesOf seq c) o n = fieldAt w (bodyArea c) (o - 16) n := by
  rw [entryBytesOf_eq, fieldAt_skip (by simp; omega), fieldAt_skip (by simp; omega), fieldAt_skip (by simp; omega)]
  simp only [length_bytesOf, List.length_cons, List.length_nil, List.length_replicate, Nat.sub_sub]

theorem fieldAt_skip_bytesOf {w o n k u : Nat} {v : BitVec u} {ys : Bytes} (h : k ≤ o) :
    fieldAt w (bytesOf k v ++ ys) o n = fieldAt w ys (o - k) n := by
  rw [fieldAt_skip (by rwa [length_bytesOf]), length_bytesOf]

theorem fieldAt_skip_natLe {w o n k v : Nat} {ys : Bytes} (h : k ≤ o) :
    fieldAt w (natLe k v ++ ys) o n = fieldAt w ys (o - k) n := by
  rw [fieldAt_skip (by rwa [length_natLe]), length_natLe]

theorem fieldAt_skip_byte {w o n : Nat} {b : Byte} {ys : Bytes} (h : 1 ≤ o) : fieldAt w (b :: ys) o n = fieldAt w ys (o - 1) n :=
  fieldAt_skip (xs := [b]) h

/-- The fields of an entry name its command by CODE, each field of BODY at its offset (R347-R353). -/
theorem cmdOf_entryBytesOf (seq : BitVec 32) (c : MboxCmd) (hc : isCommand c = true) : cmdOf (entryBytesOf seq c) = some c := by
  cases c
  case badCode => cases hc
  case badField => cases hc
  all_goals
    simp [cmdOf, code_entryBytesOf, cmdCode, fieldAt_entryBytesOf, bodyArea, cmdBody, armBytes, fieldAt_skip_bytesOf, fieldAt_skip_natLe,
      fieldAt_skip_byte, fieldAt_front, fieldAt_byte]

/-- The next `n` elements and what follows them. -/
theorem take_append_drop_of_drop {α : Type} (xs : List α) (o n : Nat) : (xs.drop o).take n ++ xs.drop (o + n) = xs.drop o := by
  rw [← List.drop_drop, List.take_append_drop]

/-- The bytes of an entry of interface 1 are its SEQ, its CODE, the reserved bytes and BODY. -/
theorem entry_parts {e : Bytes} (hlen : e.length = 128) (hif : fieldAt 8 e 5 1 = 1) :
    e = bytesOf 4 (fieldAt 32 e 0 4) ++ ([fieldAt 8 e 4 1, 1] ++ (slice e 6 10 ++ slice e 16 112)) := by
  have hseq : bytesOf 4 (fieldAt 32 e 0 4) = e.take 4 := bytesOf_fieldAt (n := 4) (o := 0) (by omega)
  have hcode : [fieldAt 8 e 4 1] = (e.drop 4).take 1 := (bytesOf_byte _).symm.trans (bytesOf_fieldAt (n := 1) (by omega))
  have hone : [(1 : Byte)] = (e.drop 5).take 1 :=
    (congrArg (fun b : Byte => [b]) hif.symm).trans ((bytesOf_byte _).symm.trans (bytesOf_fieldAt (n := 1) (by omega)))
  have hend : (e.drop 16).take 112 = e.drop 16 := List.take_of_length_le (by rw [List.length_drop]; omega)
  rw [hseq, slice_inside (by omega), slice_inside (by omega), hend, take_append_drop_of_drop,
    show [fieldAt 8 e 4 1, 1] = [fieldAt 8 e 4 1] ++ [(1 : Byte)] from rfl, hcode, hone, List.append_assoc, take_append_drop_of_drop,
    take_append_drop_of_drop, List.take_append_drop]

/-- Only the commands of R7 have a CODE, and the command that an entry names has the CODE of the entry. -/
theorem cmdCode_of_cmdOf {e : Bytes} {c : MboxCmd} (h : cmdOf e = some c) : BitVec.ofNat 8 (cmdCode c) = fieldAt 8 e 4 1 := by
  apply BitVec.eq_of_toNat_eq
  unfold cmdOf at h
  dsimp only at h
  split at h
  case h_30 => cases h
  all_goals
    next hcode =>
      cases h
      exact hcode.symm

theorem parseEntry_of_cmdOf {e : Bytes} {c : MboxCmd} (h : cmdOf e = some c) (hhead : slice e 6 10 = List.replicate 10 0)
    (hbody : slice e 16 112 = bodyArea c) : parseEntry e = c := by
  simp only [parseEntry, h]
  exact if_pos ⟨hhead, hbody⟩

/-- Where an entry reads as a command, its CODE names it, its reserved bytes are 0, and the rest is its BODY. -/
theorem parseEntry_isCommand {e : Bytes} (h : isCommand (parseEntry e) = true) :
    cmdOf e = some (parseEntry e) ∧ slice e 6 10 = List.replicate 10 0 ∧ slice e 16 112 = bodyArea (parseEntry e) := by
  cases hc : cmdOf e with
  | none => simp [parseEntry, hc, isCommand] at h
  | some c =>
    simp only [parseEntry, hc] at h ⊢
    split at h
    case isTrue hz => rw [if_pos hz]; exact ⟨rfl, hz⟩
    case isFalse => simp [isCommand] at h

end Sys2Proof.Machine
end

section
/-! PROOFS. What is shown of the entries of the mailbox. -/

namespace Sys2Proof.Proofs

open Machine

/-- Settles O55: the fields of an entry that is written out read back, and an entry that reads as a command is made of that command's fields. -/
theorem mailboxEntriesRoundTrip : Obligations.MailboxEntriesRoundTrip := by
  refine ⟨fun seq c hc => ⟨length_entryBytesOf seq c, seq_entryBytesOf seq c, ?_⟩, fun e hlen hif hc => ?_⟩
  · exact parseEntry_of_cmdOf (cmdOf_entryBytesOf seq c hc) (reserved_entryBytesOf seq c) (body_entryBytesOf seq c)
  · obtain ⟨hcmd, hhead, hbody⟩ := parseEntry_isCommand hc
    rw [entryBytesOf_eq, cmdCode_of_cmdOf hcmd, ← hhead, ← hbody]
    exact entry_parts hlen hif

end Sys2Proof.Proofs
end

section
/-! PROOFS. What a completion writes, and what it leaves (R341). -/

namespace Sys2Proof.Machine

set_option Elab.async false

variable {s : State}

/-! ### Runs of bytes -/

theorem readRun_writeRun (d : Byte) (bs : Bytes) : ∀ (t : Tbl Byte) (a : Nat), keysRise 0 t = true →
    readRun d (writeRun d t a bs) a bs.length = bs := by
  induction bs with
  | nil => exact fun _ _ _ => rfl
  | cons b bs ih =>
    intro t a ht
    have hrise := keysRise_tset d t a b ht
    have hfirst : tget d (writeRun d (tset d t a b) (a + 1) bs) a = b := by
      rw [tget_writeRun d bs _ _ _ hrise, if_neg (by omega), tget_tset_self d t a b ht]
    rw [List.length_cons, readRun, writeRun, hfirst, ih _ _ hrise]

/-- Only as many low bytes of a number as are written count. -/
theorem natLe_mod (n v : Nat) : natLe n (v % 256 ^ n) = natLe n v := by
  have h := natLe_leNat (natLe n v)
  rwa [length_natLe, leNat_natLe] at h

theorem bytesOf_setWidth {w : Nat} (n : Nat) (v : BitVec w) : bytesOf n (v.setWidth (8 * n)) = natLe n v.toNat := by
  rw [bytesOf, BitVec.toNat_setWidth, two_pow_eight_mul, natLe_mod]

theorem slice_padded {bs : Bytes} {n : Nat} (h : bs.length ≤ n) : slice bs 0 n = bs ++ List.replicate (n - bs.length) 0 := by
  rw [slice, List.drop_zero, List.take_of_length_le h]

/-! ### Completions -/

/-- The 64 bytes of a completion (R341). -/
def completionBytes (s : State) (seq : BitVec 32) (c : MboxCmd) (err : Nat) (res : Bytes) : Bytes :=
  bytesOf 4 seq ++ [BitVec.ofNat 8 (cmdCode c), BitVec.ofNat 8 err, 0, 0] ++ res ++ List.replicate (48 - res.length) 0
    ++ bytesOf 4 (s.step.lastEnded.setWidth 32) ++ bytesOf 4 (seq ^^^ 0xFFFFFFFF)

theorem length_completionBytes {seq : BitVec 32} {c : MboxCmd} {err : Nat} {res : Bytes} (h : res.length ≤ 48) :
    (completionBytes s seq c err res).length = 64 := by
  simp only [completionBytes, List.length_append, length_bytesOf, List.length_cons, List.length_nil, List.length_replicate]
  omega

theorem done_mem {r : Nat} {seq : BitVec 32} {c : MboxCmd} {err : Nat} {res : Bytes} (h : res.length ≤ 48) :
    (done s r seq c err res).mem = writeRun 0 s.mem (completionAddr r seq.toNat) (completionBytes s seq c err res) := by
  have hend : natLe 4 s.step.lastEnded.toNat = bytesOf 4 (s.step.lastEnded.setWidth 32) := (bytesOf_setWidth 4 s.step.lastEnded).symm
  simp only [done, complete, modRing, memWrite_mem, slice_padded h, hend, completionBytes, List.append_assoc]

theorem getRing_modRing_self (hs : IsTidy s) {r : Nat} {f : RingSt → RingSt} : getRing (modRing s r f) r = f (getRing s r) :=
  tget_tset_self _ _ _ _ hs.rings

/-- The completion takes its SEQ off the ring's open ones (R342). -/
theorem getRing_done_self (hs : IsTidy s) {r : Nat} {seq : BitVec 32} {c : MboxCmd} {err : Nat} {res : Bytes} :
    getRing (done s r seq c err res) r = { getRing s r with open_ := (getRing s r).open_.filter (· != seq) } :=
  getRing_modRing_self hs (f := fun q => { q with open_ := q.open_.filter (· != seq) })

theorem done_irq {r : Nat} {seq : BitVec 32} {c : MboxCmd} {err : Nat} {res : Bytes} :
    (done s r seq c err res).mbox.irq = s.mbox.irq ||| BitVec.ofNat 18 (2 ^ r) := rfl

end Sys2Proof.Machine
end

section
/-! PROOFS. What is shown of the reset state and of completions. -/

namespace Sys2Proof.Proofs

open Machine

/-- Settles O56: every part of the state after reset is its table's empty one, so each clause is a fact about `State.reset` as it is written. -/
theorem resetIsTidy : Obligations.ResetIsTidy :=
  ⟨rfl, rfl, rfl, rfl, rfl, rfl, rfl, fun _ => ⟨rfl, rfl⟩⟩

/-- Settles O41: a completion writes one run of 64 bytes, and the tables of memory and of the rings are in their one form. -/
theorem completionIsWritten : Obligations.CompletionIsWritten := by
  intro s ring seq c err res hs hres t a
  have ht : IsTidy s := tidy_iff.mp hs
  have hrise : keysRise 0 s.mem = true := (Bool.and_eq_true_iff.mp ht.mem).1
  have hlen := length_completionBytes (s := s) (seq := seq) (c := c) (err := err) hres
  have hmem : t.mem = writeRun 0 s.mem a (completionBytes s seq c err res) := done_mem hres
  refine ⟨?bytes, fun x hx => ?others, ?irq, ?closed⟩
  case bytes =>
    have h := readRun_writeRun 0 (completionBytes s seq c err res) s.mem a hrise
    rwa [hlen, ← hmem] at h
  case others => rw [memByte, hmem, tget_writeRun _ _ _ _ _ hrise, if_neg (by omega)]; rfl
  case irq =>
    have hlt : ring.toNat < 18 := by omega
    rw [done_irq, BitVec.getLsbD_or, BitVec.getLsbD_ofNat, Nat.testBit_two_pow_self, decide_eq_true hlt, Bool.and_self, Bool.or_true]
  case closed => simp [t, getRing_done_self ht]

end Sys2Proof.Proofs
end

section
/-! PROOFS. What the host link carries, and what a doorbell makes of a ring (R33-R38, R334-R346). -/

namespace Sys2Proof.Machine

set_option Elab.async false

variable {s : State}

/-! ### The link -/

theorem flushSeals_nil (h : s.mbox.sealHold = []) : flushSeals s s.mbox.sealHold = s := by
  rw [h]
  exact congrArg (fun l => { s with mbox := { s.mbox with sealHold := l } }) h.symm

/-- The link up at a width (R334, R345). -/
def linkedAt (s : State) (w : BitVec 4) : State :=
  { s with mbox := { s.mbox with link := 2, width := w, retrains := s.mbox.retrains + 1, irq := s.mbox.irq ||| 0x20000 } }

theorem roomCame_of_not_short (h : s.launch.short = false) : roomCame s = s := if_neg (by simp [h])

/-- A link that was not up comes up at the width that training left, its retrain counted and its interrupt raised (R334, R345). -/
theorem execHostLinkUp_comes {w : BitVec 4} (hw : w = 1 ∨ w = 2 ∨ w = 4) (hserve : s.boot.phase = .service) (hlink : s.mbox.link ≠ 2)
    (hseals : s.mbox.sealHold = []) (hshort : s.launch.short = false) :
    execHostLinkUp w s = .next (linkedAt s w) := by
  have hrefused : ¬ (linkAnswers s = false ∨ [1, 2, 4].contains w.toNat = false) := by
    rcases hw with rfl | rfl | rfl <;> simp [linkAnswers, hserve]
  have hflush : flushSeals (linkedAt s w) (linkedAt s w).mbox.sealHold = linkedAt s w := flushSeals_nil hseals
  unfold execHostLinkUp
  rw [if_neg hrefused, if_neg hlink, if_pos hserve]
  exact congrArg Host.Outcome.next ((congrArg roomCame hflush).trans (roomCame_of_not_short hshort))

/-- A link that is up narrows to the lanes left (R334). -/
theorem execHostLinkUp_narrows {w : BitVec 4} (hw : w = 1 ∨ w = 2 ∨ w = 4) (hserve : s.boot.phase = .service) (hlink : s.mbox.link = 2)
    (hless : w.toNat < s.mbox.width.toNat) : execHostLinkUp w s = .next { s with mbox := { s.mbox with width := w } } := by
  have hrefused : ¬ (linkAnswers s = false ∨ [1, 2, 4].contains w.toNat = false) := by
    rcases hw with rfl | rfl | rfl <;> simp [linkAnswers, hserve]
  unfold execHostLinkUp
  rw [if_neg hrefused, if_pos hlink, if_pos hless]

theorem execLinkTimeout_read {ring : BitVec 4} {seq : BitVec 32} {r : HostRead} (hlink : s.mbox.link ≠ 2)
    (hread : s.mbox.reads.find? (readIs ring.toNat seq) = some r) :
    execLinkTimeout ring seq s = .next (done (dropRead s ring.toNat seq) ring.toNat seq r.cmd errLink) := by
  simp only [execLinkTimeout, if_neg hlink, hread]

theorem linkCarries_up (hserve : s.boot.phase = .service) (hlink : s.mbox.link = 2) : linkCarries s = true := by
  simp [linkCarries, linkAnswers, hserve, hlink]

theorem linkCarries_down (hlink : s.mbox.link ≠ 2) : linkCarries s = false := by
  rw [linkCarries, beq_eq_false_iff_ne.mpr hlink, Bool.and_false]

/-! ### Host accesses over a link that is up -/

/-- An address of the stacks or the commons is no register, and it is judged as one of the window or of a stratum (R36). -/
theorem hostAccess_memory {write ue : Bool} {a i off : Nat} {data : Bytes}
    (ha : decodeAddr a = .stack i off ∨ decodeAddr a = .commons i off) (hserve : s.boot.phase = .service) :
    hostAccess s write a data ue =
      if inWindow a then if write then windowWrite s a data else hostAnswer s (some (windowRead s a data.length))
      else stratumAccess s write a data ue := by
  have hphase : ¬ s.boot.phase ≠ .service := not_not.mpr hserve
  rcases ha with ha | ha <;> simp only [hostAccess, ha, if_neg hphase]

theorem inWindow_iff {a : Nat} : inWindow a = true ↔ windowBase ≤ a ∧ a < windowBase + 0x4000000 := by
  rw [inWindow, Bool.and_eq_true, decide_eq_true_iff, decide_eq_true_iff]

theorem inDataArea_iff {a n : Nat} : inDataArea a n = true ↔ windowBase + 0x2000000 ≤ a ∧ a + n ≤ windowBase + 0x4000000 :=
  (Bool.and_eq_true _ _).to_iff.trans (and_congr decide_eq_true_iff decide_eq_true_iff)

/-- The mailbox window lies in the stacks' address range (R33, R35). -/
theorem decodeAddr_window {a : Nat} (h : inWindow a = true) : ∃ i off, decodeAddr a = .stack i off := by
  obtain ⟨hlo, hhi⟩ := inWindow_iff.mp h
  rw [show windowBase = 1099444518912 from rfl] at hlo hhi
  exact ⟨_, _, by rw [decodeAddr, if_neg (by omega), if_neg (by omega), if_pos (by omega)]⟩

theorem hostAccess_window {write ue : Bool} {a : Nat} {data : Bytes} (ha : inWindow a = true) (hserve : s.boot.phase = .service) :
    hostAccess s write a data ue = if write then windowWrite s a data else hostAnswer s (some (windowRead s a data.length)) := by
  obtain ⟨i, off, hd⟩ := decodeAddr_window ha
  rw [hostAccess_memory (.inl hd) hserve, if_pos ha]

theorem inWindow_of_inDataArea {a : Nat} {data : Bytes} (hdata : data ≠ []) (h : inDataArea a data.length = true) :
    inWindow a = true := by
  have hpos := List.length_pos_iff.mpr hdata
  obtain ⟨hlo, hhi⟩ := inDataArea_iff.mp h
  exact inWindow_iff.mpr ⟨Nat.le_trans (Nat.le_add_right ..) hlo, Nat.lt_of_lt_of_le (Nat.lt_add_of_pos_right hpos) hhi⟩

theorem windowWrite_taken {a : Nat} {data : Bytes} (h : (inRings a data.length || inDataArea a data.length) = true) :
    windowWrite s a data = { memWrite s a data with mbox := { s.mbox with hostReply := some [] } } := if_pos h

/-- Above the reserved ranges the window reads as memory does (R339). -/
theorem windowRead_dataArea : ∀ (n a : Nat), windowBase + 0x2000000 ≤ a → windowRead s a n = memRead s a n
  | 0, _, _ => rfl
  | n + 1, a, ha => by
    have hfree : windowReserved a = false := by
      simp only [windowReserved, Bool.or_eq_false_iff, Bool.and_eq_false_iff, decide_eq_false_iff_not]
      omega
    rw [windowRead, windowRead_dataArea n (a + 1) (by omega), hfree]
    rfl

/-- A host write to the data area or to the command rings is stored, as a packet or as an access (R335, R336). -/
theorem hostWrite_window {a : DevAddr} {data : Bytes} (ha : inWindow a.toNat = true)
    (h : (inRings a.toNat data.length || inDataArea a.toNat data.length) = true) (hserve : s.boot.phase = .service) (hlink : s.mbox.link = 2) :
    execHostWritePacket a data s = .next { memWrite s a.toNat data with mbox := { s.mbox with hostReply := some [] } } ∧
      execHostAccess true a data false s = .next { memWrite s a.toNat data with mbox := { s.mbox with hostReply := some [] } } := by
  have hcarries := linkCarries_up hserve hlink
  have hwrite : hostAccess s true a.toNat data false = { memWrite s a.toNat data with mbox := { s.mbox with hostReply := some [] } } :=
    (hostAccess_window ha hserve).trans (windowWrite_taken h)
  simp only [execHostWritePacket, execHostAccess, hcarries, if_true, hwrite, and_self]

theorem hostRead_dataArea {a : DevAddr} {data : Bytes} (hdata : data ≠ []) (h : inDataArea a.toNat data.length = true)
    (hserve : s.boot.phase = .service) (hlink : s.mbox.link = 2) :
    execHostAccess false a data false s = .next { s with mbox := { s.mbox with hostReply := some (memRead s a.toNat data.length) } } := by
  have hlo : windowBase + 0x2000000 ≤ a.toNat := (inDataArea_iff.mp h).1
  rw [execHostAccess, linkCarries_up hserve hlink, if_pos rfl, hostAccess_window (inWindow_of_inDataArea hdata h) hserve,
    windowRead_dataArea _ _ hlo]
  rfl

section
variable {i off : Nat} {a : DevAddr} {data : Bytes} (hserve : s.boot.phase = .service) (hlink : s.mbox.link = 2)
  (ha : decodeAddr a.toNat = .stack i off ∨ decodeAddr a.toNat = .commons i off) (hwin : inWindow a.toNat = false)
include hserve hlink ha hwin

theorem execHostAccess_stratum {write ue : Bool} :
    execHostAccess write a data ue s = .next (stratumAccess s write a.toNat data ue) := by
  rw [execHostAccess, linkCarries_up hserve hlink, if_pos rfl, hostAccess_memory ha hserve, hwin]
  rfl

theorem execHostWritePacket_stratum : execHostWritePacket a data s = .next (stratumAccess s true a.toNat data false) := by
  rw [execHostWritePacket, linkCarries_up hserve hlink, if_pos rfl, hostAccess_memory ha hserve, hwin]
  rfl

end

/-- While a plot is open the strata are refused to the host; a write into a live slot is logged beside that (R38, R79). -/
theorem stratumAccess_open {write ue : Bool} {a : Nat} {data : Bytes} (hopen : s.sec.isOpen = true) :
    stratumAccess s write a data ue =
      if write && writesLive s a data.length then refuseLive (refuseAccess s a) else refuseAccess s a := if_pos hopen

/-- With no plot open a write to backed memory outside the live slots goes there at once (R36, R421). -/
theorem stratumAccess_write {ue : Bool} {a : Nat} {data : Bytes} (hopen : s.sec.isOpen = false)
    (hbacked : backedRange s a data.length = true) (hlive : writesLive s a data.length = false) :
    stratumAccess s true a data ue = hostAnswer (directWrite s a data) (some []) := by
  simp [stratumAccess, hopen, hbacked, hlive]

theorem stratumAccess_read {a : Nat} {data : Bytes} (hopen : s.sec.isOpen = false) (hbacked : backedRange s a data.length = true) :
    stratumAccess s false a data false = hostAnswer s (some (directRead s a data.length)) := by
  simp [stratumAccess, hopen, hbacked]

/-! ### Registers -/

/-- A write of BLOT.ALARM clears the bits of PENDING that are written 1 (R390). -/
theorem execRegisterWrite_alarm (hserve : s.boot.phase = .service) (v : BitVec 256) :
    execRegisterWrite (BitVec.ofNat 26 offAlarm) v s =
      .next { s with blot := { s.blot with alarm := s.blot.alarm &&& ~~~ BitVec.setWidth 8 v } } := by
  have hoff : (BitVec.ofNat 26 offAlarm).toNat = offAlarm := rfl
  have hbell : doorbellAt offAlarm = none := rfl
  have hother : (isBedrockReg offAlarm || (decide (offDbg ≤ offAlarm) && decide (offAlarm < offSec))) = false := rfl
  have hmask : BitVec.setWidth 8 v = BitVec.ofNat 8 v.toNat := (BitVec.ofNat_toNat 8 v).symm
  rw [execRegisterWrite, hoff, regWrite, hserve, hmask]
  simp only [hbell, hother]
  rfl

/-! ### Doorbells -/

/-- The ring once a doorbell has announced the next entry (R342). -/
def heardNext (s : State) (r : Nat) : State :=
  modRing s r fun q => { q with tail := q.nextSeq + 1, stalled := false, waiting := false }

theorem announced_next (n : BitVec 32) : (n + 1 - n).toNat = 1 := by
  have h : n + 1 - n = 1 := by rw [BitVec.add_comm, BitVec.add_sub_cancel]
  rw [h]
  rfl

/-- A ring that has heard of one entry is not in its reset value, whatever the table of the rings. -/
theorem getRing_heardNext (r : Nat) :
    getRing (heardNext s r) r =
      { getRing s r with tail := (getRing s r).nextSeq + 1, stalled := false, waiting := false } := by
  refine tget_tset_of_ne _ _ _ _ fun h => ?_
  have hn : (getRing s r).nextSeq = 0 := congrArg RingSt.nextSeq h
  have ht : (getRing s r).nextSeq + 1 = 0 := congrArg RingSt.tail h
  rw [hn] at ht
  cases ht

section
variable {r : Nat} {view : Option HostView}

/-- TAIL written where it stands announces nothing (R342). -/
theorem doorbellOn_repeat : doorbellOn s r (getRing s r).nextSeq view = s := by
  have hd : ((getRing s r).nextSeq - (getRing s r).nextSeq).toNat = 0 := by rw [BitVec.sub_self]; rfl
  exact if_pos (.inr (.inl hd))

/-- TAIL written more than 256 entries ahead is not taken (R342). -/
theorem doorbellOn_beyond {tail : BitVec 32} (hserve : s.boot.phase = .service) (hfar : 256 < (tail - (getRing s r).nextSeq).toNat)
    (hnear : (tail - (getRing s r).nextSeq).toNat < 2 ^ 31) :
    doorbellOn s r tail view =
      logEv s { cls := clsSecurity, cause := 4, loc := BitVec.ofNat 64 r, a0 := BitVec.ofNat 64 tail.toNat } := by
  have hgo : ¬ (s.boot.phase ≠ .service ∨ (tail - (getRing s r).nextSeq).toNat = 0 ∨ 2 ^ 31 ≤ (tail - (getRing s r).nextSeq).toNat) := by
    rw [not_or, not_not]
    exact ⟨hserve, by omega⟩
  unfold doorbellOn
  dsimp only
  rw [if_neg hgo, if_neg (by omega)]

theorem phase_of_inService (h : inService s = true) : s.boot.phase = .service := by
  rw [inService, Bool.and_eq_true, beq_iff_eq] at h
  exact h.1

/-- A doorbell that announces the next entry has it read (R342). -/
theorem doorbellOn_next (hin : inService s = true) :
    doorbellOn s r ((getRing s r).nextSeq + 1) view = readOn (heardNext s r) r view 1 := by
  have hserve := phase_of_inService hin
  unfold doorbellOn
  dsimp only
  rw [announced_next, if_neg (by rw [not_or, not_not]; exact ⟨hserve, by omega⟩), if_pos (by omega), if_pos hin]
  rfl

section
variable (hwaits : ringWaits (getRing s r) = false) (hread : badRead s (ringEntryAddr r (getRing s r).nextSeq.toNat) 128 = none)
include hwaits hread

/-- The entry announced is read from memory: the ring stops at a SEQ that it does not expect, and else the entry is taken (R342). -/
theorem readOn_heardNext :
    readOn (heardNext s r) r view 1 =
      let e := memRead s (ringEntryAddr r (getRing s r).nextSeq.toNat) 128
      if fieldAt 32 e 0 4 ≠ (getRing s r).nextSeq then stall (heardNext s r) r (fieldAt 32 e 0 4) else readEntry (heardNext s r) r e view := by
  have hone : announced (getRing (heardNext s r) r) = 1 := by rw [getRing_heardNext]; exact announced_next _
  have hw : ringWaits (getRing (heardNext s r) r) = false := by rw [getRing_heardNext]; exact hwaits
  have hn : (getRing (heardNext s r) r).nextSeq = (getRing s r).nextSeq := by rw [getRing_heardNext]
  have hb : badRead (heardNext s r) (ringEntryAddr r (getRing s r).nextSeq.toNat) 128 = none := hread
  have hm : ∀ a n, memRead (heardNext s r) a n = memRead s a n := fun _ _ => rfl
  unfold readOn
  dsimp only
  rw [hone, if_neg (by omega), hw, hn, hb]
  simp only [hm, readOn, Bool.false_eq_true, if_false]

end

/-- An entry that spells a command is taken as that command (R340, R345). -/
theorem readEntry_entryBytesOf {c : MboxCmd} (hserved : ifServed s 1 = true) (hc : isCommand c = true) :
    readEntry (heardNext s r) r (entryBytesOf (getRing s r).nextSeq c) view =
      submit (takeEntry (heardNext s r) r) r (getRing s r).nextSeq c view := by
  have hn : (getRing (heardNext s r) r).nextSeq = (getRing s r).nextSeq := by rw [getRing_heardNext]
  have hif : leNat (slice (entryBytesOf (getRing s r).nextSeq c) 5 1) = 1 := by
    rw [entryBytesOf_eq, slice_skip (by simp), length_bytesOf]
    rfl
  have hgo : ifServed (heardNext s r) 1 = true := hserved
  have hp := parseEntry_of_cmdOf (cmdOf_entryBytesOf (getRing s r).nextSeq c hc) (reserved_entryBytesOf _ c) (body_entryBytesOf _ c)
  unfold readEntry
  dsimp only
  rw [hif, hgo, if_pos rfl, hn, hp]

end

theorem inRings_iff {a n : Nat} : inRings a n = true ↔ windowBase + 0x100000 ≤ a ∧ a + n ≤ windowBase + 0x180000 :=
  (Bool.and_eq_true _ _).to_iff.trans (and_congr decide_eq_true_iff decide_eq_true_iff)

/-- An entry of the command rings lies in the window, on a whole entry (R339). -/
theorem inRings_ringEntry (ring : BitVec 4) (n : BitVec 8) :
    inWindow (ringEntryAddr ring.toNat n.toNat) = true ∧ inRings (ringEntryAddr ring.toNat n.toNat) 128 = true ∧
      ringEntryAddr ring.toNat n.toNat < 2 ^ 48 := by
  have hr := ring.isLt
  have hn := n.isLt
  obtain ⟨a, ha⟩ : ∃ a, ringEntryAddr ring.toNat n.toNat = a := ⟨_, rfl⟩
  have hbase : windowBase = 0xFFFC000000 := rfl
  rw [inWindow_iff, inRings_iff, ha, hbase]
  rw [ringEntryAddr, hbase] at ha
  omega

theorem execIrqClear_eq (mask : BitVec 32) :
    execIrqClear mask s = .next { s with mbox := { s.mbox with irq := s.mbox.irq &&& ~~~ BitVec.setWidth 18 mask } } := by
  rw [execIrqClear, irqClear, BitVec.ofNat_toNat]

/-- A ring that waited reads on once what it waited for is there (R342). -/
theorem execRingWaitResume_reads {ring : BitVec 4} {host : HostView} (hin : inService s = true)
    (hstall : (getRing s ring.toNat).stalled = false) (hwaits : ringWaits (getRing s ring.toNat) = false)
    (hsome : 1 ≤ announced (getRing s ring.toNat)) (hmost : announced (getRing s ring.toNat) ≤ 256) :
    execRingWaitResume ring host s =
      .next (readOn (modRing s ring.toNat fun q => { q with waiting := false }) ring.toNat (some host) 256) :=
  congrArg Host.Outcome.next (if_pos (by simp [hin, hstall, hwaits, hsome, hmost]))

end Sys2Proof.Machine
end

section
/-! PROOFS. What is shown of the host link, of doorbells and of rings. -/

namespace Sys2Proof.Proofs

open Machine

/-- Settles O39: an access is judged by where its address lies, and the link's own rows by whether it is up. -/
theorem hostLinkCommands : Obligations.HostLinkCommands := by
  intro s
  refine ⟨rfl, fun w hw hserve => ⟨fun hlink hseals hshort => ?_, fun hlink hless => ?_⟩, fun ring seq r hlink hread => ?_,
    execRegisterWrite_alarm, ?down, fun hserve hlink => ⟨fun a data hdata h => ?area, ?refused, ?direct⟩⟩
  · exact execHostLinkUp_comes hw hserve hlink hseals hshort
  · exact execHostLinkUp_narrows hw hserve hlink hless
  · exact execLinkTimeout_read hlink hread
  case down =>
    intro hlink _ _ _ _
    have hdown := linkCarries_down hlink
    exact ⟨congrArg Host.Outcome.next (if_neg (ne_true_of_eq_false hdown)), congrArg Host.Outcome.next (if_neg (ne_true_of_eq_false hdown))⟩
  case area =>
    obtain ⟨hpacket, haccess⟩ := hostWrite_window (inWindow_of_inDataArea hdata h) (Bool.or_eq_true_iff.mpr (.inr h)) hserve hlink
    exact ⟨hpacket, haccess, hostRead_dataArea hdata h hserve hlink⟩
  case refused =>
    intro write ue i off a data ha hwin refused hopen
    have hex := (execHostAccess_stratum (ue := ue) (write := write) (data := data) hserve hlink ha hwin).trans
      (congrArg Host.Outcome.next (stratumAccess_open hopen))
    refine ⟨fun h => hex.trans (congrArg Host.Outcome.next (if_neg ?_)), fun hw hl => hex.trans (congrArg Host.Outcome.next (if_pos ?_))⟩
    · rcases h with h | h <;> simp [h]
    · rw [hw, hl]
      rfl
  case direct =>
    intro pc off a data ha hwin hopen hbacked
    refine ⟨fun hlive => ⟨?_, ?_⟩, ?_⟩
    · exact (execHostWritePacket_stratum hserve hlink (.inl ha) hwin).trans
        (congrArg Host.Outcome.next (stratumAccess_write hopen hbacked hlive))
    · exact (execHostAccess_stratum hserve hlink (.inl ha) hwin).trans
        (congrArg Host.Outcome.next (stratumAccess_write hopen hbacked hlive))
    · exact (execHostAccess_stratum hserve hlink (.inl ha) hwin).trans (congrArg Host.Outcome.next (stratumAccess_read hopen hbacked))

/-- Settles O40: a doorbell acts by how far ahead TAIL is, and the entry that it announces by the SEQ it holds. -/
theorem doorbellsAndRings : Obligations.DoorbellsAndRings := by
  intro s ring host q x e heard
  have hup : s.mbox.link = 2 → ∀ tail, exec (.doorbell ring tail host) s = .next (doorbellOn s ring.toNat tail (some host)) :=
    fun hlink _ => congrArg Host.Outcome.next (if_pos hlink)
  have hdown : s.mbox.link ≠ 2 → ∀ tail, exec (.doorbell ring tail host) s = .next s := fun hlink _ => congrArg Host.Outcome.next (if_neg hlink)
  refine ⟨?same, fun tail hlink => hdown hlink tail, fun tail hlink hserve hfar hnear => ?beyond, ?stops, ?served, ?resumed, fun mask => ?irq,
    ⟨_, rfl, rfl, rfl, rfl, rfl, rfl, rfl⟩, fun hserve hlink hseals hshort => ?comes, fun seq hlink => ?timeout, ?packet,
    execRegisterWrite_alarm⟩
  case same =>
    by_cases hlink : s.mbox.link = 2
    · exact (hup hlink _).trans (congrArg Host.Outcome.next doorbellOn_repeat)
    · exact hdown hlink _
  case beyond => exact (hup hlink tail).trans (congrArg Host.Outcome.next (doorbellOn_beyond hserve hfar hnear))
  case stops =>
    intro hlink hin hwaits hread hseq
    refine (hup hlink _).trans (congrArg Host.Outcome.next ?_)
    exact (doorbellOn_next hin).trans ((readOn_heardNext hwaits hread).trans (if_pos hseq))
  case served =>
    intro c hlink hin hwaits hread hif hc he
    have hseq : ¬ fieldAt 32 e 0 4 ≠ q.nextSeq := not_not.mpr (by rw [he, seq_entryBytesOf])
    refine (hup hlink _).trans (congrArg Host.Outcome.next ?_)
    rw [doorbellOn_next hin, readOn_heardNext hwaits hread]
    refine (if_neg hseq).trans ?_
    change readEntry _ _ e _ = _
    rw [he]
    exact readEntry_entryBytesOf hif hc
  case resumed => exact fun hin hstall hwaits hsome hmost => execRingWaitResume_reads hin hstall hwaits hsome hmost
  case irq => exact execIrqClear_eq mask
  case comes =>
    exact ⟨_, execHostLinkUp_comes (.inr (.inr rfl)) hserve hlink hseals hshort, rfl, rfl, rfl, rfl, rfl, rfl⟩
  case timeout => exact congrArg Host.Outcome.next (if_pos hlink)
  case packet =>
    intro hserve hlink data hlen n a
    obtain ⟨hwin, hrings, hlt⟩ := inRings_ringEntry ring n
    have ha : a.toNat = ringEntryAddr ring.toNat n.toNat := by rw [BitVec.toNat_ofNat, Nat.mod_eq_of_lt hlt]
    exact hostWrite_window (by rw [ha]; exact hwin) (by rw [ha, hlen, hrings]; rfl) hserve hlink

end Sys2Proof.Proofs
end

section
/-! PROOFS. How a plot is opened, closed and scrubbed (R347, R401, R402, R405, R406). -/

namespace Sys2Proof.Machine

set_option Elab.async false

variable {s : State}

/-! ### Handshakes that begin as a plot opens or closes -/

/-- `t` is `s` but for its sub-ports and the free values drawn. -/
def ShakesOnly (s t : State) : Prop := ∃ subs free, t = { s with subs, free }

protected theorem ShakesOnly.refl (s : State) : ShakesOnly s s := ⟨_, _, rfl⟩

protected theorem ShakesOnly.trans {s t u : State} (h : ShakesOnly s t) (g : ShakesOnly t u) : ShakesOnly s u := by
  obtain ⟨_, _, rfl⟩ := h
  obtain ⟨subs, free, rfl⟩ := g
  exact ⟨subs, free, rfl⟩

theorem shakesOnly_modSub (s : State) (k : Nat) (f : SubSt → SubSt) : ShakesOnly s (modSub s k f) := ⟨_, _, rfl⟩

theorem shakesOnly_startShake (s : State) (k : Nat) (reset : Bool) : ShakesOnly s (startShake s k reset) := by
  unfold startShake
  dsimp only
  split
  · exact ⟨_, _, rfl⟩
  · exact ⟨_, _, rfl⟩

theorem shakesOnly_oweReset (s : State) (ks : List Nat) : ShakesOnly s (oweReset s ks) := by
  induction ks generalizing s with
  | nil => exact .refl s
  | cons k ks ih =>
    refine .trans ?_ (ih _)
    split
    · exact shakesOnly_startShake s k true
    · exact shakesOnly_modSub s k _

theorem shakesOnly_shakeAll (s : State) (es : List TopoEnt) : ShakesOnly s (shakeAll s es) := by
  induction es generalizing s with
  | nil => exact .refl s
  | cons e es ih =>
    refine .trans ?_ (ih _)
    split
    · exact (shakesOnly_modSub s _ _).trans (shakesOnly_startShake _ _ _)
    · exact shakesOnly_modSub s _ _

theorem shakesOnly_leaveAll (s : State) (ks : List Nat) : ShakesOnly s (leaveAll s ks) := by
  induction ks generalizing s with
  | nil => exact .refl s
  | cons k ks ih =>
    refine .trans ?_ (ih _)
    unfold leavePlot
    dsimp only
    split
    · exact (shakesOnly_modSub s _ _).trans (shakesOnly_startShake _ _ _)
    · exact shakesOnly_modSub s _ _

/-! ### OPEN_PLOT -/

/-- `t` has opened the plot that an OPEN_PLOT of `s` names (R347, R401). -/
structure OpenedBy (s : State) (b : OpenPlotBody) (es : List TopoEnt) (t : State) : Prop where
  isOpen : t.sec.isOpen = true
  plot : t.sec.plot = b.plot
  position : t.sec.position = b.position
  devices : t.sec.devices = b.devices
  topo : t.sec.topo = es
  debug : t.sec.debug = tb b.flags.toNat 0
  stepSeals : t.sec.stepSeals = tb b.flags.toNat 1
  serving : t.sec.serving = tb b.flags.toNat 2
  idle : t.launch.state = .idle
  late : t.launch.late = s.launch.late
  hits : t.serv.hits = 0
  slots : t.serv.slots = s.serv.slots

theorem OpenedBy.of_shakesOnly {b : OpenPlotBody} {es : List TopoEnt} {t u : State} (h : OpenedBy s b es t) (g : ShakesOnly t u) :
    OpenedBy s b es u := by
  obtain ⟨_, _, rfl⟩ := g
  exact { h with }

theorem acceptOpen_opens (s : State) (b : OpenPlotBody) (es : List TopoEnt) : OpenedBy s b es (acceptOpen s b es) := by
  refine .of_shakesOnly ?_ (shakesOnly_shakeAll _ es)
  exact ⟨rfl, rfl, rfl, rfl, rfl, rfl, rfl, rfl, rfl, rfl, rfl, rfl⟩

/-- Whether its sub-ports are in PLOT already or it waits for them, the plot stays open (R347). -/
theorem OpenedBy.tryOpen {b : OpenPlotBody} {es : List TopoEnt} {t : State} (h : OpenedBy s b es t) : OpenedBy s b es (tryOpen t) := by
  unfold Machine.tryOpen
  split
  · exact h
  · split
    · exact { h with }
    · exact h

theorem openRead_opens {r : Nat} {seq : BitVec 32} {b : OpenPlotBody} {host : HostView} {v : Bytes} {es : List TopoEnt}
    (hv : hostView host b.topo.toNat b.topoLen.toNat = v) (hes : topoEnts v = es) (herr : openError s b = none) (hdigest : sm3 v = b.topoDigest)
    (hheader : topoHeaderOk s b v = true) (hents : es.all (topoEntOk s) = true) (hobeys : topoObeys b.position es = true)
    (hbarred : es.filter (barred s) = []) : OpenedBy s b es (openRead s r seq b host) := by
  subst hv hes
  unfold openRead
  dsimp only
  rw [herr]
  dsimp only
  rw [if_neg (not_not.mpr hdigest), hheader, hents, hobeys, hbarred]
  have h := acceptOpen_opens s b (topoEnts (hostView host b.topo.toNat b.topoLen.toNat))
  simp only [Bool.and_self, Bool.not_true, Bool.false_eq_true, if_false, leastKey]
  exact OpenedBy.tryOpen { h with }

/-- An OPEN_PLOT that comes with its view over a link that is up is judged by the view at once (R344, R347). -/
theorem serveOpenPlot_read {r : Nat} {seq : BitVec 32} {b : OpenPlotBody} {host : HostView} (herr : openError s b = none)
    (hlink : s.mbox.link = 2) : serveOpenPlot s r seq b (some host) = openRead s r seq b host := by
  simp only [serveOpenPlot, herr, hlink, if_true]

/-! ### Closing -/

/-- `t` has no open plot, and nothing is launched or switched in it (R401, R402). -/
structure NoPlot (t : State) : Prop where
  isOpen : t.sec.isOpen = false
  plot : t.sec.plot = 0
  topo : t.sec.topo = []
  serving : t.sec.serving = false
  idle : t.launch.state = .idle
  switching : t.serv.switching = false

/-- Forgetting the plot leaves the mailbox; and whether the device is scrubbed is what the closing says. -/
structure ForgetsPlot (s : State) (scrubbed : Bool) (t : State) : Prop extends NoPlot t where
  scrubbed : t.sec.scrubbed = scrubbed
  mbox : t.mbox = s.mbox

theorem ForgetsPlot.of_shakesOnly {scrubbed : Bool} {t u : State} (h : ForgetsPlot s scrubbed t) (g : ShakesOnly t u) :
    ForgetsPlot s scrubbed u := by
  obtain ⟨_, _, rfl⟩ := g
  exact ⟨{ h.toNoPlot with }, h.scrubbed, h.mbox⟩

theorem forgetPlot_forgets (s : State) (scrubbed : Bool) : ForgetsPlot s scrubbed (forgetPlot s scrubbed) := by
  have hmbox : (oweReset s (subKeys s)).mbox = s.mbox := by
    obtain ⟨_, _, h⟩ := shakesOnly_oweReset s (subKeys s)
    rw [h]
  refine .of_shakesOnly ?_ (shakesOnly_leaveAll _ (plotSubs s))
  exact ⟨⟨rfl, rfl, rfl, rfl, rfl, rfl⟩, rfl, hmbox⟩

/-- A CLOSE_PLOT that is accepted ends with the plot forgotten, whatever it aborts on the way (R347). -/
theorem serveClose_closes {r : Nat} {seq : BitVec 32} {flags : BitVec 8} (hopen : s.sec.isOpen = true) (hflags : flags.toNat ≤ 1) :
    ∃ u, ForgetsPlot u false (forgetPlot u false) ∧ ∃ res, serveClose s r seq flags = done (forgetPlot u false) r seq (.closePlot flags) errOk res := by
  unfold serveClose
  extract_lets fin abort a s1 c s2 s3
  rw [if_neg (by simp [hopen]), if_neg (by omega)]
  exact ⟨s2, forgetPlot_forgets s2 false, _, rfl⟩

/-- A list of entries that is not empty has a least sub-port. -/
theorem exists_leastKey {es : List TopoEnt} {e : TopoEnt} (h : e ∈ es) : ∃ k, leastKey es = some k := by
  cases es with
  | nil => cases h
  | cons x xs =>
    unfold leastKey
    split
    · exact ⟨_, rfl⟩
    · exact ⟨_, rfl⟩

/-- An OPEN_PLOT whose wait is over closes the plot again where a named sub-port is not in PLOT (R347). -/
theorem execOpenPlotWaitExpiry_fails {r : Nat} {seq : BitVec 32} {e : TopoEnt} (hopener : s.mbox.opener = some (r, seq))
    (he : e ∈ s.sec.topo) (hstate : (getSub s (topoKey e)).state ≠ .plot) : ∃ k, execOpenPlotWaitExpiry s = .next (failOpen s k) := by
  obtain ⟨k, hk⟩ := exists_leastKey (es := s.sec.topo.filter fun e => (getSub s (topoKey e)).state != .plot)
    (List.mem_filter.mpr ⟨he, bne_iff_ne.mpr hstate⟩)
  exact ⟨k, by simp only [execOpenPlotWaitExpiry, hopener, Option.isNone_some, Bool.false_eq_true, if_false, hk]⟩

theorem failOpen_eq {r : Nat} {seq : BitVec 32} {k : Nat} (hopener : s.mbox.opener = some (r, seq)) :
    failOpen s k = complete (forgetPlot { s with mbox := { s.mbox with opener := none } } s.sec.scrubbed) r seq 0x01 errPort (portResult s k) := by
  simp only [failOpen, hopener]

/-! ### SCRUB -/

theorem keepsRun_repairRow (s : State) (kind k row st : Nat) : KeepsRun s (repairRow s kind k row st) := by
  unfold repairRow
  extract_lets left d s1 a rest
  have h1 : KeepsRun s s1 := by
    unfold s1
    split
    · exact ⟨rfl, rfl, rfl, rfl⟩
    · exact ⟨rfl, rfl, rfl, rfl⟩
  refine h1.trans ?_
  split
  · exact (keepsRun_logEv s1 _).trans (keepsRun_retire _ _)
  · refine .trans ?_ (keepsRun_retire _ _)
    split
    · exact ⟨rfl, rfl, rfl, rfl⟩
    · exact ⟨rfl, rfl, rfl, rfl⟩

theorem keepsRun_repairRows (s : State) (kind k st : Nat) (rows : List Nat) : KeepsRun s (repairRows s kind k st rows) := by
  induction rows generalizing s with
  | nil => exact .refl s
  | cons r rows ih => exact (keepsRun_repairRow s kind k r st).trans (ih _)

theorem keepsRun_repairPending (s : State) (kind st : Nat) (ks : List Nat) : KeepsRun s (repairPending s kind st ks) := by
  induction ks generalizing s with
  | nil => exact .refl s
  | cons k ks ih => exact (keepsRun_repairRows s kind k st _).trans (ih _)

/-- `s` once a SCRUB has been accepted (R406). -/
def scrubBegun (s : State) (r : Nat) (seq : BitVec 32) : State :=
  { s with sec := { s.sec with scrubState := 1, scrubbed := false }, mbox := { s.mbox with scrubber := some (r, seq) } }

/-- A SCRUB that is accepted begins, and pending rows are repaired (R332, R406). -/
theorem serveScrub_begins {r : Nat} {seq : BitVec 32} (hopen : s.sec.isOpen = false) (hscrub : s.sec.scrubState ≠ 1)
    (hseals : s.mbox.sealHold = []) : KeepsRun (scrubBegun s r seq) (serveScrub s r seq) := by
  have hgo : ¬ (s.sec.isOpen || s.sec.scrubState == 1 || !s.mbox.sealHold.isEmpty) = true := by
    rw [hopen, beq_eq_false_iff_ne.mpr hscrub, hseals]
    exact Bool.false_ne_true
  unfold serveScrub
  rw [if_neg hgo]
  exact (keepsRun_repairPending _ _ _ _).trans (keepsRun_repairPending _ _ _ _)

/-- A table reads its default at a key that a filter drops. -/
theorem tget_filter_of_dropped {α : Type} {d : α} {t : Tbl α} {p : Nat × α → Bool} {i : Nat} (h : ∀ v, p (i, v) = false) :
    tget d (t.filter p) i = d := by
  by_contra hne
  have hp := (List.mem_filter.mp (mem_of_tget_ne hne)).2
  rw [h] at hp
  cases hp

/-- `s` with its tenant's state erased and the SCRUB's time kept, before the SCRUB is logged (R405, R406). -/
def scrubEnded (s : State) (ms : BitVec 32) : State :=
  let s1 := eraseTenant { s with mbox := { s.mbox with scrubber := none } }
  { s1 with sec := { s1.sec with scrubState := 2, scrubbed := true, scrubMs := ms } }

theorem execScrubComplete_ends {ms : BitVec 32} {r : Nat} {seq : BitVec 32} (h : s.mbox.scrubber = some (r, seq)) :
    execScrubComplete ms none s = .next (done (logEv (scrubEnded s ms) { cls := clsSecurity, cause := 7, a0 := BitVec.ofNat 64 ms.toNat })
      r seq .scrub errOk (bytesOf 4 ms)) := by
  simp only [execScrubComplete, h]
  rfl

/-- What a SCRUB has erased stays so as it is logged and completes (R405, R406). -/
theorem scrubbed_of_loggedOnly {ms : BitVec 32} {t : State} (h : LoggedOnly (scrubEnded s ms) t) (r : Nat) (seq : BitVec 32) (res : Bytes) :
    let u := done t r seq .scrub errOk res
    u.sec.scrubState = 2 ∧ u.sec.scrubbed = true ∧ u.sec.scrubMs = ms ∧ u.mbox.scrubber = none ∧ u.overlay = [] ∧ u.serv.slots = [] ∧
      u.serv.salts = [] ∧ u.sheets.live = none ∧ u.sheets.shadow = none ∧ u.scribes = [] := by
  obtain ⟨⟨_, _, _, _, _, _, _, _, _, rfl⟩, -, -⟩ := h
  exact ⟨rfl, rfl, rfl, rfl, rfl, rfl, rfl, rfl, rfl, rfl⟩

theorem scrubKeeps_rings {a : Nat} (hlo : windowBase + 0x100000 ≤ a) (hhi : a < windowBase + 0x1C0000) : scrubKeeps s a = true :=
  Bool.or_eq_true_iff.mpr (.inl (Bool.and_eq_true_iff.mpr ⟨decide_eq_true hlo, decide_eq_true hhi⟩))

/-- The completion rings lie in the part of the window that a SCRUB keeps (R405). -/
theorem completionAddr_outside {r i a : Nat} (hr : r < 16) (ha : scrubKeeps s a = false) :
    a < completionAddr r i ∨ completionAddr r i + 64 ≤ a := by
  have hbase : windowBase = 0xFFFC000000 := rfl
  have hkept : ¬ (windowBase + 0x100000 ≤ a ∧ a < windowBase + 0x1C0000) := fun ⟨hlo, hhi⟩ =>
    ne_true_of_eq_false ha (scrubKeeps_rings hlo hhi)
  rw [completionAddr, hbase]
  rw [hbase] at hkept
  omega

/-- After a SCRUB every byte that it does not keep reads 0 (R405). -/
theorem memByte_scrubbed {ms : BitVec 32} {r : Nat} {seq : BitVec 32} {a : Nat} (hs : IsTidy s) (hr : r < 16) (ha : scrubKeeps s a = false) :
    memByte (done (logEv (scrubEnded s ms) { cls := clsSecurity, cause := 7, a0 := BitVec.ofNat 64 ms.toNat }) r seq .scrub errOk
      (bytesOf 4 ms)) a = 0 := by
  have hmem : (logEv (scrubEnded s ms) { cls := clsSecurity, cause := 7, a0 := BitVec.ofNat 64 ms.toNat }).mem =
      s.mem.filter fun e => scrubKeeps s e.1 := (keepsRun_logEv (scrubEnded s ms) _).mem
  have hrise : keysRise 0 (s.mem.filter fun e => scrubKeeps s e.1) = true :=
    keysRise_filter _ _ _ (Bool.and_eq_true_iff.mp hs.mem).1
  have hout := completionAddr_outside (i := seq.toNat) hr ha
  have hres : (bytesOf 4 ms).length ≤ 48 := by rw [length_bytesOf]; omega
  rw [memByte, done_mem hres, hmem, tget_writeRun _ _ _ _ _ hrise, length_completionBytes hres, if_neg (by omega)]
  exact tget_filter_of_dropped fun _ => ha

end Sys2Proof.Machine
end

section
/-! PROOFS. What is shown of OPEN_PLOT, CLOSE_PLOT and SCRUB. -/

namespace Sys2Proof.Proofs

open Machine

/-- Settles O42: a plot opens and closes in one function each, beside which only sub-ports shake hands; a SCRUB drops all that it does not keep. -/
theorem plotCommands : Obligations.PlotCommands := by
  intro s ring
  obtain ⟨mbox, hread⟩ := entryRead_eq s ring
  have hmbox : mbox = (entryRead s ring).mbox := (congrArg State.mbox hread).symm
  have hrow {c : MboxCmd} {view : Option HostView} (h : servedNow s ring c) :
      rowCmd ring c view s = .next (serveCmd { s with mbox } ring.toNat (seqDue s ring) c view) := hread ▸ rowCmd_served h
  refine ⟨?opens, ?closes, ?begins, ?ends, ?fails⟩
  case opens =>
    intro b host v es hserved herr hlink hdigest hheader hents hobeys hbarred
    have hlink' : mbox.link = 2 := (congrArg MboxSt.link hmbox).trans hlink
    have h := openRead_opens (s := { s with mbox }) (r := ring.toNat) (seq := seqDue s ring) (host := host) rfl rfl herr hdigest hheader
      hents hobeys hbarred
    exact ⟨_, (hrow hserved).trans (congrArg Host.Outcome.next (serveOpenPlot_read herr hlink')), h.isOpen, h.plot, h.position, h.devices,
      h.topo, h.debug, h.stepSeals, h.serving, h.idle, h.late, h.hits, h.slots⟩
  case closes =>
    intro flags hserved hopen hflags
    obtain ⟨u, h, res, hclose⟩ := serveClose_closes (s := { s with mbox }) (r := ring.toNat) (seq := seqDue s ring) hopen hflags
    exact ⟨_, (hrow hserved).trans (congrArg Host.Outcome.next hclose), h.isOpen, h.plot, h.scrubbed, h.topo, h.serving, h.idle, h.switching⟩
  case begins =>
    intro hserved hopen hscrub hseals
    have hseals' : mbox.sealHold = [] := (congrArg MboxSt.sealHold hmbox).trans hseals
    have h := serveScrub_begins (s := { s with mbox }) (r := ring.toNat) (seq := seqDue s ring) hopen hscrub hseals'
    exact ⟨_, hrow hserved, congrArg SecSt.scrubState h.sec, congrArg SecSt.scrubbed h.sec, congrArg MboxSt.scrubber h.mbox, h.mem⟩
  case ends =>
    intro ms r seq hscrubber hr hs
    obtain ⟨hstate, hscrubbed, hms, hnone, hoverlay, hslots, hsalts, hlive, hshadow, hscribes⟩ :=
      scrubbed_of_loggedOnly (loggedOnly_logEv (scrubEnded s ms) { cls := clsSecurity, cause := 7, a0 := BitVec.ofNat 64 ms.toNat }) r seq
        (bytesOf 4 ms)
    exact ⟨_, execScrubComplete_ends hscrubber, hstate, hscrubbed, hms, hnone, hoverlay, hslots, hsalts, hlive, hshadow, hscribes,
      fun _ => memByte_scrubbed (tidy_iff.mp hs) hr⟩
  case fails =>
    intro r seq e hopener he hstate
    obtain ⟨k, hk⟩ := execOpenPlotWaitExpiry_fails hopener he hstate
    have h := forgetPlot_forgets { s with mbox := { s.mbox with opener := none } } s.sec.scrubbed
    exact ⟨_, hk.trans (congrArg Host.Outcome.next (failOpen_eq hopener)), h.isOpen, h.plot, congrArg MboxSt.opener h.mbox⟩

end Sys2Proof.Proofs
end

section
/-! PROOFS. What power, reset and boot leave of the device, and what the operations of bedrock mode do (R369-R374, R437-R440). -/

namespace Sys2Proof.Machine

set_option Elab.async false

variable {s : State}

/-! ### Reset -/

/-- `t` is `s` after a reset: every table of parts is empty, nothing is open, launched or running, and the flash and the queue stay (R438, R440). -/
structure ClearedFrom (s t : State) : Prop where
  regs : t.regs = []
  units : t.units = []
  scribes : t.scribes = []
  subs : t.subs = []
  stackTbl : t.stackTbl = []
  ddrs : t.ddrs = []
  overlay : t.overlay = []
  chans : t.chans = []
  isOpen : t.sec.isOpen = false
  idle : t.launch.state = .idle
  running : t.step.running = false
  grant : t.dbg.grant = false
  flash : t.flash = s.flash
  pending : t.pending = s.pending

/-- The conjunction in which the obligation writes it. -/
theorem ClearedFrom.all {s t : State} (h : ClearedFrom s t) :
    t.regs = [] ∧ t.units = [] ∧ t.scribes = [] ∧ t.subs = [] ∧ t.stackTbl = [] ∧ t.ddrs = [] ∧ t.overlay = [] ∧ t.chans = [] ∧
      t.sec.isOpen = false ∧ t.launch.state = .idle ∧ t.step.running = false ∧ t.dbg.grant = false ∧ t.flash = s.flash ∧
      t.pending = s.pending :=
  ⟨h.regs, h.units, h.scribes, h.subs, h.stackTbl, h.ddrs, h.overlay, h.chans, h.isOpen, h.idle, h.running, h.grant, h.flash, h.pending⟩

theorem resetDevice_clears (s : State) (mem : Tbl Byte) (phase : Phase) (pwrgood : Bool) : ClearedFrom s (resetDevice s mem phase pwrgood) :=
  ⟨rfl, rfl, rfl, rfl, rfl, rfl, rfl, rfl, rfl, rfl, rfl, rfl, rfl, rfl⟩

/-- The phase in which a reset with power kept leaves the device: a thermal trip outlasts it (R444). -/
def phaseAfterReset (s : State) : Phase := if s.boot.phase = .tripped then .tripped else .reset

/-- `t` is `s` after a reset with power and PWRGOOD kept and no grant active (R440). -/
structure PoweredResetOf (s t : State) : Prop extends ClearedFrom s t where
  mem : t.mem = s.mem
  pwrgood : t.boot.pwrgood = true
  thermtripN : t.boot.thermtripN = s.boot.thermtripN
  phase : t.boot.phase = phaseAfterReset s
  counts : t.blot.counts = s.blot.counts

theorem poweredReset_resets (hpower : s.boot.pwrgood = true) (hgrant : s.dbg.grant = false) : PoweredResetOf s (poweredReset s) := by
  have hoff : ¬ (!s.boot.pwrgood) = true := by rw [hpower]; exact Bool.false_ne_true
  unfold poweredReset
  rw [if_neg hoff]
  dsimp only
  rw [if_neg (ne_true_of_eq_false hgrant)]
  exact ⟨{ resetDevice_clears s s.mem (phaseAfterReset s) true with }, rfl, rfl, rfl, rfl, rfl⟩

/-! ### Boot -/

theorem execResetNRelease_waits {v : BootView} (hphase : s.boot.phase = .reset ∨ s.boot.phase = .waitRef) (ha : v.refA = false)
    (hb : v.refB = false) : execResetNRelease v s = .next { s with boot := { s.boot with phase := .waitRef } } := by
  have hgo : ¬ (!(s.boot.phase == .reset || s.boot.phase == .waitRef)) = true := by rcases hphase with h | h <;> rw [h] <;> decide
  rw [execResetNRelease, if_neg hgo, ha, hb]
  rfl

/-- The device with its PLL locked to a passing reference (R369 event 1). -/
def locked (s : State) (v : BootView) : State :=
  { s with
    time := { s.time with refAok := v.refA, refBok := v.refB, refSel := if v.refA then 0 else 1 }
    boot := { s.boot with alertN := false } }

/-- The device as the ROM begins, with the flash read mode chosen (R369 event 2). -/
def romBegun (s : State) (v : BootView) (m : BitVec 2) : State :=
  { locked s v with boot := { s.boot with alertN := false, flashMode := m } }

/-- Where the boot goes once a reference passes (R369, R372). -/
theorem execResetNRelease_boots {v : BootView} (hphase : s.boot.phase = .reset ∨ s.boot.phase = .waitRef)
    (href : v.refA = true ∨ v.refB = true) :
    execResetNRelease v s = .next (match fastestMode v.sfdpModes with
      | none => enterBedrock (locked s v) v 1
      | some m => bootRom (romBegun s v m) v) := by
  have hgo : ¬ (!(s.boot.phase == .reset || s.boot.phase == .waitRef)) = true := by rcases hphase with h | h <;> rw [h] <;> decide
  have hlock : ¬ (!(v.refA || v.refB)) = true := by rcases href with h | h <;> simp [h]
  rw [execResetNRelease, if_neg hgo, if_neg hlock]
  cases fastestMode v.sfdpModes <;> rfl

/-- Ports that train leave the boot state. -/
theorem trainSubs_boot (n : Nat) (us : List Nat) (s : State) : (trainSubs s n us).boot = s.boot := by
  induction us generalizing s with
  | nil => rfl
  | cons u us ih =>
    rw [trainSubs, ih]
    split
    · rfl
    · rfl

theorem trainPorts_boot (ns : List Nat) (s : State) : (trainPorts s ns).boot = s.boot := by
  induction ns generalizing s with
  | nil => rfl
  | cons n ns ih =>
    rw [trainPorts, ih]
    split
    · exact trainSubs_boot n _ s
    · rfl

theorem bootService_serves (s : State) (v : BootView) :
    (bootService s v).boot.phase = .service ∧ (bootService s v).boot.bootMs = v.bootMs := by
  unfold bootService
  extract_lets s1 s2 s3
  clear_value s3
  rw [trainPorts_boot]
  exact ⟨rfl, rfl⟩

theorem bootRom_noHeader {v : BootView} (h : pickHdr s = none) : bootRom s v = enterBedrock s v 2 := by
  rw [bootRom, h]

section
variable {v : BootView} {c : Nat} {h : Hdr} (hhdr : pickHdr s = some (c, h))
include hhdr

theorem bootRom_noKey (hkey : rebuiltKey (setHdr s c h) = none) : bootRom s v = enterBedrock (setHdr s c h) v 3 := by
  simp only [bootRom, hhdr, hkey]

/-- Where the boot of a device with its identity goes: the chain, the grade map and the images are checked, in this order (R369 events 4 to 7). -/
def romChecked (s : State) (v : BootView) : State :=
  if !(chainReaches (chainRegion s) && chainOwn s) then enterBedrock s v 4
  else
    let s3 := { s with sec := { s.sec with meas := tset 0 s.sec.meas 7 (sm3 (chainBytes s)) } }
    if !gradeOk s3 then enterBedrock s3 v 5
    else
      let s4 := { s3 with sec := { s3.sec with meas := tset 0 s3.sec.meas 5 (sm3 (gradeMap s3)) } }
      let s5 := bootTargets (namedImages s4) [0, 1, 2, 3]
      if s5.2 then bootService s5.1 v else enterBedrock s5.1 v 6

theorem bootRom_keyed {k : Digest} (hkey : rebuiltKey (setHdr s c h) = some k) :
    bootRom s v = romChecked (takeIdentity (setHdr s c h) k) v := by
  simp only [bootRom, hhdr, hkey, romChecked]

end

theorem romChecked_noChain {v : BootView} (hchain : (chainReaches (chainRegion s) && chainOwn s) = false) :
    romChecked s v = enterBedrock s v 4 := if_pos (by rw [hchain]; rfl)

section
variable {v : BootView} {s3 s4 : State} {s5 : State × Bool} (hchain : (chainReaches (chainRegion s) && chainOwn s) = true)
  (h3 : { s with sec := { s.sec with meas := tset 0 s.sec.meas 7 (sm3 (chainBytes s)) } } = s3)
include hchain h3

theorem romChecked_chained : romChecked s v = if !gradeOk s3 then enterBedrock s3 v 5 else
    let s4 := { s3 with sec := { s3.sec with meas := tset 0 s3.sec.meas 5 (sm3 (gradeMap s3)) } }
    let s5 := bootTargets (namedImages s4) [0, 1, 2, 3]
    if s5.2 then bootService s5.1 v else enterBedrock s5.1 v 6 := by
  subst h3
  exact if_neg (by rw [hchain]; exact Bool.false_ne_true)

theorem romChecked_graded (hgrade : gradeOk s3 = true)
    (h4 : { s3 with sec := { s3.sec with meas := tset 0 s3.sec.meas 5 (sm3 (gradeMap s3)) } } = s4)
    (h5 : bootTargets (namedImages s4) [0, 1, 2, 3] = s5) :
    romChecked s v = if s5.2 then bootService s5.1 v else enterBedrock s5.1 v 6 := by
  subst h5 h4
  exact (romChecked_chained hchain h3).trans (if_neg (by rw [hgrade]; exact Bool.false_ne_true))

end

/-- What the ROM's checks come to: the cause of bedrock mode by the first that fails, or service. -/
theorem romChecked_phase (s2 : State) (v : BootView) :
    let s3 := { s2 with sec := { s2.sec with meas := tset 0 s2.sec.meas 7 (sm3 (chainBytes s2)) } }
    let s4 := { s3 with sec := { s3.sec with meas := tset 0 s3.sec.meas 5 (sm3 (gradeMap s3)) } }
    let s5 := bootTargets (namedImages s4) [0, 1, 2, 3]
    let t := romChecked s2 v
    if (chainReaches (chainRegion s2) && chainOwn s2) = false then t.boot.phase = .bedrock 4
    else if gradeOk s3 = false then t.boot.phase = .bedrock 5
    else if s5.2 = false then t.boot.phase = .bedrock 6 ∧ t.boot.hdrSeq = s5.1.boot.hdrSeq ∧ t.flash = s5.1.flash
    else t.boot.phase = .service ∧ t.boot.bootMs = v.bootMs := by
  intro s3 s4 s5 t
  obtain ⟨t, ht⟩ : ∃ u, u = t := ⟨_, rfl⟩
  rw [← ht]
  split
  next hchain => rw [ht.trans (romChecked_noChain hchain)]; rfl
  next hchain =>
    have hchained := Bool.of_not_eq_false hchain
    split
    next hgrade => rw [ht.trans (romChecked_chained (s3 := s3) hchained rfl), hgrade]; rfl
    next hgrade =>
      have hgraded := ht.trans (romChecked_graded (s5 := s5) hchained rfl (Bool.of_not_eq_false hgrade) rfl rfl)
      split
      next himages => rw [hgraded, himages]; exact ⟨rfl, rfl, rfl⟩
      next himages => rw [hgraded, Bool.of_not_eq_false himages]; exact bootService_serves s5.1 v

/-! ### Bedrock operations (R373, R374) -/

theorem bedOpen_of_bedItem {item : BitVec 4} {n : BitVec 32} (h : s.boot.bedItem = some (item, n)) : bedOpen s item.toNat = some n.toNat := by
  simp only [bedOpen, h, if_true]

/-- BEGIN of an item that fits its region erases the region and opens the item (R374). -/
theorem bedBegin_begins {item : BitVec 4} (hitem : item.toNat ≤ 7) (hfits : bedLength s ≤ (itemRegion item.toNat).2) :
    bedBegin s item.toNat = { s with
      flash := clearRun s.flash (itemRegion item.toNat).1 (itemRegion item.toNat).2
      boot := { s.boot with bedItem := some (item, BitVec.ofNat 32 (bedLength s)), bedError := 0 } } := by
  have hgo : ¬ (7 < item.toNat ∨ (itemRegion item.toNat).2 < bedLength s) := by omega
  unfold bedBegin
  dsimp only
  rw [if_neg hgo, BitVec.ofNat_toNat, BitVec.setWidth_eq]
  rfl

section
variable {item : BitVec 4} {n : BitVec 32} (hopen : s.boot.bedItem = some (item, n))
include hopen

/-- CHUNK within the item: its bytes are written where their digest matches (R374). -/
theorem bedChunk_within (hbuf : bedLength s ≤ 0x80000) (hin : bedOffset s + bedLength s ≤ n.toNat) :
    let b := readRun 0 s.boot.bedBuf 0 (bedLength s)
    bedChunk s item.toNat = if sm3 b ≠ bedDigest s then bedDone s errDigest
      else bedDone (flashWrite s ((itemRegion item.toNat).1 + bedOffset s) b) errOk := by
  intro b
  have hgo : ¬ (0x80000 < bedLength s ∨ n.toNat < bedOffset s + bedLength s) := by omega
  unfold bedChunk
  rw [bedOpen_of_bedItem hopen]
  exact if_neg hgo

theorem bedEnd_refused {e : Nat} (h : bedRefuses s item.toNat n.toNat = some e) : bedEnd s item.toNat = bedDone s e := by
  simp only [bedEnd, bedOpen_of_bedItem hopen, h]

/-- END of an item that passes its checks closes it without an error (R374). -/
theorem bedEnd_accepted (h : bedRefuses s item.toNat n.toNat = none) :
    (bedEnd s item.toNat).boot.bedItem = none ∧ (bedEnd s item.toNat).boot.bedError = 0 := by
  simp only [bedEnd, bedOpen_of_bedItem hopen, h]
  split
  · exact ⟨rfl, rfl⟩
  · split
    · exact ⟨rfl, rfl⟩
    · exact ⟨rfl, rfl⟩

end

end Sys2Proof.Machine
end

section
/-! PROOFS. What is shown of power, reset and boot, and of bedrock mode. -/

namespace Sys2Proof.Proofs

open Machine

/-- Settles O52: a reset keeps what `resetDevice` is given, and the boot stops at the first of its checks that fails. -/
theorem powerAndBoot : Obligations.PowerAndBoot := by
  intro s cleared
  have hcleared {t : State} (h : ClearedFrom s t) : cleared t := h.all
  refine ⟨?up, fun h => congrArg Host.Outcome.next (if_neg (ne_true_of_eq_false h)), ?falls, fun hpower hgrant => ⟨?warm, ?counts, fun rail => ?rail⟩, ?boots,
    fun h => congrArg Host.Outcome.next (if_pos h)⟩
  case up => exact ⟨_, rfl, hcleared { resetDevice_clears s [] .off false with }, rfl, rfl, rfl, rfl⟩
  case falls => exact ⟨_, rfl, hcleared { resetDevice_clears s s.mem .off false with }, rfl, rfl, rfl⟩
  case warm =>
    have h := poweredReset_resets (s := clearCounts s) hpower hgrant
    have hexec : execWarmReset s = .next (poweredReset (clearCounts s)) := by rw [execWarmReset, if_pos hpower]
    exact ⟨_, hexec, hcleared { h with }, h.mem, h.pwrgood, h.thermtripN, h.phase⟩
  case counts =>
    have h := poweredReset_resets (s := clearCounts s) hpower hgrant
    have hexec : execWarmReset s = .next (poweredReset (clearCounts s)) := by rw [execWarmReset, if_pos hpower]
    exact ⟨_, hexec, h.counts⟩
  case rail =>
    have h := poweredReset_resets hpower hgrant
    exact ⟨_, rfl, hcleared h.toClearedFrom, h.mem, h.pwrgood, h.counts, h.thermtripN, h.phase⟩
  case boots =>
    intro v hphase
    refine ⟨execResetNRelease_waits hphase, fun href => ⟨fun hmode => ?noTable, fun hmode hhdr => ?noHeader, fun m c h hmode hhdr => ?header⟩⟩
    case noTable =>
      have hexec := execResetNRelease_boots hphase href
      rw [hmode] at hexec
      exact ⟨_, hexec, rfl⟩
    case noHeader =>
      obtain ⟨m, hm⟩ := Option.ne_none_iff_exists'.mp hmode
      have hexec := execResetNRelease_boots hphase href
      rw [hm] at hexec
      dsimp only at hexec
      rw [bootRom_noHeader (s := romBegun s v m) hhdr] at hexec
      exact ⟨_, hexec, rfl⟩
    case header =>
      intro s0 s1
      have hexec := execResetNRelease_boots hphase href
      rw [hmode] at hexec
      dsimp only at hexec
      refine ⟨fun hkey => ?_, fun k hkey => ?_⟩
      · rw [bootRom_noKey (s := romBegun s v m) hhdr hkey] at hexec
        exact ⟨_, hexec, rfl, rfl⟩
      · intro s2 s3 s4 s5
        rw [bootRom_keyed (s := romBegun s v m) hhdr hkey] at hexec
        refine ⟨_, hexec, romChecked_phase s2 v⟩

/-- Settles O54: each operation ends with its code, and changes the flash only where its checks pass. -/
theorem bedrockOperations : Obligations.BedrockOperations := by
  intro s hbed
  have hrun {t : State} : Host.Outcome.next (σ := State) (φ := Fault) (ρ := Refusal) (if inBedrock s then t else s) = .next t :=
    congrArg Host.Outcome.next (if_pos hbed)
  refine ⟨fun item hitem hfits => hrun.trans (congrArg Host.Outcome.next (bedBegin_begins hitem hfits)), fun item n hopen hbuf hin => ?chunk,
    fun item n hopen => ⟨fun e he => hrun.trans (congrArg Host.Outcome.next (bedEnd_refused hopen he)), fun h => ?accepted⟩, fun _ => hrun⟩
  case chunk =>
    intro b
    have h := bedChunk_within hopen hbuf hin
    refine ⟨fun hdigest => ⟨_, hrun.trans (congrArg Host.Outcome.next (h.trans (if_neg (not_not.mpr hdigest)))), rfl, rfl, rfl⟩, fun hdigest => ?_⟩
    exact hrun.trans (congrArg Host.Outcome.next (h.trans (if_pos hdigest)))
  case accepted =>
    obtain ⟨hclosed, herror⟩ := bedEnd_accepted hopen h
    exact ⟨_, hrun, hclosed, herror⟩

end Sys2Proof.Proofs
end

section
/-! PROOFS. What a coalescing window's close writes, what the flush of telemetry sends, and what the management endpoint answers (R389-R398). -/

namespace Sys2Proof.Machine

set_option Elab.async false

variable {s : State}

/-! ### Coalescing (R389) -/

theorem execCoalesceWindowClose_window {cls : BitVec 3} {cause : BitVec 8} {loc : BitVec 64} {w : AlarmWindow}
    (hw : s.blot.windows.find? (windowIs cls cause loc) = some w) :
    execCoalesceWindowClose cls cause loc s = .next (
      if w.count = 0 then { s with blot := { s.blot with windows := s.blot.windows.filter fun x => !windowIs cls cause loc x } }
      else blotWrite { s with blot := { s.blot with
        windows := s.blot.windows.map fun x => if windowIs cls cause loc x then { x with count := 0 } else x } } (coalesced w)) := by
  rw [execCoalesceWindowClose, hw]

/-! ### The grain of telemetry (R393, R394) -/

/-- The device with the grain it held given up to be sent. -/
def grainTaken (s : State) : State := { s with blot := { s.blot with fill := [] } }

/-- A filled grain goes to the sink ring where one is configured, and to the uplink otherwise, where one without a route is only counted as such. -/
theorem telemetrySend_filled (hfill : s.blot.fill ≠ []) :
    telemetrySend s =
      if cfg s offInbandCfg 10 10 = 1 then sinkWrite (grainTaken s) (telemetryPayload s)
      else
        let r := telemetryRoute (grainTaken s) (telemetryPayload s)
        if r.2 then { r.1 with blot := { r.1.blot with inSent := r.1.blot.inSent + 1, streamSeq := r.1.blot.streamSeq + 1 } } else r.1 :=
  if_neg hfill

theorem telemetryRoute_eq_uplink {k : Nat} (payload : BitVec 2048) (h : uplink s = some k) :
    telemetryRoute s payload =
      (modSub s k fun b => { b with q2 := b.q2 ++ [mkGrain (grainHeader 0 2 5 0 s.sec.plot.toNat) payload] }, true) := by
  rw [telemetryRoute, h]

theorem telemetryRoute_eq_unrouted (payload : BitVec 2048) (h : uplink s = none) :
    telemetryRoute s payload = ({ s with blot := { s.blot with noRoute := s.blot.noRoute + 1 } }, false) := by
  rw [telemetryRoute, h]

theorem sinkWrite_fill (s : State) (payload : BitVec 2048) : (sinkWrite s payload).blot.fill = s.blot.fill := by
  unfold sinkWrite
  dsimp only
  split
  · rfl
  · split
    · rfl
    · rfl

/-- A grain sent to an uplink is counted there and numbers the stream (R394). -/
theorem telemetrySend_uplink (hfill : s.blot.fill ≠ []) (hsink : cfg s offInbandCfg 10 10 ≠ 1) (h : (uplink s).isSome = true) :
    (telemetrySend s).blot = { s.blot with fill := [], inSent := s.blot.inSent + 1, streamSeq := s.blot.streamSeq + 1 } := by
  obtain ⟨k, hk⟩ := Option.isSome_iff_exists.mp h
  rw [telemetrySend_filled hfill, if_neg hsink, telemetryRoute_eq_uplink (s := grainTaken s) _ hk]
  rfl

/-- A grain without a route is counted as such, and the stream's number stays (R394; log 37). -/
theorem telemetrySend_unrouted (hfill : s.blot.fill ≠ []) (hsink : cfg s offInbandCfg 10 10 ≠ 1) (h : uplink s = none) :
    (telemetrySend s).blot = { s.blot with fill := [], noRoute := s.blot.noRoute + 1 } := by
  rw [telemetrySend_filled hfill, if_neg hsink, telemetryRoute_eq_unrouted (s := grainTaken s) _ h]
  rfl

/-- Whatever becomes of the grain, the device holds none then. -/
theorem telemetrySend_empties (hfill : s.blot.fill ≠ []) : (telemetrySend s).blot.fill = [] := by
  by_cases hsink : cfg s offInbandCfg 10 10 = 1
  · rw [telemetrySend_filled hfill, if_pos hsink, sinkWrite_fill]
    rfl
  · cases h : uplink s with
    | none => rw [telemetrySend_unrouted hfill hsink h]
    | some k => rw [telemetrySend_uplink hfill hsink (by rw [h]; rfl)]

theorem telemetrySend_mem (s : State) : (telemetrySend s).mem = s.mem := (keepsEnded_of_loggedOnly (loggedOnly_telemetrySend s)).mem

/-! ### The management endpoint (R397, R398) -/

theorem mctpServe_inService {f : State → State} (h : inService s = true) : mctpServe s f = .next (f s) := by
  rw [mctpServe, h]
  rfl

theorem mpServe_inService {f : State → State} (h : inService s = true) : mpServe s f = .next (f s) := by
  rw [mpServe, h]
  rfl

theorem execSetdasa_inService {static dynamic : BitVec 7} (h : inService s = true) (hstatic : static.toNat = cfg s offOobCfg 6 0) :
    execSetdasa static dynamic s = .next { s with blot := { s.blot with dynAddr := some dynamic } } := by
  rw [execSetdasa, mctpServe_inService h, if_pos hstatic]

theorem execSetEndpointId_inService {eid : BitVec 8} (h : inService s = true) (hid : ¬(eid = 0 ∨ eid = 0xFF)) :
    execSetEndpointId eid s = .next (mctpAnswer { s with blot := { s.blot with eid := some eid } } [0, 0, eid, 0]) := by
  rw [execSetEndpointId, mctpServe_inService h, if_neg hid]

theorem execGetEndpointId_inService (h : inService s = true) : execGetEndpointId s =
    .next (mctpAnswer (freeBytes 1 s).2 ([0, endpointId s] ++ (freeBytes 1 s).1 ++ [0])) :=
  mctpServe_inService h

theorem execGetMctpVersionSupport_inService {ty : BitVec 8} (h : inService s = true) (hty : ty = 0 ∨ ty = 0x7F ∨ ty = 0xFF) :
    execGetMctpVersionSupport ty s = .next (mctpAnswer (freeBytes 4 s).2 ([0, 1] ++ (freeBytes 4 s).1)) := by
  rw [execGetMctpVersionSupport, mctpServe_inService h, if_pos hty]

theorem execGetMessageTypeSupport_inService (h : inService s = true) :
    execGetMessageTypeSupport s = .next (mctpAnswer s [0, 1, 0x7F]) :=
  mctpServe_inService h

theorem execGetVendorDefinedMessageSupport_inService (h : inService s = true) : execGetVendorDefinedMessageSupport 0 s =
    .next (mctpAnswer (freeBytes 6 s).2 ([0, 0xFF, 1] ++ (freeBytes 6 s).1)) := by
  rw [execGetVendorDefinedMessageSupport, mctpServe_inService h, if_pos rfl]

theorem execMctpRead_inService (h : inService s = true) : execMctpRead s = .next (mctpAnswer
    { s with blot := { s.blot with oobQueue := s.blot.oobQueue.drop 16, oobThrottledRead := s.blot.oobThrottled, ibi := false } }
    (natLe 2 (s.blot.oobQueue.take 16).length ++ natLe 2 0 ++ bytesOf 4 (s.blot.oobThrottled - s.blot.oobThrottledRead)
      ++ (s.blot.oobQueue.take 16).flatMap entryBytes)) :=
  mpServe_inService h

theorem execMctpCounts_inService {cls : BitVec 3} (h : inService s = true) : execMctpCounts cls s =
    .next (mctpAnswer s ((List.range 256).flatMap fun k => natLe 4 (countOf s cls.toNat k))) :=
  mpServe_inService h

theorem execMctpStatus_inService (h : inService s = true) : execMctpStatus s = .next (mctpAnswer s
    (natLe 8 s.blot.alarm.toNat ++ natLe 8 s.blot.suspect.toNat ++ (List.range 8).flatMap fun c => natLe 8 (classStatus s c))) :=
  mpServe_inService h

theorem length_freeBytes (n : Nat) (s : State) : (freeBytes n s).1.length = n := length_bytesOf n _

theorem length_flatMap_natLe {α : Type} (n : Nat) (f : α → Nat) (l : List α) : (l.flatMap fun x => natLe n (f x)).length = l.length * n := by
  induction l with
  | nil => simp
  | cons x l ih => rw [List.flatMap_cons, List.length_append, length_natLe, ih, List.length_cons, Nat.succ_mul, Nat.add_comm]

theorem cfg_lt (s : State) (off hi lo : Nat) : cfg s off hi lo < 2 ^ (hi + 1 - lo) := Nat.mod_lt _ (Nat.two_pow_pos _)

end Sys2Proof.Machine
end

section
/-! PROOFS. What is shown of the blotter's commands and of the management endpoint. -/

namespace Sys2Proof.Proofs

open Machine

/-- Settles O48: a window's close turns on its count, and the flush on where the grain it sends goes. -/
theorem blotterCommands : Obligations.BlotterCommands := by
  intro s
  refine ⟨fun cls cause loc w hw => ⟨fun hzero => ?_, fun hcount => ?_⟩, fun _ => rfl, rfl, fun hfill => ?_, fun hfill hsink =>
    ⟨fun hup => ?_, fun hnone => ?_⟩⟩
  · exact (execCoalesceWindowClose_window hw).trans (congrArg Host.Outcome.next (if_pos hzero))
  · exact (execCoalesceWindowClose_window hw).trans (congrArg Host.Outcome.next (if_neg hcount))
  · exact ⟨_, rfl, telemetrySend_empties hfill, telemetrySend_mem s⟩
  · have h := telemetrySend_uplink hfill hsink hup
    exact ⟨_, rfl, by rw [h], by rw [h], by rw [h]⟩
  · have h := telemetrySend_unrouted hfill hsink hnone
    exact ⟨_, rfl, by rw [h], by rw [h], by rw [h]⟩

/-- Settles O49: in service the endpoint answers, and the free fields are as long as they are drawn. -/
theorem managementCommands : Obligations.ManagementCommands := by
  intro s hin
  refine ⟨fun dyn => execSetdasa_inService hin ?static, fun e hzero hff => execSetEndpointId_inService hin (not_or.mpr ⟨hzero, hff⟩),
    ⟨_, execGetEndpointId_inService hin, (drawFree 8 s).1, ?eid⟩, fun ty hty =>
    ⟨_, execGetMctpVersionSupport_inService hin hty, (freeBytes 4 s).1, length_freeBytes 4 s, rfl⟩,
    execGetMessageTypeSupport_inService hin,
    ⟨_, execGetVendorDefinedMessageSupport_inService hin, (freeBytes 6 s).1, length_freeBytes 6 s, rfl⟩,
    execMctpRead_inService hin, fun _ => execMctpCounts_inService hin,
    ⟨_, execMctpStatus_inService hin, (List.range 8).flatMap fun c => natLe 8 (classStatus s c), length_flatMap_natLe 8 _ _, rfl⟩⟩
  case static => rw [BitVec.toNat_ofNat, Nat.mod_eq_of_lt (cfg_lt s offOobCfg 6 0)]
  case eid => exact congrArg (fun b => some ([0, endpointId s] ++ b ++ [0])) (bytesOf_byte (drawFree 8 s).1)

end Sys2Proof.Proofs
end

section
/-! PROOFS. What the TAP does with a grant, with an access and with its other instructions (R420, R421, R423, R430). -/

namespace Sys2Proof.Machine

set_option Elab.async false

variable {s : State}

/-! ### Grants (R423) -/

theorem takeGrant_refused {b : Bytes} {e : Nat} (h : grantError s b = some e) :
    takeGrant s b = (logEv s { cls := clsSecurity, cause := 11, a0 := BitVec.ofNat 64 e }, e) := by
  rw [takeGrant, h]

/-- An accepted grant is active with its scope and holder; the entry that says so leaves them. -/
theorem takeGrant_accepted {b : Bytes} (h : grantError s b = none) :
    ∃ t, takeGrant s b = (t, errOk) ∧ t.dbg.grant = true ∧ t.dbg.scope = grantScope b ∧ t.dbg.holder = grantHolder b
      ∧ t.dbg.tapIr = s.dbg.tapIr := by
  rw [takeGrant, h]
  dsimp only
  generalize hs1 : ({ s with dbg := { s.dbg with grant := true, scope := grantScope b, holder := grantHolder b, notAfter := grantAfter b } } : State) = s1
  obtain ⟨_, _, _, _, _, _, _, _, _, hlog⟩ := (loggedOnly_logEv s1
    { cls := clsSecurity, cause := 10, a0 := BitVec.ofNat 64 (grantHolder b).toNat, a1 := BitVec.ofNat 64 (grantScope b).toNat }).1
  rw [hlog]
  subst hs1
  exact ⟨_, rfl, rfl, rfl, rfl, rfl⟩

/-! ### Accesses (R421) -/

theorem execXferRead_unscoped {a : DevAddr} (h : inScope s scopeRead = false) : execXferRead a s = .next (xferRefused s a.toNat) :=
  congrArg Host.Outcome.next (if_pos (by rw [h]; rfl))

theorem execXferRead_stack {a : DevAddr} {pc off : Nat} (hdec : decodeAddr a.toNat = .stack pc off) (hscope : inScope s scopeRead = true)
    (halign : a.toNat % 8 = 0) (hserv : s.boot.phase = .service) (hback : backedRange s a.toNat 8 = true) :
    execXferRead a s = .next (xferDone s 0 (wordOf 64 (directRead s a.toNat 8))) := by
  have hgood : ¬(a.toNat % 8 ≠ 0 ∨ s.boot.phase ≠ .service) := by simp [halign, hserv]
  simp only [execXferRead, hscope, Bool.not_true, Bool.false_eq_true, if_false, if_neg hgood, hdec, hback, if_true]

theorem execXferWrite_ungranted {a : DevAddr} {v : BitVec 64} (h : s.dbg.grant = false) :
    execXferWrite a v s = .next (xferRefused s a.toNat) :=
  congrArg Host.Outcome.next (if_pos (by rw [h]; rfl))

theorem execXferWrite_stack {a : DevAddr} {pc off : Nat} {v : BitVec 64} (hdec : decodeAddr a.toNat = .stack pc off)
    (hgrant : s.dbg.grant = true) (halign : a.toNat % 8 = 0) (hserv : s.boot.phase = .service) (hscope : inScope s scopeWrite = true)
    (hback : backedRange s a.toNat 8 = true) (hlive : writesLive s a.toNat 8 = false) :
    execXferWrite a v s = .next (debugWrote (directWrite s a.toNat (bytesOf 8 v)) a.toNat v) := by
  have hgood : ¬(a.toNat % 8 ≠ 0 ∨ s.boot.phase ≠ .service) := by simp [halign, hserv]
  simp only [execXferWrite, hgrant, hscope, Bool.not_true, Bool.false_eq_true, if_false, if_neg hgood, hdec, hback, hlive]

/-- A debug write that has landed changes memory no more, and is known to the device and to XFER. -/
theorem debugWrote_notes (s : State) (a : Nat) (v : BitVec 64) :
    (debugWrote s a v).mem = s.mem ∧ (debugWrote s a v).dbg.debugWrite = true ∧ (debugWrote s a v).dbg.xferResult = 0 := by
  unfold debugWrote
  extract_lets s1
  have hmem : s1.mem = s.mem := (keepsRun_logEv s _).mem
  clear_value s1
  exact ⟨hmem, rfl, rfl⟩

/-! ### Boundary scan (R420) -/

theorem execExtest_acts {pins : List Bool} (hscope : inScope s scopeHalt = true) (hclosed : s.sec.isOpen = false) :
    execExtest pins s = .next { s with
      dbg := { s.dbg with tapIr := 0, tapData := .scan pins }, boot := { s.boot with scan := some pins } } :=
  congrArg Host.Outcome.next (if_pos (by rw [hscope, hclosed]; rfl))

theorem execExtest_bypasses {pins : List Bool} (h : inScope s scopeHalt = false ∨ s.sec.isOpen = true) :
    execExtest pins s = .next (tapSelect s 0) :=
  congrArg Host.Outcome.next (if_neg (by rcases h with h | h <;> simp [h]))

end Sys2Proof.Machine
end

section
/-! PROOFS. What is shown of the debug port. -/

namespace Sys2Proof.Proofs

open Machine

/-- Settles O50: the TAP takes each instruction, and an access is done or refused by the grant that stands. -/
theorem debugPortCommands : Obligations.DebugPortCommands := by
  intro s
  refine ⟨fun g => ⟨fun hoff => ?denied, fun hon => ?presented⟩, fun a pc off hdec => ⟨?read, ?unread, ?write, ?unwritten⟩,
    fun pins => execExtest_acts, fun pins => execExtest_bypasses, rfl⟩
  case denied => exact congrArg Host.Outcome.next (if_neg (by rw [hoff]; decide))
  case presented =>
    have htake : exec (.tapGrant g) s = .next (takeGrant (tapSelect s 0x11) (slice g 0 192)).1 := congrArg Host.Outcome.next (if_pos hon)
    cases he : grantError s (slice g 0 192) with
    | some e => exact htake.trans (congrArg (fun r => Host.Outcome.next r.1) (takeGrant_refused (s := tapSelect s 0x11) he))
    | none =>
      obtain ⟨t, ht, hgrant, hscope, hholder, hir⟩ := takeGrant_accepted (s := tapSelect s 0x11) he
      exact ⟨t, htake.trans (congrArg (fun r => Host.Outcome.next r.1) ht), hgrant, hscope, hholder, hir⟩
  case read => exact fun hscope halign hserv hback => execXferRead_stack hdec hscope halign hserv hback
  case unread => exact fun hscope => execXferRead_unscoped hscope
  case write =>
    exact fun v hgrant halign hserv hscope hback hlive =>
      ⟨_, execXferWrite_stack hdec hgrant halign hserv hscope hback hlive, debugWrote_notes _ _ _⟩
  case unwritten => exact fun v hgrant => execXferWrite_ungranted hgrant

end Sys2Proof.Proofs
end

section
/-! PROOFS. How units halt and run on, and what one stroke of a halted unit is (R424-R426). -/

namespace Sys2Proof.Machine

set_option Elab.async false

variable {s : State}

/-! ### What leaves the units and the breakpoints -/

/-- `t` has the units and the breakpoints of `s`. -/
def KeepsUnits (s t : State) : Prop := t.units = s.units ∧ t.dbg.bps = s.dbg.bps

protected theorem KeepsUnits.refl (s : State) : KeepsUnits s s := ⟨rfl, rfl⟩

protected theorem KeepsUnits.trans {s t u : State} (h : KeepsUnits s t) (g : KeepsUnits t u) : KeepsUnits s u :=
  ⟨g.1.trans h.1, g.2.trans h.2⟩

protected theorem KeepsUnits.ite {c : Prop} [Decidable c] {s t u : State} (ht : KeepsUnits s t) (hu : KeepsUnits s u) :
    KeepsUnits s (if c then t else u) := by
  split
  · exact ht
  · exact hu

theorem KeepsUnits.unit {s t : State} (h : KeepsUnits s t) (k : Nat) : getUnit t k = getUnit s k := congrArg (tget ({} : UnitSt) · k) h.1

theorem keepsUnits_sendLaunch (s : State) (k : Nat) (m : LaunchMsg) : KeepsUnits s (sendLaunch s k m) := .ite ⟨rfl, rfl⟩ (.refl s)

theorem keepsUnits_sendAll (s : State) (m : LaunchMsg) (ks : List Nat) : KeepsUnits s (sendAll s m ks) := by
  induction ks generalizing s with
  | nil => exact .refl s
  | cons k ks ih => exact (keepsUnits_sendLaunch s k m).trans (ih _)

theorem keepsUnits_flood (s : State) (m : LaunchMsg) (o : Option Nat) : KeepsUnits s (flood s m o) :=
  (keepsUnits_sendAll s _ _).trans (keepsUnits_sendAll _ _ _)

theorem keepsUnits_originate (s : State) (n : BitVec 64) (b : LaunchBody) : KeepsUnits s (originate s n b) := by
  unfold originate
  refine .trans ?_ (keepsUnits_flood _ _ _)
  exact ⟨rfl, rfl⟩

theorem keepsUnits_beginHold (s : State) (p u : Nat) (d : BitVec 32) : KeepsUnits s (beginHold s p u d) := by
  unfold beginHold
  refine .trans ?_ (keepsUnits_originate _ _ _)
  exact ⟨rfl, rfl⟩

theorem keepsUnits_endHold (s : State) (p u : Nat) (d : BitVec 32) (o : Nat) : KeepsUnits s (endHold s p u d o) := by
  unfold endHold
  refine .trans ?_ (keepsUnits_originate _ _ _)
  exact ⟨rfl, rfl⟩

theorem keepsUnits_telemetryRoute (s : State) (p : BitVec 2048) : KeepsUnits s (telemetryRoute s p).1 := by
  unfold telemetryRoute
  split <;> exact .refl s

theorem keepsUnits_sinkWrite (s : State) (p : BitVec 2048) : KeepsUnits s (sinkWrite s p) :=
  .ite (.refl s) (.ite (.refl s) (.refl s))

theorem keepsUnits_telemetrySend (s : State) : KeepsUnits s (telemetrySend s) :=
  .ite (.refl s) (.ite (keepsUnits_sinkWrite _ _) (.ite (keepsUnits_telemetryRoute _ _) (keepsUnits_telemetryRoute _ _)))

theorem keepsUnits_inbandTake (s : State) (e : BlotEntry) : KeepsUnits s (inbandTake s e) := by
  unfold inbandTake
  refine .ite (.refl s) ?_
  extract_lets s0 _ _ _ s1
  have h0 : KeepsUnits s s0 := .ite (keepsUnits_telemetrySend s) (.refl s)
  exact .ite h0 (.ite (h0.trans (keepsUnits_telemetrySend s1)) h0)

theorem keepsUnits_oobTake (s : State) (e : BlotEntry) : KeepsUnits s (oobTake s e) := .ite (.refl s) (.ite (.refl s) (.refl s))

theorem keepsUnits_blotWrite (s : State) (e : BlotEntry) : KeepsUnits s (blotWrite s e) := by
  unfold blotWrite
  extract_lets r _ s1
  exact (keepsUnits_inbandTake s1 r.2).trans (keepsUnits_oobTake _ _)

theorem keepsUnits_logRaw (s : State) (e : Ev) : KeepsUnits s (logRaw s e) := by
  unfold logRaw
  extract_lets ent _ _ s1 _ _ s2
  have h2 : KeepsUnits s s2 := .ite (.refl s) (.refl s)
  exact .ite (.ite (.refl s) (h2.trans (keepsUnits_blotWrite s2 ent))) (keepsUnits_blotWrite s1 ent)

/-! ### Halting (R424) -/

/-- Units halted in `s` are halted in `t`. -/
def StillHalted (s t : State) : Prop := ∀ k, (getUnit s k).halted = true → (getUnit t k).halted = true

theorem KeepsUnits.stillHalted {s t : State} (h : KeepsUnits s t) : StillHalted s t := fun k hk => (h.unit k).symm ▸ hk

theorem StillHalted.trans {s t u : State} (h : StillHalted s t) (g : StillHalted t u) : StillHalted s u := fun k hk => g k (h k hk)

theorem halted_ne {u : UnitSt} (h : u.halted = true) : u ≠ {} := fun e => absurd (h.symm.trans (congrArg UnitSt.halted e)) (by decide)

theorem getUnit_modUnit_halt (s : State) (k i : Nat) :
    (getUnit (modUnit s k fun u => { u with halted := true }) i).halted = (if i = k then true else (getUnit s i).halted) := by
  have hne : ({ getUnit s k with halted := true } : UnitSt) ≠ {} := halted_ne rfl
  split
  · next h =>
    subst h
    exact congrArg UnitSt.halted (getUnit_setUnit s i _ hne)
  · next h => exact congrArg UnitSt.halted (tget_tset_ne_of_ne _ s.units k i _ hne h)

/-- Halting a list of units halts them, and no other runs on. -/
theorem halted_haltUnits {k : Nat} : ∀ (ks : List Nat) (s : State), k ∈ ks ∨ (getUnit s k).halted = true →
    (getUnit (haltUnits s ks) k).halted = true
  | [], _, h => h.resolve_left List.not_mem_nil
  | i :: ks, s, h => by
    refine halted_haltUnits ks _ ?_
    rw [getUnit_modUnit_halt]
    rcases h with h | h
    · rcases List.mem_cons.mp h with rfl | h
      · exact .inr (if_pos rfl)
      · exact .inl h
    · exact .inr (by rw [h, ite_self])

theorem stillHalted_haltUnits (s : State) (ks : List Nat) : StillHalted s (haltUnits s ks) := fun _ hk => halted_haltUnits ks s (.inr hk)

theorem bpHits_units (s : State) (is : List Nat) : (bpHits s is).units = s.units := by
  induction is generalizing s with
  | nil => rfl
  | cons i is ih => exact ih _

/-- The entry that tells of a halt, what breakpoints it meets and the hold that it begins leave the units halted. -/
theorem halted_haltWith {ks : List Nat} {k : Nat} (loc : BitVec 64) (bp : Nat) (hk : k ∈ ks) :
    (getUnit (haltWith s ks loc bp) k).halted = true := by
  unfold haltWith
  extract_lets first s1 met s2
  have h1 : (getUnit s1 k).halted = true := (keepsUnits_logRaw _ _).stillHalted k (halted_haltUnits ks s (.inl hk))
  have h2 : (getUnit s2 k).halted = true := by
    unfold s2
    split
    · exact h1
    · exact stillHalted_haltUnits _ _ k ((congrArg (fun t => (tget {} t k : UnitSt).halted) (bpHits_units s1 met)).trans h1)
  clear_value s2
  split
  · exact (keepsUnits_beginHold _ _ _ _).stillHalted k h2
  · exact h2

theorem keepsRun_runLocator (s : State) (reach core : Nat) : KeepsRun s (runLocator s reach core).2 := ⟨rfl, rfl, rfl, rfl⟩

theorem keepsRun_haltOn (s : State) (reach core : Nat) : KeepsRun s (haltOn s reach core) :=
  (keepsRun_runLocator s reach core).trans (noticesOnly_of_loggedOnly (loggedOnly_haltWith _ _ _ _)).keepsRun

theorem execDebugHalt_halts {reach : BitVec 2} {core : BitVec 6} (hrun : mayRun s = true) (hreach : reach.toNat < 2) :
    execDebugHalt reach core s = .next (haltOn s reach.toNat core.toNat) :=
  congrArg Host.Outcome.next (if_pos (by rw [hrun, decide_eq_true hreach]; rfl))

/-! ### Running on (R425, R426) -/

theorem getBp_of_none (h : s.dbg.bps = []) (i : Nat) : getBp s i = {} := congrArg (tget ({} : Breakpoint) · i) h

/-- A breakpoint that is not set is of kind 0, which is none. -/
theorem bpArmed_of_none (h : s.dbg.bps = []) {kind : Nat} (hkind : kind ≠ 0) (i : Nat) : bpArmed s kind i = false := by
  rw [bpArmed, getBp_of_none h, Bool.and_eq_false_iff]
  exact .inl (beq_eq_false_iff_ne.mpr fun e => hkind e.symm)

theorem blotMet_of_none (h : s.dbg.bps = []) (cls : Nat) (written : Bool) : blotMet s cls written = [] := by
  simp [blotMet, bpArmed_of_none h]

/-- With no breakpoint set an entry halts nothing. -/
theorem logEv_of_no_breakpoints (h : s.dbg.bps = []) (e : Ev) : logEv s e = logRaw s e := by
  have hb : (logRaw s e).dbg.bps = [] := (keepsUnits_logRaw s e).2.trans h
  simp only [logEv, blotBreak, blotMet_of_none hb]

theorem ShakesOnly.keepsUnits {s t : State} (h : ShakesOnly s t) : KeepsUnits s t := by
  obtain ⟨_, _, rfl⟩ := h
  exact ⟨rfl, rfl⟩

theorem ShakesOnly.keepsRun {s t : State} (h : ShakesOnly s t) : KeepsRun s t := by
  obtain ⟨_, _, rfl⟩ := h
  exact ⟨rfl, rfl, rfl, rfl⟩

theorem shakesOnly_shakeBlotted (s : State) (ks : List Nat) : ShakesOnly s (shakeBlotted s ks) := by
  induction ks generalizing s with
  | nil => exact .refl s
  | cons k ks ih =>
    refine .trans ?_ (ih _)
    split
    · exact shakesOnly_startShake s k true
    · exact .refl s

theorem keepsUnits_endHaltHold (s : State) (o : Nat) : KeepsUnits s (endHaltHold s o) := by
  unfold endHaltHold
  split
  · exact keepsUnits_endHold { s with dbg := { s.dbg with holdSent := false } } _ _ _ _
  · exact .refl s

theorem keepsRun_endHaltHold (s : State) (o : Nat) : KeepsRun s (endHaltHold s o) := by
  unfold endHaltHold
  split
  · have h := (noticesOnly_of_loggedOnly (loggedOnly_endHold { s with dbg := { s.dbg with holdSent := false } } 0xFF 0xFF (haltDry s) o)).keepsRun
    exact ⟨h.step, h.mem, h.mbox, h.sec⟩
  · exact .refl s

/-- What follows when the last unit has run on: handshakes and notices. -/
theorem afterResume_keeps (s : State) : KeepsUnits s (afterResume s) ∧ KeepsRun s (afterResume s) := by
  unfold afterResume
  split
  · exact ⟨.refl s, .refl s⟩
  · extract_lets _ s1
    have h1 : KeepsUnits s s1 ∧ KeepsRun s s1 := by
      unfold s1
      split
      · have h := shakesOnly_shakeBlotted { s with dbg := { s.dbg with haltBlotted := false } } (subKeys s)
        exact ⟨h.keepsUnits, h.keepsRun.step, h.keepsRun.mem, h.keepsRun.mbox, h.keepsRun.sec⟩
      · exact ⟨.refl s, .refl s⟩
    exact ⟨h1.1.trans (keepsUnits_endHaltHold _ _), h1.2.trans (keepsRun_endHaltHold _ _)⟩

theorem getUnit_modUnit_self (hs : keysRise 0 s.units = true) (k : Nat) (f : UnitSt → UnitSt) :
    getUnit (modUnit s k f) k = f (getUnit s k) :=
  tget_tset_self _ s.units k _ hs

theorem getUnit_modUnit_ne (hs : keysRise 0 s.units = true) {k i : Nat} (f : UnitSt → UnitSt) (h : i ≠ k) :
    getUnit (modUnit s k f) i = getUnit s i :=
  tget_tset_ne _ s.units k i _ hs h

/-- The units of a list run on, and no other halts. -/
theorem runs_resumeUnits {k : Nat} : ∀ (ks : List Nat) (s : State), IsTidy s → k ∈ ks ∨ (getUnit s k).halted = false →
    (getUnit (resumeUnits s ks) k).halted = false
  | [], _, _, h => h.resolve_left List.not_mem_nil
  | i :: ks, s, hs, h => by
    refine runs_resumeUnits ks _ hs.modUnit ?_
    by_cases hik : k = i
    · subst hik
      exact .inr (congrArg UnitSt.halted (getUnit_modUnit_self hs.units k _))
    · refine h.imp (fun h => (List.mem_cons.mp h).resolve_left hik) fun h => ?_
      exact (congrArg UnitSt.halted (getUnit_modUnit_ne hs.units _ hik)).trans h

theorem resumeUnits_keeps (s : State) (ks : List Nat) : KeepsRun s (resumeUnits s ks) ∧ (resumeUnits s ks).dbg = s.dbg := by
  induction ks generalizing s with
  | nil => exact ⟨.refl s, rfl⟩
  | cons k ks ih =>
    obtain ⟨⟨hstep, hmem, hmbox, hsec⟩, hdbg⟩ := ih (modUnit s k fun u => { u with halted := false, oneMore := false, oneStroke := false })
    exact ⟨⟨hstep, hmem, hmbox, hsec⟩, hdbg⟩

theorem execDebugResume_resumes {reach : BitVec 2} {core : BitVec 6} (hrun : mayRun s = true) (hreach : reach.toNat < 2) :
    execDebugResume reach core s = .next (resumeOn s reach.toNat core.toNat) :=
  congrArg Host.Outcome.next (if_pos (by rw [hrun, decide_eq_true hreach]; rfl))

/-- RESUME of a reach with a halted unit: its units run on, and the running step and memory stand. -/
theorem resumeOn_resumes {reach core : Nat} (hs : IsTidy s) (hbps : s.dbg.bps = [])
    (hany : ∃ k, k ∈ reachUnits reach core ∧ (getUnit s k).halted = true) :
    (∀ k, k ∈ reachUnits reach core → (getUnit (resumeOn s reach core) k).halted = false) ∧ KeepsRun s (resumeOn s reach core) := by
  unfold resumeOn
  extract_lets ks l
  rw [if_pos (List.any_eq_true.mpr hany)]
  have hl : IsTidy l.2 := hs.parts
  have hkeep := resumeUnits_keeps l.2 ks
  have hb : (resumeUnits l.2 ks).dbg.bps = [] := (congrArg DbgSt.bps hkeep.2).trans hbps
  rw [logEv_of_no_breakpoints hb]
  have hlog := keepsUnits_logRaw (resumeUnits l.2 ks) { cls := clsTrace, cause := 3, loc := l.1 }
  have hafter := afterResume_keeps (logRaw (resumeUnits l.2 ks) { cls := clsTrace, cause := 3, loc := l.1 })
  refine ⟨fun k hk => ?_, ?_⟩
  · rw [(hlog.trans hafter.1).unit]
    exact runs_resumeUnits ks l.2 hl (.inl hk)
  · have hrun : KeepsRun s l.2 := keepsRun_runLocator s reach core
    exact ((hrun.trans hkeep.1).trans (noticesOnly_of_loggedOnly (loggedOnly_logRaw _ _)).keepsRun).trans hafter.2

/-! ### Stepping (R425) -/

/-- The state in which a halted unit of key `k` takes one step of a kind. -/
def stepping (s : State) (k kind : Nat) : State :=
  modUnit s k fun u => { u with oneMore := u.oneMore || kind == 1, oneStroke := u.oneStroke || kind == 0, passBp := true }

theorem getUnit_stepping {k : Nat} (hhalt : (getUnit s k).halted = true) (kind : Nat) :
    getUnit (stepping s k kind) k = { getUnit s k with
      oneMore := (getUnit s k).oneMore || kind == 1, oneStroke := (getUnit s k).oneStroke || kind == 0, passBp := true } :=
  getUnit_setUnit s k _ (halted_ne hhalt)

/-- A halted unit of a running step may take a step of either kind. -/
theorem mayGoOn_stepping {k kind : Nat} (hhalt : (getUnit s k).halted = true) (hrun : s.step.running = true) (hvoid : s.step.voided = false)
    (hend : s.step.localEnded = false) (hkind : kind = 0 ∨ kind = 1) : mayGoOn (stepping s k kind) k = true := by
  have hstep : (stepping s k kind).step = s.step := rfl
  rw [mayGoOn, getUnit_stepping hhalt, hstep]
  rcases hkind with rfl | rfl <;> simp [hrun, hvoid, hend]

theorem execDebugStep_runs {core : BitVec 6} {tile : BitVec 5} {kind : BitVec 1} (hmay : mayRun s = true) (htile : tileOk tile.toNat = true)
    (hhalt : (getUnit s (unitKeyOf core.toNat tile.toNat)).halted = true) (hrun : s.step.running = true) (hvoid : s.step.voided = false)
    (hend : s.step.localEnded = false) :
    execDebugStep core tile kind s =
      .next (runUnit (stepping s (unitKeyOf core.toNat tile.toNat) kind.toNat) core.toNat tile.toNat) := by
  have hkind : kind.toNat = 0 ∨ kind.toNat = 1 := by omega
  have hgo := mayGoOn_stepping hhalt hrun hvoid hend hkind
  have hstep : stepOn s core.toNat tile.toNat kind.toNat =
      runUnit (stepping s (unitKeyOf core.toNat tile.toNat) kind.toNat) core.toNat tile.toNat := if_pos (Bool.and_eq_true_iff.mpr ⟨hhalt, hgo⟩)
  rw [execDebugStep, hmay, htile, hstep]
  rfl

theorem stepping_command {k : Nat} (hstroke : (getUnit s k).oneStroke = false) :
    stepping s k 1 = modUnit s k fun u => { u with oneMore := true, passBp := true } := by
  have h : ({ getUnit s k with oneMore := (getUnit s k).oneMore || 1 == 1, oneStroke := (getUnit s k).oneStroke || 1 == 0, passBp := true } : UnitSt)
      = { getUnit s k with oneMore := true, passBp := true } := by
    simp [hstroke]
  exact congrArg (setUnit s k) h

theorem stepping_stroke {k : Nat} (hmore : (getUnit s k).oneMore = false) :
    stepping s k 0 = modUnit s k fun u => { u with oneStroke := true, passBp := true } := by
  have h : ({ getUnit s k with oneMore := (getUnit s k).oneMore || 0 == 1, oneStroke := (getUnit s k).oneStroke || 0 == 0, passBp := true } : UnitSt)
      = { getUnit s k with oneStroke := true, passBp := true } := by
    simp [hmore]
  exact congrArg (setUnit s k) h

/-! ### A unit's turn (R162) -/

/-- What a unit's turn depends on stands: its queue, its count of commands, and what it has under way. -/
def SameTurn (u v : UnitSt) : Prop := v.queue = u.queue ∧ v.issued = u.issued ∧ v.blocked = u.blocked ∧ v.ended = u.ended

theorem contextEnded_of_sameTurn {t : State} (h : ∀ i, SameTurn (getUnit s i) (getUnit t i)) (k : Nat) : contextEnded t k = contextEnded s k := by
  obtain ⟨hqueue, -, hblocked, hended⟩ := h k
  obtain ⟨-, -, -, hscribe⟩ := h (scribeKey (k / 32))
  simp only [contextEnded, hqueue, hblocked, hended, hscribe]

theorem turnOk_of_sameTurn {t : State} (h : ∀ i, SameTurn (getUnit s i) (getUnit t i)) (hboot : t.boot = s.boot) (hsheets : t.sheets = s.sheets)
    (k : Nat) : turnOk t k = turnOk s k := by
  have hcore (c : Nat) : liveCore t c = liveCore s c := by simp only [liveCore, hsheets]
  have hctx : contextsOf t k = contextsOf s k := by simp only [contextsOf, hostOf, hboot, hcore]
  have hended := contextEnded_of_sameTurn h
  have hissued (i : Nat) : (getUnit t i).issued = (getUnit s i).issued := (h i).2.1
  have hblocked (i : Nat) : (getUnit t i).blocked = (getUnit s i).blocked := (h i).2.2.1
  simp only [turnOk, hctx, hended, hissued, hblocked]

/-- Being told to step moves no turn. -/
theorem turnOk_stepping {k : Nat} (hs : IsTidy s) (hhalt : (getUnit s k).halted = true) (kind i : Nat) :
    turnOk (stepping s k kind) i = turnOk s i := by
  refine turnOk_of_sameTurn (s := s) (t := stepping s k kind) (fun j => ?_) rfl rfl i
  by_cases hj : j = k
  · subst hj
    rw [getUnit_stepping hhalt]
    exact ⟨rfl, rfl, rfl, rfl⟩
  · rw [stepping, getUnit_modUnit_ne hs.units _ hj]
    exact ⟨rfl, rfl, rfl, rfl⟩

/-! ### One stroke of a WAIT (R425, R48) -/

theorem strokeBps_of_none (h : s.dbg.bps = []) (k : Nat) : strokeBps s k = [] := by
  simp [strokeBps, bpArmed_of_none h]

theorem bpNow_of_none (h : s.dbg.bps = []) {kind : Nat} (hkind : kind ≠ 0) (k idx : Nat) (u : UnitSt) : bpNow s kind k idx u = [] := by
  simp [bpNow, strokeMet, strokeBps_of_none h, bpArmed_of_none h hkind]

theorem waitWord_toNat (n : BitVec 16) : (waitWord n.toNat).toNat = 256 * n.toNat := by
  have h := n.isLt
  simp only [waitWord, mkWord, List.foldr_cons, List.foldr_nil, BitVec.toNat_ofNat]
  omega

theorem transferPlan_waitWord (c j : Nat) (n : BitVec 16) : transferPlan c j (waitWord n.toNat) = planWait n.toNat := by
  have h := n.isLt
  have hop : wf (waitWord n.toNat) 7 0 = 0 := by
    rw [wf, waitWord_toNat, bitsOf]
    omega
  have hn : wf (waitWord n.toNat) 23 8 = n.toNat := by
    rw [wf, waitWord_toNat, bitsOf]
    omega
  have htop : (waitWord n.toNat).toNat / 2 ^ 24 = 0 := by
    rw [waitWord_toNat]
    omega
  simp only [transferPlan, hop, hn, htop, bne_self_eq_false, Bool.false_eq_true, if_false]

theorem isXmov_waitWord (n : BitVec 16) : isXmov (waitWord n.toNat) = false := by
  have h := n.isLt
  have hop : wf (waitWord n.toNat) 7 0 = 0 := by
    rw [wf, waitWord_toNat, bitsOf]
    omega
  rw [isXmov, hop]
  rfl

theorem unitKeyOf_of_transferTile {c j : Nat} (hj : isTransferTile j = true) : unitKeyOf c j = tileKey c j := by
  rw [isTransferTile, Bool.and_eq_true, decide_eq_true_iff, decide_eq_true_iff] at hj
  exact if_neg (by omega)

/-- A transfer tile that steps comes to the word at the front of its queue. -/
theorem runUnit_transfer {c j : Nat} {n : BitVec 16} (hj : isTransferTile j = true)
    (hblocked : (getUnit s (tileKey c j)).blocked = none) (hqueue : (getUnit s (tileKey c j)).queue.head? = some (waitWord n.toNat)) :
    runUnit s c j = runTile s c j (waitWord n.toNat) (planWait n.toNat) := by
  have hrange := hj
  rw [isTransferTile, Bool.and_eq_true, decide_eq_true_iff, decide_eq_true_iff] at hrange
  have hscribe : j ≠ 0x1F := by omega
  have hmatrix : isMatrixTile j = false := by simp only [isMatrixTile, decide_eq_false_iff_not]; omega
  have hvector : isVectorTile j = false := by simp only [isVectorTile, Bool.and_eq_false_iff, decide_eq_false_iff_not]; omega
  rw [runUnit, if_neg hscribe]
  simp only [resumeTile, hblocked, hqueue, runAnyWord, wordPlan, isXmov_waitWord, hmatrix, hvector, hj, transferPlan_waitWord, Bool.and_false,
    Bool.false_eq_true, if_false]

/-- A unit that steps through one stroke, once it has taken its command: halted, and to run one stroke of it. -/
structure StrokeOf (u v : UnitSt) : Prop where
  halted : v.halted = true
  oneMore : v.oneMore = false
  oneStroke : v.oneStroke = true
  waiting : v.waiting = none
  stepped : v.stepped = 0
  strokes : v.strokes = u.strokes
  issued : v.issued = u.issued + 1

/-- A unit whose command stopped after its first stroke. -/
structure StoppedAt (u v : UnitSt) : Prop where
  stepped : v.stepped = 1
  strokes : v.strokes = u.strokes
  halted : v.halted = true
  oneStroke : v.oneStroke = false
  issued : v.issued = u.issued + 1

theorem stopAt_of_strokeOf {k n : Nat} {u : UnitSt} (hbps : s.dbg.bps = []) (hn : 1 < n) (h : StrokeOf u (getUnit s k)) :
    stopAt s k (getUnit s k) n = 1 := by
  have hmin : min 1 n = 1 := Nat.min_eq_left hn.le
  simp [stopAt, strokeBps_of_none hbps, h.halted, h.oneMore, h.oneStroke, h.stepped, hmin]

/-- A command that is to stop before its last stroke does not come to its end. -/
theorem advance_stops_early {k : Nat} {b : Blocked} {p : Plan} (h : stopAt s k (getUnit s k) p.strokes < p.strokes) :
    advance s k b p = advancePart s k b p (stopAt s k (getUnit s k) p.strokes) :=
  if_neg fun hall => absurd hall.1 h.ne

/-- The first stroke of a WAIT takes and gives nothing. -/
theorem advancePart_wait {k n : Nat} {b : Blocked} (hn : n ≠ 0) (hstepped : (getUnit s k).stepped = 0) (hgot : b.got = []) :
    advancePart s k b (planWait n) 1 =
      pauseUnit { partEffect s s k ((getUnit s k).strokes.toNat + 1) with chans := s.chans } k ((getUnit s k).issued - 1) 1 none
        { b with got := [], moved := b.moved } := by
  have hplan : planWait n = { cause := none, strokes := n } := congrArg (fun c => ({ cause := c, strokes := n } : Plan)) (if_neg hn)
  rw [hplan]
  simp [advancePart, hgot, shortAt, dueInputs, gather, planEffect, asIssued, hstepped, pump]

/-- A halted unit that stops after its first stroke meets no breakpoint there. -/
theorem pauseUnit_of_halted {k idx : Nat} {b : Blocked} (hhalt : (getUnit s k).halted = true) :
    pauseUnit s k idx 1 none b = setUnit s k { getUnit s k with
      stepped := 1, waiting := none, blocked := some b, oneStroke := false
      passBp := (getUnit s k).passBp && 1 == (getUnit s k).stepped } := by
  simp [pauseUnit, hhalt]

/-- A WAIT of more than one stroke that takes one of them stops after it. -/
theorem advance_wait_stops {k n : Nat} {u : UnitSt} {b : Blocked} (hbps : s.dbg.bps = []) (hn : 1 < n) (h : StrokeOf u (getUnit s k))
    (hgot : b.got = []) : StoppedAt u (getUnit (advance s k b (planWait n)) k) := by
  have hlim : stopAt s k (getUnit s k) (planWait n).strokes = 1 := stopAt_of_strokeOf hbps hn h
  have hunit : getUnit { partEffect s s k ((getUnit s k).strokes.toNat + 1) with chans := s.chans } k = getUnit s k := rfl
  rw [advance_stops_early (hlim.trans_lt hn), hlim, advancePart_wait (by omega) h.stepped hgot,
    pauseUnit_of_halted (hunit ▸ h.halted), getUnit_setUnit _ _ _ (halted_ne (hunit ▸ h.halted)), hunit]
  exact ⟨rfl, h.strokes, h.halted, rfl, h.issued⟩

/-- One stroke of a WAIT of more than one on a halted tile: the tile takes the command, and stops after the stroke. -/
theorem runUnit_wait_stroke {c j : Nat} {n : BitVec 16} (hs : IsTidy s) (hj : isTransferTile j = true)
    (hhalt : (getUnit s (tileKey c j)).halted = true) (hmore : (getUnit s (tileKey c j)).oneMore = false)
    (hblocked : (getUnit s (tileKey c j)).blocked = none) (hqueue : (getUnit s (tileKey c j)).queue.head? = some (waitWord n.toNat))
    (hrun : s.step.running = true) (hvoid : s.step.voided = false) (hend : s.step.localEnded = false)
    (hended : (getUnit s (tileKey c j)).ended = false) (hturn : turnOk s (tileKey c j) = true) (hbps : s.dbg.bps = []) (hn : 1 < n.toNat) :
    StoppedAt (getUnit s (tileKey c j)) (getUnit (runUnit (stepping s (tileKey c j) 0) c j) (tileKey c j)) := by
  generalize hk : tileKey c j = k at hhalt hmore hblocked hqueue hended hturn ⊢
  have hu := getUnit_stepping hhalt 0
  have hbps1 : (stepping s k 0).dbg.bps = [] := hbps
  have hcan : canIssue (stepping s k 0) k = true := by
    have hstep : (stepping s k 0).step = s.step := rfl
    rw [canIssue, turnOk_stepping hs hhalt, hturn, hu, hstep]
    simp [hrun, hvoid, hend, hended, hblocked]
  have hplan : (planWait n.toNat).cause = none := if_neg (by omega)
  rw [runUnit_transfer hj (by rw [hk, hu]; exact hblocked) (by rw [hk, hu]; exact hqueue)]
  have hgo := advance_wait_stops (s := setUnit (stepping s k 0) k { getUnit (stepping s k 0) k with
      queue := (getUnit (stepping s k 0) k).queue.tail, issued := (getUnit (stepping s k 0) k).issued + 1
      waiting := none, stepped := 0, passBp := false }) (k := k) (u := getUnit s k)
    (b := { word := waitWord n.toNat, got := [], moved := 0, out := [], effectDone := false }) hbps1 hn ?stroke rfl
  · simp only [runTile, runTileWith, hk, hcan, issueTile, hplan, bpNow_of_none hbps1 (by decide : 2 ≠ 0), Bool.not_true, Bool.false_eq_true, if_false]
    rw [if_pos (by rw [hu]; exact hqueue)]
    exact hgo
  case stroke =>
    rw [getUnit_setUnit _ _ _ (halted_ne (by rw [hu]; exact hhalt)), hu]
    exact ⟨hhalt, by simp [hmore], by simp, rfl, rfl, rfl, rfl⟩

/-! ### What a halt that outlasts dry time leaves of a sub-port (R426) -/

/-- The parts of a sub-port that a blot settles: its state, whether it is blotted, and what waits in it and may be sent again. -/
def gate (b : SubSt) : LinkState × Bool × List (Nat × BitVec 64 × List Drop) × List (BitVec 32 × Grain) :=
  (b.state, b.blotted, b.waitPool, b.replay)

/-- A device in good order whose halt has blotted, and of whose sub-port `k` the parts that a blot settles are `g`. -/
structure Gated (k : Nat) (g : LinkState × Bool × List (Nat × BitVec 64 × List Drop) × List (BitVec 32 × Grain)) (s : State) : Prop where
  tidy : IsTidy s
  haltBlotted : s.dbg.haltBlotted = true
  gate : gate (getSub s k) = g

variable {k : Nat} {g : LinkState × Bool × List (Nat × BitVec 64 × List Drop) × List (BitVec 32 × Grain)}

protected theorem Gated.ite {c : Prop} [Decidable c] {t u : State} (ht : Gated k g t) (hu : Gated k g u) : Gated k g (if c then t else u) := by
  split
  · exact ht
  · exact hu

/-- The sub-ports and the debug port stand. -/
theorem Gated.of_subs {t : State} (hs : Gated k g s) (ht : IsTidy t) (hsubs : t.subs = s.subs := by rfl) (hdbg : t.dbg = s.dbg := by rfl) :
    Gated k g t where
  tidy := ht
  haltBlotted := (congrArg DbgSt.haltBlotted hdbg).trans hs.haltBlotted
  gate := (congrArg (fun x => Machine.gate (tget ({} : SubSt) x k)) hsubs).trans hs.gate

theorem Gated.of_loggedOnly {t : State} (hs : Gated k g s) (ht : IsTidy t) (h : LoggedOnly s t) : Gated k g t := by
  obtain ⟨⟨_, _, _, _, _, _, _, _, _, hparts⟩, hsub, -⟩ := h
  obtain ⟨_, _, hk⟩ := hsub k
  refine ⟨ht, ?_, ?_⟩
  · rw [hparts]
    exact hs.haltBlotted
  · rw [hk]
    exact hs.gate

theorem gate_modSub (hs : IsTidy s) (i k : Nat) (f : SubSt → SubSt) :
    gate (getSub (modSub s i f) k) = gate (if k = i then f (getSub s k) else getSub s k) := by
  split
  · next h =>
    subst h
    exact congrArg gate (tget_tset_self _ s.subs k _ hs.subs)
  · next h => exact congrArg gate (tget_tset_ne _ s.subs i k _ hs.subs h)

theorem Gated.modSub {i : Nat} {f : SubSt → SubSt} (hs : Gated k g s) (hf : ∀ b, Machine.gate (f b) = Machine.gate b) :
    Gated k g (modSub s i f) where
  tidy := hs.tidy.modSub
  haltBlotted := hs.haltBlotted
  gate := by
    rw [gate_modSub hs.tidy]
    split
    · rw [hf, hs.gate]
    · exact hs.gate

theorem Gated.logEv {e : Ev} (hs : Gated k g s) : Gated k g (logEv s e) := hs.of_loggedOnly hs.tidy.logEv (loggedOnly_logEv s e)

/-! ### The failure of the step leaves it (R74) -/

theorem Gated.eachSlot {f : Nat → State → State} {is : List Nat} (hs : Gated k g s) (hf : ∀ {i t}, Gated k g t → Gated k g (f i t)) :
    Gated k g (eachSlot s f is) := by
  induction is generalizing s with
  | nil => exact hs
  | cons i is ih => exact ih (hf hs)

theorem Gated.eachOut {f : State → Nat → Nat → Nat → State} {l : List (Nat × Nat × Nat)} (hs : Gated k g s)
    (hf : ∀ {t ch i sc}, Gated k g t → Gated k g (f t ch i sc)) : Gated k g (eachOut s f l) := by
  induction l generalizing s with
  | nil => exact hs
  | cons e l ih => exact ih (hf hs)

theorem Gated.freeRuns {i : Nat} (hs : Gated k g s) : Gated k g (freeRuns s i) := by
  have hrun : Gated k g (freeRun s i) := .ite (hs.of_subs hs.tidy.parts.modSlot) hs
  exact hrun.of_subs hs.tidy.freeRuns

theorem Gated.postEnd {i : Nat} (hs : Gated k g s) : Gated k g (postEnd s i) := by
  have hfree := hs.freeRuns (i := i)
  exact .ite (hfree.of_subs hfree.tidy.setSlot.parts) (hfree.of_subs hfree.tidy.setSlot)

theorem Gated.failSlot {i : Nat} (hs : Gated k g s) : Gated k g (failSlot i s) := by
  unfold Machine.failSlot
  extract_lets s1 v s2
  have h1 : Gated k g s1 := hs.of_subs hs.tidy.decide_
  have h2 : Gated k g s2 := h1.of_subs h1.tidy.putToken
  exact (h2.of_subs h2.tidy.setSlot).postEnd

theorem Gated.failServing (hs : Gated k g s) : Gated k g (failServing s) := by
  unfold Machine.failServing
  refine .ite (hs.of_subs hs.tidy.parts) ?_
  extract_lets _ _ _ _ _ s1 s2
  have h1 : Gated k g s1 := hs.eachSlot fun ht => ht.failSlot
  have h2 : Gated k g s2 := h1.eachSlot fun ht => ht.of_subs ht.tidy.modSlot
  exact .ite (h2.of_subs h2.tidy.parts.parts) (h2.of_subs h2.tidy.parts)

theorem Gated.creditLeft {i sc : Nat} (hs : Gated k g s) : Gated k g (creditLeft s i sc) := by
  refine .ite hs (.modSub (.ite hs (hs.modSub ?_)) ?_) <;> exact fun _ => rfl

theorem Gated.creditAll {l : List (Nat × Nat × Nat)} (hs : Gated k g s) : Gated k g (creditAll s l) := by
  induction l generalizing s with
  | nil => exact hs
  | cons e l ih => exact ih hs.creditLeft

theorem Gated.dropUnsent {ch i sc : Nat} (hs : Gated k g s) : Gated k g (dropUnsent s ch i sc) :=
  (hs.of_subs hs.tidy.setChan).modSub fun _ => rfl

theorem Gated.logDispatch (hs : Gated k g s) : Gated k g (logDispatch s) := by
  unfold Machine.logDispatch
  split
  · exact hs
  · exact hs.logEv

theorem Gated.keepRecord {r : StepRecord} (hs : Gated k g s) : Gated k g (keepRecord s r) :=
  .ite (hs.of_subs hs.tidy.parts) (hs.of_subs hs.tidy.parts).logEv

theorem retireWrite_subs_dbg (s : State) (h i : Nat) (es : List RetireEnt) :
    (retireWrite s h i es).subs = s.subs ∧ (retireWrite s h i es).dbg = s.dbg := by
  induction es generalizing s i with
  | nil => exact ⟨rfl, rfl⟩
  | cons e es ih => exact ih (flashWrite s (retireHalf h + 32 * i) (retireBytes e)) (i + 1)

theorem Gated.retire {e : RetireEnt} (hs : Gated k g s) : Gated k g (retire s e) := by
  have hwrite {h i : Nat} {es : List RetireEnt} : Gated k g (retireWrite s h i es) :=
    hs.of_subs hs.tidy.retireWrite (retireWrite_subs_dbg s h i es).1 (retireWrite_subs_dbg s h i es).2
  exact .ite hwrite (hwrite.of_subs hwrite.tidy.flashErase)

theorem Gated.evictSpilledOn {m : Nat} (hs : Gated k g s) : Gated k g (evictSpilledOn s m) :=
  .ite hs (hs.eachSlot fun ht => (ht.of_subs ht.tidy.decide_).logEv)

theorem Gated.disableDdr {m : Nat} {cause : BitVec 4} (hs : Gated k g s) : Gated k g (disableDdr s m cause) :=
  .ite hs (hs.of_subs hs.tidy.modDdr).logEv.retire.evictSpilledOn

theorem Gated.applyDisables {ms : List Nat} (hs : Gated k g s) : Gated k g (applyDisables s ms) := by
  induction ms generalizing s with
  | nil => exact hs
  | cons m ms ih =>
    refine ih ?_
    split
    · exact hs.disableDdr
    · exact hs

theorem Gated.afterStep (hs : Gated k g s) : Gated k g (afterStep s) := by
  unfold Machine.afterStep
  extract_lets st _ _ s1
  have h1 : IsTidy s1 := { hs.tidy with overlay := rfl, chans := rfl }
  exact (hs.of_subs h1.resetUnits).applyDisables

theorem Gated.ckptAtEnd (hs : Gated k g s) : Gated k g (ckptAtEnd s false) := by
  unfold Machine.ckptAtEnd
  split
  · exact hs
  · refine .ite hs ?_
    extract_lets _ s1 secs
    rw [if_pos (show (!false) = true by rfl)]
    unfold ckptEnd
    split
    · exact hs.of_subs hs.tidy.parts
    · exact hs.of_subs hs.tidy.parts.parts.complete

/-- The end of a halt's hold is told; that the halt has blotted stands. -/
theorem Gated.endHaltHold {o : Nat} (hs : Gated k g s) : Gated k g (endHaltHold s o) := by
  refine .ite (.of_loggedOnly (s := { s with dbg := { s.dbg with holdSent := false } }) ?_ hs.tidy.parts.endHold (loggedOnly_endHold _ _ _ _ _)) hs
  exact ⟨hs.tidy.parts, hs.haltBlotted, hs.gate⟩

theorem Gated.endHalts (hs : Gated k g s) : Gated k g (endHalts s) :=
  .ite hs (hs.of_subs hs.tidy.clearHalts).endHaltHold

theorem Gated.endStepFailed {mask : BitVec 16} (hs : Gated k g s) : Gated k g (endStepFailed s mask) := by
  unfold Machine.endStepFailed
  extract_lets m strokes s0 s1 r s2 _ s3
  have h0 : Gated k g s0 := .ite hs hs.logDispatch
  have h1 : Gated k g s1 := h0.creditAll.eachOut fun ht => ht.dropUnsent
  have h2 : Gated k g s2 := h1.keepRecord
  have h3 : Gated k g s3 := (h2.of_subs h2.tidy.parts).failServing
  exact h3.afterStep.ckptAtEnd.endHalts

theorem Gated.failHere {code : Nat} (hs : Gated k g s) : Gated k g (failHere s code) := by
  refine .ite ?_ hs
  have h : Gated k g (failStep { s with step := { s.step with origin := true } } code) := (hs.of_subs hs.tidy.parts).endStepFailed
  exact h.of_loggedOnly h.tidy.sendEnd (loggedOnly_originate _ _ _)

/-! ### Steps 1 and 3 of the blot (R314) -/

/-- What a blot leaves of the parts it settles, before the sub-port goes to its new state. -/
def emptied (b : SubSt) : LinkState × Bool × List (Nat × BitVec 64 × List Drop) × List (BitVec 32 × Grain) := (b.state, b.blotted, [], [])

theorem gate_blotDiscard (hs : IsTidy s) (i k : Nat) :
    gate (getSub (blotDiscard s i).1 k) = if k = i then emptied (getSub s k) else gate (getSub s k) := by
  have h := gate_modSub hs i k fun b =>
    { b with replay := [], replaying := false, replayPos := 0, q0 := [], q1 := [], q2 := [], q3 := [], waitPool := [] }
  refine h.trans ?_
  split <;> rfl

/-- Discarding what a list of sub-ports holds empties each of them, and leaves their states. -/
theorem gated_discardAll {st : LinkState} {bl : Bool} : ∀ (ks : List Nat) (s : State), IsTidy s → s.dbg.haltBlotted = true →
    (getSub s k).state = st → (getSub s k).blotted = bl → (k ∈ ks ∨ gate (getSub s k) = (st, bl, [], [])) →
    Gated k (st, bl, [], []) (discardAll s ks).1
  | [], _, hs, hhalt, _, _, h => ⟨hs, hhalt, h.resolve_left List.not_mem_nil⟩
  | i :: ks, s, hs, hhalt, hst, hbl, h => by
    have hgate := gate_blotDiscard hs i k
    have hstate : (getSub (blotDiscard s i).1 k).state = st ∧ (getSub (blotDiscard s i).1 k).blotted = bl := by
      have h1 := congrArg Prod.fst hgate
      have h2 := congrArg (fun g => g.2.1) hgate
      constructor
      · refine h1.trans ?_
        split <;> exact hst
      · refine h2.trans ?_
        split <;> exact hbl
    refine gated_discardAll ks _ hs.blotDiscard hhalt hstate.1 hstate.2 ?_
    rw [hgate]
    by_cases hk : k = i
    · rw [if_pos hk, emptied, hst, hbl]
      exact .inr rfl
    · rw [if_neg hk]
      exact h.imp_left fun h => (List.mem_cons.mp h).resolve_left hk

theorem keys_discardAll (s : State) (ks : List Nat) : (discardAll s ks).2.map Prod.fst = ks := by
  induction ks generalizing s with
  | nil => rfl
  | cons k ks ih => exact congrArg (k :: ·) (ih _)

/-- A sub-port that goes down blotted is DOWN, and the others keep what a blot settles. -/
theorem gated_blotDown {i n : Nat} (hs : Gated k g s) : Gated k (if k = i then (.down, true, g.2.2) else g) (blotDown s i .down n) := by
  unfold blotDown
  extract_lets s1
  have h1 : Gated k g s1 := hs.of_loggedOnly hs.tidy.endHold (loggedOnly_endHold _ _ _ _ _)
  refine Gated.logEv ⟨h1.tidy.modSub, h1.haltBlotted, ?_⟩
  rw [gate_modSub h1.tidy, ← h1.gate]
  split <;> rfl

theorem gated_downAll {st : LinkState} {bl : Bool} : ∀ (l : List (Nat × Nat)) (s : State), Gated k (st, bl, [], []) s →
    k ∈ l.map Prod.fst ∨ (st, bl) = (.down, true) → Gated k (.down, true, [], []) (downAll s l)
  | [], _, hs, h => by
    obtain ⟨rfl, rfl⟩ := Prod.mk.inj (h.resolve_left List.not_mem_nil)
    exact hs
  | (i, n) :: l, s, hs, h => by
    have hdown := gated_blotDown (i := i) (n := n) hs
    by_cases hk : k = i
    · rw [if_pos hk] at hdown
      exact gated_downAll l _ hdown (.inr rfl)
    · rw [if_neg hk] at hdown
      exact gated_downAll l _ hdown (h.imp_left fun h => (List.mem_cons.mp h).resolve_left hk)

theorem discardAll_dbg (s : State) (ks : List Nat) : (discardAll s ks).1.dbg = s.dbg := by
  induction ks generalizing s with
  | nil => rfl
  | cons k ks ih => exact ih (blotDiscard s k).1

theorem downAll_haltBlotted (l : List (Nat × Nat)) (hs : Gated k g s) : (downAll s l).dbg.haltBlotted = true := by
  induction l generalizing s g with
  | nil => exact hs.haltBlotted
  | cons e l ih => exact ih (gated_blotDown hs)

/-- The sub-ports that carry the plot are DOWN, blotted and empty once the halt has outlasted its dry time. -/
theorem execHaltDryExpiry_blots (hs : IsTidy s) (hopen : s.sec.isOpen = true) (hsent : s.dbg.holdSent = true)
    (hhalt : anyHalted s = true) (hdebug : s.sec.debug = false) :
    answers (execHaltDryExpiry s) fun t => t.dbg.haltBlotted = true ∧
      ∀ e, e ∈ s.subs → carries s e.1 = true → Gated e.1 (.down, true, [], []) t := by
  unfold execHaltDryExpiry
  rw [if_pos (by simp [hopen, hsent, hhalt, hdebug])]
  extract_lets _ d
  refine .next ⟨?_, fun e he hcarries => ?_⟩
  · have hd : Gated 0 (gate (getSub d.1 0)) d.1 :=
      ⟨IsTidy.discardAll hs.parts, congrArg DbgSt.haltBlotted (discardAll_dbg { s with dbg := { s.dbg with haltBlotted := true } } _), rfl⟩
    exact downAll_haltBlotted d.2 hd.failHere.endHaltHold
  · have hd : Gated e.1 ((getSub s e.1).state, (getSub s e.1).blotted, [], []) d.1 :=
      gated_discardAll _ { s with dbg := { s.dbg with haltBlotted := true } } hs.parts rfl rfl rfl
        (.inl (List.mem_filter.mpr ⟨List.mem_map_of_mem he, hcarries⟩))
    refine gated_downAll d.2 _ hd.failHere.endHaltHold (.inl ?_)
    rw [keys_discardAll]
    exact List.mem_filter.mpr ⟨List.mem_map_of_mem he, hcarries⟩

end Sys2Proof.Machine
end

section
/-! PROOFS. What is shown of the debug port. -/

namespace Sys2Proof.Proofs

open Machine

/-- Settles O51: halting and running on change the units of the reach, a step runs one command or one stroke, and a blot settles each sub-port
that carries the plot. -/
theorem debugRunControl : Obligations.DebugRunControl := by
  intro s
  refine ⟨fun hmay => ⟨fun reach core hreach => ⟨?halt, fun htidy hbps hany => ?resume⟩, ?step⟩, fun hopen hsent hhalt hdebug htidy => ?dry⟩
  case halt =>
    have hkeep := keepsRun_haltOn s reach.toNat core.toNat
    exact ⟨_, execDebugHalt_halts hmay hreach, fun k hk => halted_haltWith _ _ hk, hkeep.mem, hkeep.step⟩
  case resume =>
    obtain ⟨hruns, hkeep⟩ := resumeOn_resumes (tidy_iff.mp htidy) hbps hany
    exact ⟨_, execDebugResume_resumes hmay hreach, hruns, hkeep.mem, hkeep.step⟩
  case step =>
    intro core tile htile k u hhalt hrun hvoid hend hmore hstroke
    have hruns (kind : BitVec 1) : exec (.debugStep core tile kind) s = .next (runUnit (stepping s k kind.toNat) core.toNat tile.toNat) :=
      execDebugStep_runs hmay htile hhalt hrun hvoid hend
    refine ⟨(hruns 1).trans ?_, (hruns 0).trans ?_, fun j n hj htransfer hqueue hblocked hended hturn hbps hn htidy => ?_⟩
    · exact congrArg (fun t => Host.Outcome.next (runUnit t core.toNat tile.toNat)) (stepping_command hstroke)
    · exact congrArg (fun t => Host.Outcome.next (runUnit t core.toNat tile.toNat)) (stepping_stroke hmore)
    · subst hj
      have hk : k = tileKey core.toNat tile.toNat := unitKeyOf_of_transferTile (c := core.toNat) htransfer
      clear_value k
      subst hk
      have hstops : StoppedAt u _ := runUnit_wait_stroke (tidy_iff.mp htidy) htransfer hhalt hmore hblocked hqueue hrun hvoid hend hended hturn
        hbps hn
      exact ⟨_, hruns 0, hstops.stepped, hstops.strokes, hstops.halted, hstops.oneStroke, hstops.issued⟩
  case dry =>
    obtain ⟨t, ht, hblotted, hgates⟩ := execHaltDryExpiry_blots (tidy_iff.mp htidy) hopen hsent hhalt hdebug
    refine ⟨t, ht, hblotted, fun e he hcarries => ?_⟩
    have hgate := (hgates e he hcarries).gate
    simp only [gate, Prod.mk.injEq] at hgate
    exact hgate

end Sys2Proof.Proofs
end

section
/-! PROOFS. What the blotter's class rings can come to hold: entries added, classes drained, events logged (R387-R392). -/

namespace Sys2Proof.Machine

set_option Elab.async false

variable {s : State}

/-- A class ring holds at most 64 pinned and 64 recent positions. -/
def RingFits (r : ClassRing) : Prop := positions r.pinned ≤ 64 ∧ positions r.recent ≤ 64

/-- Every class ring of a state does. -/
def RingsFit (s : State) : Prop := ∀ e ∈ s.blot.rings, RingFits e.2

theorem ringsFit_iff : ringsFit s = true ↔ RingsFit s := by
  simp only [ringsFit, RingsFit, RingFits, List.all_eq_true, Bool.and_eq_true, decide_eq_true_iff]

/-- What leaves the rings keeps them fit. -/
protected theorem RingsFit.same {t : State} (hs : RingsFit s) (h : t.blot.rings = s.blot.rings := by rfl) : RingsFit t :=
  fun e he => hs e (h ▸ he)

/-- The same where parts are given for others, and what is left of the state says which it is. -/
protected theorem RingsFit.parts {pending free boot sheets step launch time ptpOut pace serv load mbox blot sec dbg} (hs : RingsFit s)
    (h : blot.rings = s.blot.rings := by rfl) :
    RingsFit { s with pending, free, boot, sheets, step, launch, time, ptpOut, pace, serv, load, mbox, blot, sec, dbg } := hs.same h

protected theorem RingsFit.ite {c : Prop} [Decidable c] {t u : State} (ht : RingsFit t) (hu : RingsFit u) : RingsFit (if c then t else u) := by
  split
  · exact ht
  · exact hu

theorem positions_append (es fs : List BlotEntry) : positions (es ++ fs) = positions es + positions fs := by
  have h (l : List Nat) : l.foldl (· + ·) 0 = l.sum := List.sum_eq_foldl.symm
  simp only [positions, h, List.map_append, List.sum_append]

theorem positions_singleton (e : BlotEntry) : positions [e] = entryLen e := Nat.zero_add _

theorem entryLen_le (e : BlotEntry) : entryLen e ≤ 2 := by
  unfold entryLen
  split <;> decide

/-- Discarding makes the room asked for. -/
theorem positions_makeRoom (es : List BlotEntry) {n : Nat} (hn : n ≤ 64) : positions (makeRoom es n).1 + n ≤ 64 := by
  induction es with
  | nil => exact (Nat.zero_add n).trans_le hn
  | cons e es ih =>
    unfold makeRoom
    split
    · assumption
    · exact ih

/-- A ring with an entry added holds what it may: the entry is pinned where there is room, and otherwise follows what makes room for it. -/
theorem ringFits_ringAdd {r : ClassRing} (e : BlotEntry) (h : RingFits r) : RingFits (ringAdd r e).1 := by
  have hlen (q : BitVec 32) : entryLen { e with seq := q } = entryLen e := rfl
  unfold ringAdd
  extract_lets e' m
  split
  · next hroom =>
    refine ⟨?_, h.2⟩
    rw [positions_append, positions_singleton, hlen]
    exact hroom
  · refine ⟨h.1, ?_⟩
    rw [positions_append, positions_singleton, hlen]
    exact positions_makeRoom _ ((entryLen_le e).trans (by decide))

theorem ringFits_tget {rings : Tbl ClassRing} (h : ∀ e ∈ rings, RingFits e.2) (c : Nat) : RingFits (tget {} rings c) := by
  by_cases hc : tget {} rings c = {}
  · rw [hc]
    exact ⟨Nat.zero_le _, Nat.zero_le _⟩
  · exact h _ (mem_of_tget_ne hc)

theorem ringFits_tset {rings : Tbl ClassRing} (h : ∀ e ∈ rings, RingFits e.2) (c : Nat) {r : ClassRing} (hr : RingFits r) :
    ∀ e ∈ tset {} rings c r, RingFits e.2 := by
  intro e he
  rcases mem_tset he with rfl | he
  · exact hr
  · exact h e he

theorem positions_drop (es : List BlotEntry) (n : Nat) : positions (es.drop n) ≤ positions es := by
  calc positions (es.drop n) ≤ positions (es.take n) + positions (es.drop n) := Nat.le_add_left _ _
    _ = positions es := by rw [← positions_append, List.take_append_drop]

/-- A class drained keeps a rest of its ring. -/
theorem ringFits_drainClass {d : Drained} (len c : Nat) (h : ∀ e ∈ d.rings, RingFits e.2) :
    ∀ e ∈ (drainClass len d c).rings, RingFits e.2 := by
  unfold drainClass
  split
  · exact h
  · obtain ⟨hpinned, hrecent⟩ := ringFits_tget h c
    exact ringFits_tset h c ⟨(positions_drop _ _).trans hpinned, (positions_drop _ _).trans hrecent⟩

theorem ringFits_drained (len : Nat) (cs : List Nat) {d : Drained} (h : ∀ e ∈ d.rings, RingFits e.2) :
    ∀ e ∈ (cs.foldl (drainClass len) d).rings, RingFits e.2 := by
  induction cs generalizing d with
  | nil => exact h
  | cons c cs ih => exact ih (ringFits_drainClass len c h)

protected theorem RingsFit.foldl {α : Type} {f : State → α → State} {l : List α} (hs : RingsFit s)
    (hf : ∀ {s a}, RingsFit s → RingsFit (f s a)) : RingsFit (l.foldl f s) := by
  induction l generalizing s with
  | nil => exact hs
  | cons a l ih => exact ih (hf hs)

protected theorem RingsFit.setSub {k b} (hs : RingsFit s) : RingsFit (setSub s k b) := hs.same

protected theorem RingsFit.modSub {k f} (hs : RingsFit s) : RingsFit (modSub s k f) := hs.setSub

protected theorem RingsFit.modUnit {k f} (hs : RingsFit s) : RingsFit (modUnit s k f) := hs.same

protected theorem RingsFit.memWrite {a bs} (hs : RingsFit s) : RingsFit (memWrite s a bs) := hs.same

protected theorem RingsFit.setMatrix {k m} (hs : RingsFit s) : RingsFit (setMatrix s k m) := hs.same

protected theorem RingsFit.setVector {k v} (hs : RingsFit s) : RingsFit (setVector s k v) := hs.same

protected theorem RingsFit.sinkWrite {payload} (hs : RingsFit s) : RingsFit (sinkWrite s payload) := by
  unfold sinkWrite
  refine .ite hs.parts (.ite hs.parts ?_)
  generalize bytesOf 256 payload = bs
  exact hs.same

protected theorem RingsFit.telemetryRoute {payload} (hs : RingsFit s) : RingsFit (telemetryRoute s payload).1 := by
  unfold telemetryRoute
  dsimp only
  split
  · dsimp only
    exact hs.modSub
  · dsimp only
    exact hs.parts

protected theorem RingsFit.telemetrySend (hs : RingsFit s) : RingsFit (telemetrySend s) :=
  .ite hs (.ite hs.parts.sinkWrite (.ite hs.parts.telemetryRoute.parts hs.parts.telemetryRoute))

protected theorem RingsFit.inbandTake {e} (hs : RingsFit s) : RingsFit (inbandTake s e) := by
  unfold inbandTake
  refine .ite hs ?_
  extract_lets s0 debt _ charged s1
  have h0 : RingsFit s0 := .ite hs.telemetrySend hs
  have h1 : RingsFit s1 := h0.parts
  exact .ite h0.parts (.ite h1.telemetrySend h1)

protected theorem RingsFit.oobTake {e} (hs : RingsFit s) : RingsFit (oobTake s e) := .ite hs (.ite hs.parts hs.parts)

/-- Of what is written, the entry's own ring changes, and is fit still. -/
protected theorem RingsFit.blotWrite {e} (hs : RingsFit s) : RingsFit (blotWrite s e) := by
  unfold Machine.blotWrite
  extract_lets r _ s1
  have h1 : RingsFit s1 := ringFits_tset hs _ (ringFits_ringAdd e (ringFits_tget hs _))
  exact h1.inbandTake.oobTake

protected theorem RingsFit.logRaw {e} (hs : RingsFit s) : RingsFit (logRaw s e) :=
  .ite (.ite hs.parts.parts (.blotWrite (.ite hs.parts.parts hs.parts))) hs.parts.blotWrite

protected theorem RingsFit.sendLaunch {k m} (hs : RingsFit s) : RingsFit (sendLaunch s k m) := .ite hs.modSub hs

protected theorem RingsFit.sendAll {m xs} (hs : RingsFit s) : RingsFit (sendAll s m xs) := by
  fun_induction sendAll s m xs with
  | case1 => exact hs
  | case2 _ _ _ ih => exact ih hs.sendLaunch

protected theorem RingsFit.flood {m source} (hs : RingsFit s) : RingsFit (flood s m source) := hs.sendAll.sendAll

protected theorem RingsFit.originate {step body} (hs : RingsFit s) : RingsFit (originate s step body) := hs.parts.flood

protected theorem RingsFit.beginHold {port sub dryMs} (hs : RingsFit s) : RingsFit (beginHold s port sub dryMs) := hs.parts.originate

protected theorem RingsFit.haltUnits {xs} (hs : RingsFit s) : RingsFit (haltUnits s xs) := by
  fun_induction haltUnits s xs with
  | case1 => exact hs
  | case2 _ _ _ ih => exact ih hs.modUnit

protected theorem RingsFit.bpHits {xs} (hs : RingsFit s) : RingsFit (bpHits s xs) := by
  fun_induction bpHits s xs with
  | case1 => exact hs
  | case2 _ _ _ ih => exact ih hs.parts

protected theorem RingsFit.haltWith {units loc bp} (hs : RingsFit s) : RingsFit (haltWith s units loc bp) := by
  unfold haltWith
  extract_lets first s1 met s2
  have h1 : RingsFit s1 := hs.haltUnits.logRaw
  have h2 : RingsFit s2 := .ite h1 h1.bpHits.haltUnits
  exact .ite h2.parts.beginHold h2

protected theorem RingsFit.blotBreak {cls written} (hs : RingsFit s) : RingsFit (blotBreak s cls written) := by
  unfold blotBreak
  split
  · exact hs
  · exact hs.bpHits.haltWith

protected theorem RingsFit.logEv {e} (hs : RingsFit s) : RingsFit (logEv s e) := hs.logRaw.blotBreak

end Sys2Proof.Machine
end

section
/-! PROOFS. The commands of engines, scribes and die movers keep the class rings within their bounds (R387). -/

namespace Sys2Proof.Machine

set_option Elab.async false

variable {s : State}

/-! ### What units share -/

protected theorem RingsFit.bpFire {c loc fired} (hs : RingsFit s) : RingsFit (bpFire s c loc fired) := hs.bpHits.haltWith

protected theorem RingsFit.noteTaken {ch n} (hs : RingsFit s) : RingsFit (noteTaken s ch n) := by
  unfold noteTaken
  split
  · exact hs
  · exact .ite hs hs.modSub.parts

protected theorem RingsFit.takeDrops {ch n} (hs : RingsFit s) : RingsFit (takeDrops s ch n).2 := by
  unfold takeDrops
  exact hs.same.noteTaken

protected theorem RingsFit.gather {ds got} (hs : RingsFit s) : RingsFit (gather s ds got).1 := by
  induction ds generalizing s got with
  | nil => exact hs
  | cons d ds ih => exact ih hs.takeDrops

protected theorem RingsFit.pump {xs} (hs : RingsFit s) : RingsFit (pump s xs).1 := by
  fun_induction pump s xs with
  | case1 => exact hs
  | case2 _ _ _ _ _ _ ih => exact ih hs.same
  | case3 => exact hs

protected theorem RingsFit.unitStore {c a bs} (hs : RingsFit s) : RingsFit (unitStore s c a bs) := by
  unfold unitStore
  split
  · exact .ite hs.same hs.memWrite
  · exact hs.memWrite

protected theorem RingsFit.settleSlab {c r xs} (hs : RingsFit s) : RingsFit (settleSlab s c r xs).1 := by
  fun_induction settleSlab s c r xs with
  | case1 => exact hs
  | case2 _ _ _ _ ih => exact ih hs.unitStore
  | case3 => exact hs

protected theorem RingsFit.noteSkip {c tile cause index} (hs : RingsFit s) : RingsFit (noteSkip s c tile cause index) := by
  unfold noteSkip
  extract_lets loc s1 st
  have h1 : RingsFit s1 := hs.logEv
  clear_value s1
  exact h1.parts

protected theorem RingsFit.fireAt {k idx fired} (hs : RingsFit s) : RingsFit (fireAt s k idx fired) := hs.modUnit.bpFire

protected theorem RingsFit.pauseUnit {k idx x w b} (hs : RingsFit s) : RingsFit (pauseUnit s k idx x w b) :=
  .ite hs.same hs.same.fireAt

protected theorem RingsFit.retireUnit {k n} (hs : RingsFit s) : RingsFit (retireUnit s k n) := hs.modUnit

protected theorem RingsFit.asIssued {k u} (hs : RingsFit s) : RingsFit (asIssued s k u) := .ite hs hs.same

protected theorem RingsFit.moverStore {m a bs} (hs : RingsFit s) : RingsFit (moverStore s m a bs) := by
  unfold moverStore
  split
  · exact .ite hs.same hs.memWrite
  · exact hs

protected theorem RingsFit.moverGo {m e a skip ch n i} (hs : RingsFit s) : RingsFit (moverGo m e a skip ch n i s).1 := by
  induction n generalizing s i with
  | zero => exact hs
  | succ n ih =>
    unfold moverGo
    split
    · exact ih hs
    · split
      · split
        · exact hs
        · exact ih (.ite hs.takeDrops hs.takeDrops.moverStore)
      · split
        · exact ih hs.same
        · exact hs

protected theorem RingsFit.moverMove {m i e b} (hs : RingsFit s) : RingsFit (moverMove s m i e b) := by
  unfold moverMove
  dsimp only
  split
  · exact hs.moverGo.modUnit
  · split
    · exact hs.moverGo.pump.modUnit
    · exact hs.moverGo.pump.modUnit

protected theorem RingsFit.noteMoverSkip {m i e b} (hs : RingsFit s) : RingsFit (noteMoverSkip s m i e b) := by
  unfold noteMoverSkip
  split
  · exact hs.noteSkip
  · exact hs

protected theorem RingsFit.moverAdvance {m i e b} (hs : RingsFit s) : RingsFit (moverAdvance s m i e b) := by
  unfold moverAdvance
  dsimp only
  split
  · exact hs.moverMove
  · split
    · split
      · exact hs.noteMoverSkip.moverMove
      · exact .ite hs.modUnit hs.takeDrops.noteMoverSkip.moverMove
    · exact hs.noteMoverSkip.moverMove

protected theorem RingsFit.runMover {m op} (hs : RingsFit s) : RingsFit (runMover s m op) := by
  unfold runMover
  dsimp only
  split
  · exact hs
  · exact .ite hs.same.moverAdvance hs

protected theorem RingsFit.setSlot {i v} (hs : RingsFit s) : RingsFit (setSlot s i v) := hs.parts

protected theorem RingsFit.markLane {l token} (hs : RingsFit s) : RingsFit (markLane s l token) := by
  unfold markLane
  split
  · exact hs
  · exact .ite hs hs.setSlot

protected theorem RingsFit.markRecords {base a bs m} (hs : RingsFit s) : RingsFit (markRecords s base a bs m) := by
  fun_induction markRecords s base a bs m with
  | case1 => exact hs
  | case2 _ _ _ _ ih => exact ih.markLane
  | case3 _ _ _ _ ih => exact ih

protected theorem RingsFit.markEmit {a bs} (hs : RingsFit s) : RingsFit (markEmit s a bs) := .ite hs.markRecords hs

protected theorem RingsFit.xmovTake {x v skip inp i} {r : Drop × State} (hs : RingsFit s)
    (hr : xmovTake x v skip inp i s = some r) : RingsFit r.2 := by
  unfold xmovTake at hr
  split at hr
  · split at hr
    · cases hr
    · cases hr
      exact hs.takeDrops
  · cases hr
    exact hs

protected theorem RingsFit.xmovGive {c x v skip outp i d} {t : State} (hs : RingsFit s)
    (ht : xmovGive c x v skip outp i d s = some t) : RingsFit t := by
  unfold xmovGive at ht
  dsimp only at ht
  split at ht
  · split at ht
    · cases ht
      exact hs.same
    · cases ht
  · split at ht
    · cases ht
      exact hs
    · cases ht
      exact hs.unitStore.markEmit

protected theorem RingsFit.xmovGo {c x v skip inp outp n i h} (hs : RingsFit s) :
    RingsFit (xmovGo c x v skip inp outp n i h s).1 := by
  induction n generalizing s i h with
  | zero => exact hs
  | succ n ih =>
    unfold xmovGo
    split
    · exact hs
    · next d s1 hd =>
      have h1 : RingsFit s1 := by
        split at hd
        · cases hd
          exact hs
        · exact hs.xmovTake hd
      split
      · exact h1
      · next s2 h2 => exact ih (h1.xmovGive h2)

protected theorem RingsFit.xmovAdvance {c j x b} (hs : RingsFit s) : RingsFit (xmovAdvance s c j x b) := by
  unfold xmovAdvance
  dsimp only
  split
  · exact hs.xmovGo.pauseUnit
  · split
    · exact hs.xmovGo.pauseUnit
    · split
      · exact hs.xmovGo.pump.retireUnit
      · exact hs.xmovGo.pump.pauseUnit

protected theorem RingsFit.xmovFlip {k x skip} (hs : RingsFit s) : RingsFit (xmovFlip s k x skip) := .ite hs.same hs

protected theorem RingsFit.putG {c t lat gd v} (hs : RingsFit s) : RingsFit (putG s c t lat gd v) := .ite hs hs.same

protected theorem RingsFit.nextScribe {c n} (hs : RingsFit s) : RingsFit (nextScribe s c n) := hs.same

protected theorem RingsFit.pauseScribe {c x w spent} (hs : RingsFit s) : RingsFit (pauseScribe s c x w spent) := hs.pauseUnit

protected theorem RingsFit.finishScribe {c x n} (hs : RingsFit s) : RingsFit (finishScribe s c x n) :=
  .ite hs.nextScribe hs.pauseScribe

protected theorem RingsFit.skipScribe {c cause n} (hs : RingsFit s) : RingsFit (skipScribe s c cause n) := hs.noteSkip.finishScribe

protected theorem RingsFit.waitScribe {c w moved} (hs : RingsFit s) : RingsFit (waitScribe s c w moved) := hs.pauseScribe

protected theorem RingsFit.enqueueOrWait {c j w} (hs : RingsFit s) : RingsFit (enqueueOrWait s c j w) :=
  .ite hs.waitScribe hs.same.nextScribe

protected theorem RingsFit.doCsend {c port ga} (hs : RingsFit s) : RingsFit (doCsend s c port ga) := by
  unfold doCsend
  split
  · exact hs.skipScribe
  · exact .ite hs.skipScribe (.ite hs.same.nextScribe hs.waitScribe)

protected theorem RingsFit.doCwait {c port n moved} (hs : RingsFit s) : RingsFit (doCwait s c port n moved) := by
  unfold doCwait
  split
  · exact hs.skipScribe
  · exact .ite hs.skipScribe (.ite hs.takeDrops.waitScribe (.ite hs.takeDrops.pauseScribe hs.takeDrops.nextScribe))

protected theorem RingsFit.doTread {c od what} (hs : RingsFit s) : RingsFit (doTread s c od what) :=
  .ite hs.waitScribe hs.same.nextScribe

protected theorem RingsFit.beginMatrix {c k t} (hs : RingsFit s) : RingsFit (beginMatrix s c k t) := hs.settleSlab.setMatrix

protected theorem RingsFit.noteSat {b} (hs : RingsFit s) : RingsFit (noteSat s b) := .ite hs.parts hs

protected theorem RingsFit.beginVector {c k t} (hs : RingsFit s) : RingsFit (beginVector s c k t) := hs.settleSlab.setVector

protected theorem RingsFit.putRegs {k lat w rs} (hs : RingsFit s) : RingsFit (putRegs s k lat w rs) := hs.setVector

protected theorem RingsFit.putTerms {k t ts} (hs : RingsFit s) : RingsFit (putTerms s k t ts) := by
  induction ts generalizing s with
  | nil => exact hs
  | cons e ts ih => exact ih hs.setVector.noteSat

protected theorem RingsFit.vwaddAll {k e row rs} (hs : RingsFit s) : RingsFit (vwaddAll s k e row rs) := by
  induction rs generalizing s with
  | nil => exact hs
  | cons r rs ih => exact ih hs.setVector.noteSat

protected theorem RingsFit.noteDropped {k n} (hs : RingsFit s) : RingsFit (noteDropped s k n) := .ite hs hs.parts

/-! ### Plans: what the effect of a tile's command can do (R62, R63) -/

/-- The effect of the plan keeps the rings fit, whatever state and drops it meets. -/
structure PlanFits (p : Plan) : Prop where
  effect : ∀ {s : State} {t : Nat} {got : List (List Drop)}, RingsFit s → RingsFit (p.effect t got s).1

protected theorem PlanFits.ite {c : Prop} [Decidable c] {p q : Plan} (hp : PlanFits p) (hq : PlanFits q) :
    PlanFits (if c then p else q) := by
  split
  · exact hp
  · exact hq

protected theorem PlanFits.illegalPlan : PlanFits illegalPlan := ⟨id⟩

protected theorem PlanFits.planWait {n} : PlanFits (planWait n) := ⟨id⟩

protected theorem PlanFits.regPlan {c j n ill bad} {eff : Nat → State → Nat → VectorSt → State}
    (he : ∀ {s t k v}, RingsFit s → RingsFit (eff t s k v)) : PlanFits (regPlan c j n ill bad eff) :=
  .ite .illegalPlan ⟨fun hs => he hs.beginVector⟩

protected theorem PlanFits.loadPlan {c j n d src ill bad} {eff : Nat → Bytes → State → Nat → VectorSt → State}
    (he : ∀ {s t bs k v}, RingsFit s → RingsFit (eff t bs s k v)) : PlanFits (loadPlan s c j n d src ill bad eff) :=
  .ite .illegalPlan ⟨fun hs => he hs.beginVector⟩

protected theorem PlanFits.storePlan {c j n d dst ill bad} {eff : Nat → State → Nat → VectorSt → List OutPiece × State}
    (he : ∀ {s t k v}, RingsFit s → RingsFit (eff t s k v).2) : PlanFits (storePlan s c j n d dst ill bad eff) :=
  .ite .illegalPlan ⟨fun hs => (he hs.beginVector).setVector⟩

protected theorem PlanFits.atStrokes {f p} (hp : PlanFits p) : PlanFits (atStrokes f p) := ⟨hp.effect⟩

/-! ### The matrix engine (R102-R108) -/

protected theorem PlanFits.planMldw {c j bank fmtW src} : PlanFits (planMldw s c j bank fmtW src) :=
  .ite .illegalPlan ⟨fun hs => hs.beginMatrix.setMatrix⟩

protected theorem PlanFits.planManc {c j row0 nr fmtA fmtW q asrc wsrc} : PlanFits (planManc s c j row0 nr fmtA fmtW q asrc wsrc) :=
  .ite .illegalPlan ⟨fun hs => hs.beginMatrix.setMatrix⟩

protected theorem PlanFits.planMacc {c j row0 nr fmtA bank asrc next nfmt nsrc} :
    PlanFits (planMacc s c j row0 nr fmtA bank asrc next nfmt nsrc) :=
  .ite .illegalPlan ⟨fun hs => hs.beginMatrix.setMatrix.noteSat⟩

protected theorem PlanFits.planMwout {c j row0 nr fmtO cols aen dst adst} : PlanFits (planMwout s c j row0 nr fmtO cols aen dst adst) :=
  .ite .illegalPlan ⟨fun hs => hs.beginMatrix.setMatrix⟩

protected theorem PlanFits.planMwexp {c j row0 nr dst} : PlanFits (planMwexp s c j row0 nr dst) :=
  .ite .illegalPlan ⟨fun hs => hs.beginMatrix⟩

protected theorem PlanFits.planMwadd {c j row0 nr src} : PlanFits (planMwadd s c j row0 nr src) :=
  .ite .illegalPlan ⟨fun hs => hs.beginMatrix.setMatrix.noteSat⟩

protected theorem PlanFits.matrixPlan {c j w} : PlanFits (matrixPlan s c j w) := by
  unfold matrixPlan
  dsimp only
  split
  · exact .ite .illegalPlan .planWait
  · exact .ite .illegalPlan .planMldw
  · exact .ite .illegalPlan .planManc
  · exact .ite .illegalPlan .planMacc
  · exact .ite .illegalPlan .planMwout
  · exact .ite .illegalPlan .planMwexp
  · exact .ite .illegalPlan .planMwadd
  · exact .illegalPlan

/-! ### The transfer engine (R172-R182) -/

protected theorem PlanFits.planXreg {c j reg value} : PlanFits (planXreg c j reg value) := ⟨fun hs => hs.same⟩

protected theorem PlanFits.planXflip {c j mask} : PlanFits (planXflip c j mask) := ⟨fun hs => hs.same⟩

protected theorem PlanFits.transferPlan {c j w} : PlanFits (transferPlan c j w) := by
  unfold transferPlan
  dsimp only
  split
  · exact .ite .illegalPlan .planWait
  · exact .ite .illegalPlan .planXreg
  · exact .ite .illegalPlan .planXflip
  · exact .illegalPlan

/-! ### The vector engine (R113-R125) -/

protected theorem PlanFits.planVop {c j op ty vd va vb vc km} : PlanFits (planVop c j op ty vd va vb vc km) := by
  unfold planVop
  exact .regPlan fun hs => hs.putRegs

protected theorem PlanFits.planVfn {c j fn ti tt vd va km} : PlanFits (planVfn c j fn ti tt vd va km) := .regPlan fun hs => hs.putRegs

protected theorem PlanFits.planVcmp {c j cmp ty kd va vb km} : PlanFits (planVcmp c j cmp ty kd va vb km) :=
  .regPlan fun hs => hs.same

protected theorem PlanFits.planVsel {c j vd va vb ks} : PlanFits (planVsel c j vd va vb ks) := .regPlan fun hs => hs.putRegs

protected theorem PlanFits.planVkop {c j kop kd ka kb} : PlanFits (planVkop c j kop kd ka kb) := .regPlan fun hs => hs.same

protected theorem PlanFits.planVimm {c j vd imm km} : PlanFits (planVimm c j vd imm km) := .regPlan fun hs => hs.putRegs

protected theorem PlanFits.planViota {c j vd base} : PlanFits (planViota c j vd base) := .regPlan fun hs => hs.putRegs

protected theorem PlanFits.planVcvt {c j ti tt vd va km} : PlanFits (planVcvt c j ti tt vd va km) := .regPlan fun hs => hs.putRegs

protected theorem PlanFits.planVld {c j vd ty src} : PlanFits (planVld s c j vd ty src) := .loadPlan fun hs => hs.putRegs

protected theorem PlanFits.planVst {c j va ty dst km} : PlanFits (planVst s c j va ty dst km) := by
  refine .storePlan fun hs => ?_
  dsimp only
  split
  · split
    · exact hs
    · exact hs
  · exact hs

protected theorem PlanFits.planVldx {c j vd vx base limit} : PlanFits (planVldx s c j vd vx base limit) :=
  .ite .illegalPlan ⟨fun hs => hs.beginVector.putRegs⟩

protected theorem PlanFits.planVstx {c j va vx base limit} : PlanFits (planVstx s c j va vx base limit) :=
  .ite .illegalPlan ⟨fun hs => hs.beginVector.setVector⟩

protected theorem PlanFits.planVldq {c j vd nr kc fmt src} : PlanFits (planVldq s c j vd nr kc fmt src) :=
  .atStrokes (.loadPlan fun hs => hs.putRegs)

protected theorem PlanFits.planVqnt {c j va nr kc fmtO row0 vx dst} : PlanFits (planVqnt s c j va nr kc fmtO row0 vx dst) :=
  .atStrokes (.storePlan fun hs => hs.putRegs)

protected theorem PlanFits.planVlda {c j vd src} : PlanFits (planVlda s c j vd src) := .loadPlan fun hs => hs.putRegs

protected theorem PlanFits.planVsta {c j va dst} : PlanFits (planVsta s c j va dst) := .storePlan id

protected theorem PlanFits.planVwanc {c j row mode bc vx vy} : PlanFits (planVwanc c j row mode bc vx vy) :=
  .regPlan fun hs => hs.setVector

protected theorem PlanFits.planVrsum {c j row dir ty va km} : PlanFits (planVrsum c j row dir ty va km) :=
  .regPlan fun hs => hs.putTerms

protected theorem PlanFits.planVrdot {c j row dir ty va vb km} : PlanFits (planVrdot c j row dir ty va vb km) :=
  .regPlan fun hs => hs.putTerms

protected theorem PlanFits.planVwout {c j vd row ty km} : PlanFits (planVwout c j vd row ty km) := .regPlan fun hs => hs.putRegs

protected theorem PlanFits.planVwexp {c j row dst} : PlanFits (planVwexp s c j row dst) := .ite .illegalPlan ⟨fun hs => hs.beginVector⟩

protected theorem PlanFits.planVwadd {c j row src} : PlanFits (planVwadd s c j row src) :=
  .ite .illegalPlan ⟨fun hs => hs.beginVector.vwaddAll⟩

protected theorem PlanFits.planVanch {c j vd va ty hm mg km} : PlanFits (planVanch c j vd va ty hm mg km) :=
  .regPlan fun hs => hs.putRegs

protected theorem PlanFits.planVrmax {c j vd va ty km} : PlanFits (planVrmax c j vd va ty km) := .regPlan fun hs => hs.putRegs

protected theorem PlanFits.planVtopk {c j lv li va vi k init km} : PlanFits (planVtopk c j lv li va vi k init km) :=
  .regPlan fun hs => hs.putRegs

protected theorem PlanFits.planVsamp {c j vd lv li vp k} : PlanFits (planVsamp c j vd lv li vp k) := .regPlan fun hs => hs.putRegs

protected theorem PlanFits.planVrng {c j vd vt vq vs stream wd} : PlanFits (planVrng c j vd vt vq vs stream wd) :=
  .regPlan fun hs => hs.putRegs

protected theorem PlanFits.planVdisp {c j vs vf ve vcap nc nt cont} : PlanFits (planVdisp c j vs vf ve vcap nc nt cont) :=
  .regPlan fun hs => hs.putRegs.noteDropped

protected theorem PlanFits.vectorPlan {c j w} : PlanFits (vectorPlan s c j w) := by
  unfold vectorPlan
  dsimp only
  split
  · exact .ite .illegalPlan .planWait
  · exact .ite .illegalPlan .planVop
  · exact .ite .illegalPlan .planVfn
  · exact .ite .illegalPlan .planVcmp
  · exact .ite .illegalPlan .planVsel
  · exact .ite .illegalPlan .planVkop
  · exact .ite .illegalPlan .planVimm
  · exact .ite .illegalPlan .planViota
  · exact .ite .illegalPlan .planVcvt
  · exact .ite .illegalPlan .planVld
  · exact .ite .illegalPlan .planVst
  · exact .ite .illegalPlan .planVldx
  · exact .ite .illegalPlan .planVstx
  · exact .ite .illegalPlan .planVldq
  · exact .ite .illegalPlan .planVqnt
  · exact .ite .illegalPlan .planVlda
  · exact .ite .illegalPlan .planVsta
  · exact .ite .illegalPlan .planVwanc
  · exact .ite .illegalPlan .planVrsum
  · exact .ite .illegalPlan .planVrdot
  · exact .ite .illegalPlan .planVwout
  · exact .ite .illegalPlan .planVwexp
  · exact .ite .illegalPlan .planVwadd
  · exact .ite .illegalPlan .planVanch
  · exact .ite .illegalPlan .planVrmax
  · exact .ite .illegalPlan .planVtopk
  · exact .ite .illegalPlan .planVsamp
  · exact .ite .illegalPlan .planVrng
  · exact .ite .illegalPlan .planVdisp
  · exact .illegalPlan

protected theorem PlanFits.planXmov {c j x} : PlanFits (planXmov s c j x) := ⟨id⟩

protected theorem PlanFits.wordPlan {c j w} : PlanFits (wordPlan s c j w) :=
  .ite .matrixPlan (.ite .vectorPlan (.ite .planXmov .transferPlan))

/-! ### A tile's command from its plan on (R46, R50, R62) -/

protected theorem RingsFit.planEffect {p i got} (hp : PlanFits p) (hs : RingsFit s) : RingsFit (planEffect p i got s).1 := by
  unfold planEffect
  split
  · exact hs
  · exact hp.effect hs

protected theorem RingsFit.goOn {k idx} {f : State → State} (hs : RingsFit s) (hf : RingsFit (f s)) :
    RingsFit (goOn s k idx f) :=
  .ite hf hs.fireAt

protected theorem RingsFit.advancePart {k b p lim} (hs : RingsFit s) (hp : PlanFits p) : RingsFit (advancePart s k b p lim) := by
  unfold advancePart
  extract_lets u _ _ g e
  have he : RingsFit e.1 := .planEffect hp hs.gather.asIssued
  exact .pauseUnit he.same

protected theorem RingsFit.advance {k b p} (hs : RingsFit s) (hp : PlanFits p) : RingsFit (advance s k b p) :=
  .ite (RingsFit.planEffect hp hs.gather.asIssued).pump.retireUnit (hs.advancePart hp)

protected theorem RingsFit.runTileWith {c j w p} {go : State → Blocked → State} (hs : RingsFit s)
    (hg : ∀ {t b}, RingsFit t → RingsFit (go t b)) : RingsFit (runTileWith s c j w p go) := by
  have hi : RingsFit (issueTile s c j w p go) := by
    refine hg ?_
    split
    · exact hs.same.noteSkip
    · exact hs.same
  unfold runTileWith
  refine .ite hs (.ite ?_ (.ite hs.same hs))
  split
  · exact hi
  · exact hs.fireAt

protected theorem RingsFit.runTile {c j w p} (hs : RingsFit s) (hp : PlanFits p) : RingsFit (runTile s c j w p) :=
  hs.runTileWith fun ht => ht.advance hp

protected theorem RingsFit.runXmov {c j x} (hs : RingsFit s) : RingsFit (runXmov s c j x) :=
  hs.runTileWith fun ht => ht.xmovFlip.xmovAdvance

protected theorem RingsFit.runMatrix {c j w p} (hs : RingsFit s) (hp : PlanFits p) : answers (runMatrix s c j w p) (RingsFit) :=
  .next (.ite (hs.runTile hp) hs)

protected theorem RingsFit.runVector {c j w p} (hs : RingsFit s) (hp : PlanFits p) : answers (runVector s c j w p) (RingsFit) :=
  .next (.ite (hs.runTile hp) hs)

protected theorem RingsFit.runTransfer {c j w p} (hs : RingsFit s) (hp : PlanFits p) :
    answers (runTransfer s c j w p) (RingsFit) :=
  .next (.ite (hs.runTile hp) hs)

/-! ### Scribes (R140-R160) -/

protected theorem RingsFit.withSources {c ill sels n} {k : Unit → State} (hs : RingsFit s) (hk : RingsFit (k ())) :
    RingsFit (withSources s c ill sels n k) :=
  .ite hs.skipScribe (.ite hs.skipScribe hk)

protected theorem RingsFit.doPush {c j tpl sa sb sc} (hs : RingsFit s) : RingsFit (doPush s c j tpl sa sb sc) := by
  refine hs.withSources ?_
  dsimp only
  split
  · exact hs.skipScribe
  · exact .ite hs.skipScribe hs.enqueueOrWait

protected theorem RingsFit.doPushr {c j ga} (hs : RingsFit s) : RingsFit (doPushr s c j ga) := .ite hs.skipScribe hs.enqueueOrWait

protected theorem RingsFit.doXwr {c x reg sa} (hs : RingsFit s) : RingsFit (doXwr s c x reg sa) :=
  hs.withSources (.ite hs.skipScribe hs.enqueueOrWait)

protected theorem RingsFit.runScribe {c w n} {body : State → State} (hs : RingsFit s) (hb : ∀ {t}, RingsFit t → RingsFit
  (body t)) :
    answers (runScribe s c w n body) (RingsFit) := by
  unfold runScribe
  dsimp only
  split
  · refine .next ?_
    split
    · exact hb hs.same
    · exact hs.fireAt
  · exact .next hs

protected theorem RingsFit.resumeScribe {c} (hs : RingsFit s) : RingsFit (resumeScribe s c) := by
  unfold resumeScribe
  split
  · refine hs.goOn (.ite hs.finishScribe ?_)
    split
    · exact hs.doPush
    · exact hs.doPushr
    · exact hs.doXwr
    · exact hs.doCsend
    · exact hs.doCwait
    · exact hs.doTread
    · exact hs
  · exact hs

protected theorem RingsFit.execScribeWait {c n} (hs : RingsFit s) : answers (execScribeWait c n s) (RingsFit) := by
  unfold execScribeWait
  exact hs.runScribe fun hb => .ite hb.skipScribe hb.finishScribe

protected theorem RingsFit.execAlu {c op gd sa sb} (hs : RingsFit s) : answers (execAlu c op gd sa sb s) (RingsFit) := by
  unfold execAlu
  exact hs.runScribe fun hb => hb.withSources hb.putG.nextScribe

protected theorem RingsFit.execAlui {c op gd sa imm} (hs : RingsFit s) : answers (execAlui c op gd sa imm s) (RingsFit) := by
  unfold execAlui
  exact hs.runScribe fun hb => hb.withSources hb.putG.nextScribe

protected theorem RingsFit.execBr {c cond sa sb target} (hs : RingsFit s) : answers (execBr c cond sa sb target s) (RingsFit) := by
  unfold execBr
  exact hs.runScribe fun hb => hb.withSources (.ite hb.same hb.nextScribe)

protected theorem RingsFit.execLset {c lk sa imm} (hs : RingsFit s) : answers (execLset c lk sa imm s) (RingsFit) := by
  unfold execLset
  exact hs.runScribe fun hb => hb.withSources (.ite hb.skipScribe hb.same.nextScribe)

protected theorem RingsFit.execLdc {c gd idx} (hs : RingsFit s) : answers (execLdc c gd idx s) (RingsFit) := by
  unfold execLdc
  refine hs.runScribe fun hb => ?_
  split
  · exact hb.skipScribe
  · exact hb.putG.nextScribe

protected theorem RingsFit.execMovi {c gd imm} (hs : RingsFit s) : answers (execMovi c gd imm s) (RingsFit) := by
  unfold execMovi
  exact hs.runScribe fun hb => hb.putG.nextScribe

protected theorem RingsFit.execLd {c gd sa off w} (hs : RingsFit s) : answers (execLd c gd sa off w s) (RingsFit) := by
  unfold execLd
  refine hs.runScribe fun hb => hb.withSources ?_
  dsimp only
  split
  · exact hb.skipScribe
  · exact hb.putG.nextScribe

protected theorem RingsFit.execSt {c ss sa off w} (hs : RingsFit s) : answers (execSt c ss sa off w s) (RingsFit) := by
  unfold execSt
  refine hs.runScribe fun hb => hb.withSources ?_
  dsimp only
  split
  · exact hb.skipScribe
  · exact hb.unitStore.nextScribe

protected theorem RingsFit.execNote {c dest tag sa sb} (hs : RingsFit s) : answers (execNote c dest tag sa sb s) (RingsFit) := by
  unfold execNote
  exact hs.runScribe fun hb => .ite hb.skipScribe (.nextScribe (.ite hb.logEv hb.parts))

protected theorem RingsFit.execLend {c lk target} (hs : RingsFit s) : answers (execLend c lk target s) (RingsFit) := by
  unfold execLend
  exact hs.runScribe fun hb => .ite hb.same hb.same.nextScribe

protected theorem RingsFit.execJmp {c target} (hs : RingsFit s) : answers (execJmp c target s) (RingsFit) := by
  unfold execJmp
  exact hs.runScribe fun hb => hb.same

protected theorem RingsFit.execEnd {c} (hs : RingsFit s) : answers (execEnd c s) (RingsFit) := by
  unfold execEnd
  exact hs.runScribe fun hb => hb.same.modUnit

protected theorem RingsFit.execPush {c j tpl sa sb sc} (hs : RingsFit s) : answers (execPush c j tpl sa sb sc s) (RingsFit) := by
  unfold execPush
  exact hs.runScribe fun hb => hb.doPush

protected theorem RingsFit.execPushr {c j ga} (hs : RingsFit s) : answers (execPushr c j ga s) (RingsFit) := by
  unfold execPushr
  exact hs.runScribe fun hb => hb.doPushr

protected theorem RingsFit.execXwr {c x reg sa} (hs : RingsFit s) : answers (execXwr c x reg sa s) (RingsFit) := by
  unfold execXwr
  exact hs.runScribe fun hb => hb.doXwr

protected theorem RingsFit.execCsend {c port ga} (hs : RingsFit s) : answers (execCsend c port ga s) (RingsFit) := by
  unfold execCsend
  exact hs.runScribe fun hb => hb.doCsend

protected theorem RingsFit.execCwait {c port n} (hs : RingsFit s) : answers (execCwait c port n s) (RingsFit) := by
  unfold execCwait
  exact hs.runScribe fun hb => hb.doCwait

protected theorem RingsFit.execTread {c od what} (hs : RingsFit s) : answers (execTread c od what s) (RingsFit) := by
  unfold execTread
  exact hs.runScribe fun hb => hb.doTread

/-! ### Stretched strokes go on (R50) -/

protected theorem RingsFit.resumeTile {c j} (hs : RingsFit s) : RingsFit (resumeTile s c j) := by
  unfold resumeTile
  dsimp only
  split
  · exact hs.goOn (.ite hs.xmovAdvance (hs.advance .wordPlan))
  · split
    · exact .ite hs.runXmov (hs.runTile .wordPlan)
    · exact .ite hs.same hs

protected theorem RingsFit.resumeMover {m} (hs : RingsFit s) : RingsFit (resumeMover s m) := by
  unfold resumeMover
  dsimp only
  split
  · exact hs.moverAdvance
  · exact hs

/-- A row of an engine, a scribe or a die mover keeps the rings fit. -/
protected theorem RingsFit.unitRow {i : Instr} (hs : RingsFit s) (hi : isUnitCmd i = true) : answers (exec i s) RingsFit := by
  cases i with
  | matrixWait => exact hs.runMatrix .planWait
  | mldw => exact hs.runMatrix .planMldw
  | manc => exact hs.runMatrix .planManc
  | macc => exact hs.runMatrix .planMacc
  | mwout => exact hs.runMatrix .planMwout
  | mwexp => exact hs.runMatrix .planMwexp
  | mwadd => exact hs.runMatrix .planMwadd
  | vectorWait => exact hs.runVector .planWait
  | vop => exact hs.runVector .planVop
  | vfn => exact hs.runVector .planVfn
  | vcmp => exact hs.runVector .planVcmp
  | vsel => exact hs.runVector .planVsel
  | vkop => exact hs.runVector .planVkop
  | vimm => exact hs.runVector .planVimm
  | viota => exact hs.runVector .planViota
  | vcvt => exact hs.runVector .planVcvt
  | vld => exact hs.runVector .planVld
  | vst => exact hs.runVector .planVst
  | vldx => exact hs.runVector .planVldx
  | vstx => exact hs.runVector .planVstx
  | vldq => exact hs.runVector .planVldq
  | vqnt => exact hs.runVector .planVqnt
  | vlda => exact hs.runVector .planVlda
  | vsta => exact hs.runVector .planVsta
  | vwanc => exact hs.runVector .planVwanc
  | vrsum => exact hs.runVector .planVrsum
  | vrdot => exact hs.runVector .planVrdot
  | vwout => exact hs.runVector .planVwout
  | vwexp => exact hs.runVector .planVwexp
  | vwadd => exact hs.runVector .planVwadd
  | vanch => exact hs.runVector .planVanch
  | vrmax => exact hs.runVector .planVrmax
  | vtopk => exact hs.runVector .planVtopk
  | vsamp => exact hs.runVector .planVsamp
  | vrng => exact hs.runVector .planVrng
  | vdisp => exact hs.runVector .planVdisp
  | transferWait => exact hs.runTransfer .planWait
  | xmov => exact .next (.ite hs.runXmov hs)
  | xreg => exact hs.runTransfer .planXreg
  | xflip => exact hs.runTransfer .planXflip
  | moverRead => exact .next hs.runMover
  | moverWrite => exact .next hs.runMover
  | scribeWait => exact hs.execScribeWait
  | alu => exact hs.execAlu
  | alui => exact hs.execAlui
  | movi => exact hs.execMovi
  | ld => exact hs.execLd
  | st => exact hs.execSt
  | ldc => exact hs.execLdc
  | jmp => exact hs.execJmp
  | br => exact hs.execBr
  | lset => exact hs.execLset
  | lend => exact hs.execLend
  | endOp => exact hs.execEnd
  | push => exact hs.execPush
  | pushr => exact hs.execPushr
  | xwr => exact hs.execXwr
  | csend => exact hs.execCsend
  | cwait => exact hs.execCwait
  | tread => exact hs.execTread
  | note => exact hs.execNote
  | waitResume u =>
    refine .next ?_
    cases u with
    | scribe c => exact .ite hs.resumeScribe hs
    | tile c j => exact .ite hs.resumeTile hs
    | mover m => exact .ite hs.resumeMover hs
  | _ => exact nomatch hi

end Sys2Proof.Machine
end

section
/-! PROOFS. What serves requests and loads sheets keeps the class rings within their bounds (R387). -/

namespace Sys2Proof.Machine

set_option Elab.async false

variable {s : State}

/-! ### The definitions of Machine/RegMap -/

protected theorem RingsFit.putReg {off v} (hs : RingsFit s) : RingsFit (putReg s off v) := hs.same

protected theorem RingsFit.putField {off hi lo v} (hs : RingsFit s) : RingsFit (putField s off hi lo v) := hs.putReg

/-! ### The definitions of Machine/Ops -/

protected theorem RingsFit.drawFree {w} (hs : RingsFit s) : RingsFit (drawFree w s).2 := hs.parts

/-! ### The definitions of Machine/LaunchOps -/

protected theorem RingsFit.sendEnd {step status} (hs : RingsFit s) : RingsFit (sendEnd s step status) := hs.originate

protected theorem RingsFit.endHold {port sub dryMs outcome} (hs : RingsFit s) : RingsFit (endHold s port sub dryMs outcome) :=
  hs.parts.originate

protected theorem RingsFit.raiseCond {code} (hs : RingsFit s) : RingsFit (raiseCond s code) := hs.parts

protected theorem RingsFit.endHaltHold {outcome} (hs : RingsFit s) : RingsFit (endHaltHold s outcome) := .ite hs.parts.endHold hs

protected theorem RingsFit.endHalts (hs : RingsFit s) : RingsFit (endHalts s) := .ite hs hs.same.endHaltHold

/-! ### The definitions of Machine/Engine -/

protected theorem RingsFit.flushSlab {c xs} (hs : RingsFit s) : RingsFit (flushSlab s c xs) := by
  fun_induction flushSlab s c xs with
  | case1 => exact hs
  | case2 _ _ _ ih => exact ih hs.unitStore

/-! ### The definitions of Machine/ServOps -/

protected theorem RingsFit.modSlot {i f} (hs : RingsFit s) : RingsFit (modSlot s i f) := hs.setSlot

protected theorem RingsFit.eachSlot {f is} (hs : RingsFit s) (hf : ∀ {i t}, RingsFit t → RingsFit (f i t)) : RingsFit (eachSlot s f is) := by
  induction is generalizing s with
  | nil => exact hs
  | cons i is ih => exact ih (hf hs)

protected theorem RingsFit.setFolio {i f} (hs : RingsFit s) : RingsFit (setFolio s i f) := hs.parts

protected theorem RingsFit.sieveRemove {idx} (hs : RingsFit s) : RingsFit (sieveRemove s idx) := by
  unfold sieveRemove
  split
  · exact hs
  · exact .ite hs.parts.setFolio hs.parts

protected theorem RingsFit.sieveRemoveAll {xs} (hs : RingsFit s) : RingsFit (sieveRemoveAll s xs) := by
  fun_induction sieveRemoveAll s xs with
  | case1 => exact hs
  | case2 _ _ _ ih => exact ih hs.sieveRemove

protected theorem RingsFit.takeRun {slot base n} (hs : RingsFit s) : RingsFit (takeRun s slot base n) := by
  induction n with
  | zero => exact hs
  | succ n ih => exact .setFolio (.ite ih.sieveRemove ih)

protected theorem RingsFit.giveRun {slot base n} (hs : RingsFit s) : RingsFit (giveRun s slot base n) := hs.takeRun.modSlot

protected theorem RingsFit.freeRun {i} (hs : RingsFit s) : RingsFit (freeRun s i) := .ite hs.parts.modSlot hs

protected theorem RingsFit.freeSpill {i} (hs : RingsFit s) : RingsFit (freeSpill s i) := by
  unfold freeSpill
  exact hs.parts.modSlot

protected theorem RingsFit.freeRuns {i} (hs : RingsFit s) : RingsFit (freeRuns s i) := hs.freeRun.freeSpill

/-! ### The definitions of Machine/MboxOps -/

protected theorem RingsFit.complete {ring seq code err result} (hs : RingsFit s) : RingsFit (complete s ring seq code err result) := hs.same

protected theorem RingsFit.done {ring seq c err result} (hs : RingsFit s) : RingsFit (done s ring seq c err result) := hs.complete

/-! ### The definitions of Machine/Loading -/

protected theorem RingsFit.fillTarget {e} (hs : RingsFit s) : RingsFit (fillTarget s e) := .ite hs hs.memWrite

protected theorem RingsFit.fillAnchors {all xs} (hs : RingsFit s) : RingsFit (fillAnchors s all xs) := by
  fun_induction fillAnchors s all xs with
  | case1 => exact hs
  | case2 _ _ _ ih => exact ih (.ite hs.memWrite hs)

protected theorem RingsFit.reloadWeights (hs : RingsFit s) : RingsFit (reloadWeights s) := by
  unfold reloadWeights
  split
  · exact hs
  · refine .fillAnchors ?_
    refine hs.foldl fun ht => ?_
    exact ht.fillTarget

protected theorem RingsFit.switchEpoch {epoch} (hs : RingsFit s) : RingsFit (switchEpoch s epoch) := hs.parts

protected theorem RingsFit.loadDone {epoch adapter} (hs : RingsFit s) : RingsFit (loadDone s epoch adapter) := by
  unfold loadDone
  split
  · exact hs
  · split
    · exact hs
    · exact .ite (.originate (.complete (.ite hs.same hs.same))) hs

protected theorem RingsFit.sendData {k bs m} (hs : RingsFit s) : RingsFit (sendData s k bs m) := by
  fun_induction sendData s k bs m with
  | case1 => exact hs
  | case2 _ _ _ ih => exact ih hs.same

protected theorem RingsFit.sendBlock {t} (hs : RingsFit s) : RingsFit (sendBlock s t) := by
  unfold sendBlock
  dsimp only
  split
  · exact hs
  · exact hs.same.sendData

protected theorem RingsFit.pumpTx {xs} (hs : RingsFit s) : RingsFit (pumpTx s xs) := by
  fun_induction pumpTx s xs with
  | case1 => exact hs
  | case2 _ _ _ _ ih => exact ih hs
  | case3 _ _ _ _ _ _ ih => exact ih hs.parts.memWrite.sendBlock

protected theorem RingsFit.ackUp {epoch block} (hs : RingsFit s) : RingsFit (ackUp s epoch block) := by
  unfold ackUp
  split
  · exact hs.same
  · split
    · exact hs
    · exact hs.parts.complete

protected theorem RingsFit.takeBlock {m block e bytes} (hs : RingsFit s) : RingsFit (takeBlock s m block e bytes) := by
  unfold takeBlock
  extract_lets s1 s2 t s3
  have h1 : RingsFit s1 := .ite hs.same hs
  have h2 : RingsFit s2 := h1.loadDone
  exact .ite h2.parts.pumpTx h2.ackUp

protected theorem RingsFit.failJob {j err res} (hs : RingsFit s) : RingsFit (failJob s j err res) := hs.parts.complete

protected theorem RingsFit.blockError {j position} (hs : RingsFit s) : RingsFit (blockError s j position).1 := by
  unfold blockError
  dsimp only
  split
  · split
    · exact hs
    · dsimp only
      exact hs.drawFree
  · split
    · exact hs
    · dsimp only
      exact hs.drawFree

protected theorem RingsFit.readAgain {j position} (hs : RingsFit s) : RingsFit (readAgain s j position) :=
  .ite hs.blockError.failJob hs.parts

protected theorem RingsFit.nackUp {epoch block position} (hs : RingsFit s) : RingsFit (nackUp s epoch block position) := by
  unfold nackUp
  split
  · exact hs.same
  · split
    · exact hs.readAgain
    · exact hs

protected theorem RingsFit.nackUnsent {epoch} (hs : RingsFit s) : RingsFit (nackUnsent s epoch) :=
  .ite hs (hs.parts.foldl fun ht => ht.nackUp)

protected theorem RingsFit.bulkStartOn {k epoch block length} (hs : RingsFit s) : RingsFit (bulkStartOn s k epoch block length) := by
  unfold bulkStartOn
  split
  · exact hs
  · split
    · exact hs.nackUp
    · exact hs.parts

protected theorem RingsFit.bulkDataOn {k payload} (hs : RingsFit s) : RingsFit (bulkDataOn s k payload) := by
  unfold bulkDataOn
  split
  · exact hs
  · split
    · exact hs
    · dsimp only
      split
      · exact hs.parts
      · split
        · exact hs.parts.nackUp
        · split
          · exact hs.parts.nackUp
          · exact .ite hs.parts.takeBlock hs.parts.nackUp

protected theorem RingsFit.bulkAckOn {k epoch block} (hs : RingsFit s) : RingsFit (bulkAckOn s k epoch block) :=
  .ite hs.same.ackUp.pumpTx hs

protected theorem RingsFit.bulkNackOn {k epoch block position} (hs : RingsFit s) : RingsFit (bulkNackOn s k epoch block position) := by
  unfold bulkNackOn
  split
  · exact hs
  · split
    · exact hs
    · exact .ite hs.same.nackUp hs.parts.sendBlock

protected theorem RingsFit.resendBlocks {xs} (hs : RingsFit s) : RingsFit (resendBlocks s xs) := by
  fun_induction resendBlocks s xs with
  | case1 => exact hs
  | case2 _ _ _ ih => exact ih (.ite hs.sendBlock hs)

protected theorem RingsFit.serveLoadManifest {ring seq b} (hs : RingsFit s) : RingsFit (serveLoadManifest s ring seq b) :=
  .ite hs.done (.ite hs.done (.ite hs.done hs.parts))

protected theorem RingsFit.manifestRead {ring seq b host} (hs : RingsFit s) : RingsFit (manifestRead s ring seq b host) := by
  unfold manifestRead
  dsimp only
  split
  · exact hs.parts.done
  · exact .loadDone (.parts (.ite hs.same hs.parts))

protected theorem RingsFit.serveLoadBlock {ring seq epoch block host length} (hs : RingsFit s) :
    RingsFit (serveLoadBlock s ring seq epoch block host length) := by
  unfold serveLoadBlock
  dsimp only
  split
  · exact hs.done
  · split
    · exact hs.done
    · split
      · exact hs.done
      · exact .ite hs.done (.ite hs.done hs.parts)

protected theorem RingsFit.blockRead {j host} (hs : RingsFit s) : RingsFit (blockRead s j host) := by
  unfold blockRead
  dsimp only
  split
  · exact hs.failJob
  · split
    · exact hs.failJob
    · exact .ite hs.parts.takeBlock hs.readAgain

protected theorem RingsFit.execManifestTimeout {epoch adapter} (hs : RingsFit s) : answers (execManifestTimeout epoch adapter s) RingsFit := by
  unfold execManifestTimeout
  refine .next ?_
  split
  · exact hs.same.nackUnsent.complete
  · split
    · exact hs
    · split
      · exact hs
      · exact hs.same.nackUnsent.complete

/-! ### The definitions of Machine/Seals -/

protected theorem RingsFit.holdSeal {h} (hs : RingsFit s) : RingsFit (holdSeal s h) := .ite hs.parts.memWrite hs.parts

protected theorem RingsFit.flushSeals {xs} (hs : RingsFit s) : RingsFit (flushSeals s xs) := by
  fun_induction flushSeals s xs with
  | case1 => exact hs.parts
  | case2 _ _ _ ih => exact ih hs.same

protected theorem RingsFit.execSealSigned {slot} (hs : RingsFit s) : answers (execSealSigned slot s) RingsFit := by
  unfold execSealSigned
  refine .next ?_
  split
  · exact hs
  · exact .ite hs.same hs.parts.holdSeal

/-! ### The definitions of Machine/Serving -/

protected theorem RingsFit.useEntries {step is} (hs : RingsFit s) : RingsFit (useEntries s step is) := by
  induction is generalizing s with
  | nil => exact hs
  | cons i is ih =>
    refine ih ?_
    split
    · exact hs.parts
    · exact hs

protected theorem RingsFit.logEvicted {i} (hs : RingsFit s) : RingsFit (logEvicted s i) := hs.logEv

protected theorem RingsFit.evictNow {i} (hs : RingsFit s) : RingsFit (evictNow s i) := hs.same.freeRun.logEvicted

protected theorem RingsFit.strike {i} (hs : RingsFit s) : RingsFit (strike s i) := by
  unfold strike
  dsimp only
  split
  · exact hs.parts.modSlot
  · exact hs.evictNow

protected theorem RingsFit.strikeAll {xs} (hs : RingsFit s) : RingsFit (strikeAll s xs) := by
  fun_induction strikeAll s xs with
  | case1 => exact hs
  | case2 _ _ _ ih => exact ih hs.strike

protected theorem RingsFit.allocate {n align hits} {r : State × Option Nat} (hs : RingsFit s) (hr : allocate s n align hits = some r) :
    RingsFit r.1 := by
  unfold allocate at hr
  split at hr
  · cases hr
    exact hs
  · split at hr
    · cases hr
    · cases hr
      exact hs.strikeAll

protected theorem RingsFit.serveAdmit {ring seq b} (hs : RingsFit s) : RingsFit (serveAdmit s ring seq b) := by
  unfold serveAdmit
  dsimp only
  split
  · exact hs.done
  · split
    · exact hs.done
    · split
      · exact hs.done
      · split
        · exact hs.done
        · split
          · exact hs.done
          · next ha =>
            refine .done ?_
            split
            · exact (hs.allocate ha).parts.useEntries.setSlot.giveRun
            · exact (hs.allocate ha).parts.useEntries.setSlot

protected theorem RingsFit.retryRuns {is} (hs : RingsFit s) : RingsFit (retryRuns s is) := by
  induction is generalizing s with
  | nil => exact hs
  | cons i is ih =>
    refine ih ?_
    split
    · exact hs.giveRun
    · exact hs

protected theorem RingsFit.recordCancel {i code} (hs : RingsFit s) : RingsFit (recordCancel s i code) := hs.same.modSlot.freeRuns

protected theorem RingsFit.serveCancel {ring seq slot rid} (hs : RingsFit s) : RingsFit (serveCancel s ring seq slot rid) := by
  unfold serveCancel
  dsimp only
  split
  · exact hs.done
  · exact .ite hs.done hs.recordCancel.done

protected theorem RingsFit.servePause {ring seq slot rid} (hs : RingsFit s) : RingsFit (servePause s ring seq slot rid) := by
  unfold servePause
  dsimp only
  split
  · exact hs.done
  · exact .ite hs.done hs.setSlot.done

protected theorem RingsFit.serveResume {ring seq slot rid} (hs : RingsFit s) : RingsFit (serveResume s ring seq slot rid) := by
  unfold serveResume
  dsimp only
  split
  · exact hs.done
  · exact .ite hs.done hs.setSlot.done

protected theorem RingsFit.serveSetDeadline {ring seq slot rid sec ns} (hs : RingsFit s) :
    RingsFit (serveSetDeadline s ring seq slot rid sec ns) := by
  unfold serveSetDeadline
  dsimp only
  split
  · exact hs.done
  · exact .ite hs.done (.ite hs.done hs.modSlot.done)

protected theorem RingsFit.execEvictTimer {slot} (hs : RingsFit s) : answers (execEvictTimer slot s) RingsFit :=
  .next (.ite hs.same.logEvicted hs)

protected theorem RingsFit.retireOld {epoch} (hs : RingsFit s) : RingsFit (retireOld s epoch) := hs.eachSlot (fun ht => ht.same)

protected theorem RingsFit.execDrainLimitExpiry (hs : RingsFit s) : answers (execDrainLimitExpiry s) RingsFit :=
  .next (.ite hs.retireOld hs)

protected theorem RingsFit.serveActivate {ring seq epoch mode} (hs : RingsFit s) : RingsFit (serveActivate s ring seq epoch mode) := by
  unfold serveActivate
  dsimp only
  split
  · exact hs.done
  · split
    · split
      · exact hs.done
      · exact .done (.parts (.reloadWeights (.switchEpoch (.ite hs.retireOld hs))))
    · exact .ite hs.done (.ite hs.done (.ite hs.done (.done (.ite hs.parts.retireOld hs.parts))))

protected theorem RingsFit.fillLanes {room pauseMax margin xs xs' m} (hs : RingsFit s) :
    RingsFit (fillLanes s room pauseMax margin xs xs' m).1 := by
  fun_induction fillLanes s room pauseMax margin xs xs' m with
  | case1 => exact hs
  | case2 _ _ _ _ _ _ ih => exact ih hs
  | case3 => exact hs
  | case4 _ _ _ _ _ _ _ _ _ ih => exact ih hs.modSlot
  | case5 =>
    exact hs

protected theorem RingsFit.fillGroup {group} (hs : RingsFit s) : RingsFit (fillGroup s group).1 := by
  unfold fillGroup
  exact hs.parts.fillLanes.parts

protected theorem RingsFit.fetchRun {i} (hs : RingsFit s) : RingsFit (fetchRun s i).1 := by
  unfold fetchRun
  dsimp only
  split
  · next ha => exact .giveRun (hs.allocate ha)
  · next ha => exact hs.allocate ha
  · exact hs

protected theorem RingsFit.takeLane {group i d} (hs : RingsFit s) : RingsFit (takeLane s group i d).1 := by
  unfold takeLane
  dsimp only
  split
  · exact hs.same.logEvicted
  · split
    · exact hs.same
    · dsimp only
      split
      · refine .memWrite ?_
        refine .setSlot ?_
        split
        · exact hs.drawFree
        · exact hs
      · refine .setSlot ?_
        split
        · exact hs.drawFree
        · exact hs

protected theorem RingsFit.takeLanes {group d is} (hs : RingsFit s) : RingsFit (takeLanes s group d is).1 := by
  induction is generalizing s d with
  | nil => exact hs
  | cons i is ih =>
    have hf : RingsFit (if (getSlot s i).state = .spilled then fetchRun s i else (s, true)).1 := by
      split
      · exact hs.fetchRun
      · exact hs
    unfold takeLanes
    generalize (if (getSlot s i).state = .spilled then fetchRun s i else (s, true)) = f at hf ⊢
    split
    · exact ih hs
    · refine ih ?_
      split
      · exact hf.takeLane
      · exact hf

protected theorem RingsFit.decideDeadlines (hs : RingsFit s) : RingsFit (decideDeadlines s) := hs.eachSlot (fun ht => ht.same)

protected theorem RingsFit.applyPauses (hs : RingsFit s) : RingsFit (applyPauses s) := hs.eachSlot (fun ht => ht.modSlot)

protected theorem RingsFit.headSwitch (hs : RingsFit s) : RingsFit (headSwitch s).1 := by
  unfold headSwitch
  split
  · exact hs.same
  · exact hs

protected theorem RingsFit.writeLanes {d} (hs : RingsFit s) : RingsFit (writeLanes s d) := hs.memWrite

protected theorem RingsFit.headDescriptor (hs : RingsFit s) : RingsFit (headDescriptor s) :=
  hs.decideDeadlines.applyPauses.retryRuns.headSwitch.fillGroup.takeLanes.parts.writeLanes

protected theorem RingsFit.mirrorSlots {d} (hs : RingsFit s) : RingsFit (mirrorSlots s d) :=
  .foldl (hs.eachSlot fun ht => ht.modSlot) fun ht => ht.same

protected theorem RingsFit.useRecord {d} (hs : RingsFit s) : RingsFit (useRecord s d) := hs.parts.mirrorSlots.writeLanes

protected theorem RingsFit.takeRecord {failed} (hs : RingsFit s) : RingsFit (takeRecord s failed) := by
  unfold takeRecord
  dsimp only
  split
  · exact hs.useRecord
  · exact .ite hs.useRecord (.ite hs.useRecord (.ite hs.same.useRecord hs.useRecord.logEv))

protected theorem RingsFit.takeReport {d r} (hs : RingsFit s) : RingsFit (takeReport s d r) := by
  refine .foldl (.foldl hs fun ht => .ite ht.modSlot ht) fun ht => ?_
  split
  · exact .ite ht.modSlot ht
  · exact ht

protected theorem RingsFit.sieveInsert {i k} (hs : RingsFit s) : RingsFit (sieveInsert s i k) := by
  unfold sieveInsert
  dsimp only
  split
  · exact hs
  · split
    · exact hs.parts.setFolio
    · split
      · exact hs
      · exact hs.sieveRemove.parts.setFolio

protected theorem RingsFit.sieveInsertRun {i k m} (hs : RingsFit s) : RingsFit (sieveInsertRun s i k m) := by
  fun_induction sieveInsertRun s i k m with
  | case1 => exact hs
  | case2 _ ih => exact ih.sieveInsert

protected theorem RingsFit.commitPass {i rid w} (hs : RingsFit s) : RingsFit (commitPass s i rid w) := by
  unfold commitPass
  dsimp only
  split
  · exact hs
  · split
    · exact hs.setSlot.sieveInsertRun
    · exact hs.setSlot
    · exact hs.freeRun.modSlot
    · exact hs.freeSpill.modSlot
    · exact hs

protected theorem RingsFit.postEnd {i} (hs : RingsFit s) : RingsFit (postEnd s i) := .ite hs.freeRuns.setSlot.parts hs.freeRuns.setSlot

protected theorem RingsFit.commitSlot {i} (hs : RingsFit s) : RingsFit (commitSlot i s) :=
  .ite hs.setSlot (.ite hs.same.postEnd hs.same)

protected theorem RingsFit.countDrain (hs : RingsFit s) : RingsFit (countDrain s) := .ite hs.parts hs

protected theorem RingsFit.markerCommit (hs : RingsFit s) : RingsFit (markerCommit s) := .ite hs.parts hs

protected theorem RingsFit.commitServing (hs : RingsFit s) : RingsFit (commitServing s) := by
  unfold commitServing
  refine .ite hs ?_
  extract_lets d out s1 s2 s3 s4
  have h2 : RingsFit s2 := .foldl hs.takeReport fun ht => ht.commitPass
  have h4 : RingsFit s4 := (h2.eachSlot fun ht => ht.commitSlot).countDrain.markerCommit
  exact .ite h4.parts hs.markerCommit.parts

protected theorem RingsFit.failSlot {i} (hs : RingsFit s) : RingsFit (failSlot i s) := by
  unfold failSlot
  extract_lets s1 v s2
  have h2 : RingsFit s2 := hs.same
  exact h2.setSlot.postEnd

protected theorem RingsFit.failServing (hs : RingsFit s) : RingsFit (failServing s) :=
  .ite hs.parts (.countDrain (.parts (.eachSlot (hs.eachSlot (fun ht => ht.failSlot)) (fun ht => ht.modSlot))))

protected theorem RingsFit.closeSlots (hs : RingsFit s) : RingsFit (closeSlots s).1 := by
  unfold closeSlots
  dsimp only
  split
  · exact hs.eachSlot (fun ht => ht.failSlot)
  · exact hs

protected theorem RingsFit.evictSpilledOn {m} (hs : RingsFit s) : RingsFit (evictSpilledOn s m) :=
  .ite hs (hs.eachSlot (fun ht => ht.same.logEvicted))

protected theorem RingsFit.execSaltWrite {tenant salt} (hs : RingsFit s) : answers (execSaltWrite tenant salt s) RingsFit :=
  .next hs.sieveRemoveAll.parts

/-! ### The definitions of Machine/MemOps -/

protected theorem RingsFit.flashErase {a n} (hs : RingsFit s) : RingsFit (flashErase s a n) := hs.same

protected theorem RingsFit.retireWrite {h i xs} (hs : RingsFit s) : RingsFit (retireWrite s h i xs) := by
  fun_induction retireWrite s h i xs with
  | case1 => exact hs
  | case2 _ _ _ _ ih => exact ih hs.same

protected theorem RingsFit.retire {e} (hs : RingsFit s) : RingsFit (retire s e) := .ite hs.retireWrite hs.retireWrite.flashErase

protected theorem RingsFit.modDdr {m f} (hs : RingsFit s) : RingsFit (modDdr s m f) := hs.same

protected theorem RingsFit.countError {a ue} (hs : RingsFit s) : RingsFit (countError s a ue) := by
  unfold countError
  split
  · exact hs.same
  · exact hs.modDdr
  · exact hs

protected theorem RingsFit.makePending {a} (hs : RingsFit s) : RingsFit (makePending s a) := by
  unfold makePending
  dsimp only
  split
  · exact .ite hs hs.same.retire.logEv
  · exact .ite hs hs.modDdr.retire.logEv
  · exact hs

protected theorem RingsFit.correctedRow {a} (hs : RingsFit s) : RingsFit (correctedRow s a) := by
  unfold correctedRow
  split
  · exact .ite hs.same.makePending hs.same
  · exact .ite hs.modDdr.makePending hs.modDdr
  · exact hs

protected theorem RingsFit.disableDdr {m cause} (hs : RingsFit s) : RingsFit (disableDdr s m cause) :=
  .ite hs hs.modDdr.logEv.retire.evictSpilledOn

protected theorem RingsFit.disableSoon {m cause} (hs : RingsFit s) : RingsFit (disableSoon s m cause) := .ite hs hs.modDdr

protected theorem RingsFit.applyDisables {ms} (hs : RingsFit s) : RingsFit (applyDisables s ms) := by
  induction ms generalizing s with
  | nil => exact hs
  | cons m ms ih =>
    refine ih ?_
    split
    · exact hs.disableDdr
    · exact hs

protected theorem RingsFit.countUe {a} (hs : RingsFit s) : RingsFit (countUe s a) := by
  unfold countUe
  split
  · exact .ite hs.modDdr.disableSoon hs.modDdr
  · exact hs

protected theorem RingsFit.noteUncorrectable {a kind index} (hs : RingsFit s) : RingsFit (noteUncorrectable s a kind index) :=
  hs.countError.countUe.logEv.makePending

/-! ### The definitions of Machine/Firmware -/

protected theorem RingsFit.writeLoam {i img} (hs : RingsFit s) : RingsFit (writeLoam s i img) := hs.same

end Sys2Proof.Machine
end

section
/-! PROOFS. The launch and the life of steps keep the class rings within their bounds (R387). -/

namespace Sys2Proof.Machine

set_option Elab.async false

variable {s : State}

/-! ### The definitions of Machine/SpanOps -/

protected theorem RingsFit.eachOut {f l} (hs : RingsFit s) (hf : ∀ {t ch k sc}, RingsFit t → RingsFit (f t ch k sc)) :
    RingsFit (eachOut s f l) := by
  induction l generalizing s with
  | nil => exact hs
  | cons e l ih => exact ih (hf hs)

protected theorem RingsFit.sendCommits (hs : RingsFit s) : RingsFit (sendCommits s) := hs.eachOut (fun ht => ht.same)

protected theorem RingsFit.freeBuffer {k cls} (hs : RingsFit s) : RingsFit (freeBuffer s k cls) := hs.modSub

protected theorem RingsFit.creditBack {k sc n} (hs : RingsFit s) : RingsFit (creditBack s k sc n) := .ite hs hs.modSub

protected theorem RingsFit.creditLeft {k sc} (hs : RingsFit s) : RingsFit (creditLeft s k sc) := .ite hs hs.creditBack.modSub

protected theorem RingsFit.enterDrops {ch k sc ds} (hs : RingsFit s) : RingsFit (enterDrops s ch k sc ds) :=
  .freeBuffer (.modSub (.ite hs.parts hs.same))

protected theorem RingsFit.dataOn {k sc ds} (hs : RingsFit s) : RingsFit (dataOn s k sc ds) := by
  unfold dataOn
  split
  · exact hs.freeBuffer
  · exact .ite hs.enterDrops (.ite hs.modSub hs.same)

protected theorem RingsFit.enterWaiting {k l} (hs : RingsFit s) : RingsFit (enterWaiting s k l) := by
  induction l generalizing s with
  | nil => exact hs
  | cons e l ih =>
    unfold enterWaiting
    refine .ite (ih ?_) (.ite (ih hs.same) (ih hs.modSub))
    split
    · exact hs.enterDrops
    · exact hs.same

protected theorem RingsFit.enterPools {xs} (hs : RingsFit s) : RingsFit (enterPools s xs) := by
  fun_induction enterPools s xs with
  | case1 => exact hs
  | case2 _ _ _ _ ih => exact ih hs.modSub.enterWaiting

protected theorem RingsFit.enterRestored {l} (hs : RingsFit s) : RingsFit (enterRestored s l) := by
  induction l generalizing s with
  | nil => exact hs
  | cons e l ih =>
    unfold enterRestored
    refine .ite (ih ?_) (.ite (ih hs) (ih hs.parts))
    split
    · exact hs.same.modSub
    · exact hs

protected theorem RingsFit.creditEntry {k e} (hs : RingsFit s) : RingsFit (creditEntry s k e) := .ite hs hs.modSub

protected theorem RingsFit.creditOn {k xs} (hs : RingsFit s) : RingsFit (creditOn s k xs) := by
  fun_induction creditOn s k xs with
  | case1 => exact hs.freeBuffer
  | case2 _ _ _ ih => exact ih hs.creditEntry

/-! ### The definitions of Machine/Ckpt -/

protected theorem RingsFit.writeRanges {bs xs} (hs : RingsFit s) : RingsFit (writeRanges s bs xs) := by
  fun_induction writeRanges s bs xs with
  | case1 => exact hs
  | case2 _ _ _ _ ih => exact ih hs.memWrite

protected theorem RingsFit.serveCheckpoint {ring seq step kind addr len} (hs : RingsFit s) :
    RingsFit (serveCheckpoint s ring seq step kind addr len) :=
  .ite hs.done (.ite hs.done hs.parts)

protected theorem RingsFit.ckptEnd {err} (hs : RingsFit s) : RingsFit (ckptEnd s err) := by
  unfold ckptEnd
  split
  · exact hs
  · exact hs.parts.complete

protected theorem RingsFit.ckptFill (hs : RingsFit s) : RingsFit (ckptFill s) := by
  unfold ckptFill
  split
  · exact .ite hs (.ite hs.ckptEnd hs.parts)
  · exact hs

protected theorem RingsFit.ckptAtEnd {committed} (hs : RingsFit s) : RingsFit (ckptAtEnd s committed) := by
  unfold ckptAtEnd
  split
  · exact hs
  · exact .ite hs (.ite hs.parts.ckptEnd hs.parts.parts.ckptFill)

protected theorem RingsFit.execCheckpointWritten (hs : RingsFit s) : answers (execCheckpointWritten s) RingsFit := by
  unfold execCheckpointWritten
  refine .next ?_
  split
  · exact .ite (.ite hs.same.complete hs) (.ite hs.parts.memWrite.complete hs.ckptEnd)
  · exact hs

protected theorem RingsFit.serveRestore {ring seq kind addr len digest} (hs : RingsFit s) :
    RingsFit (serveRestore s ring seq kind addr len digest) :=
  .ite hs.done (.ite hs.done (.ite hs.done hs.parts))

protected theorem RingsFit.restoreHeld {bs} (hs : RingsFit s) : RingsFit (restoreHeld s bs) := hs.parts.foldl fun ht => ht.modSub

protected theorem RingsFit.placeImage {img} (hs : RingsFit s) : RingsFit (placeImage s img) := by
  unfold placeImage
  extract_lets n _ s1 s2 s3 s4 s5 _ s6 _ _ _ s7
  have h2 : RingsFit s2 := .ite hs.same hs.parts
  have h5 : RingsFit s5 := h2.writeRanges.writeRanges.writeRanges.restoreHeld
  have h6 : RingsFit s6 := .ite h5.parts h5
  exact h6.parts.eachSlot fun ht => ht.modSlot

protected theorem RingsFit.execRestoreComplete {host} (hs : RingsFit s) : answers (execRestoreComplete host s) RingsFit := by
  unfold execRestoreComplete
  refine .next ?_
  split
  · exact hs
  · split
    · exact hs
    · dsimp only
      split
      · exact hs.same
      · exact hs.parts.placeImage.complete

/-! ### The definitions of Machine/Pace -/

protected theorem RingsFit.paceMove {v forced} (hs : RingsFit s) : RingsFit (paceMove s v forced) := .ite hs hs.same

protected theorem RingsFit.paceAfterLaunch {slack upstream} (hs : RingsFit s) : RingsFit (paceAfterLaunch s slack upstream) :=
  .ite hs (.ite hs.paceMove (.ite hs.paceMove (.ite hs.paceMove hs)))

protected theorem RingsFit.lateRunAfter {slack upstream} (hs : RingsFit s) : RingsFit (lateRunAfter s slack upstream) :=
  .ite (.ite hs.parts.parts.logEv hs.parts) hs.parts

protected theorem RingsFit.execPaceFreeUpdate (hs : RingsFit s) : answers (execPaceFreeUpdate s) RingsFit :=
  .next (.ite hs (.ite hs.paceMove (.ite hs.paceMove (.ite hs.paceMove hs))))

protected theorem RingsFit.logSilent {xs} (hs : RingsFit s) : RingsFit (logSilent s xs) := by
  fun_induction logSilent s xs with
  | case1 => exact hs
  | case2 _ _ _ ih => exact ih hs.logEv

protected theorem RingsFit.execAvsReadback {rails powerW tjC} (hs : RingsFit s) : answers (execAvsReadback rails powerW tjC s) RingsFit :=
  .next (.ite hs.parts.parts (.ite hs.parts hs.parts.parts.logSilent))

/-! ### The definitions of Machine/StepLife -/

protected theorem RingsFit.resetUnits (hs : RingsFit s) : RingsFit (resetUnits s) := hs.same

protected theorem RingsFit.keepRecord {r} (hs : RingsFit s) : RingsFit (keepRecord s r) := .ite hs.parts hs.parts.logEv

protected theorem RingsFit.afterStep (hs : RingsFit s) : RingsFit (afterStep s) := by
  unfold afterStep
  extract_lets st _ _ s1
  have h1 : RingsFit s1 := hs.same
  exact h1.resetUnits.applyDisables

protected theorem RingsFit.creditAll {xs} (hs : RingsFit s) : RingsFit (creditAll s xs) := by
  fun_induction creditAll s xs with
  | case1 => exact hs
  | case2 _ _ _ _ _ ih => exact ih hs.creditLeft

protected theorem RingsFit.logDispatch (hs : RingsFit s) : RingsFit (logDispatch s) := by
  unfold logDispatch
  split
  · exact hs
  · exact hs.logEv

protected theorem RingsFit.endStepFailed {mask} (hs : RingsFit s) : RingsFit (endStepFailed s mask) := by
  unfold endStepFailed
  extract_lets m strokes s0 s1 r s2 _ s3
  have h0 : RingsFit s0 := .ite hs hs.logDispatch
  have h1 : RingsFit s1 := h0.creditAll.eachOut fun ht => ht.same
  have h3 : RingsFit s3 := h1.keepRecord.parts.failServing
  exact h3.afterStep.ckptAtEnd.endHalts

protected theorem RingsFit.failStep {code} (hs : RingsFit s) : RingsFit (failStep s code) := hs.endStepFailed

protected theorem RingsFit.failHere {code} (hs : RingsFit s) : RingsFit (failHere s code) := .ite hs.parts.failStep.sendEnd hs

protected theorem RingsFit.recordUnlaunched {n code origin} (hs : RingsFit s) : RingsFit (recordUnlaunched s n code origin) := by
  unfold recordUnlaunched
  exact hs.drawFree.drawFree.drawFree.drawFree.parts.keepRecord.failServing.afterStep.ckptAtEnd

protected theorem RingsFit.lateRecord {n slack ready} (hs : RingsFit s) : RingsFit (lateRecord s n slack ready).1 := by
  unfold lateRecord
  dsimp only
  split
  · exact hs
  · exact hs.drawFree

protected theorem RingsFit.countLate {slack} (hs : RingsFit s) : RingsFit (countLate s slack) := .ite hs.parts hs

protected theorem RingsFit.beginStep {n} (hs : RingsFit s) : RingsFit (beginStep s n) := hs.parts.enterRestored.enterPools

protected theorem RingsFit.logLateDigests {n xs} (hs : RingsFit s) : RingsFit (logLateDigests s n xs) := by
  fun_induction logLateDigests s n xs with
  | case1 => exact hs
  | case2 _ _ _ _ ih => exact ih (.ite hs hs.logEv)

protected theorem RingsFit.launchBps (hs : RingsFit s) : RingsFit (launchBps s) := by
  unfold launchBps
  dsimp only
  split
  · exact hs
  · exact hs.bpHits.haltWith

protected theorem RingsFit.launchStep {n ready} (hs : RingsFit s) : RingsFit (launchStep s n ready) := by
  unfold launchStep
  extract_lets slack upstream l s1 _ _ s2 late paced s3 s4
  have h1 : RingsFit s1 := hs.lateRecord.countLate
  have hl : RingsFit late := h1.parts.lateRunAfter
  have hp : RingsFit paced := .ite hl.paceAfterLaunch hl
  have h3 : RingsFit s3 := .ite hp.logLateDigests hp
  have h4 : RingsFit s4 := h3.resetUnits.beginStep.launchBps
  exact .ite h4.failHere h4

protected theorem RingsFit.execLaunchTick (hs : RingsFit s) : answers (execLaunchTick s) RingsFit := by
  unfold execLaunchTick
  refine .next ?_
  split
  · exact hs
  · split
    · exact .ite hs hs.recordUnlaunched
    · split
      · exact hs
      · exact .ite hs hs.launchStep

protected theorem RingsFit.flushUnits {ks} (hs : RingsFit s) : RingsFit (flushUnits s ks) := by
  induction ks generalizing s with
  | nil => exact hs
  | cons k ks ih => exact ih hs.flushSlab.flushSlab

protected theorem RingsFit.discardResidue (hs : RingsFit s) : RingsFit (discardResidue s) := by
  have h1 : RingsFit (creditAll s (inSpans s)) := hs.creditAll
  exact .ite (.raiseCond h1.same) hs

protected theorem RingsFit.execLocalEnd (hs : RingsFit s) : answers (execLocalEnd s) RingsFit :=
  .next (.ite hs.flushUnits.parts.logDispatch.sendCommits.discardResidue hs)

protected theorem RingsFit.addStepSeal {r} (hs : RingsFit s) : RingsFit (addStepSeal s r) := .ite hs.parts hs

protected theorem RingsFit.execStepCommit (hs : RingsFit s) : answers (execStepCommit s) RingsFit := by
  have h1 : RingsFit (discardResidue s) := hs.discardResidue
  unfold execStepCommit
  generalize discardResidue s = s1 at h1
  have h2 : RingsFit { s1 with mem := overlayMerge s1.mem s1.overlay, overlay := [] } :=
    h1.same
  exact .next (.ite (h2.commitServing.addStepSeal.keepRecord.afterStep.ckptAtEnd) hs)

protected theorem RingsFit.unpaid {xs} (hs : RingsFit s) : RingsFit (unpaid s xs) := by
  fun_induction unpaid s xs with
  | case1 => exact hs
  | case2 _ _ _ _ _ _ ih => exact ih (.ite hs hs.modSub)

protected theorem RingsFit.voidStep (hs : RingsFit s) : RingsFit (voidStep s) := by
  unfold voidStep
  extract_lets s1 s2
  have h1 : RingsFit s1 := hs.eachOut fun ht => ht.same
  have h2 : RingsFit s2 := h1.creditAll.unpaid.resetUnits
  exact .endHalts h2.same

protected theorem RingsFit.execStepVoid {addr} (hs : RingsFit s) : answers (execStepVoid addr s) RingsFit :=
  .next (.ite (.ite hs.logEv.failHere hs.logEv.parts.voidStep) hs)

protected theorem RingsFit.reloadBlock {a} (hs : RingsFit s) : RingsFit (reloadBlock s a) := by
  unfold reloadBlock
  split
  · exact hs.fillTarget
  · split
    · exact hs
    · exact hs.fillAnchors

protected theorem RingsFit.refill {xs} (hs : RingsFit s) : RingsFit (refill s xs) := by
  fun_induction refill s xs with
  | case1 => exact hs
  | case2 _ _ _ _ ih => exact ih hs.same

protected theorem RingsFit.execStepReexecute (hs : RingsFit s) : answers (execStepReexecute s) RingsFit := by
  unfold execStepReexecute
  refine .next ?_
  split
  · refine .refill ?_
    refine .parts ?_
    split
    · exact hs.resetUnits.reloadBlock
    · exact hs.resetUnits
  · exact hs

protected theorem RingsFit.voidOn {k sc t} (hs : RingsFit s) : RingsFit (voidOn s k sc t) := by
  unfold voidOn
  extract_lets r gone s0 s1
  have h1 : RingsFit s1 := .freeBuffer (hs.modSub.foldl fun ht => ht.same)
  split
  · exact h1
  · refine .ite ?_ h1
    extract_lets s2
    have h2 : RingsFit s2 := h1.same.creditLeft
    exact .ite h2.parts.voidStep h2

protected theorem RingsFit.logWaiting {xs} (hs : RingsFit s) : RingsFit (logWaiting s xs) := by
  fun_induction logWaiting s xs with
  | case1 => exact hs
  | case2 _ _ _ _ ih => exact ih hs.logEv

protected theorem RingsFit.execWatchdogExpiry (hs : RingsFit s) : answers (execWatchdogExpiry s) RingsFit :=
  .next (.ite hs.logWaiting.parts.failHere hs)

protected theorem RingsFit.failUncorrectable (hs : RingsFit s) : RingsFit (failUncorrectable s) := hs.failHere

protected theorem RingsFit.patchCores {n cs} (hs : RingsFit s) : RingsFit (patchCores s n cs) := by
  induction cs generalizing s with
  | nil => exact hs
  | cons c cs ih => exact ih hs.same

protected theorem RingsFit.applyFlip (hs : RingsFit s) : RingsFit (applyFlip s) := .ite hs.parts hs

protected theorem RingsFit.markReady (hs : RingsFit s) : RingsFit (markReady s) := .ite hs.parts hs.parts

protected theorem RingsFit.roomCame (hs : RingsFit s) : RingsFit (roomCame s) := .ite hs.markReady hs

protected theorem RingsFit.finishBoundary (hs : RingsFit s) : RingsFit (finishBoundary s) := by
  unfold finishBoundary
  refine .ite hs (.ite hs ?_)
  extract_lets s1 s2
  have h1 : RingsFit s1 := .ite hs.headDescriptor (.ite hs.takeRecord hs)
  have h2 : RingsFit s2 := h1.patchCores
  exact .ite h2.parts h2.markReady

protected theorem RingsFit.execEpochReloadDone (hs : RingsFit s) : answers (execEpochReloadDone s) RingsFit :=
  .next (.ite (.ite hs.parts.reloadWeights.markReady hs.parts.reloadWeights) hs)

/-! ### The definitions of Machine/Memc -/

protected theorem RingsFit.stackRate {k tempC down} (hs : RingsFit s) : RingsFit (stackRate s k tempC down) := hs.same.logEv

protected theorem RingsFit.execStackStepDown {k tempC} (hs : RingsFit s) : answers (execStackStepDown k tempC s) RingsFit :=
  .next (.ite hs.stackRate hs.same)

protected theorem RingsFit.execStackStepUp {k tempC} (hs : RingsFit s) : answers (execStackStepUp k tempC s) RingsFit :=
  .next (.ite hs.stackRate hs.same)

protected theorem RingsFit.execDdrThermal {m} (hs : RingsFit s) : answers (execDdrThermal m s) RingsFit := .next hs.disableSoon

protected theorem RingsFit.retrainFailed {m} (hs : RingsFit s) : RingsFit (retrainFailed s m) :=
  .ite hs (.ite hs.modDdr.failUncorrectable hs.disableDdr)

protected theorem RingsFit.execDdrRetrain {m ok} (hs : RingsFit s) : answers (execDdrRetrain m ok s) RingsFit :=
  .next (.ite hs hs.retrainFailed)

protected theorem RingsFit.rateReqOn {m r} (hs : RingsFit s) : RingsFit (rateReqOn s m r) :=
  .ite hs.logEv (.ite hs.putField hs.putField.modDdr)

protected theorem RingsFit.execRateReq {m rate} (hs : RingsFit s) : answers (execRateReq m rate s) RingsFit := .next hs.rateReqOn

protected theorem RingsFit.readCorrected {a} (hs : RingsFit s) : RingsFit (readCorrected s a) := hs.countError.correctedRow

protected theorem RingsFit.execPatrolRead {addr outcome} (hs : RingsFit s) : answers (execPatrolRead addr outcome s) RingsFit := by
  unfold execPatrolRead
  refine .next ?_
  split
  · exact hs
  · split
    · exact hs
    · exact hs.readCorrected
    · exact hs.noteUncorrectable

protected theorem RingsFit.promptFails {slot} (hs : RingsFit s) : RingsFit (promptFails s slot) := .ite hs hs.modSlot

/-! ### The definitions of Machine/RegRead -/

protected theorem RingsFit.regReadEffect {o n} (hs : RingsFit s) : RingsFit (regReadEffect s o n) := .ite hs.same hs

/-! ### The definitions of Machine/Mapping -/

protected theorem RingsFit.disablePorts {xs} (hs : RingsFit s) : RingsFit (disablePorts s xs) := by
  fun_induction disablePorts s xs with
  | case1 => exact hs
  | case2 _ _ _ ih => exact ih (.ite hs.putField hs)

protected theorem RingsFit.mapDevice (hs : RingsFit s) : RingsFit (mapDevice s) := by
  unfold mapDevice
  generalize List.range 50 = ports
  exact .disablePorts hs.same

/-! ### The definitions of Machine/LaunchMsgs -/

protected theorem RingsFit.setCensus {a c} (hs : RingsFit s) : RingsFit (setCensus s a c) := .ite hs.parts hs.parts

protected theorem RingsFit.completeArm (hs : RingsFit s) : RingsFit (completeArm s) := by
  unfold completeArm
  dsimp only
  split
  · exact hs
  · exact .ite hs.parts.complete hs

protected theorem RingsFit.sendCensus {a} (hs : RingsFit s) : RingsFit (sendCensus s a) := by
  unfold sendCensus
  dsimp only
  split
  · exact hs.setCensus.completeArm
  · exact hs.setCensus.sendLaunch

protected theorem RingsFit.tryCensus {a} (hs : RingsFit s) : RingsFit (tryCensus s a) := .ite hs.sendCensus hs

protected theorem RingsFit.sendDigest {step} (hs : RingsFit s) : RingsFit (sendDigest s step) := by
  unfold sendDigest
  split
  · exact hs.parts
  · dsimp only
    split
    · refine .sendLaunch ?_
      split
      · exact hs.sendLaunch
      · exact hs
    · split
      · exact hs.sendLaunch
      · exact hs

protected theorem RingsFit.serveArm {ring seq digest r} (hs : RingsFit s) : RingsFit (serveArm s ring seq digest r) := by
  unfold serveArm
  extract_lets fin why isRoot _ s1 _ s2 s3
  have h1 : RingsFit s1 := hs.parts
  have h2 : RingsFit s2 := .ite h1.parts.sendDigest h1
  have h3 : RingsFit s3 := .ite h2 (.ite h2.complete h2.complete)
  exact .ite hs.done (.ite hs.done (.ite hs.complete h3.tryCensus.tryCensus.completeArm))

protected theorem RingsFit.censusOn {k h m} (hs : RingsFit s) : RingsFit (censusOn s k h m) := .ite hs.setCensus.tryCensus hs

protected theorem RingsFit.execCensusWaitExpiry {tree} (hs : RingsFit s) : answers (execCensusWaitExpiry tree s) RingsFit :=
  .next (.ite hs.sendCensus hs)

protected theorem RingsFit.digestOn {h d} (hs : RingsFit s) : RingsFit (digestOn s h d) := by
  unfold digestOn
  split
  · exact .ite (.ite hs.logEv hs) (.parts (.ite hs.logEv hs))
  · split
    · exact hs.sendLaunch
    · exact hs

protected theorem RingsFit.lateRecords {n m} (hs : RingsFit s) : RingsFit (lateRecords s n m) := by
  fun_induction lateRecords s n m with
  | case1 => exact hs
  | case2 => exact hs
  | case3 _ _ _ _ ih => exact ih hs.recordUnlaunched

protected theorem RingsFit.acceptCommit {sec ns} (hs : RingsFit s) : RingsFit (acceptCommit s sec ns) :=
  .ite hs.parts hs.parts.originate.lateRecords

protected theorem RingsFit.serveCommit {ring seq sec ns} (hs : RingsFit s) : RingsFit (serveCommit s ring seq sec ns) :=
  .ite hs.done (.ite hs.done (.ite hs.done (.ite hs.done hs.sendAll.sendAll.parts.done.acceptCommit)))

protected theorem RingsFit.discardLaunch {k ty origin} (hs : RingsFit s) : RingsFit (discardLaunch s k ty origin) := hs.logEv

protected theorem RingsFit.commitMsgOn {k h tag sec ns} (hs : RingsFit s) : RingsFit (commitMsgOn s k h tag sec ns) := by
  unfold commitMsgOn
  extract_lets a fwd m s1 _ s2 r
  have h1 : RingsFit s1 := .ite hs hs.sendAll
  have h2 : RingsFit s2 := .ite h1.parts h1.parts
  exact .ite (.ite h2.acceptCommit h2) h2.discardLaunch

protected theorem RingsFit.execArmExpiry (hs : RingsFit s) : answers (execArmExpiry s) RingsFit := .next (.ite hs.parts.logEv hs)

protected theorem RingsFit.floodOn {k m} {t : State} (hs : RingsFit s) (ht : floodOn s k m = some t) : RingsFit t := by
  unfold floodOn at ht
  split at ht
  · cases ht
  · cases ht
    exact hs.parts.flood

protected theorem RingsFit.endOn {step count status} (hs : RingsFit s) : RingsFit (endOn s step count status) :=
  .ite hs (.ite hs.parts.failStep hs.parts)

protected theorem RingsFit.noticeEffect {m} (hs : RingsFit s) : RingsFit (noticeEffect s m) := by
  unfold noticeEffect
  split
  · exact hs.endOn
  · exact hs.parts
  · exact hs.parts
  · exact hs.parts
  · exact hs

protected theorem RingsFit.launchOn {k m} (hs : RingsFit s) : RingsFit (launchOn s k m) := by
  unfold launchOn
  split
  · exact hs.discardLaunch
  · split
    · exact hs.censusOn
    · exact hs.digestOn
    · exact hs.commitMsgOn
    · split
      · next hf => exact .noticeEffect (hs.floodOn hf)
      · exact hs

protected theorem RingsFit.launchPayloadOn {k p} (hs : RingsFit s) : RingsFit (launchPayloadOn s k p) := by
  unfold launchPayloadOn
  split
  · exact hs.launchOn
  · exact hs.discardLaunch

protected theorem RingsFit.launchRow {port sub h body} (hs : RingsFit s) : answers (launchRow port sub h body s) RingsFit :=
  .next (.ite hs.launchOn.freeBuffer hs)

protected theorem RingsFit.execCensus {port sub h tag armed refused reasons firstRefused maxBound} (hs : RingsFit s) :
    answers (execCensus port sub h tag armed refused reasons firstRefused maxBound s) RingsFit := hs.launchRow

protected theorem RingsFit.execDigest {port sub h d} (hs : RingsFit s) : answers (execDigest port sub h d s) RingsFit := hs.launchRow

protected theorem RingsFit.execCommitMessage {port sub h tag sec ns} (hs : RingsFit s) :
    answers (execCommitMessage port sub h tag sec ns s) RingsFit := hs.launchRow

protected theorem RingsFit.execEndNotice {port sub h count status} (hs : RingsFit s) :
    answers (execEndNotice port sub h count status s) RingsFit := hs.launchRow

protected theorem RingsFit.execHold {port sub h hport hsub dryMs} (hs : RingsFit s) :
    answers (execHold port sub h hport hsub dryMs s) RingsFit := hs.launchRow

protected theorem RingsFit.execHoldEnd {port sub h hport hsub dryMs outcome} (hs : RingsFit s) :
    answers (execHoldEnd port sub h hport hsub dryMs outcome s) RingsFit := hs.launchRow

protected theorem RingsFit.execStaged {port sub h epoch adapter} (hs : RingsFit s) : answers (execStaged port sub h epoch adapter s) RingsFit :=
  hs.launchRow

/-! ### The definitions of Machine/SheetLoad -/

protected theorem RingsFit.serveLoadSheet {ring seq host length digest} (hs : RingsFit s) :
    RingsFit (serveLoadSheet s ring seq host length digest) :=
  .ite hs.done (.ite hs.done hs.parts)

protected theorem RingsFit.execLoadSheetComplete {host} (hs : RingsFit s) :
    answers (execLoadSheetComplete host s) RingsFit := by
  unfold execLoadSheetComplete
  refine .next ?_
  split
  · exact hs
  · next l _ =>
    refine .ite hs ?_
    extract_lets fin _ s1
    have h1 : RingsFit s1 := hs.parts
    clear_value s1
    generalize checkImage s1 (hostView host l.host.toNat l.length.toNat) l.digest = c
    match c with
    | .inl (0, _) => exact h1.done
    | .inl (n + 1, _) => exact h1.done
    | .inr _ =>
      generalize List.range 64 = slots
      exact .done h1.same

protected theorem RingsFit.serveFlip {ring seq} (hs : RingsFit s) : RingsFit (serveFlip s ring seq) :=
  .ite hs.done (.done (.ite hs.parts.applyFlip hs.parts))

end Sys2Proof.Machine
end

section
/-! PROOFS. The spans and the plot keep the class rings within their bounds (R387). -/

namespace Sys2Proof.Machine

set_option Elab.async false

variable {s : State}

/-! ### The definitions of Machine/SpanLink -/

protected theorem RingsFit.sendFrame {k link body} (hs : RingsFit s) : RingsFit (sendFrame s k link body) := hs.modSub

protected theorem RingsFit.queueLink {k op mask width opNum rx} (hs : RingsFit s) : RingsFit (queueLink s k op mask width opNum rx) := by
  unfold queueLink
  exact hs.modSub

protected theorem RingsFit.startShake {k reset} (hs : RingsFit s) : RingsFit (startShake s k reset) := by
  unfold startShake
  refine .modSub ?_
  split
  · exact hs.same
  · exact hs

protected theorem RingsFit.leavePlot {k} (hs : RingsFit s) : RingsFit (leavePlot s k) := .ite hs.modSub.startShake hs.modSub

protected theorem RingsFit.oweReset {xs} (hs : RingsFit s) : RingsFit (oweReset s xs) := by
  fun_induction oweReset s xs with
  | case1 => exact hs
  | case2 _ _ _ _ ih => exact ih (.ite hs.startShake hs.modSub)

protected theorem RingsFit.leaveAll {xs} (hs : RingsFit s) : RingsFit (leaveAll s xs) := by
  fun_induction leaveAll s xs with
  | case1 => exact hs
  | case2 _ _ _ ih => exact ih hs.leavePlot

protected theorem RingsFit.forgetPlot {scrubbed} (hs : RingsFit s) : RingsFit (forgetPlot s scrubbed) := hs.oweReset.parts.leaveAll

protected theorem RingsFit.failOpen {k} (hs : RingsFit s) : RingsFit (failOpen s k) := by
  unfold failOpen
  split
  · exact hs
  · exact hs.parts.forgetPlot.complete

protected theorem RingsFit.checkOpen (hs : RingsFit s) : RingsFit (checkOpen s) := by
  unfold checkOpen
  split
  · exact hs.failOpen
  · exact hs

protected theorem RingsFit.tryOpen (hs : RingsFit s) : RingsFit (tryOpen s) := by
  unfold tryOpen
  split
  · exact hs
  · exact .ite hs.parts.complete hs

protected theorem RingsFit.enterPlot {k goesOn} (hs : RingsFit s) : RingsFit (enterPlot s k goesOn) :=
  .tryOpen (.ite (.resendBlocks (.ite hs.setSub.logEv.endHold hs.setSub)) (.ite hs.setSub.logEv.endHold hs.setSub))

protected theorem RingsFit.enterMiswired {k e} (hs : RingsFit s) : RingsFit (enterMiswired s k e) := hs.setSub.logEv.checkOpen

protected theorem RingsFit.settle {k goesOn} (hs : RingsFit s) : RingsFit (settle s k goesOn) := by
  unfold settle
  dsimp only
  split
  · exact hs.setSub
  · split
    · exact hs.setSub
    · exact .ite hs.enterPlot hs.enterMiswired

protected theorem RingsFit.finishShake {k} (hs : RingsFit s) : RingsFit (finishShake s k) := hs.modSub.settle

protected theorem RingsFit.handshakeOn {k m} (hs : RingsFit s) : RingsFit (handshakeOn s k m) := by
  unfold handshakeOn
  extract_lets b s1 c d s2 e
  have h1 : RingsFit s1 := .modSub (.ite hs hs.startShake)
  have h2 : RingsFit s2 := .ite h1.same.modSub h1.modSub
  exact .ite hs (.ite hs.logEv (.ite hs.same (.ite h2.finishShake h2)))

protected theorem RingsFit.linkDownOn {k reason} (hs : RingsFit s) : RingsFit (linkDownOn s k reason) :=
  .ite hs (.ite hs.setSub.logEv.logEv.beginHold hs.setSub.logEv)

protected theorem RingsFit.blotDown {k after n} (hs : RingsFit s) : RingsFit (blotDown s k after n) := hs.endHold.modSub.logEv

protected theorem RingsFit.blot {k after} (hs : RingsFit s) : RingsFit (blot s k after) := by
  unfold blot
  exact hs.same.failHere.blotDown

protected theorem RingsFit.startTraining {k} (hs : RingsFit s) : RingsFit (startTraining s k) := hs.modSub

protected theorem RingsFit.execTrainingComplete {port sub ok reversed termFault inverted} (hs : RingsFit s) :
    answers (execTrainingComplete port sub ok reversed termFault inverted s) RingsFit :=
  .next (.ite hs (.ite hs.same.setSub.logEv hs.same.setSub.startShake))

protected theorem RingsFit.execPenHolderWaitExpiry {port sub} (hs : RingsFit s) : answers (execPenHolderWaitExpiry port sub s) RingsFit :=
  .next (.ite hs.startTraining hs)

protected theorem RingsFit.execHandshake {port sub m} (hs : RingsFit s) : answers (execHandshake port sub m s) RingsFit :=
  .next hs.handshakeOn

protected theorem RingsFit.execHandshakeTimer {port sub} (hs : RingsFit s) : answers (execHandshakeTimer port sub s) RingsFit :=
  .next (.ite hs.same hs)

protected theorem RingsFit.beginLanes {k lanes w opNum linkOp} (hs : RingsFit s) : RingsFit (beginLanes s k lanes w opNum linkOp) :=
  .ite hs.modSub.logEv hs.modSub

protected theorem RingsFit.penLanes {k cap} (hs : RingsFit s) : RingsFit (penLanes s k cap) := .ite hs.linkDownOn hs.beginLanes.queueLink

protected theorem RingsFit.penNarrow {k} (hs : RingsFit s) : RingsFit (penNarrow s k) := .ite (.ite hs.penLanes hs.linkDownOn) hs.penLanes

protected theorem RingsFit.execLaneFault {port sub lanes} (hs : RingsFit s) : answers (execLaneFault port sub lanes s) RingsFit :=
  .next (.ite hs (.ite hs.linkDownOn (.ite hs.setSub.penNarrow (.ite hs.setSub.linkDownOn hs.setSub.modSub.queueLink))))

protected theorem RingsFit.narrowReqOn {k lanes} (hs : RingsFit s) : RingsFit (narrowReqOn s k lanes) :=
  .ite hs (.ite hs.setSub (.ite hs.setSub.linkDownOn hs.setSub.penNarrow))

protected theorem RingsFit.narrowOn {k lanes width opNum} (hs : RingsFit s) : RingsFit (narrowOn s k lanes width opNum) :=
  .ite hs (.ite (.ite hs hs.queueLink) hs.beginLanes)

protected theorem RingsFit.resumeLanes {k} (hs : RingsFit s) : RingsFit (resumeLanes s k) := .ite hs.modSub.penNarrow hs.modSub

protected theorem RingsFit.narrowDoneOn {k opNum rx} (hs : RingsFit s) : RingsFit (narrowDoneOn s k opNum rx) :=
  .ite hs (.ite hs.setSub.resumeLanes hs.setSub)

protected theorem RingsFit.execNarrowReq {port sub lanes} (hs : RingsFit s) : answers (execNarrowReq port sub lanes s) RingsFit :=
  .next hs.narrowReqOn

protected theorem RingsFit.execNarrow {port sub lanes width opNum} (hs : RingsFit s) :
    answers (execNarrow port sub lanes width opNum s) RingsFit :=
  .next hs.narrowOn

protected theorem RingsFit.execNarrowDone {port sub opNum rxExpect} (hs : RingsFit s) :
    answers (execNarrowDone port sub opNum rxExpect s) RingsFit :=
  .next hs.narrowDoneOn

protected theorem RingsFit.execRealignDone {port sub ok} (hs : RingsFit s) : answers (execRealignDone port sub ok s) RingsFit :=
  .next (.ite hs (.ite hs.linkDownOn (.ite hs.setSub.queueLink.resumeLanes hs.setSub.queueLink)))

protected theorem RingsFit.execLinkOpRepeatTimer {port sub} (hs : RingsFit s) : answers (execLinkOpRepeatTimer port sub s) RingsFit :=
  .next (.ite hs.queueLink (.ite hs.queueLink hs))

protected theorem RingsFit.execLinkRetrain {port sub} (hs : RingsFit s) : answers (execLinkRetrain port sub s) RingsFit :=
  .next hs.linkDownOn

protected theorem RingsFit.refuseSubCtl {n u v} (hs : RingsFit s) : RingsFit (refuseSubCtl s n u v) := hs.logEv

protected theorem RingsFit.retrainOn {n u} (hs : RingsFit s) : RingsFit (retrainOn s n u) :=
  .ite hs.refuseSubCtl (.ite hs.sendFrame.linkDownOn (.ite hs.startTraining hs.linkDownOn))

protected theorem RingsFit.execRetrain {port sub} (hs : RingsFit s) : answers (execRetrain port sub s) RingsFit := .next hs.retrainOn

protected theorem RingsFit.penWiden {k mask} (hs : RingsFit s) : RingsFit (penWiden s k mask) := .ite hs.setSub.penLanes hs

protected theorem RingsFit.widenOn {n u} (hs : RingsFit s) : RingsFit (widenOn s n u) :=
  .ite hs.refuseSubCtl (.ite hs.penWiden (.ite hs.setSub.queueLink hs))

protected theorem RingsFit.execWiden {port sub} (hs : RingsFit s) : answers (execWiden port sub s) RingsFit := .next hs.widenOn

protected theorem RingsFit.execWidenReq {port sub lanes} (hs : RingsFit s) : answers (execWidenReq port sub lanes s) RingsFit :=
  .next hs.penWiden

protected theorem RingsFit.execLinkDown {port sub} (hs : RingsFit s) : answers (execLinkDown port sub s) RingsFit := .next hs.linkDownOn

protected theorem RingsFit.execKeepaliveExpiry {port sub} (hs : RingsFit s) : answers (execKeepaliveExpiry port sub s) RingsFit :=
  .next (.ite hs.linkDownOn hs)

protected theorem RingsFit.execLinkUp {port sub} (hs : RingsFit s) : answers (execLinkUp port sub s) RingsFit :=
  .next (.ite hs.startTraining hs)

protected theorem RingsFit.execDryTimeExpiry {port sub} (hs : RingsFit s) : answers (execDryTimeExpiry port sub s) RingsFit :=
  .next (.ite hs.modSub.blot hs)

protected theorem RingsFit.serveFence {ring seq port sub} (hs : RingsFit s) : RingsFit (serveFence s ring seq port sub) :=
  .ite hs.done (.done (.checkOpen (.ite hs.modSub.blot hs.modSub.modSub)))

protected theorem RingsFit.serveUnfence {ring seq port sub} (hs : RingsFit s) : RingsFit (serveUnfence s ring seq port sub) :=
  .ite hs.done (.ite hs.done (.done (.ite hs.modSub.startShake hs.modSub)))

/-! ### The definitions of Machine/SpanFrames -/

protected theorem RingsFit.rejectGrain {k header} (hs : RingsFit s) : RingsFit (rejectGrain s k header) := hs.modSub.freeBuffer.logEv

protected theorem RingsFit.telemetryOn {k payload} (hs : RingsFit s) : RingsFit (telemetryOn s k payload) :=
  .freeBuffer (.ite hs.sinkWrite (.ite hs.telemetryRoute (.ite hs hs.parts)))

protected theorem RingsFit.bulkOn {k payload} (hs : RingsFit s) : RingsFit (bulkOn s k payload) := by
  unfold bulkOn
  refine .freeBuffer ?_
  split
  · exact hs.bulkDataOn
  · split
    · exact hs.bulkStartOn
    · exact hs.bulkAckOn
    · exact hs.bulkNackOn
    · exact hs

protected theorem RingsFit.servingGrain {t rec_ report} (hs : RingsFit s) : RingsFit (servingGrain s t rec_ report) := by
  unfold servingGrain
  split
  · split
    · exact hs
    · split
      · exact hs.takeReport
      · exact hs
  · exact .ite hs.same hs

protected theorem RingsFit.commitGrainOn {k sc t rec_ report} (hs : RingsFit s) : RingsFit (commitGrainOn s k sc t rec_ report) :=
  hs.same.servingGrain.ckptFill.finishBoundary

protected theorem RingsFit.onChannel {k sc ty f} (hs : RingsFit s) (hf : ∀ {t}, RingsFit t → RingsFit (f t)) :
    RingsFit (onChannel s k sc ty f) :=
  .ite (hf hs) hs.rejectGrain

protected theorem RingsFit.grainOn {k g} (hs : RingsFit s) : RingsFit (grainOn s k g) := by
  unfold grainOn
  dsimp only
  split
  · exact hs.modSub.freeBuffer.logEv
  · split
    · exact hs.rejectGrain
    · split
      · exact hs.dataOn
      · exact hs.commitGrainOn
      · exact hs.voidOn
      · exact hs.creditOn
      · exact hs.launchPayloadOn.freeBuffer
      · exact hs.telemetryOn
      · exact hs.bulkOn

protected theorem RingsFit.linkGrainOn {k mac g} (hs : RingsFit s) : RingsFit (linkGrainOn s k mac g) :=
  .ite hs.handshakeOn (.ite (.ite hs.narrowReqOn (.ite hs.narrowOn (.ite hs.narrowDoneOn (.ite hs.linkDownOn
    (.ite hs.penWiden hs))))) hs.modSub.logEv)

protected theorem RingsFit.grainsOn {k link mac gs} (hs : RingsFit s) : RingsFit (grainsOn s k link mac gs) := by
  induction gs generalizing s with
  | nil => exact hs
  | cons g gs ih => exact ih (.ite hs.same (.ite hs.linkGrainOn hs.modSub.grainOn))

protected theorem RingsFit.execSpanFrame {port sub f} (hs : RingsFit s) : answers (execSpanFrame port sub f s) RingsFit :=
  .next (.ite hs hs.setSub.grainsOn)

protected theorem RingsFit.grainRow {port sub f} (hs : RingsFit s) (hf : ∀ {k t}, RingsFit t → RingsFit (f k t)) :
    answers (grainRow port sub s f) RingsFit :=
  .next (.ite (hf hs) hs)

protected theorem RingsFit.execData {port sub chan drops} (hs : RingsFit s) : answers (execData port sub chan drops s) RingsFit :=
  (hs.grainRow (fun ht => ht.onChannel (fun ht => ht.dataOn)))

protected theorem RingsFit.execCommitGrain {port sub chan step count rec_ report} (hs : RingsFit s) :
    answers (execCommitGrain port sub chan step count rec_ report s) RingsFit :=
  (hs.grainRow (fun ht => ht.onChannel (fun ht => ht.commitGrainOn)))

protected theorem RingsFit.execVoid {port sub chan step attempt} (hs : RingsFit s) : answers (execVoid port sub chan step attempt s) RingsFit :=
  (hs.grainRow (fun ht => ht.onChannel (fun ht => ht.voidOn)))

protected theorem RingsFit.execCredit {port sub entries} (hs : RingsFit s) : answers (execCredit port sub entries s) RingsFit :=
  (hs.grainRow (fun ht => ht.creditOn))

protected theorem RingsFit.execLaunch {port sub payload} (hs : RingsFit s) : answers (execLaunch port sub payload s) RingsFit :=
  (hs.grainRow (fun ht => ht.launchPayloadOn.freeBuffer))

protected theorem RingsFit.execTelemetry {port sub payload} (hs : RingsFit s) : answers (execTelemetry port sub payload s) RingsFit :=
  (hs.grainRow (fun ht => ht.telemetryOn))

protected theorem RingsFit.execBulkStart {port sub epoch block length} (hs : RingsFit s) :
    answers (execBulkStart port sub epoch block length s) RingsFit :=
  (hs.grainRow (fun ht => ht.bulkStartOn.freeBuffer))

protected theorem RingsFit.execBulkData {port sub payload} (hs : RingsFit s) : answers (execBulkData port sub payload s) RingsFit :=
  (hs.grainRow (fun ht => ht.bulkDataOn.freeBuffer))

protected theorem RingsFit.execBulkAck {port sub epoch block} (hs : RingsFit s) : answers (execBulkAck port sub epoch block s) RingsFit :=
  (hs.grainRow (fun ht => ht.bulkAckOn.freeBuffer))

protected theorem RingsFit.execBulkNack {port sub epoch block position} (hs : RingsFit s) :
    answers (execBulkNack port sub epoch block position s) RingsFit :=
  (hs.grainRow (fun ht => ht.bulkNackOn.freeBuffer))

protected theorem RingsFit.offerQueue {k n q put} {t : State} (hs : RingsFit s) (ht : offerQueue s k n q put = some t) : RingsFit t := by
  unfold offerQueue at ht
  dsimp only at ht
  split at ht
  · cases ht
  · cases ht
    exact hs.setSub.sendFrame

protected theorem RingsFit.offerControl {k} {t : State} (hs : RingsFit s) (ht : offerControl s k = some t) : RingsFit t := by
  unfold offerControl at ht
  dsimp only at ht
  split at ht
  · cases ht
    exact hs.setSub.sendFrame
  · split at ht
    · cases ht
    · split at ht
      · cases ht
        exact hs.setSub.sendFrame
      · split at ht
        · cases ht
        · cases ht
          exact hs.setSub.sendFrame

protected theorem RingsFit.packFull {k sc} (hs : RingsFit s) : RingsFit (packFull s k sc) := by
  unfold packFull
  split
  · exact hs
  · exact hs.same.modSub

protected theorem RingsFit.offerChan {k sc n} {t : State} (hs : RingsFit s) (ht : offerChan s k sc n = some t) : RingsFit t := by
  unfold offerChan at ht
  dsimp only at ht
  split at ht
  · cases ht
  · cases ht
    exact hs.packFull.setSub.sendFrame

protected theorem RingsFit.offer {k r} {t : State} (hs : RingsFit s) (ht : offer s k r = some t) : RingsFit t := by
  unfold offer at ht
  split at ht
  · exact hs.offerControl ht
  · split at ht
    · exact hs.offerChan ht
    · cases ht
  · split at ht
    · exact hs.offerQueue ht
    · cases ht
  · split at ht
    · exact hs.offerQueue ht
    · cases ht

protected theorem RingsFit.rotate {k rot i m} (hs : RingsFit s) : RingsFit (rotate s k rot i m) := by
  fun_induction rotate s k rot i m with
  | case1 => exact hs
  | case2 _ _ _ _ _ ih => exact .modSub (hs.offer ih)
  | case3 _ _ _ _ _ ih => exact ih (.ite hs.modSub hs)

protected theorem RingsFit.execFrameSend {port sub} (hs : RingsFit s) : answers (execFrameSend port sub s) RingsFit :=
  .next (.ite hs (.ite (.ite hs hs.setSub.sendFrame) (.ite (.ite hs.setSub.sendFrame (.ite hs hs.setSub.sendFrame)) hs.rotate)))

protected theorem RingsFit.execAckTimer {port sub} (hs : RingsFit s) : answers (execAckTimer port sub s) RingsFit :=
  .next (.ite hs.sendFrame hs)

protected theorem RingsFit.execReplayTimer {port sub} (hs : RingsFit s) : answers (execReplayTimer port sub s) RingsFit :=
  .next (.ite hs.setSub hs)

protected theorem RingsFit.execReplayCaughtUp {port sub} (hs : RingsFit s) : answers (execReplayCaughtUp port sub s) RingsFit :=
  .next (.ite hs.setSub hs)

protected theorem RingsFit.execFlushTimer {port sub chan} (hs : RingsFit s) : answers (execFlushTimer port sub chan s) RingsFit := by
  unfold execFlushTimer
  refine .next ?_
  split
  · exact .ite hs hs.same
  · exact hs

protected theorem RingsFit.execKeepaliveTimer {port sub} (hs : RingsFit s) : answers (execKeepaliveTimer port sub s) RingsFit :=
  .next (.ite hs.sendFrame hs)

/-! ### The definitions of Machine/Plot -/

protected theorem RingsFit.logOutOfService (hs : RingsFit s) : RingsFit (logOutOfService s) := hs.logEv

protected theorem RingsFit.shakeAll {es} (hs : RingsFit s) : RingsFit (shakeAll s es) := by
  induction es generalizing s with
  | nil => exact hs
  | cons e es ih => exact ih (.ite hs.modSub.startShake hs.modSub)

protected theorem RingsFit.acceptOpen {b es} (hs : RingsFit s) : RingsFit (acceptOpen s b es) := by
  unfold acceptOpen
  extract_lets f s0
  have h0 : RingsFit s0 := hs.oweReset
  exact .shakeAll hs.same

protected theorem RingsFit.openRead {ring seq b host} (hs : RingsFit s) : RingsFit (openRead s ring seq b host) := by
  unfold openRead
  dsimp only
  split
  · exact hs.done
  · split
    · exact hs.done
    · split
      · exact hs.done
      · split
        · exact hs.done
        · exact hs.acceptOpen.parts.tryOpen

protected theorem RingsFit.execOpenPlotWaitExpiry (hs : RingsFit s) : answers (execOpenPlotWaitExpiry s) RingsFit := by
  unfold execOpenPlotWaitExpiry
  refine .next ?_
  split
  · exact hs
  · split
    · exact hs.tryOpen
    · exact hs.failOpen

protected theorem RingsFit.dropPending {r} (hs : RingsFit s) : RingsFit (dropPending s r) := hs.same.foldl fun ht => ht.done

protected theorem RingsFit.dropAllPending {xs} (hs : RingsFit s) : RingsFit (dropAllPending s xs) := by
  fun_induction dropAllPending s xs with
  | case1 => exact hs
  | case2 _ _ _ ih => exact ih hs.dropPending

protected theorem RingsFit.dropLoads (hs : RingsFit s) : RingsFit (dropLoads s) := by
  refine .parts (.foldl (.foldl (.foldl hs.parts fun ht => ht.complete) fun ht => ?_) fun ht => ht.failJob)
  split
  · exact ht.same.complete
  · exact ht

protected theorem RingsFit.dropSheetLoad (hs : RingsFit s) : RingsFit (dropSheetLoad s) := by
  unfold dropSheetLoad
  split
  · exact hs
  · exact hs.parts.done

protected theorem RingsFit.dropWaiters (hs : RingsFit s) : RingsFit (dropWaiters s) := by
  unfold dropWaiters
  dsimp only
  split
  · refine .complete ?_
    refine .parts ?_
    split
    · refine .complete ?_
      refine .parts ?_
      split
      · exact hs.ckptEnd.parts.complete
      · exact hs.ckptEnd
    · split
      · exact hs.ckptEnd.parts.complete
      · exact hs.ckptEnd
  · split
    · refine .complete ?_
      refine .parts ?_
      split
      · exact hs.ckptEnd.parts.complete
      · exact hs.ckptEnd
    · split
      · exact hs.ckptEnd.parts.complete
      · exact hs.ckptEnd

protected theorem RingsFit.abortStep (hs : RingsFit s) : RingsFit (abortStep s) := .ite hs.failHere (.ite hs.recordUnlaunched.sendEnd hs)

protected theorem RingsFit.sendQueued {k m} (hs : RingsFit s) : RingsFit (sendQueued s k m) := by
  fun_induction sendQueued s k m with
  | case1 => exact hs
  | case2 _ _ _ _ _ ih1 ih2 => exact ih2 (hs.offerQueue ih1)
  | case3 => exact hs
  | case4 => exact hs

protected theorem RingsFit.sendNotices {xs} (hs : RingsFit s) : RingsFit (sendNotices s xs) := by
  fun_induction sendNotices s xs with
  | case1 => exact hs
  | case2 _ _ _ ih => exact ih hs.sendQueued

protected theorem RingsFit.serveClose {ring seq flags} (hs : RingsFit s) : RingsFit (serveClose s ring seq flags) :=
  .ite hs.done (.ite hs.done (.done (.forgetPlot (.dropAllPending (.dropLoads (.dropWaiters (.closeSlots (.dropSheetLoad
    (.ite hs.abortStep.sendNotices hs)))))))))

protected theorem RingsFit.repairRow {kind k row st} (hs : RingsFit s) : RingsFit (repairRow s kind k row st) := by
  unfold repairRow
  extract_lets left d s1 a rest
  have h1 : RingsFit s1 := .ite hs.same hs.drawFree.modDdr
  exact .ite h1.logEv.retire (.retire (.ite h1.same h1.modDdr))

protected theorem RingsFit.repairRows {kind k st xs} (hs : RingsFit s) : RingsFit (repairRows s kind k st xs) := by
  fun_induction repairRows s kind k st xs with
  | case1 => exact hs
  | case2 _ _ _ ih => exact ih hs.repairRow

protected theorem RingsFit.repairPending {kind st xs} (hs : RingsFit s) : RingsFit (repairPending s kind st xs) := by
  fun_induction repairPending s kind st xs with
  | case1 => exact hs
  | case2 _ _ _ ih => exact ih hs.repairRows

protected theorem RingsFit.serveScrub {ring seq} (hs : RingsFit s) : RingsFit (serveScrub s ring seq) :=
  .ite hs.done hs.parts.repairPending.repairPending

protected theorem RingsFit.execScrubComplete {ms badChannel} (hs : RingsFit s) : answers (execScrubComplete ms badChannel s) RingsFit := by
  unfold execScrubComplete
  refine .next ?_
  split
  · exact hs
  · dsimp only
    split
    · exact hs.same.logEv.done
    · exact hs.same.disableDdr.logEv.done

end Sys2Proof.Machine
end

section
/-! PROOFS. Time, registers, updates and power keep the class rings within their bounds (R387). -/

namespace Sys2Proof.Machine

set_option Elab.async false

variable {s : State}

/-! ### The definitions of Machine/Timebase -/

protected theorem RingsFit.refSwitch {r} (hs : RingsFit s) : RingsFit (refSwitch s r) := hs.parts.logEv

protected theorem RingsFit.refRevert (hs : RingsFit s) : RingsFit (refRevert s) := .ite hs.refSwitch hs

protected theorem RingsFit.tickWatch (hs : RingsFit s) : RingsFit (tickWatch s) := hs.parts.refRevert

protected theorem RingsFit.tick (hs : RingsFit s) : RingsFit (tick s) := .ite hs hs.parts.tickWatch

protected theorem RingsFit.execTimeSetLoad (hs : RingsFit s) : answers (execTimeSetLoad s) RingsFit := .next (.ite hs.tick hs)

protected theorem RingsFit.execPhaseStepApply (hs : RingsFit s) : answers (execPhaseStepApply s) RingsFit := .next (.ite hs.tick hs)

protected theorem RingsFit.execTbaseNowRead (hs : RingsFit s) : answers (execTbaseNowRead s) RingsFit := .next (.ite hs.parts hs.same)

protected theorem RingsFit.answerTimeReads (hs : RingsFit s) : RingsFit (answerTimeReads s) := by
  unfold answerTimeReads
  dsimp only
  split
  · exact .parts (.ite hs.same hs)
  · exact .parts (.ite hs.same hs)

protected theorem RingsFit.refuseTime {off val} (hs : RingsFit s) : RingsFit (refuseTime s off val) := hs.logEv

protected theorem RingsFit.execRefFail {r} (hs : RingsFit s) : answers (execRefFail r s) RingsFit :=
  .next (.ite hs.parts (.ite hs.parts.refSwitch hs.parts.parts.logEv))

protected theorem RingsFit.execRefPass {r} (hs : RingsFit s) : answers (execRefPass r s) RingsFit :=
  .next (.ite (.ite hs.parts hs.parts.parts) hs.parts)

protected theorem RingsFit.execHoldoverBoundTick (hs : RingsFit s) : answers (execHoldoverBoundTick s) RingsFit := .next (.ite hs.parts hs)

protected theorem RingsFit.logStop {region ns} (hs : RingsFit s) : RingsFit (logStop s region ns) := hs.logEv

protected theorem RingsFit.relockEnd {ns} (hs : RingsFit s) : RingsFit (relockEnd s ns) :=
  .ite (.ite hs.parts.logStop.logEv hs.parts.logStop) (.answerTimeReads (.ite hs.parts.logStop.logEv hs.parts.logStop))

protected theorem RingsFit.execRegionStopEnd {region ns} (hs : RingsFit s) : answers (execRegionStopEnd region ns s) RingsFit := by
  unfold execRegionStopEnd
  extract_lets g
  have hk : RingsFit (modStack s g fun k => { k with stopping := false }) := hs.same
  have hd : RingsFit (modDdr s (g - 8) fun k => { k with stopping := false }) := hs.modDdr
  exact .next (.ite (.ite hk.logStop hs) (.ite (.ite hd.logStop hs) (.ite hs.relockEnd hs)))

protected theorem RingsFit.ppsFault {st} (hs : RingsFit s) : RingsFit (ppsFault s st) := hs.parts.logEv

protected theorem RingsFit.execPpsInEdge (hs : RingsFit s) : answers (execPpsInEdge s) RingsFit :=
  .next (.ite hs (.ite hs.parts (.ite hs.parts.ppsFault hs.parts)))

protected theorem RingsFit.execPpsStuck (hs : RingsFit s) : answers (execPpsStuck s) RingsFit := .next (.ite hs.ppsFault hs)

protected theorem RingsFit.execPpsOutSecond (hs : RingsFit s) : answers (execPpsOutSecond s) RingsFit := .next (.ite hs.parts hs)

protected theorem RingsFit.execPpsOutFall (hs : RingsFit s) : answers (execPpsOutFall s) RingsFit := .next (.ite hs.parts hs)

/-! ### The definitions of Machine/RegWrite -/

protected theorem RingsFit.dropWrite {off v} (hs : RingsFit s) : RingsFit (dropWrite s off v) := hs.logEv

protected theorem RingsFit.refuseRange {off v} (hs : RingsFit s) : RingsFit (refuseRange s off v) := hs.logEv

protected theorem RingsFit.refuseSpan {n off v} (hs : RingsFit s) : RingsFit (refuseSpan n s off v) := hs.logEv

protected theorem RingsFit.refuseNoUnit {cause} (hs : RingsFit s) : RingsFit (refuseNoUnit s cause) := hs.drawFree.drawFree.drawFree.logEv

protected theorem RingsFit.refuseRws (hs : RingsFit s) : RingsFit (refuseRws s) := hs.refuseNoUnit

protected theorem RingsFit.refuseLive (hs : RingsFit s) : RingsFit (refuseLive s) := hs.refuseNoUnit

protected theorem RingsFit.putCfg {off v} (hs : RingsFit s) : RingsFit (putCfg s off v) := hs.putReg

protected theorem RingsFit.writeRws {off v ok out} (hs : RingsFit s) (ho : ∀ {t off v}, RingsFit t → RingsFit (out t off v)) :
    RingsFit (writeRws s off v ok out) :=
  .ite hs.refuseRws (.ite hs.putCfg (ho hs))

protected theorem RingsFit.writeMbox {o v} (hs : RingsFit s) : RingsFit (writeMbox s o v) :=
  .ite hs (.ite (.ite hs.putCfg hs.dropWrite) (.ite hs.same (.ite hs.putCfg (.ite hs.parts.roomCame (.ite hs (.ite
    (.ite hs.dropWrite hs.putCfg) hs.dropWrite))))))

protected theorem RingsFit.writeTimeCtl {v} (hs : RingsFit s) : RingsFit (writeTimeCtl s v) :=
  .ite (.ite hs.putCfg hs.putCfg.parts) (.parts (.ite hs.putCfg hs.putCfg.parts))

protected theorem RingsFit.writeServo {o v owner} (hs : RingsFit s) : RingsFit (writeServo s o v owner) :=
  .ite hs.refuseTime (.ite (.ite hs.parts hs.refuseTime) (.ite (.ite hs.refuseTime hs.parts) (.ite hs.parts (.ite (.ite hs.refuseRange
    (.ite hs.refuseTime hs.parts)) (.ite (.ite hs.parts hs.refuseTime) hs.parts)))))

protected theorem RingsFit.writeTbase {o v owner} (hs : RingsFit s) : RingsFit (writeTbase s o v owner) :=
  .ite hs.dropWrite (.ite hs.writeServo (.ite (.ite hs.writeTimeCtl hs.refuseRange) (.ite hs.putCfg (.ite hs (.ite (.ite
    (.ite hs.putCfg hs.refuseRange) (.ite hs.putCfg hs)) hs.dropWrite)))))

protected theorem RingsFit.writePace {o v} (hs : RingsFit s) : RingsFit (writePace s o v) :=
  .ite (hs.writeRws (fun ht => ht.refuseRange)) (.ite (hs.writeRws (fun ht => ht.refuseRange)) (.ite (hs.writeRws
    (fun ht => ht.refuseRange)) (.ite (hs.writeRws (fun ht => ht.refuseRange)) (.ite hs hs.dropWrite))))

protected theorem RingsFit.writeLaunch {o v} (hs : RingsFit s) : RingsFit (writeLaunch s o v) :=
  .ite (hs.writeRws (fun ht => ht.refuseRange)) (.ite (hs.writeRws (fun ht => ht.refuseRange)) (.ite (hs.writeRws
    (fun ht => ht.refuseRange)) (.ite (hs.writeRws (fun ht => ht.refuseRange)) (.ite hs hs.dropWrite))))

protected theorem RingsFit.trainSubs {n us} (hs : RingsFit s) : RingsFit (trainSubs s n us) := by
  induction us generalizing s with
  | nil => exact hs
  | cons u us ih => exact ih (.ite hs.modSub hs.modSub.startTraining)

protected theorem RingsFit.disableSubs {n us} (hs : RingsFit s) : RingsFit (disableSubs s n us) := by
  induction us generalizing s with
  | nil => exact hs
  | cons u us ih => exact ih hs.linkDownOn.modSub

protected theorem RingsFit.writeSpanCfg {n v} (hs : RingsFit s) : RingsFit (writeSpanCfg s n v) :=
  .ite hs.putCfg.trainSubs (.ite hs.putCfg.disableSubs hs.putCfg)

protected theorem RingsFit.writeSubCtl {n u v} (hs : RingsFit s) : RingsFit (writeSubCtl s n u v) :=
  .ite hs (.ite hs.refuseSubCtl (.ite (.widenOn (.ite hs.retrainOn hs)) (.ite hs.retrainOn hs)))

protected theorem RingsFit.writeSpan {n o v} (hs : RingsFit s) : RingsFit (writeSpan s n o v) :=
  .ite (.ite hs.refuseRws (.ite hs.writeSpanCfg hs.refuseSpan)) (.ite (hs.writeRws (fun ht => ht.refuseSpan)) (.ite (hs.writeRws
    (fun ht => ht.refuseSpan)) (.ite hs (.ite (.ite (hs.writeRws (fun ht => ht.refuseSpan)) (.ite hs.writeSubCtl hs)) hs.dropWrite))))

protected theorem RingsFit.writeLedger {o v} (hs : RingsFit s) : RingsFit (writeLedger s o v) :=
  .ite hs.dropWrite (.ite hs (.ite (hs.writeRws (fun ht => ht.refuseRange)) (.ite (hs.writeRws (fun ht => ht.refuseRange)) (.ite
    (hs.writeRws (fun ht => ht.refuseRange)) (.ite (hs.writeRws (fun ht => ht.refuseRange)) (.ite (hs.writeRws (fun ht => ht.refuseRange))
    (.ite (hs.writeRws (fun ht => ht.refuseRange)) (.ite hs (.ite (hs.writeRws (fun ht => ht.refuseRange)) (.ite (hs.writeRws
    (fun ht => ht.refuseRange)) (.ite (hs.writeRws (fun ht => ht.refuseRange)) hs.dropWrite)))))))))))

protected theorem RingsFit.saltWrite {t salt} (hs : RingsFit s) : RingsFit (saltWrite s t salt) := by
  obtain ⟨s1, h1, ht⟩ := hs.execSaltWrite (tenant := BitVec.ofNat 12 t) (salt := salt)
  unfold saltWrite
  rw [h1]
  exact ht

protected theorem RingsFit.writeSieve {o v} (hs : RingsFit s) : RingsFit (writeSieve s o v) :=
  .ite (hs.writeRws (fun ht => ht.refuseRange)) (.ite hs (.ite hs.saltWrite hs.dropWrite))

protected theorem RingsFit.writeDdrCtl {m v} (hs : RingsFit s) : RingsFit (writeDdrCtl s m v) :=
  .ite hs.refuseRws (.ite hs.refuseRange (.ite hs.rateReqOn (.ite hs.putCfg hs.putCfg.rateReqOn)))

protected theorem RingsFit.writeMemc {o v} (hs : RingsFit s) : RingsFit (writeMemc s o v) :=
  .ite (hs.writeRws (fun ht => ht.refuseRange)) (.ite hs.writeDdrCtl (.ite hs hs.dropWrite))

protected theorem RingsFit.blotPut {off v w ok} (hs : RingsFit s) : RingsFit (blotPut s off v w ok) := .ite hs.putCfg hs.dropWrite

protected theorem RingsFit.writeBlot {o v} (hs : RingsFit s) : RingsFit (writeBlot s o v) :=
  .ite (.ite (.ite hs.same hs.putCfg) hs.dropWrite) (.ite hs.same (.ite hs.blotPut (.ite hs.blotPut (.ite hs.blotPut
    (.ite hs.blotPut (.ite hs hs.dropWrite))))))

protected theorem RingsFit.regWriteCore {o v owner} (hs : RingsFit s) : RingsFit (regWriteCore s o v owner) :=
  .ite (.ite hs hs.dropWrite) (.ite hs.writeMbox (.ite hs.writeTbase (.ite hs.writePace (.ite hs.writeLaunch (.ite hs.writeSpan
    (.ite hs.writeLedger (.ite hs.writeSieve (.ite hs.writeMemc (.ite hs.writeBlot (.ite (.ite hs hs.dropWrite) hs.dropWrite))))))))))

/-! ### The definitions of Machine/Update -/

protected theorem RingsFit.startImage {t bank ready} (hs : RingsFit s) : RingsFit (startImage s t bank ready) := hs.parts

protected theorem RingsFit.fallBackHdr {t} (hs : RingsFit s) : RingsFit (fallBackHdr s t) := hs.same.logEv

protected theorem RingsFit.readLoam (hs : RingsFit s) : RingsFit (readLoam s) := by
  unfold readLoam
  dsimp only
  split
  · exact hs.parts.logEv
  · exact hs.parts

protected theorem RingsFit.retrainAll {xs} (hs : RingsFit s) : RingsFit (retrainAll s xs) := by
  fun_induction retrainAll s xs with
  | case1 => exact hs.parts
  | case2 _ _ _ ih => exact ih (.ite hs.linkDownOn.startTraining hs)

protected theorem RingsFit.fallBack {t} (hs : RingsFit s) : RingsFit (fallBack s t) := by
  unfold fallBack
  extract_lets s1 s2 s3
  have h2 : RingsFit s2 := hs.fallBackHdr.startImage
  have h3 : RingsFit s3 := .ite h2.readLoam (.ite h2.retrainAll h2)
  split
  · exact .ite h3.parts.complete h3
  · exact h3

protected theorem RingsFit.convertRecs {fmt room rs} (hs : RingsFit s) : RingsFit (convertRecs s fmt room rs).2 := by
  induction rs generalizing s room with
  | nil => exact hs
  | cons r rs ih =>
    unfold convertRecs
    dsimp only
    split
    · exact ih hs.drawFree
    · exact ih hs.drawFree

protected theorem RingsFit.convertLoam (hs : RingsFit s) : RingsFit (convertLoam s) := .ite hs.convertRecs.writeLoam hs

protected theorem RingsFit.execFirmwareReady {target} (hs : RingsFit s) : answers (execFirmwareReady target s) RingsFit := by
  unfold execFirmwareReady
  refine .next ?_
  split
  · exact hs
  · dsimp only
    split
    · exact hs.parts
    · exact .ite hs.parts (.complete (.parts (.ite hs.parts.convertLoam.readLoam hs.parts)))

protected theorem RingsFit.execTrialReadyTimeout {target} (hs : RingsFit s) : answers (execTrialReadyTimeout target s) RingsFit :=
  .next (.ite hs.fallBack hs)

protected theorem RingsFit.serveUpdateBegin {ring seq target version length blocks digest} (hs : RingsFit s) :
    RingsFit (serveUpdateBegin s ring seq target version length blocks digest) :=
  .ite hs.done (.ite hs.done (.done (.parts (.ite hs hs.flashErase))))

protected theorem RingsFit.applyBlock {u i b} {t : State} (hs : RingsFit s) (ht : applyBlock s u i b = .inr t) : RingsFit t := by
  unfold applyBlock at ht
  dsimp only at ht
  split at ht
  · split at ht
    · cases ht
    · split at ht
      · cases ht
        exact hs.parts
      · cases ht
        exact hs.same
  · split at ht
    · cases ht
    · split at ht
      · split at ht
        · cases ht
          exact hs.parts
        · cases ht
      · split at ht
        · cases ht
        · cases ht
          exact hs.same

protected theorem RingsFit.serveUpdateBlock {ring seq index host length digest} (hs : RingsFit s) :
    RingsFit (serveUpdateBlock s ring seq index host length digest) := by
  unfold serveUpdateBlock
  dsimp only
  split
  · exact hs.done
  · exact .ite hs.same.done (.ite hs.done hs.parts)

protected theorem RingsFit.updateBlockRead {ring seq index host length digest view} (hs : RingsFit s) :
    RingsFit (updateBlockRead s ring seq index host length digest view) := by
  unfold updateBlockRead
  dsimp only
  split
  · exact hs.done
  · refine .ite hs.done (.ite hs.done ?_)
    split
    · exact hs.same.done
    · next ht => exact (hs.applyBlock ht).done

protected theorem RingsFit.activateImage {ring seq target} (hs : RingsFit s) : RingsFit (activateImage s ring seq target) :=
  .ite hs.same.done (.ite hs.same.retrainAll hs.same)

protected theorem RingsFit.activateLoamImage {ring seq u} (hs : RingsFit s) : RingsFit (activateLoamImage s ring seq u) := by
  unfold activateLoamImage
  exact .ite hs.same.done hs.same.writeLoam.done

protected theorem RingsFit.serveUpdateActivate {ring seq target} (hs : RingsFit s) : RingsFit (serveUpdateActivate s ring seq target) := by
  unfold serveUpdateActivate
  dsimp only
  split
  · exact hs.done
  · split
    · exact hs.done
    · split
      · exact hs.logEv.done
      · split
        · exact hs.done
        · split
          · exact hs.activateLoamImage
          · split
            · exact hs.same.done
            · exact hs.activateImage

protected theorem RingsFit.serveUpdateConfirm {ring seq} (hs : RingsFit s) : RingsFit (serveUpdateConfirm s ring seq) :=
  .ite hs.done hs.same.done

/-! ### The definitions of Machine/Boot -/

protected theorem RingsFit.bootBank {t bank} {u : State} (hs : RingsFit s) (hu : bootBank s t bank = some u) : RingsFit u := by
  unfold bootBank at hu
  split at hu
  · cases hu
    exact hs.startImage
  · split at hu
    · cases hu
      exact hs.startImage
    · cases hu

protected theorem RingsFit.bootHeader {t} (hs : RingsFit s) : RingsFit (bootHeader s t) := .ite hs.fallBackHdr hs

protected theorem RingsFit.bootTarget {t} {u : State} (hs : RingsFit s) (hu : bootTarget s t = some u) : RingsFit u := by
  unfold bootTarget at hu
  split at hu
  · cases hu
    exact hs.same
  · exact hs.bootBank hu

protected theorem RingsFit.bootTargets {ts} (hs : RingsFit s) : RingsFit (bootTargets s ts).1 := by
  induction ts generalizing s with
  | nil => exact hs
  | cons t ts ih =>
    unfold bootTargets
    split
    · next h1 => exact ih (hs.bootHeader.bootTarget h1)
    · exact hs.bootHeader

protected theorem RingsFit.loamPorts {p xs} (hs : RingsFit s) : RingsFit (loamPorts p s xs) := by
  fun_induction loamPorts p s xs with
  | case1 => exact hs
  | case2 _ _ _ _ ih => exact ih hs.putField.putField

protected theorem RingsFit.loamMacs {base xs} (hs : RingsFit s) : RingsFit (loamMacs base s xs) := by
  fun_induction loamMacs base s xs with
  | case1 => exact hs
  | case2 _ _ _ ih => exact ih hs.putCfg

protected theorem RingsFit.loamApply {r} (hs : RingsFit s) : RingsFit (loamApply s r) := by
  unfold loamApply
  dsimp only
  split
  · exact .ite hs.loamPorts hs
  · exact .ite hs.loamMacs hs
  · exact .ite hs.putCfg hs
  · exact .ite hs.parts hs
  · exact .ite hs.writeTimeCtl.putCfg hs
  · exact .ite hs.putCfg.putCfg hs
  · exact hs

protected theorem RingsFit.bootLoam (hs : RingsFit s) : RingsFit (bootLoam s) := by
  unfold bootLoam
  dsimp only
  split
  · exact hs.same.convertLoam.readLoam
  · refine hs.same.convertLoam.readLoam.foldl fun ht => ?_
    exact ht.loamApply

protected theorem RingsFit.linkTrained {width} (hs : RingsFit s) : RingsFit (linkTrained s width) := hs.parts

protected theorem RingsFit.bootRails {ok} (hs : RingsFit s) : RingsFit (bootRails s ok) := .ite hs.parts hs.parts.logSilent

protected theorem RingsFit.bootPolicy (hs : RingsFit s) : RingsFit (bootPolicy s) := hs.parts

protected theorem RingsFit.bootStack {k v} (hs : RingsFit s) : RingsFit (bootStack s k v) :=
  .ite hs.same.repairRows hs.same.repairRows.parts.logEv

protected theorem RingsFit.bootStacks {k xs} (hs : RingsFit s) : RingsFit (bootStacks s k xs) := by
  fun_induction bootStacks s k xs with
  | case1 => exact hs
  | case2 _ _ _ _ ih => exact ih hs.bootStack

protected theorem RingsFit.bootDimm {m v} (hs : RingsFit s) : RingsFit (bootDimm s m v) :=
  .ite (.logEv (.ite hs.modDdr.repairRows hs.modDdr)) (.ite hs.modDdr.repairRows hs.modDdr)

protected theorem RingsFit.bootDimms {m xs} (hs : RingsFit s) : RingsFit (bootDimms s m xs) := by
  fun_induction bootDimms s m xs with
  | case1 => exact hs
  | case2 _ _ _ _ ih => exact ih hs.bootDimm

protected theorem RingsFit.trainPart {old m} (hs : RingsFit s) : RingsFit (trainPart s old m).2 := by
  unfold trainPart
  dsimp only
  split
  · exact hs
  · split
    · dsimp only
      exact hs.drawFree
    · dsimp only
      exact hs.same

protected theorem RingsFit.trainParts {old m n} (hs : RingsFit s) : RingsFit (trainParts s old m n).2 := by
  induction n generalizing s m with
  | zero => exact hs
  | succ n ih => exact ih hs.trainPart

protected theorem RingsFit.storeTraining (hs : RingsFit s) : RingsFit (storeTraining s) := by
  unfold storeTraining
  dsimp only
  split
  · exact hs
  · exact .ite hs.trainParts hs.trainParts.drawFree.writeLoam

protected theorem RingsFit.recordFailing {xs} (hs : RingsFit s) : RingsFit (recordFailing s xs) := by
  fun_induction recordFailing s xs with
  | case1 => exact hs
  | case2 _ _ _ _ ih => exact ih (.ite hs.retire hs)

protected theorem RingsFit.execSelfTest {failing} (hs : RingsFit s) : answers (execSelfTest failing s) RingsFit :=
  .next (.ite hs.recordFailing hs)

protected theorem RingsFit.trainPorts {xs} (hs : RingsFit s) : RingsFit (trainPorts s xs) := by
  fun_induction trainPorts s xs with
  | case1 => exact hs
  | case2 _ _ _ ih => exact ih (.ite hs.trainSubs hs)

protected theorem RingsFit.noteOutOfService (hs : RingsFit s) : RingsFit (noteOutOfService s) := .ite hs.logOutOfService hs

protected theorem RingsFit.bootService {v} (hs : RingsFit s) : RingsFit (bootService s v) :=
  hs.bootLoam.bootPolicy.linkTrained.bootRails.bootStacks.bootDimms.storeTraining.recordFailing.mapDevice.noteOutOfService.parts.trainPorts

protected theorem RingsFit.bootRom {v} (hs : RingsFit s) : RingsFit (bootRom s v) := by
  unfold bootRom
  split
  · exact hs.same
  · next c h _ =>
    extract_lets s1
    have h1 : RingsFit s1 := hs.same
    split
    · exact h1.same
    · next k _ =>
      extract_lets s2 _ s3 _ s4 s5
      have h2 : RingsFit s2 := h1.same
      have h3 : RingsFit s3 := h2.parts
      have h5 : RingsFit s5.1 := h3.same.bootTargets
      exact .ite h2.same (.ite h3.same (.ite h5.bootService h5.same))

protected theorem RingsFit.execResetNRelease {v} (hs : RingsFit s) : answers (execResetNRelease v s) RingsFit := by
  unfold execResetNRelease
  refine .next ?_
  split
  · exact hs
  · split
    · exact hs.parts
    · dsimp only
      split
      · exact hs.same
      · exact hs.parts.bootRom

protected theorem RingsFit.execReferenceWaitAlert (hs : RingsFit s) : answers (execReferenceWaitAlert s) RingsFit :=
  .next (.ite hs.parts hs)

/-! ### The definitions of Machine/Grants -/

protected theorem RingsFit.shakeBlotted {xs} (hs : RingsFit s) : RingsFit (shakeBlotted s xs) := by
  fun_induction shakeBlotted s xs with
  | case1 => exact hs
  | case2 _ _ _ _ ih => exact ih (.ite hs.startShake hs)

protected theorem RingsFit.afterResume (hs : RingsFit s) : RingsFit (afterResume s) :=
  .ite hs (.endHaltHold (.ite hs.parts.shakeBlotted hs))

protected theorem RingsFit.takeGrant {b} (hs : RingsFit s) : RingsFit (takeGrant s b).1 := by
  unfold takeGrant
  dsimp only
  split
  · exact hs.logEv
  · exact hs.parts.logEv

protected theorem RingsFit.endGrant {why} (hs : RingsFit s) : RingsFit (endGrant s why) := .ite hs hs.same.afterResume.logEv

protected theorem RingsFit.execGrantExpiry (hs : RingsFit s) : answers (execGrantExpiry s) RingsFit := .next (.ite hs.endGrant hs)

protected theorem RingsFit.execTapGrant {grant} (hs : RingsFit s) : answers (execTapGrant grant s) RingsFit :=
  .next (.ite hs.same.takeGrant hs.same)

protected theorem RingsFit.debugGrantRead {ring seq addr length view} (hs : RingsFit s) :
    RingsFit (debugGrantRead s ring seq addr length view) := hs.takeGrant.done

protected theorem RingsFit.debugGrantAtOnce {ring seq addr length} {t : State} (hs : RingsFit s)
    (ht : debugGrantAtOnce s ring seq addr length = some t) : RingsFit t := by
  unfold debugGrantAtOnce at ht
  split at ht
  · cases ht
    exact hs.endGrant.done
  · split at ht
    · cases ht
      exact hs.logEv.done
    · cases ht

/-! ### The definitions of Machine/Power -/

protected theorem RingsFit.resetDevice {mem phase pwrgood} : RingsFit (resetDevice s mem phase pwrgood) := fun _ he => absurd he List.not_mem_nil

protected theorem RingsFit.execPowerUp : answers (execPowerUp s) RingsFit := .next RingsFit.resetDevice.drawFree.parts

protected theorem RingsFit.execPwrgoodAssert (hs : RingsFit s) : answers (execPwrgoodAssert s) RingsFit := .next (.ite hs hs.parts)

protected theorem RingsFit.execPwrgoodFall : answers (execPwrgoodFall s) RingsFit := .next RingsFit.resetDevice.parts

protected theorem RingsFit.poweredReset (hs : RingsFit s) : RingsFit (poweredReset s) :=
  .ite hs (.ite RingsFit.resetDevice.parts.logEv RingsFit.resetDevice.parts)

protected theorem RingsFit.execRailFault {rail} (hs : RingsFit s) : answers (execRailFault rail s) RingsFit := .next hs.poweredReset

protected theorem RingsFit.execWarmReset (hs : RingsFit s) : answers (execWarmReset s) RingsFit :=
  .next (.poweredReset (.ite hs.same hs))

protected theorem RingsFit.execThermalTrip {sensor tempC} (hs : RingsFit s) : answers (execThermalTrip sensor tempC s) RingsFit := by
  refine .next (.ite hs (.logEv ?_))
  exact hs.same

protected theorem RingsFit.execControllerLost {target die} (hs : RingsFit s) : answers (execControllerLost target die s) RingsFit :=
  .next (.ite hs hs.logEv)

protected theorem RingsFit.bedBegin {item} (hs : RingsFit s) : RingsFit (bedBegin s item) := .ite hs.same hs.same

protected theorem RingsFit.bedChunk {item} (hs : RingsFit s) : RingsFit (bedChunk s item) := by
  unfold bedChunk
  split
  · exact hs.same
  · exact .ite hs.same (.ite hs.same hs.same)

protected theorem RingsFit.bedEnd {item} (hs : RingsFit s) : RingsFit (bedEnd s item) := by
  unfold bedEnd
  split
  · exact hs.same
  · split
    · exact hs.same
    · exact .ite hs.same (.ite hs.same hs.same)

protected theorem RingsFit.execBedrockBegin {item} (hs : RingsFit s) : answers (execBedrockBegin item s) RingsFit :=
  .next (.ite hs.bedBegin hs)

protected theorem RingsFit.execBedrockChunk {item} (hs : RingsFit s) : answers (execBedrockChunk item s) RingsFit :=
  .next (.ite hs.bedChunk hs)

protected theorem RingsFit.execBedrockEnd {item} (hs : RingsFit s) : answers (execBedrockEnd item s) RingsFit := .next (.ite hs.bedEnd hs)

protected theorem RingsFit.execBedrockRestart (hs : RingsFit s) : answers (execBedrockRestart s) RingsFit :=
  .next (.ite hs.poweredReset hs)

protected theorem RingsFit.bedCmd {v} (hs : RingsFit s) : RingsFit (bedCmd s v) := by
  unfold bedCmd
  dsimp only
  split
  · exact hs.bedBegin
  · exact hs.bedChunk
  · exact hs.bedEnd
  · exact hs.poweredReset
  · exact hs

protected theorem RingsFit.writeBedrock {o v} (hs : RingsFit s) : RingsFit (writeBedrock s o v) :=
  .ite hs.bedCmd (.ite hs.putCfg (.ite hs.putCfg (.ite hs.parts hs)))

/-! ### The definitions of Machine/Query -/

protected theorem RingsFit.serveTimeSet {ring seq sec ns frac} (hs : RingsFit s) : RingsFit (serveTimeSet s ring seq sec ns frac) :=
  .ite hs.done (.ite hs.refuseTime.done (.ite hs.done hs.parts.done))

protected theorem RingsFit.serveTimeAdjust {ring seq valid incr offset boundNs servo} (hs : RingsFit s) :
    RingsFit (serveTimeAdjust s ring seq valid incr offset boundNs servo) :=
  .ite hs.done (.ite (.done (.ite hs.refuseTime hs)) (.ite hs.refuseTime.done hs.parts.done))

protected theorem RingsFit.serveQuery {ring seq what index count dest len} (hs : RingsFit s) :
    RingsFit (serveQuery s ring seq what index count dest len) := by
  unfold serveQuery
  dsimp only
  split
  · exact hs.done
  · split
    · exact .ite hs.done (.ite hs.done hs.memWrite.done)
    · split
      · exact hs.parts.done
      · exact hs.memWrite.done

protected theorem RingsFit.serveDrain {ring seq classes dest len} (hs : RingsFit s) : RingsFit (serveDrain s ring seq classes dest len) := by
  unfold serveDrain
  extract_lets fin d _ s1
  have h1 : RingsFit s1 := ringFits_drained len.toNat _ hs
  exact .ite hs.done h1.done

protected theorem RingsFit.serveQuote {ring seq nonce dest len} (hs : RingsFit s) : RingsFit (serveQuote s ring seq nonce dest len) :=
  .ite hs.done (.ite hs.done hs.memWrite.parts.logEv.done)

end Sys2Proof.Machine
end

section
/-! PROOFS. The mailbox, the debug port and the management endpoint keep the class rings within their bounds (R387): every command does. -/

namespace Sys2Proof.Machine

set_option Elab.async false

variable {s : State}

/-! ### The definitions of Machine/Serve -/

protected theorem RingsFit.serveOpenPlot {ring seq b view} (hs : RingsFit s) : RingsFit (serveOpenPlot s ring seq b view) := by
  unfold serveOpenPlot
  split
  · exact .done (.ite hs.logOutOfService hs)
  · split
    · exact .ite hs.openRead hs.same
    · exact hs.same

protected theorem RingsFit.serveDebugGrant {ring seq addr length view} (hs : RingsFit s) :
    RingsFit (serveDebugGrant s ring seq addr length view) := by
  unfold serveDebugGrant
  split
  · next hg => exact hs.debugGrantAtOnce hg
  · split
    · exact .ite hs.debugGrantRead hs.same
    · exact hs.same

protected theorem RingsFit.serveCmd {ring seq c view} (hs : RingsFit s) : RingsFit (serveCmd s ring seq c view) := by
  unfold serveCmd
  split
  · exact hs.serveOpenPlot
  · exact hs.serveClose
  · exact hs.serveScrub
  · exact hs.serveLoadSheet
  · exact hs.serveFlip
  · exact hs.serveArm
  · exact hs.serveCommit
  · exact hs.serveAdmit
  · exact hs.serveCancel
  · exact hs.servePause
  · exact hs.serveResume
  · exact hs.serveSetDeadline
  · exact hs.serveCheckpoint
  · exact hs.serveRestore
  · exact hs.serveTimeSet
  · exact hs.serveTimeAdjust
  · exact hs.serveQuery
  · exact hs.serveDrain
  · exact hs.serveFence
  · exact hs.serveUnfence
  · exact hs.serveLoadManifest
  · exact hs.serveLoadBlock
  · exact hs.serveActivate
  · exact hs.serveUpdateBegin
  · exact hs.serveUpdateBlock
  · exact hs.serveUpdateActivate
  · exact hs.serveUpdateConfirm
  · exact hs.serveQuote
  · exact hs.serveDebugGrant
  · exact hs.done
  · exact hs.done

protected theorem RingsFit.submit {ring seq c view} (hs : RingsFit s) : RingsFit (submit s ring seq c view) := .ite hs.serveCmd hs.same

protected theorem RingsFit.readEntry {ring e view} (hs : RingsFit s) : RingsFit (readEntry s ring e view) :=
  .ite hs.same.submit hs.same.complete

protected theorem RingsFit.stall {ring found} (hs : RingsFit s) : RingsFit (stall s ring found) := hs.same.logEv

protected theorem RingsFit.readOn {ring view m} (hs : RingsFit s) : RingsFit (readOn s ring view m) := by
  fun_induction readOn s ring view m with
  | case1 => exact hs
  | case2 => exact hs
  | case3 => exact hs.same
  | case4 _ _ _ _ _ _ _ ih => exact ih hs.same
  | case5 => exact hs.stall
  | case6 _ _ _ _ _ _ _ _ ih => exact ih hs.readEntry

protected theorem RingsFit.doorbellOn {ring tail view} (hs : RingsFit s) : RingsFit (doorbellOn s ring tail view) :=
  .ite hs (.ite (.ite hs.same.readOn hs.same) hs.logEv)

protected theorem RingsFit.execDoorbell {ring tail host} (hs : RingsFit s) : answers (execDoorbell ring tail host s) RingsFit :=
  .next (.ite hs.doorbellOn hs)

protected theorem RingsFit.execRingWaitResume {ring host} (hs : RingsFit s) : answers (execRingWaitResume ring host s) RingsFit :=
  .next (.ite hs.same.readOn hs)

protected theorem RingsFit.rowCmd {ring c view} (hs : RingsFit s) : answers (rowCmd ring c view s) RingsFit :=
  .next (.ite hs hs.same.submit)

protected theorem RingsFit.execOpenPlot {ring b host} (hs : RingsFit s) : answers (execOpenPlot ring b host s) RingsFit := hs.rowCmd

protected theorem RingsFit.execClosePlot {ring flags} (hs : RingsFit s) : answers (execClosePlot ring flags s) RingsFit := hs.rowCmd

protected theorem RingsFit.execScrub {ring} (hs : RingsFit s) : answers (execScrub ring s) RingsFit := hs.rowCmd

protected theorem RingsFit.execLoadSheet {ring host length digest} (hs : RingsFit s) :
    answers (execLoadSheet ring host length digest s) RingsFit := hs.rowCmd

protected theorem RingsFit.execFlipSheet {ring} (hs : RingsFit s) : answers (execFlipSheet ring s) RingsFit := hs.rowCmd

protected theorem RingsFit.execArm {ring digest r} (hs : RingsFit s) : answers (execArm ring digest r s) RingsFit := hs.rowCmd

protected theorem RingsFit.execCommit {ring sec ns} (hs : RingsFit s) : answers (execCommit ring sec ns s) RingsFit := hs.rowCmd

protected theorem RingsFit.execAdmit {ring b} (hs : RingsFit s) : answers (execAdmit ring b s) RingsFit := hs.rowCmd

protected theorem RingsFit.execCancel {ring slot rid} (hs : RingsFit s) : answers (execCancel ring slot rid s) RingsFit := hs.rowCmd

protected theorem RingsFit.execPause {ring slot rid} (hs : RingsFit s) : answers (execPause ring slot rid s) RingsFit := hs.rowCmd

protected theorem RingsFit.execResume {ring slot rid} (hs : RingsFit s) : answers (execResume ring slot rid s) RingsFit := hs.rowCmd

protected theorem RingsFit.execSetDeadline {ring slot rid sec ns} (hs : RingsFit s) :
    answers (execSetDeadline ring slot rid sec ns s) RingsFit := hs.rowCmd

protected theorem RingsFit.execCheckpoint {ring step kind addr len} (hs : RingsFit s) :
    answers (execCheckpoint ring step kind addr len s) RingsFit := hs.rowCmd

protected theorem RingsFit.execRestore {ring kind addr len digest} (hs : RingsFit s) :
    answers (execRestore ring kind addr len digest s) RingsFit := hs.rowCmd

protected theorem RingsFit.execTimeSet {ring sec ns frac} (hs : RingsFit s) : answers (execTimeSet ring sec ns frac s) RingsFit := hs.rowCmd

protected theorem RingsFit.execTimeAdjust {ring valid incr offset boundNs servo} (hs : RingsFit s) :
    answers (execTimeAdjust ring valid incr offset boundNs servo s) RingsFit := hs.rowCmd

protected theorem RingsFit.execQuery {ring what index count dest len} (hs : RingsFit s) :
    answers (execQuery ring what index count dest len s) RingsFit := hs.rowCmd

protected theorem RingsFit.execBlotterDrain {ring classes dest len} (hs : RingsFit s) :
    answers (execBlotterDrain ring classes dest len s) RingsFit := hs.rowCmd

protected theorem RingsFit.execFencePort {ring port sub} (hs : RingsFit s) : answers (execFencePort ring port sub s) RingsFit := hs.rowCmd

protected theorem RingsFit.execUnfencePort {ring port sub} (hs : RingsFit s) : answers (execUnfencePort ring port sub s) RingsFit :=
  hs.rowCmd

protected theorem RingsFit.execLoadManifest {ring b} (hs : RingsFit s) : answers (execLoadManifest ring b s) RingsFit := hs.rowCmd

protected theorem RingsFit.execLoadBlock {ring epoch block host length} (hs : RingsFit s) :
    answers (execLoadBlock ring epoch block host length s) RingsFit := hs.rowCmd

protected theorem RingsFit.execActivateEpoch {ring epoch mode} (hs : RingsFit s) : answers (execActivateEpoch ring epoch mode s) RingsFit :=
  hs.rowCmd

protected theorem RingsFit.execUpdateBegin {ring target version length blocks digest} (hs : RingsFit s) :
    answers (execUpdateBegin ring target version length blocks digest s) RingsFit := hs.rowCmd

protected theorem RingsFit.execUpdateBlock {ring index host length digest} (hs : RingsFit s) :
    answers (execUpdateBlock ring index host length digest s) RingsFit := hs.rowCmd

protected theorem RingsFit.execUpdateActivate {ring target} (hs : RingsFit s) : answers (execUpdateActivate ring target s) RingsFit :=
  hs.rowCmd

protected theorem RingsFit.execUpdateConfirm {ring} (hs : RingsFit s) : answers (execUpdateConfirm ring s) RingsFit := hs.rowCmd

protected theorem RingsFit.execAttestQuote {ring nonce dest len} (hs : RingsFit s) : answers (execAttestQuote ring nonce dest len s) RingsFit :=
  hs.rowCmd

protected theorem RingsFit.execDebugGrant {ring addr length host} (hs : RingsFit s) :
    answers (execDebugGrant ring addr length host s) RingsFit := hs.rowCmd

protected theorem RingsFit.serveRing {r view m} (hs : RingsFit s) : RingsFit (serveRing s r view m) := by
  fun_induction serveRing s r view m with
  | case1 => exact hs
  | case2 => exact hs
  | case3 _ _ _ _ _ _ ih => exact ih hs.same.serveCmd

protected theorem RingsFit.serveRings {view xs} (hs : RingsFit s) : RingsFit (serveRings s view xs) := by
  fun_induction serveRings s view xs with
  | case1 => exact hs
  | case2 _ _ _ _ ih => exact ih hs.serveRing

protected theorem RingsFit.flipAtBoundary (hs : RingsFit s) : RingsFit (flipAtBoundary s) :=
  .ite (.ite hs.applyFlip.sendDigest hs.applyFlip) hs

protected theorem RingsFit.applyBlocks {xs} (hs : RingsFit s) : RingsFit (applyBlocks s xs) := by
  fun_induction applyBlocks s xs with
  | case1 => exact hs
  | case2 _ _ _ _ _ _ _ _ _ ih => exact ih hs.updateBlockRead
  | case3 _ _ _ _ _ ih => exact ih hs

protected theorem RingsFit.applyCame (hs : RingsFit s) : RingsFit (applyCame s) := hs.parts.applyBlocks

protected theorem RingsFit.execStepBoundary {host} (hs : RingsFit s) : answers (execStepBoundary host s) RingsFit := by
  unfold execStepBoundary
  extract_lets s1
  have h1 : RingsFit s1 := hs.applyDisables.applyCame.serveRings.flipAtBoundary
  exact .next (.ite hs (.ite hs.finishBoundary (.ite h1.parts.finishBoundary h1)))

/-! ### The definitions of Machine/HostAcc -/

protected theorem RingsFit.regWrite {o v} (hs : RingsFit s) : RingsFit (regWrite s o v) := by
  unfold regWrite
  split
  · exact hs.writeBedrock
  · split
    · exact hs.doorbellOn
    · exact .ite hs.dropWrite hs.regWriteCore
  · exact hs

protected theorem RingsFit.execRegisterWrite {offset value} (hs : RingsFit s) : answers (execRegisterWrite offset value s) RingsFit :=
  .next hs.regWrite

protected theorem RingsFit.writePart {o part} (hs : RingsFit s) : RingsFit (writePart s o part) := .ite hs.rateReqOn hs.regWrite

protected theorem RingsFit.writePacket {o data m} (hs : RingsFit s) : RingsFit (writePacket s o data m) := by
  fun_induction writePacket s o data m with
  | case1 => exact hs
  | case2 => exact hs
  | case3 _ _ _ _ _ _ ih => exact ih hs.writePart

protected theorem RingsFit.hostAnswer {r} (hs : RingsFit s) : RingsFit (hostAnswer s r) := hs.parts

protected theorem RingsFit.refuseAccess {a} (hs : RingsFit s) : RingsFit (refuseAccess s a) := hs.hostAnswer.logEv

protected theorem RingsFit.windowWrite {a data} (hs : RingsFit s) : RingsFit (windowWrite s a data) :=
  .ite hs.memWrite.hostAnswer hs.refuseAccess

protected theorem RingsFit.overLogs {a bs} (hs : RingsFit s) : RingsFit (overLogs s a bs) := hs.same

protected theorem RingsFit.directWrite {a bs} (hs : RingsFit s) : RingsFit (directWrite s a bs) := by
  unfold directWrite
  extract_lets _ s1 _
  have hm : RingsFit (memWrite s a (slotted s a bs)) := hs.memWrite
  have h1 : RingsFit s1 := .overLogs hm.same
  exact .ite h1.parts h1

protected theorem RingsFit.stratumAccess {write a data ue} (hs : RingsFit s) : RingsFit (stratumAccess s write a data ue) :=
  .ite (.ite hs.refuseAccess.refuseLive hs.refuseAccess)
    (.ite hs.hostAnswer
      (.ite (.ite hs.hostAnswer.refuseLive hs.directWrite.hostAnswer) (.ite hs.noteUncorrectable.hostAnswer hs.hostAnswer)))

protected theorem RingsFit.hostAccess {write a data ue} (hs : RingsFit s) : RingsFit (hostAccess s write a data ue) := by
  unfold hostAccess
  split
  · exact .ite hs.writePacket.hostAnswer (.ite hs.parts hs.regReadEffect.hostAnswer)
  · exact hs.hostAnswer
  · exact .ite hs.hostAnswer (.ite (.ite hs.windowWrite hs.hostAnswer) hs.stratumAccess)

protected theorem RingsFit.execHostAccess {write addr data uncorrectable} (hs : RingsFit s) :
    answers (execHostAccess write addr data uncorrectable s) RingsFit :=
  .next (.ite hs.hostAccess hs)

protected theorem RingsFit.execHostWritePacket {addr data} (hs : RingsFit s) : answers (execHostWritePacket addr data s) RingsFit :=
  .next (.ite hs.hostAccess hs)

protected theorem RingsFit.execHostLinkUp {width} (hs : RingsFit s) : answers (execHostLinkUp width s) RingsFit :=
  .next (.ite hs (.ite (.ite hs.parts hs) hs.parts.flushSeals.roomCame))

protected theorem RingsFit.adapterTrains (hs : RingsFit s) : RingsFit (adapterTrains s) := .ite (.ite hs.drawFree.parts hs.drawFree) hs

protected theorem RingsFit.idle (hs : RingsFit s) : RingsFit (idle s) := hs.tick.adapterTrains

protected theorem RingsFit.dataCame {r host} (hs : RingsFit s) : RingsFit (dataCame s r host) := by
  unfold dataCame
  dsimp only
  split
  · exact hs.same.openRead
  · exact .ite hs.same.updateBlockRead hs.same
  · exact hs.same.debugGrantRead
  · exact hs.same.done

protected theorem RingsFit.execHostReadComplete {ring seq host} (hs : RingsFit s) :
    answers (execHostReadComplete ring seq host s) RingsFit := by
  unfold execHostReadComplete
  refine .next ?_
  split
  · exact hs
  · split
    · exact hs.dataCame
    · split
      · exact hs.manifestRead
      · split
        · exact hs.blockRead
        · exact hs

protected theorem RingsFit.longTimeout {ring seq} (hs : RingsFit s) : RingsFit (longTimeout s ring seq) :=
  .ite hs.parts.complete (.ite hs.ckptEnd (.ite hs.same hs))

protected theorem RingsFit.execLinkTimeout {ring seq} (hs : RingsFit s) : answers (execLinkTimeout ring seq s) RingsFit := by
  unfold execLinkTimeout
  refine .next ?_
  split
  · exact hs
  · split
    · exact hs.same.done
    · split
      · exact hs.parts.done
      · split
        · exact hs.failJob
        · exact hs.longTimeout

protected theorem RingsFit.commandLost {a} (hs : RingsFit s) : RingsFit (commandLost s a) := by
  unfold commandLost
  dsimp only
  split
  · exact .ite hs.same hs.parts
  · split
    · exact hs.same.nackUnsent.complete
    · exact .ite hs.ckptEnd hs.parts

protected theorem RingsFit.mpReadFails {a} (hs : RingsFit s) : RingsFit (mpReadFails s a) := by
  unfold mpReadFails
  split
  · exact hs.same
  · exact hs.commandLost

protected theorem RingsFit.execMemoryUncorrectable {addr requester index} (hs : RingsFit s) :
    answers (execMemoryUncorrectable addr requester index s) RingsFit := by
  unfold execMemoryUncorrectable
  extract_lets a k noted
  have hn : RingsFit noted := hs.noteUncorrectable
  exact .next (.ite hs (.ite (.ite hs hn.hostAnswer) (.ite (.ite hn.mpReadFails hs) (.ite (.ite hn hs)
    (.ite (.ite hn.failUncorrectable hs) (.ite (.ite hn.promptFails hs) (.ite (.ite hn.failUncorrectable hs)
      (.ite (.ite hs hn) hs.readCorrected))))))))

/-! ### The definitions of Machine/UnitWin -/

protected theorem RingsFit.statusRow {c j w} (hs : RingsFit s) : RingsFit (statusRow s c j w).2 := by
  unfold statusRow
  dsimp only
  split
  · exact hs
  · dsimp only
    split
    · exact hs
    · exact hs.drawFree

protected theorem RingsFit.windowRow {c j o} (hs : RingsFit s) : RingsFit (windowRow s c j o).2 := by
  unfold windowRow
  dsimp only
  split
  · exact hs.statusRow
  · split
    · exact hs
    · split
      · exact hs
      · split
        · exact hs
        · split
          · exact hs
          · split
            · exact hs
            · split
              · exact hs
              · exact hs

protected theorem RingsFit.windowGet {o} {r : BitVec 64 × State} (hs : RingsFit s) (hr : windowGet s o = some r) : RingsFit r.2 := by
  unfold windowGet at hr
  split at hr
  · cases hr
  · cases hr
    exact hs.drawFree
  · cases hr
    exact hs.windowRow

protected theorem RingsFit.putScribeRow {c w v} (hs : RingsFit s) : RingsFit (putScribeRow s c w v) :=
  .ite hs (.ite hs.same (.ite hs.same (.ite hs.same hs.same)))

protected theorem RingsFit.putXferRow {k o v} (hs : RingsFit s) : RingsFit (putXferRow s k o v) := by
  unfold putXferRow
  dsimp only
  split
  · exact hs.same
  · exact hs

protected theorem RingsFit.putVectorRow {k o v} (hs : RingsFit s) : RingsFit (putVectorRow s k o v) :=
  .ite hs.setVector (.ite hs.setVector (.ite hs.setVector hs))

protected theorem RingsFit.putMatrixRow {k o v} (hs : RingsFit s) : RingsFit (putMatrixRow s k o v) :=
  .ite hs.setMatrix (.ite hs.setMatrix (.ite hs.setMatrix hs))

protected theorem RingsFit.putWindowRow {c j o v} (hs : RingsFit s) : RingsFit (putWindowRow s c j o v) :=
  .ite (.ite hs.putScribeRow hs) (.ite hs.putXferRow (.ite hs.same (.ite hs.putVectorRow (.ite hs.putMatrixRow hs))))

protected theorem RingsFit.windowPut {o v} {t : State} (hs : RingsFit s) (ht : windowPut s o v = some t) : RingsFit t := by
  unfold windowPut at ht
  split at ht
  · cases ht
  · split at ht
    · cases ht
    · cases ht
      exact hs
    · dsimp only at ht
      split at ht
      · cases ht
        exact hs.putWindowRow
      · cases ht

/-! ### The definitions of Machine/Debug -/

protected theorem RingsFit.haltOn {reach core} (hs : RingsFit s) : RingsFit (haltOn s reach core) := hs.same.haltWith

protected theorem RingsFit.resumeUnits {xs} (hs : RingsFit s) : RingsFit (resumeUnits s xs) := by
  fun_induction resumeUnits s xs with
  | case1 => exact hs
  | case2 _ _ _ ih => exact ih hs.modUnit

protected theorem RingsFit.resumeOn {reach core} (hs : RingsFit s) : RingsFit (resumeOn s reach core) :=
  .ite hs.same.resumeUnits.logEv.afterResume hs

/-- What an answer makes of a state has fit rings where the answer does. -/
protected theorem RingsFit.outState {o : Out} (ho : answers o RingsFit) : RingsFit (outState o s) := by
  obtain ⟨t, rfl, ht⟩ := ho
  exact ht

protected theorem RingsFit.runScribeWord {c w} (hs : RingsFit s) : RingsFit (runScribeWord s c w) := by
  refine .outState ?_
  split
  · exact hs.unitRow (i := .scribeWait ..) rfl
  · exact hs.unitRow (i := .alu ..) rfl
  · exact hs.unitRow (i := .alui ..) rfl
  · exact hs.unitRow (i := .movi ..) rfl
  · exact hs.unitRow (i := .ld ..) rfl
  · exact hs.unitRow (i := .st ..) rfl
  · exact hs.unitRow (i := .ldc ..) rfl
  · exact hs.unitRow (i := .jmp ..) rfl
  · exact hs.unitRow (i := .br ..) rfl
  · exact hs.unitRow (i := .lset ..) rfl
  · exact hs.unitRow (i := .lend ..) rfl
  · exact hs.unitRow (i := .endOp ..) rfl
  · exact hs.unitRow (i := .push ..) rfl
  · exact hs.unitRow (i := .pushr ..) rfl
  · exact hs.unitRow (i := .xwr ..) rfl
  · exact hs.unitRow (i := .csend ..) rfl
  · exact hs.unitRow (i := .cwait ..) rfl
  · exact hs.unitRow (i := .tread ..) rfl
  · exact hs.unitRow (i := .note ..) rfl
  · exact .next hs

protected theorem RingsFit.runUnit {c j} (hs : RingsFit s) : RingsFit (runUnit s c j) := by
  unfold runUnit
  split
  · split
    · exact hs.resumeScribe
    · split
      · exact hs.runScribeWord
      · exact hs
  · exact hs.resumeTile

protected theorem RingsFit.stepOn {c j kind} (hs : RingsFit s) : RingsFit (stepOn s c j kind) := .ite hs.modUnit.runUnit hs

protected theorem RingsFit.execDebugHalt {reach core} (hs : RingsFit s) : answers (execDebugHalt reach core s) RingsFit :=
  .next (.ite hs.haltOn hs)

protected theorem RingsFit.execDebugResume {reach core} (hs : RingsFit s) : answers (execDebugResume reach core s) RingsFit :=
  .next (.ite hs.resumeOn hs)

protected theorem RingsFit.execDebugStep {core tile kind} (hs : RingsFit s) : answers (execDebugStep core tile kind s) RingsFit :=
  .next (.ite hs.stepOn hs)

protected theorem RingsFit.discardAll {ks} (hs : RingsFit s) : RingsFit (discardAll s ks).1 := by
  induction ks generalizing s with
  | nil => exact hs
  | cons k ks ih => exact ih hs.same

protected theorem RingsFit.downAll {xs} (hs : RingsFit s) : RingsFit (downAll s xs) := by
  fun_induction downAll s xs with
  | case1 => exact hs
  | case2 _ _ _ _ ih => exact ih hs.blotDown

protected theorem RingsFit.execHaltDryExpiry (hs : RingsFit s) : answers (execHaltDryExpiry s) RingsFit :=
  .next (.ite hs.parts.discardAll.failHere.endHaltHold.downAll hs)

protected theorem RingsFit.writeRunCtl {v} (hs : RingsFit s) : RingsFit (writeRunCtl s v) := by
  unfold writeRunCtl
  dsimp only
  split
  · exact hs.refuseRange
  · split
    · exact hs.haltOn
    · exact hs.resumeOn
    · exact hs.stepOn
    · exact hs

protected theorem RingsFit.writeBpCtl {i v} (hs : RingsFit s) : RingsFit (writeBpCtl s i v) := .ite hs.refuseRange hs.parts

protected theorem RingsFit.writeDbg {o v} {t : State} (hs : RingsFit s) (ht : writeDbg s o v = some t) : RingsFit t := by
  unfold writeDbg at ht
  dsimp only at ht
  split at ht
  · split at ht
    · cases ht
      exact hs.writeRunCtl
    · cases ht
  · split at ht
    · split at ht
      · cases ht
        exact .ite hs.writeBpCtl hs.parts
      · cases ht
    · split at ht
      · cases ht
      · split at ht
        · cases ht
          exact .ite hs.parts hs.refuseRange
        · split at ht
          · exact hs.windowPut ht
          · split at ht
            · cases ht
              exact hs
            · cases ht
              exact hs.dropWrite

protected theorem RingsFit.xferDone {result data} (hs : RingsFit s) : RingsFit (xferDone s result data) := hs.same

protected theorem RingsFit.xferRefused {a} (hs : RingsFit s) : RingsFit (xferRefused s a) := hs.xferDone.logEv

protected theorem RingsFit.controlGet {o} {r : BitVec 64 × State} (hs : RingsFit s) (hr : controlGet s o = some r) : RingsFit r.2 := by
  unfold controlGet at hr
  split at hr
  · exact hs.windowGet hr
  · obtain rfl := Option.some.inj hr
    exact hs.regReadEffect

protected theorem RingsFit.execXferRead {addr} (hs : RingsFit s) : answers (execXferRead addr s) RingsFit := by
  unfold execXferRead
  refine .next ?_
  split
  · exact hs.xferRefused
  · split
    · exact hs.xferDone
    · split
      · split
        · next hg => exact .xferDone (hs.controlGet hg)
        · exact hs.xferDone
      · exact .ite hs.xferDone hs.xferDone

protected theorem RingsFit.debugWrote {a v} (hs : RingsFit s) : RingsFit (debugWrote s a v) := hs.logEv.parts.xferDone

protected theorem RingsFit.controlPut {o v} {t : State} (hs : RingsFit s) (ht : controlPut s o v = some t) : RingsFit t := by
  unfold controlPut at ht
  split at ht
  · exact hs.writeDbg ht
  · split at ht
    · cases ht
    · split at ht
      · cases ht
        exact hs.doorbellOn
      · dsimp only at ht
        split at ht
        · cases ht
          exact hs.dropWrite
        · cases ht
          exact hs.regWriteCore

protected theorem RingsFit.execXferWrite {addr value} (hs : RingsFit s) : answers (execXferWrite addr value s) RingsFit := by
  unfold execXferWrite
  refine .next ?_
  split
  · exact hs.xferRefused
  · split
    · exact hs.xferDone
    · split
      · split
        · next hp => exact .debugWrote (hs.controlPut hp)
        · exact hs.xferDone
      · exact .ite hs.xferRefused (.ite hs.xferDone (.ite hs.refuseLive.xferDone hs.directWrite.debugWrote))

protected theorem RingsFit.execExtest {pins} (hs : RingsFit s) : answers (execExtest pins s) RingsFit :=
  .next (.ite hs.same hs.same)

/-! ### The definitions of Machine/Mgmt -/

protected theorem RingsFit.execCoalesceWindowClose {cls cause locator} (hs : RingsFit s) :
    answers (execCoalesceWindowClose cls cause locator s) RingsFit := by
  unfold execCoalesceWindowClose
  refine .next ?_
  split
  · exact hs
  · exact .ite hs.parts hs.parts.blotWrite

protected theorem RingsFit.execTelemetryFlushTimer (hs : RingsFit s) : answers (execTelemetryFlushTimer s) RingsFit :=
  .next hs.telemetrySend

protected theorem RingsFit.mctpServe {f} (hs : RingsFit s) (hf : ∀ {t}, RingsFit t → RingsFit (f t)) : answers (mctpServe s f) RingsFit :=
  .next (.ite (hf hs) hs)

protected theorem RingsFit.mpServe {f} (hs : RingsFit s) (hf : ∀ {t}, RingsFit t → RingsFit (f t)) : answers (mpServe s f) RingsFit :=
  .next (.ite (hf hs) hs)

protected theorem RingsFit.execSetdasa {static dynamic} (hs : RingsFit s) : answers (execSetdasa static dynamic s) RingsFit :=
  (hs.mctpServe (fun ht => .ite ht.parts ht))

protected theorem RingsFit.execSetEndpointId {eid} (hs : RingsFit s) : answers (execSetEndpointId eid s) RingsFit :=
  (hs.mctpServe (fun ht => .ite ht.same ht.same))

protected theorem RingsFit.execGetEndpointId (hs : RingsFit s) : answers (execGetEndpointId s) RingsFit :=
  (hs.mctpServe (fun ht => ht.same))

protected theorem RingsFit.execGetMctpVersionSupport {msgType} (hs : RingsFit s) : answers (execGetMctpVersionSupport msgType s) RingsFit :=
  (hs.mctpServe (fun ht => .ite ht.same ht.same))

protected theorem RingsFit.execGetMessageTypeSupport (hs : RingsFit s) : answers (execGetMessageTypeSupport s) RingsFit :=
  (hs.mctpServe (fun ht => ht.same))

protected theorem RingsFit.execGetVendorDefinedMessageSupport {selector} (hs : RingsFit s) :
    answers (execGetVendorDefinedMessageSupport selector s) RingsFit :=
  (hs.mctpServe (fun ht => .ite ht.same ht.same))

protected theorem RingsFit.execMctpRead (hs : RingsFit s) : answers (execMctpRead s) RingsFit :=
  (hs.mpServe (fun ht => ht.same))

protected theorem RingsFit.execMctpCounts {cls} (hs : RingsFit s) : answers (execMctpCounts cls s) RingsFit :=
  (hs.mpServe (fun ht => ht.same))

protected theorem RingsFit.execMctpStatus (hs : RingsFit s) : answers (execMctpStatus s) RingsFit := (hs.mpServe (fun ht => ht.same))

/-! ### The definitions of Machine/Ptp -/

protected theorem RingsFit.modPtp {k f} (hs : RingsFit s) : RingsFit (modPtp s k f) := hs.same

protected theorem RingsFit.ptpReceive {n u h event f} (hs : RingsFit s) (hf : ∀ {t}, RingsFit t → RingsFit (f t)) :
    RingsFit (ptpReceive s n u h event f) := by
  have hc : RingsFit (if event then ptpCountEvent s n u else s) := .ite hs.same hs
  unfold ptpReceive
  generalize (if event then ptpCountEvent s n u else s) = c at hc ⊢
  split
  · exact hs
  · exact hc.same
  · exact hf hc

protected theorem RingsFit.servoRun {k} (hs : RingsFit s) : RingsFit (servoRun s k) :=
  .ite hs hs.parts.drawFree.drawFree.drawFree.drawFree.parts

protected theorem RingsFit.syncDone {n u d} (hs : RingsFit s) : RingsFit (syncDone s n u d) := hs.modPtp.servoRun

protected theorem RingsFit.execPtpSync {port sub h origin} (hs : RingsFit s) : answers (execPtpSync port sub h origin s) RingsFit :=
  .next (hs.ptpReceive (fun ht => .ite ht (.ite ht.modPtp ht.syncDone)))

protected theorem RingsFit.execPtpFollowUp {port sub h origin} (hs : RingsFit s) : answers (execPtpFollowUp port sub h origin s) RingsFit := by
  unfold execPtpFollowUp
  refine .next ?_
  refine hs.ptpReceive fun ht => ?_
  split
  · exact .ite ht.syncDone ht
  · exact ht

protected theorem RingsFit.execPtpDelayReq {port sub h} (hs : RingsFit s) : answers (execPtpDelayReq port sub h s) RingsFit :=
  .next (hs.ptpReceive (fun ht => .ite ht.same ht))

protected theorem RingsFit.execPtpDelayResp {port sub h receive reqClock reqPort} (hs : RingsFit s) :
    answers (execPtpDelayResp port sub h receive reqClock reqPort s) RingsFit := by
  unfold execPtpDelayResp
  refine .next ?_
  refine hs.ptpReceive fun ht => ?_
  split
  · exact .ite ht.same ht
  · exact ht

protected theorem RingsFit.execPtpPdelayReq {port sub h} (hs : RingsFit s) : answers (execPtpPdelayReq port sub h s) RingsFit :=
  .next (hs.ptpReceive (fun ht => .ite ht.same ht))

protected theorem RingsFit.execPtpPdelayResp {port sub h receipt reqClock reqPort} (hs : RingsFit s) :
    answers (execPtpPdelayResp port sub h receipt reqClock reqPort s) RingsFit := by
  unfold execPtpPdelayResp
  refine .next ?_
  refine hs.ptpReceive fun ht => ?_
  dsimp only
  split
  · exact .ite (.ite ht.modPtp.modPtp ht.same) ht
  · exact ht

protected theorem RingsFit.execPtpPdelayRespFollowUp {port sub h origin reqClock reqPort} (hs : RingsFit s) :
    answers (execPtpPdelayRespFollowUp port sub h origin reqClock reqPort s) RingsFit := by
  unfold execPtpPdelayRespFollowUp
  refine .next ?_
  refine hs.ptpReceive fun ht => ?_
  split
  · exact .ite ht.same ht
  · exact ht

protected theorem RingsFit.execPtpAnnounce {port sub h b} (hs : RingsFit s) : answers (execPtpAnnounce port sub h b s) RingsFit :=
  .next (hs.ptpReceive (fun ht => .ite ht ht.modPtp))

protected theorem RingsFit.execPtpUnsupported {port sub} (hs : RingsFit s) : answers (execPtpUnsupported port sub s) RingsFit :=
  .next (.ite hs.same hs)

protected theorem RingsFit.execPtpSyncTimer {port sub} (hs : RingsFit s) : answers (execPtpSyncTimer port sub s) RingsFit :=
  .next (.ite hs.same.modPtp hs)

protected theorem RingsFit.execPtpDelayReqTimer {port sub} (hs : RingsFit s) : answers (execPtpDelayReqTimer port sub s) RingsFit :=
  .next (.ite hs.same.modPtp hs)

protected theorem RingsFit.ownAnnounce (hs : RingsFit s) : RingsFit (ownAnnounce s).2 := by
  unfold ownAnnounce
  dsimp only
  split
  · exact hs
  · dsimp only
    exact hs.drawFree.drawFree

protected theorem RingsFit.execPtpAnnounceTimer {port sub} (hs : RingsFit s) : answers (execPtpAnnounceTimer port sub s) RingsFit :=
  .next (.ite hs.ownAnnounce.parts.modPtp hs)

/-! ### One step -/

/-- Every command keeps the rings fit. -/
protected theorem RingsFit.exec {i} (hs : RingsFit s) : answers (exec i s) RingsFit := by
  cases i with
  | launchTick => exact hs.execLaunchTick
  | localEnd => exact hs.execLocalEnd
  | stepCommit => exact hs.execStepCommit
  | stepBoundary => exact hs.execStepBoundary
  | epochReloadDone => exact hs.execEpochReloadDone
  | stepVoid => exact hs.execStepVoid
  | stepReexecute => exact hs.execStepReexecute
  | memoryUncorrectable => exact hs.execMemoryUncorrectable
  | watchdogExpiry => exact hs.execWatchdogExpiry
  | census => exact hs.execCensus
  | censusWaitExpiry => exact hs.execCensusWaitExpiry
  | digest => exact hs.execDigest
  | commitMessage => exact hs.execCommitMessage
  | endNotice => exact hs.execEndNotice
  | hold => exact hs.execHold
  | holdEnd => exact hs.execHoldEnd
  | holdLapse => exact .next hs.same
  | staged => exact hs.execStaged
  | armExpiry => exact hs.execArmExpiry
  | timeSetLoad => exact hs.execTimeSetLoad
  | phaseStepApply => exact hs.execPhaseStepApply
  | tbaseNowRead => exact hs.execTbaseNowRead
  | refFail => exact hs.execRefFail
  | refPass => exact hs.execRefPass
  | holdoverBoundTick => exact hs.execHoldoverBoundTick
  | regionStopEnd => exact hs.execRegionStopEnd
  | ppsInEdge => exact hs.execPpsInEdge
  | ppsStuck => exact hs.execPpsStuck
  | ppsOutSecond => exact hs.execPpsOutSecond
  | ppsOutFall => exact hs.execPpsOutFall
  | ptpSync => exact hs.execPtpSync
  | ptpFollowUp => exact hs.execPtpFollowUp
  | ptpDelayReq => exact hs.execPtpDelayReq
  | ptpDelayResp => exact hs.execPtpDelayResp
  | ptpPdelayReq => exact hs.execPtpPdelayReq
  | ptpPdelayResp => exact hs.execPtpPdelayResp
  | ptpPdelayRespFollowUp => exact hs.execPtpPdelayRespFollowUp
  | ptpAnnounce => exact hs.execPtpAnnounce
  | ptpUnsupported => exact hs.execPtpUnsupported
  | ptpSyncTimer => exact hs.execPtpSyncTimer
  | ptpDelayReqTimer => exact hs.execPtpDelayReqTimer
  | ptpAnnounceTimer => exact hs.execPtpAnnounceTimer
  | paceFreeUpdate => exact hs.execPaceFreeUpdate
  | avsReadback => exact hs.execAvsReadback
  | trainingComplete => exact hs.execTrainingComplete
  | penHolderWaitExpiry => exact hs.execPenHolderWaitExpiry
  | handshake => exact hs.execHandshake
  | handshakeTimer => exact hs.execHandshakeTimer
  | laneFault => exact hs.execLaneFault
  | narrowReq => exact hs.execNarrowReq
  | narrow => exact hs.execNarrow
  | narrowDone => exact hs.execNarrowDone
  | linkRetrain => exact hs.execLinkRetrain
  | widenReq => exact hs.execWidenReq
  | linkOpRepeatTimer => exact hs.execLinkOpRepeatTimer
  | realignDone => exact hs.execRealignDone
  | retrain => exact hs.execRetrain
  | widen => exact hs.execWiden
  | spanFrame => exact hs.execSpanFrame
  | data => exact hs.execData
  | commitGrain _ _ _ _ count => exact hs.execCommitGrain (count := count)
  | void _ _ _ _ attempt => exact hs.execVoid (attempt := attempt)
  | credit => exact hs.execCredit
  | launch => exact hs.execLaunch
  | telemetry => exact hs.execTelemetry
  | bulkStart => exact hs.execBulkStart
  | bulkData => exact hs.execBulkData
  | bulkAck => exact hs.execBulkAck
  | bulkNack => exact hs.execBulkNack
  | frameSend => exact hs.execFrameSend
  | ackTimer => exact hs.execAckTimer
  | replayTimer => exact hs.execReplayTimer
  | replayCaughtUp => exact hs.execReplayCaughtUp
  | flushTimer => exact hs.execFlushTimer
  | keepaliveTimer => exact hs.execKeepaliveTimer
  | keepaliveExpiry => exact hs.execKeepaliveExpiry
  | linkDown => exact hs.execLinkDown
  | linkUp => exact hs.execLinkUp
  | dryTimeExpiry => exact hs.execDryTimeExpiry
  | fencePort => exact hs.execFencePort
  | unfencePort => exact hs.execUnfencePort
  | stackStepDown => exact hs.execStackStepDown
  | stackStepUp => exact hs.execStackStepUp
  | ddrThermal => exact hs.execDdrThermal
  | ddrRetrain => exact hs.execDdrRetrain
  | patrolRead => exact hs.execPatrolRead
  | rateReq => exact hs.execRateReq
  | hostLinkDown => exact .next hs.same
  | hostLinkUp => exact hs.execHostLinkUp
  | linkTimeout => exact hs.execLinkTimeout
  | hostWritePacket => exact hs.execHostWritePacket
  | hostAccess => exact hs.execHostAccess
  | doorbell => exact hs.execDoorbell
  | ringWaitResume => exact hs.execRingWaitResume
  | irqClear => exact .next hs.same
  | openPlot => exact hs.execOpenPlot
  | closePlot => exact hs.execClosePlot
  | scrub => exact hs.execScrub
  | scrubComplete => exact hs.execScrubComplete
  | loadSheet => exact hs.execLoadSheet
  | loadSheetComplete => exact hs.execLoadSheetComplete
  | flipSheet => exact hs.execFlipSheet
  | arm => exact hs.execArm
  | commit => exact hs.execCommit
  | admitReq => exact hs.execAdmit
  | cancel => exact hs.execCancel
  | pause => exact hs.execPause
  | resume => exact hs.execResume
  | setDeadline => exact hs.execSetDeadline
  | evictTimer => exact hs.execEvictTimer
  | drainLimitExpiry => exact hs.execDrainLimitExpiry
  | sealSigned => exact hs.execSealSigned
  | checkpoint => exact hs.execCheckpoint
  | checkpointWritten => exact hs.execCheckpointWritten
  | restore => exact hs.execRestore
  | timeSet => exact hs.execTimeSet
  | timeAdjust => exact hs.execTimeAdjust
  | query => exact hs.execQuery
  | blotterDrain => exact hs.execBlotterDrain
  | loadManifest => exact hs.execLoadManifest
  | manifestTimeout => exact hs.execManifestTimeout
  | loadBlock => exact hs.execLoadBlock
  | activateEpoch => exact hs.execActivateEpoch
  | updateBegin => exact hs.execUpdateBegin
  | updateBlock => exact hs.execUpdateBlock
  | updateActivate => exact hs.execUpdateActivate
  | updateConfirm => exact hs.execUpdateConfirm
  | firmwareReady => exact hs.execFirmwareReady
  | trialReadyTimeout => exact hs.execTrialReadyTimeout
  | attestQuote => exact hs.execAttestQuote
  | debugGrant => exact hs.execDebugGrant
  | grantExpiry => exact hs.execGrantExpiry
  | saltWrite => exact hs.execSaltWrite
  | bedrockBegin => exact hs.execBedrockBegin
  | bedrockChunk => exact hs.execBedrockChunk
  | bedrockEnd => exact hs.execBedrockEnd
  | bedrockRestart => exact hs.execBedrockRestart
  | coalesceWindowClose => exact hs.execCoalesceWindowClose
  | alarmClear => exact .next hs.same
  | clearCounts => exact .next hs.same
  | telemetryFlushTimer => exact hs.execTelemetryFlushTimer
  | setdasa => exact hs.execSetdasa
  | setEndpointId => exact hs.execSetEndpointId
  | getEndpointId => exact hs.execGetEndpointId
  | getMctpVersionSupport => exact hs.execGetMctpVersionSupport
  | getMessageTypeSupport => exact hs.execGetMessageTypeSupport
  | getVendorDefinedMessageSupport => exact hs.execGetVendorDefinedMessageSupport
  | mctpRead => exact hs.execMctpRead
  | mctpCounts => exact hs.execMctpCounts
  | mctpStatus => exact hs.execMctpStatus
  | tapGrant => exact hs.execTapGrant
  | xferRead => exact hs.execXferRead
  | xferWrite => exact hs.execXferWrite
  | extest => exact hs.execExtest
  | tapReset => exact .next hs.same
  | debugHalt => exact hs.execDebugHalt
  | debugResume => exact hs.execDebugResume
  | debugStep => exact hs.execDebugStep
  | haltDryExpiry => exact hs.execHaltDryExpiry
  | registerWrite => exact hs.execRegisterWrite
  | powerUp => exact RingsFit.execPowerUp
  | pwrgoodAssert => exact hs.execPwrgoodAssert
  | resetNRelease => exact hs.execResetNRelease
  | referenceWaitAlert => exact hs.execReferenceWaitAlert
  | warmReset => exact hs.execWarmReset
  | pwrgoodFall => exact RingsFit.execPwrgoodFall
  | railFault rail => exact hs.execRailFault (rail := rail)
  | thermalTrip => exact hs.execThermalTrip
  | openPlotWaitExpiry => exact hs.execOpenPlotWaitExpiry
  | restoreComplete => exact hs.execRestoreComplete
  | hostReadComplete => exact hs.execHostReadComplete
  | controllerLost => exact hs.execControllerLost
  | selfTest => exact hs.execSelfTest
  | _ => exact hs.unitRow rfl

end Sys2Proof.Machine
end

section
/-! PROOFS. What is shown of the class rings. -/

namespace Sys2Proof.Proofs

open Machine

/-- Settles O58: each command's own lemma says that it keeps the rings fit, and so does a tick with no command waiting. -/
theorem stepKeepsRingsWithinBounds : Obligations.StepKeepsRingsWithinBounds := by
  intro s t hs ht
  rw [ringsFit_iff] at hs ⊢
  unfold Machine.step at ht
  split at ht
  · cases ht
    exact hs.idle
  · next i rest _ =>
    have hq : RingsFit { s with pending := rest } := hs.parts
    obtain ⟨t', ht', h⟩ := hq.exec (i := i)
    cases ht'.symm.trans ht
    exact h

end Sys2Proof.Proofs
end
